-- ==== Sys2Proof/Word.lean ====
section
/-!
DEFINITION. The word of the STQ1040's registers and memories: 32 bits, bit 0 the least significant (R8); and the byte.
-/
namespace Sys2Proof

/-- A 32-bit register or memory word (R14, R37). -/
abbrev Word := BitVec 32

/-- A byte of memory (R14). -/
abbrev Byte := BitVec 8

end Sys2Proof
end

