-- ==== Sys2Proof/Syntax.lean ====
section
/-!
DEFINITION. The commands that the block takes: one constructor of Instr per row of spec/opcode_table.json, with what the
outside supplies as operands (written values, frames and stamps, measured voltages, levels, times that have passed).
-/
namespace Sys2Proof

/-- The six bus masters of R39. -/
inductive Master where
  | app | cricket | scarab | copy | linkq | dict
  deriving DecidableEq, Repr

/-- Access sizes of R14. -/
inductive Size where
  | byte | half | word
  deriving DecidableEq, Repr

/-- What the check bits of a word show (R254). -/
inductive Ecc where
  | clean | single | double
  deriving DecidableEq, Repr

/-- A Cycle Start (R146): T_m, correction in 1/16 ns, cycle number, period in µs, ACYC_POS, master, flags, sleep cycle.
(DESIGN CHOICE, log entry 54). -/
structure CycleStart where
  tm : Nat
  corr : Nat
  cyc : Nat
  tc : Nat
  acycPos : Nat
  master : Nat
  flags : Nat
  sleepCyc : Nat
  deriving DecidableEq, Repr

/-- A delay frame (R153): response, sender's port is B, READY, sequence, turn-around time, address, HEAL_CYC.
(DESIGN CHOICE, log entry 54). -/
structure DlyFrame where
  resp : Bool
  senderB : Bool
  ready : Bool
  seq : Nat
  turn : Nat
  addr : Nat
  heal : Option Nat
  deriving DecidableEq, Repr

/-- A cyclic slot (R149): index, source, flags (VETO 0, STALE 1, DICT 2) and payload. -/
structure SlotFrame where
  idx : Nat
  src : Nat
  flags : Nat
  data : List Byte
  deriving DecidableEq, Repr

/-- An acyclic frame (R151): destination, source, TYPE, hops, unique IDs where an address is 0, payload and ACK bits.
(DESIGN CHOICE, log entry 54). -/
structure AcyclicFrame where
  dest : Nat
  src : Nat
  typ : Nat
  hops : Nat
  duid : Option Nat
  suid : Option Nat
  payload : List Byte
  ack : Nat
  deriving DecidableEq, Repr

/-- The arrival of a frame on a port: MT of its first symbol at the ball, to 1 ns, and whether its CRC was right.
(DESIGN CHOICE, log entry 54). -/
structure Arrival where
  stamp : Nat
  crcOk : Bool
  deriving DecidableEq, Repr

/-- Why a port becomes LOST (R142). -/
inductive LostCause where
  | noSymbol | codeErrors | fltReceived | neverSignal
  deriving DecidableEq, Repr

/-- The transport on which a dictionary request came (R172 to R175, R290): the ring with its source, a broadcast, the
service wire, UART0, LOC_CTRL, the TAP. -/
inductive Via where
  | ring (src : Nat) (suid : Option Nat)
  | bcast (src : Nat)
  | svc | uart0 | loc | tap
  deriving DecidableEq, Repr

/-- A dictionary request (R172) but for its operation: transport, TID, NODE, whether a reserved byte or RESP, STATUS is not 0,
AUX, INDEX, SUB and DATA. -/
structure DictMsg where
  via : Via
  tid : Byte
  node : Byte
  rsv : Bool
  aux : Byte
  index : BitVec 16
  sub : Byte
  data : List Byte
  deriving DecidableEq, Repr

/-- What starts a 10-bit ADC sequence (R227): START, an RTC second, the end of a touch scan. -/
inductive AdcTrig where
  | start | second | scan
  deriving DecidableEq, Repr

/-- The masters that have an RTC read shadow (R243). -/
inductive RtcMaster where
  | app | crk | dict
  deriving DecidableEq, Repr

/-- A read of a march test that does not return what was last written there (R261, R262): element, word index, data, check bits. -/
structure MarchFault where
  elem : Nat
  w : Nat
  read : Word
  chk : Nat
  deriving DecidableEq, Repr

/-- The record store's two channels (R265). -/
inductive Chan where
  | a | s
  deriving DecidableEq, Repr

/-- What a UART receiver takes from its line (R317, R318): samples 7, 8 and 9 of each bit from the start bit on, a line that has none
left being high; or what it forms of them, a character with its tags or a start bit whose majority is 1. -/
inductive RxChar where
  | sampled (bits : List (Bool × Bool × Bool))
  | char (d : BitVec 9) (pe fe nf : Bool)
  | falseStart
  deriving DecidableEq, Repr

/-- A TAP operation (R289, R290): the boundary-scan instructions, the UNLOCK register, and a debug instruction at a scope. -/
inductive TapAccess where
  | bypass (tdi : Bool)
  | idcode
  | samplePreload
  | extest
  | unlockRead
  | unlockWrite (d : List Byte)
  | debug (scope : Fin 3)
  deriving DecidableEq, Repr

/-- The commands of the block (spec/opcode_table.json), one constructor per row, in the table's order. -/
inductive Instr where
  /-- REGISTER_WRITE (R9). -/
  | registerWrite (m : Master) (mach : Bool) (sz : Size) (a : Nat) (v : Word)
  /-- MEMORY_ACCESS (R14). -/
  | memoryAccess (m : Master) (mach : Bool) (sz : Size) (a : Nat) (wr : Option Word) (e : Ecc) (grant : Bool)
  /-- PENDING_REPORT_ACCEPT (R22). -/
  | pendingReportAccept (g : Fin 5)
  /-- LIVENESS_RECHECK (R298). -/
  | livenessRecheck (i : Fin 64) (fails : Bool)
  /-- BUS_TIMEOUT (R298). -/
  | busTimeout (a : Nat)
  /-- VIN_ABSENT (R193). -/
  | vinAbsent
  /-- VIN_PRESENT (R194). -/
  | vinPresent
  /-- SYS_CFG_WRITE (R207). -/
  | sysCfgWrite (v : Word)
  /-- PLL_LOCK_CONFIRMED (R207). -/
  | pllLockConfirmed (tb : Bool)
  /-- CYCLE_START_RECEIVED (R148). -/
  | cycleStartReceived (p : Fin 2) (t : Nat) (f : CycleStart) (crcOk : Bool)
  /-- CYCLE_START_MISSED (R51). -/
  | cycleStartMissed
  /-- HOLDOVER_EXPIRY (R54). -/
  | holdoverExpiry
  /-- SERVO_RESTART (R51). -/
  | servoRestart
  /-- PULL_LIM_WRITE (R50). -/
  | pullLimWrite (v : Word)
  /-- DELAY_REQUEST_SEND (R48). -/
  | delayRequestSend (p : Fin 2) (t1 : Nat)
  /-- DLY_FRAME_RECEIVED (R153). -/
  | dlyFrameReceived (p : Fin 2) (f : DlyFrame) (r : Arrival) (t3 : Nat)
  /-- MT_SYNC_IN_EDGE (R58). -/
  | mtSyncInEdge (t : Nat) (rising : Bool)
  /-- SYNCIN_TIMEOUT (R58). -/
  | syncinTimeout
  /-- MT_READ_CAPTURE (R26). -/
  | mtReadCapture
  /-- SYNCOUT_ARM (R59). -/
  | syncoutArm (hi : Word)
  /-- MT_SYNC_OUT_PULSE (R59). -/
  | mtSyncOutPulse
  /-- CMP_ARM (R66). -/
  | cmpArm (c : Fin 4) (hi : Word)
  /-- CMP_DISARM (R66). -/
  | cmpDisarm (mask : BitVec 4)
  /-- CMP_FIRE (R66). -/
  | cmpFire (c : Fin 4)
  /-- CALENDAR_PUBLISH (R62). -/
  | calendarPublish
  /-- COPY_START (R76). -/
  | copyStart (v : Word)
  /-- COPY_DONE (R76). -/
  | copyDone
  /-- VERIFY (R72). -/
  | verify (n : Fin 10)
  /-- VERIFY_DONE (R74). -/
  | verifyDone (n : Fin 10)
  /-- ARM (R78). -/
  | arm (n : Fin 10)
  /-- CANCEL (R80). -/
  | cancel (n : Fin 10)
  /-- INVALIDATE (R75). -/
  | invalidate (n : Fin 10)
  /-- EPOCH_SWITCH (R79). -/
  | epochSwitch (n : Fin 10)
  /-- LOAD_DATA (R81). -/
  | loadData (n : Fin 10) (d : List Byte)
  /-- SEGMENT_ACTIONS_FIRE (R71). -/
  | segmentActionsFire (n : Fin 10)
  /-- LANE_TICK (R83). -/
  | laneTick (n : Fin 10) (isa : BitVec 12) (isb : BitVec 12) (oc : Bool) (flt : Bool)
  /-- ADCSEQ_RUN_START (R83). -/
  | adcseqRunStart (v : Word)
  /-- ADCSEQ_RUN_STOP (R85). -/
  | adcseqRunStop (v : Word)
  /-- ADCSEQ_PERIOD_WRITE (R85). -/
  | adcseqPeriodWrite (v : Word)
  /-- LANE_REGISTER_WRITE (R100). -/
  | laneRegisterWrite (n : Fin 10) (off : Nat) (v : Word)
  /-- QUAD_EDGE_ACCEPTED (R90). -/
  | quadEdgeAccepted (n : Fin 10) (a : Bool) (b : Bool)
  /-- INDEX_EDGE (R91). -/
  | indexEdge (n : Fin 10)
  /-- QCNT_WRITE (R92). -/
  | qcntWrite (n : Fin 10) (v : Word)
  /-- LANE_ENABLE (R101). -/
  | laneEnable (n : Fin 10) (v : Word)
  /-- LANE_DISABLE (R103). -/
  | laneDisable (n : Fin 10) (v : Word)
  /-- CAL_END (R102). -/
  | calEnd (n : Fin 10)
  /-- OC_TRIP (R108). -/
  | ocTrip (n : Fin 10)
  /-- DRV_FAULT (R106). -/
  | drvFault (n : Fin 10)
  /-- OPEN_DETECT (R106). -/
  | openDetect (n : Fin 10)
  /-- SENSE_STUCK_DETECT (R106). -/
  | senseStuckDetect (n : Fin 10)
  /-- SENSE_PLAUS_DETECT (R106). -/
  | sensePlausDetect (n : Fin 10)
  /-- SENSE_SUM_DETECT (R106). -/
  | senseSumDetect (n : Fin 10)
  /-- FE_DETECT (R106). -/
  | feDetect (n : Fin 10)
  /-- HOLD_SAFE_END (R111). -/
  | holdSafeEnd (n : Fin 10)
  /-- RESUME (R115). -/
  | resume (n : Fin 10) (v : Word)
  /-- RESUME_AT (R115). -/
  | resumeAt (n : Fin 10)
  /-- ACT (R128). -/
  | act (n : Fin 10)
  /-- SAMPLE (R128). -/
  | sample (n : Fin 10) (balls : Nat)
  /-- WAITPIN (R128). -/
  | waitpin (n : Fin 10) (balls : Nat)
  /-- WAITPIN_COMPLETE (R128). -/
  | waitpinComplete (n : Fin 10) (balls : Nat)
  /-- SHIFT (R128). -/
  | shift (n : Fin 10)
  /-- SHIFT_COMPLETE (R122). -/
  | shiftComplete (n : Fin 10) (din : Nat)
  /-- PUSH (R128). -/
  | push (n : Fin 10)
  /-- PUSH_STALL_END (R128). -/
  | pushStallEnd (n : Fin 10)
  /-- PULL (R128). -/
  | pull (n : Fin 10)
  /-- PULL_STALL_END (R128). -/
  | pullStallEnd (n : Fin 10)
  /-- JMP (R128). -/
  | jmp (n : Fin 10)
  /-- DJNZ (R128). -/
  | djnz (n : Fin 10)
  /-- EVT (R128). -/
  | evt (n : Fin 10)
  /-- SYNC (R128). -/
  | sync (n : Fin 10)
  /-- BY_DEADLINE_TIMEOUT (R124). -/
  | byDeadlineTimeout (n : Fin 10)
  /-- BASE_STALE (R126). -/
  | baseStale (n : Fin 10)
  /-- ENGINE_START (R121). -/
  | engineStart (n : Fin 10) (v : Word)
  /-- ENGINE_ARM (R121). -/
  | engineArm (n : Fin 10) (v : Word)
  /-- ENGINE_STOP (R121). -/
  | engineStop (n : Fin 10) (v : Word)
  /-- PROGRAM_STORE_WRITE (R130). -/
  | programStoreWrite (w : Fin 512) (v : Word)
  /-- INJECT (R135). -/
  | inject (n : Fin 10) (v : Word)
  /-- INJECTED_EXECUTE (R135). -/
  | injectedExecute (n : Fin 10) (balls : Nat)
  /-- TXFIFO_WRITE (R133). -/
  | txfifoWrite (n : Fin 10) (v : Word)
  /-- RXFIFO_READ (R133). -/
  | rxfifoRead (n : Fin 10)
  /-- SS_GO (R136). -/
  | ssGo (v : Word)
  /-- SS_CANCEL (R137). -/
  | ssCancel
  /-- SYNC_START_INSTANT (R136). -/
  | syncStartInstant
  /-- PORT_LOST (R142). -/
  | portLost (p : Fin 2) (why : LostCause)
  /-- PORT_SIGNAL_GAINED (R48). -/
  | portSignalGained (p : Fin 2)
  /-- LINK_USABLE (R163). -/
  | linkUsable (p : Fin 2)
  /-- LINK_HEAL (R163). -/
  | linkHeal (p : Fin 2)
  /-- CYCLE_START_SEND (R146). -/
  | cycleStartSend
  /-- SLOT_PAYLOAD_FETCH (R155). -/
  | slotPayloadFetch
  /-- SLOT_SEND (R149). -/
  | slotSend (busy : Bool)
  /-- SLOT_RECEIVED (R155). -/
  | slotReceived (p : Fin 2) (f : SlotFrame) (r : Arrival)
  /-- TOK_SEND (R150). -/
  | tokSend
  /-- TOK_RECEIVED (R150). -/
  | tokReceived (p : Fin 2) (pos : Nat)
  /-- ACYCLIC_FRAME_RECEIVED (R152). -/
  | acyclicFrameReceived (p : Fin 2) (f : AcyclicFrame) (r : Arrival)
  /-- ACYCLIC_TX_LOST (R152). -/
  | acyclicTxLost
  /-- QUEUE_TAIL_WRITE (R154). -/
  | queueTailWrite (q : Fin 8) (v : Word)
  /-- RING_ENABLE (R158). -/
  | ringEnable (v : Word)
  /-- RING_DISABLE (R158). -/
  | ringDisable (v : Word)
  /-- LISTEN_TIMEOUT (R158). -/
  | listenTimeout
  /-- FOLLOWER_TIMEOUT (R158). -/
  | followerTimeout
  /-- CLM_SEND (R159). -/
  | clmSend
  /-- CLM_RECEIVED (R159). -/
  | clmReceived (p : Fin 2) (uid : BitVec 64) (prio : Byte) (run : Bool) (crcOk : Bool)
  /-- RING_RESET_WRITE (R161). -/
  | ringResetWrite
  /-- RST_RECEIVED (R161). -/
  | rstReceived (p : Fin 2)
  /-- SLEEP_GO (R165). -/
  | sleepGo (v : Word)
  /-- SLEEP_CANCEL (R166). -/
  | sleepCancel
  /-- RING_SLEEP (R166). -/
  | ringSleep
  /-- HELD_WAKE (R167). -/
  | heldWake
  /-- WAKE_REQ (R168). -/
  | wakeReq (v : Word)
  /-- RING_ACTIVITY_WAKE (R168). -/
  | ringActivityWake (p : Fin 2)
  /-- READ (R173). -/
  | read (m : DictMsg)
  /-- WRITE (R173). -/
  | write (m : DictMsg)
  /-- DESCRIBE (R173). -/
  | describe (m : DictMsg)
  /-- STAGE (R180). -/
  | stage (m : DictMsg)
  /-- COMMIT (R181). -/
  | commit (m : DictMsg)
  /-- DISCARD (R184). -/
  | discard (m : DictMsg)
  /-- WRITE_SET_APPLY (R182). -/
  | writeSetApply (w : Fin 4)
  /-- SNAP (R186). -/
  | snap (m : DictMsg)
  /-- SNAPSHOT_CAPTURE (R187). -/
  | snapshotCapture
  /-- COLLECTION_WINDOW_END (R189). -/
  | collectionWindowEnd
  /-- RECOLLECT (R190). -/
  | recollect (m : DictMsg)
  /-- BARRIER (R191). -/
  | barrier (m : DictMsg)
  /-- PUBLISH (R62). -/
  | publish (src : BitVec 7) (index : BitVec 16) (sub : Byte) (value : List Byte)
  /-- REQUEST_FORWARD_TIMEOUT (R175). -/
  | requestForwardTimeout
  /-- APP_RESPONSE (R178). -/
  | appResponse (v : Word)
  /-- APP_TIMEOUT (R178). -/
  | appTimeout
  /-- LOC_GO (R174). -/
  | locGo
  /-- STORE_PERSISTED (R171). -/
  | storePersisted (via : Via) (tid : Byte)
  /-- ERASE_STORED (R171). -/
  | eraseStored (via : Via) (tid : Byte)
  /-- DICT_FULL_RESET (R179). -/
  | dictFullReset
  /-- WFI_STEP_REQUEST (R197). -/
  | wfiStepRequest
  /-- SCARAB_PREPARE_ACK (R198). -/
  | scarabPrepareAck
  /-- STEP_ENTRY_COMPLETE (R198). -/
  | stepEntryComplete
  /-- WAKE_EVENT (R200). -/
  | wakeEvent (srcs : BitVec 10)
  /-- STEP_EXIT_COMPLETE (R203). -/
  | stepExitComplete
  /-- GO_PUPA (R199). -/
  | goPupa (m : Master)
  /-- WAKE_MAIN (R199). -/
  | wakeMain (m : Master)
  /-- CORE_BROWN_OUT (R206). -/
  | coreBrownOut
  /-- VOC_SAMPLE_START (R213). -/
  | vocSampleStart
  /-- VOC_SAMPLE_END (R213). -/
  | vocSampleEnd (pvMv : BitVec 12)
  /-- HARVEST_SAMPLE_CMD (R215). -/
  | harvestSampleCmd
  /-- FRAC_WRITE (R215). -/
  | fracWrite (v : Word)
  /-- BAT_COMPARISON (R219). -/
  | batComparison (batMv : BitVec 12) (vstoreMv : BitVec 12)
  /-- NTC_MEASURE (R218). -/
  | ntcMeasure (r : Byte)
  /-- CELL_SHORT_CIRCUIT (R221). -/
  | cellShortCircuit
  /-- SC_RECOVERY (R221). -/
  | scRecovery
  /-- STARTER_HANDOVER (R222). -/
  | starterHandover
  /-- BOOST_DROPOUT (R222). -/
  | boostDropout
  /-- COLD_START_RESET_RELEASE (R222). -/
  | coldStartResetRelease
  /-- COLD_START_POR_REASSERT (R222). -/
  | coldStartPorReassert
  /-- CELL_CONNECT (R223). -/
  | cellConnect
  /-- CRICKET_RUN (R224). -/
  | cricketRun
  /-- CRICKET_WAKE_IRQ (R226). -/
  | cricketWakeIrq
  /-- ADC_START (R227). -/
  | adcStart (trig : AdcTrig)
  /-- ADC_SEQUENCE_DONE (R227). -/
  | adcSequenceDone (codes : List (BitVec 10))
  /-- MB_SEND (R228). -/
  | mbSend (m : Master) (a2c : Bool)
  /-- MB_ACK (R228). -/
  | mbAck (m : Master) (a2c : Bool)
  /-- TOUCH_SCAN_START (R236). -/
  | touchScanStart
  /-- TOUCH_SCAN_END (R233). -/
  | touchScanEnd (q : List Int)
  /-- TOUCH_ENABLE (R234). -/
  | touchEnable (v : Word)
  /-- TOUCH_DISABLE (R238). -/
  | touchDisable (v : Word)
  /-- RECAL_ALL (R234). -/
  | recalAll (v : Word)
  /-- RECAL (R235). -/
  | recal (v : Word)
  /-- KEYMASK_WRITE (R238). -/
  | keymaskWrite (hi : Bool) (v : Word)
  /-- RTC_SECOND_BOUNDARY (R241). -/
  | rtcSecondBoundary
  /-- RTC_SHADOW_READ (R243). -/
  | rtcShadowRead (m : RtcMaster) (r : Fin 4)
  /-- RTC_SHADOW_EXPIRY (R243). -/
  | rtcShadowExpiry (m : RtcMaster)
  /-- RTC_SET (R244). -/
  | rtcSet
  /-- RTC_SET_CANCEL (R244). -/
  | rtcSetCancel
  /-- RTC_SHIFT (R246). -/
  | rtcShift (v : Word)
  /-- SHIFT_COUNT_STEP (R246). -/
  | shiftCountStep
  /-- DISCIPLINE_WINDOW_END (R247). -/
  | disciplineWindowEnd
  /-- TRIM_WRITE (R248). -/
  | trimWrite (v : Word)
  /-- TRIM_ACCUMULATOR_CARRY (R248). -/
  | trimAccumulatorCarry
  /-- MOISTURE_TICK (R251). -/
  | moistureTick
  /-- MC_COUNT_WRITE (R252). -/
  | mcCountWrite (n : Fin 10) (v : Word)
  /-- MARCH_GO (R263). -/
  | marchGo (v : Word)
  /-- MARCH_ABORT (R264). -/
  | marchAbort
  /-- MARCH_COMPLETE (R262). -/
  | marchComplete (r : List MarchFault)
  /-- VAULT_WIPE_CMD (R259). -/
  | vaultWipeCmd (m : Master) (mach : Bool)
  /-- VAULT_WIPE_COMPLETE (R259). -/
  | vaultWipeComplete
  /-- PROGRAM (R271). -/
  | program (ch : Chan)
  /-- ERASE (R271). -/
  | erase (ch : Chan)
  /-- APPEND (R271). -/
  | append (ch : Chan)
  /-- FIND (R271). -/
  | find (ch : Chan)
  /-- GROUP_BEGIN (R271). -/
  | groupBegin (ch : Chan)
  /-- GROUP_CLOSE (R271). -/
  | groupClose (ch : Chan)
  /-- GROUP_ABORT (R271). -/
  | groupAbort (ch : Chan)
  /-- COMPACT (R271). -/
  | compact (ch : Chan)
  /-- RECSTORE_ABORT (R274). -/
  | recstoreAbort (ch : Chan) (done : Nat)
  /-- RECSTORE_COMMAND_DONE (R265). -/
  | recstoreCommandDone (bad : Option Nat)
  /-- MOUNT (R273). -/
  | mount
  /-- MARGIN_SCAN (R275). -/
  | marginScan (weak : List Nat)
  /-- ATTEST (R281). -/
  | attest
  /-- LOG_FLUSH (R302). -/
  | logFlush
  /-- LOG_READ (R281). -/
  | logRead
  /-- CHALLENGE (R290). -/
  | challenge
  /-- NONCE_WRITE (R284). -/
  | nonceWrite (via : Via) (tid : Byte) (d : List Byte)
  /-- ATTESTATION_SIGNED (R284). -/
  | attestationSigned
  /-- TEMP_SAMPLE (R280). -/
  | tempSample (s0 : BitVec 10) (s1 : BitVec 10) (s2 : BitVec 10)
  /-- SUPPLY_LOW (R280). -/
  | supplyLow (vaon : Bool)
  /-- LIFE_CYCLE_CHANGE (R287). -/
  | lifeCycleChange (via : Via) (tid : Byte) (d : List Byte)
  /-- LIFE_CYCLE_FUSES_BURNED (R287). -/
  | lifeCycleFusesBurned
  /-- OWNER_KEY_HASH_WRITE (R288). -/
  | ownerKeyHashWrite (via : Via) (tid : Byte) (d : List Byte)
  /-- DEBUG_UNLOCK (R290). -/
  | debugUnlock (via : Via) (tid : Byte) (d : List Byte)
  /-- STATIC_TAMPER (R292). -/
  | staticTamper (k : Fin 2) (level : Bool)
  /-- PAIR_TAMPER (R292). -/
  | pairTamper
  /-- MESH_TAMPER (R292). -/
  | meshTamper
  /-- LOG_REPORT (R299). -/
  | logReport
  /-- LOG_PERIODIC_FLUSH (R302). -/
  | logPeriodicFlush
  /-- LOG_CLEAR_LOST (R303). -/
  | logClearLost (via : Via) (tid : Byte)
  /-- WDOG_KICK (R304). -/
  | wdogKick (v : Word)
  /-- WDOG_WARN (R304). -/
  | wdogWarn
  /-- WDOG_EXPIRY (R305). -/
  | wdogExpiry (pc : Word)
  /-- FIRE (R309). -/
  | fire (m : Master) (mach : Bool) (v : Word)
  /-- CHANNEL_EDGE (R312). -/
  | channelEdge (k : Fin 32)
  /-- CHANNEL_CONFIG_WRITE (R311). -/
  | channelConfigWrite (m : Master) (mach : Bool) (k : Fin 32) (cfg : Bool) (v : Word)
  /-- GCTL_WRITE (R313). -/
  | gctlWrite (m : Master) (mach : Bool) (v : Word)
  /-- UART_CHAR_RECEIVED (R318). -/
  | uartCharReceived (n : Fin 2) (c : RxChar)
  /-- UART_BREAK (R319). -/
  | uartBreak (n : Fin 2)
  /-- UART_RX_READ (R318). -/
  | uartRxRead (n : Fin 2)
  /-- UART_TX_WRITE (R321). -/
  | uartTxWrite (n : Fin 2) (v : Word)
  /-- UART_CHAR_SENT (R316). -/
  | uartCharSent (n : Fin 2)
  /-- DE_LAG_END (R321). -/
  | deLagEnd
  /-- MUTE_REQ (R320). -/
  | muteReq (n : Fin 2)
  /-- ENVELOPE_TIMEOUT (R322). -/
  | envelopeTimeout
  /-- SVC_ADDRESS_MATCH (R324). -/
  | svcAddressMatch (addr : BitVec 7) (rd : Bool)
  /-- SVC_WRITE_TRANSACTION (R326). -/
  | svcWriteTransaction (d : List Byte)
  /-- SVC_READ_TRANSACTION (R327). -/
  | svcReadTransaction (n : Nat)
  /-- SVC_STRETCH_TIMEOUT (R325). -/
  | svcStretchTimeout
  /-- SVC_RESP_GO (R328). -/
  | svcRespGo (v : Word)
  /-- POWER_ON_RESET (R329). -/
  | powerOnReset (vin : Bool)
  /-- PIN_RESET (R329). -/
  | pinReset (low : Bool)
  /-- SWRST (R329). -/
  | swrst (m : Master) (mach : Bool) (v : Word)
  /-- START_UP (R333). -/
  | startUp (strap : Bool) (marchFail : Byte)
  /-- DOWNLOAD_BEGIN (R336). -/
  | downloadBegin (via : Via) (tid : Byte)
  /-- DOWNLOAD_SLOT_ERASED (R336). -/
  | downloadSlotErased
  /-- DOWNLOAD_DATA (R336). -/
  | downloadData (via : Via) (tid : Byte) (d : List Byte) (ok : Bool)
  /-- DOWNLOAD_FINISH (R336). -/
  | downloadFinish (via : Via) (tid : Byte)
  /-- DOWNLOAD_VERIFIED (R336). -/
  | downloadVerified
  /-- DOWNLOAD_ACTIVATE (R336). -/
  | downloadActivate (via : Via) (tid : Byte)
  /-- DOWNLOAD_ABORT (R336). -/
  | downloadAbort (via : Via) (tid : Byte)
  /-- ACTIVATION_INSTANT (R338). -/
  | activationInstant
  /-- HEALTH_CONFIRM (R339). -/
  | healthConfirm
  /-- TRIAL_TIMEOUT (R339). -/
  | trialTimeout
  /-- PROMOTE_PENDING_WRITE (R339). -/
  | promotePendingWrite
  /-- FLASH_PROGRAM (R204). -/
  | flashProgram (v : Word)
  /-- FLASH_ERASE_SECTOR (R204). -/
  | flashEraseSector (v : Word)
  /-- FLASH_ERASE_SLOT (R204). -/
  | flashEraseSlot (v : Word)
  /-- FLASH_COMMAND_DONE (R283). -/
  | flashCommandDone (bad : Option Nat)
  /-- DICTENG_VAULT_TIMEOUT (R41). -/
  | dictengVaultTimeout
  /-- LIVENESS_TIMEOUT (R298). -/
  | livenessTimeout (i : Fin 64)
  /-- MAILBOX_OPERATION_DONE (R281). -/
  | mailboxOperationDone
  /-- TAP_ACCESS (R289). -/
  | tapAccess (a : TapAccess)
  deriving DecidableEq, Repr

end Sys2Proof
end

