-- ==== Sys2Proof/Decode.lean ====
section
/-!
DEFINITION. The command that a word spells. The table of commands (spec/opcode_table.json) gives no row any bits: commands
come from outside with their operands, and no word spells one.
-/
namespace Sys2Proof

/-- The command that the table's bits spell: no row has bits. -/
def decodeTableWord (_nbits _w : Nat) : Option Instr := none

end Sys2Proof
end

