-- ==== Sys2Proof/Config.lean ====
section
/-!
DEFINITION. What the spec leaves free, as constants without a body: nothing in Lean can evaluate one, so no proof can rest on
a value of one. The assumption log names each (entries 5 to 9, 16, 48, 97, 113, 114 and 115).
-/
namespace Sys2Proof.Config

/-- The value an address holds that nothing has written since its memory last lost its contents: the loss's number and the
address (R67, R130, R224, R255, R329). (DESIGN CHOICE, log entry 5). -/
opaque undefByte : Nat → Nat → BitVec 8

/-- A fresh value the spec leaves undefined: the count of such values already used. (DESIGN CHOICE, log entry 6). -/
opaque freeValue : Nat → Nat

/-- The level read from a lane ball that nothing drives, or that the board and the device both drive (R120): the timebase tick and
the ball. (DESIGN CHOICE, log entry 48). -/
opaque ballLevel : Nat → Nat → Bool

/-- The phase in ns at which REF_OUT runs while MT is frozen (R61): the timebase tick at which MT was frozen.
(DESIGN CHOICE, log entry 114). -/
opaque refPhase : Nat → Nat

/-- Where in the first half of a touch pulse a row returns to its starting level (R231), in ns: row and pulse.
(DESIGN CHOICE, log entry 114). -/
opaque rowReturn : Nat → Nat → Nat

/-- Where the sequence on TAMPER0 stands in slow-clock period 0 (R292). (DEDUCED, log entry 97). -/
opaque tamperSeed : Nat

/-- Whether a debugger at scope 0 halts the application core (R304): the timebase tick. (DESIGN CHOICE, log entry 16). -/
opaque coreHalted : Nat → Bool

/-- Whether Cricket's program waits in WFI (R226): the timebase tick. (DESIGN CHOICE, log entry 115). -/
opaque cricketWaits : Nat → Bool

/-- How the items of a report's DETAIL are laid out in 32 bits where the spec names the items only (R297: ENGINE_ERROR, TEMP,
LC_CHANGE). (DESIGN CHOICE, log entry 7). -/
opaque packDetail : Nat → Nat → Nat

/-- The record key, between 0xF000 and 0xFFEF, under which a persisted object is stored (R171, R269): index and subindex.
(DESIGN CHOICE, log entry 7). -/
opaque persistKey : Nat → Nat → Nat

/-- Whether an edge of the 32.768 kHz clock falls in the timebase tick given (R241: the two clocks are independent).
(DESIGN CHOICE, log entry 8). -/
opaque slowEdge : Nat → Bool

/-- The nanosecond of that timebase tick in which the edge falls (R241, R247). (DESIGN CHOICE, log entry 8). -/
opaque slowNs : Nat → BitVec 2

/-- The 7 check bits of a word: the spec does not give the code (R254). (DESIGN CHOICE, log entry 114). -/
opaque checkBits : BitVec 32 → BitVec 7

/-- What the check bits of the words show that a DMA master's transfer reads, from the address at which it begins, in the timebase
tick (R254): no error, or the address of the word with one bit in error (false) or two (true).
(DESIGN CHOICE, log entry 113). -/
opaque dmaError : Nat → Nat → Option (Nat × Bool)

/-- SHA-256 as the spec names it without defining it (R279, R282, R290, R332). (DESIGN CHOICE, log entry 9). -/
opaque sha256 : List (BitVec 8) → List (BitVec 8)

/-- ECDSA P-256 verification: public key x ‖ y, message, signature r ‖ s (R287, R290, R332). (DESIGN CHOICE, log entry 9). -/
opaque ecdsaVerify : List (BitVec 8) → List (BitVec 8) → List (BitVec 8) → Bool

/-- ECDSA P-256 signature with the device key over a message: r ‖ s (R285). (DESIGN CHOICE, log entry 9). -/
opaque ecdsaSign : List (BitVec 8) → List (BitVec 8)

/-- What manufacture puts into OTP (R19, R279): unique ID, device public key, endorsement, Maelham return key hash.
(DESIGN CHOICE, log entry 9). -/
opaque uniqueId : BitVec 64
opaque devicePublicKey : List (BitVec 8)
opaque endorsement : List (BitVec 8)
opaque returnHash : List (BitVec 8)

end Sys2Proof.Config
end

