-- ==== Sys2Proof/Machine/Bits.lean ====
section
/-!
DEFINITION. Bits, signed values and modular arithmetic on the numbers that registers hold (R8, R17, R18). A register
field is held as a natural number below its bound; a signed field is read with `sgn` and written with `wrap`.
-/
namespace Sys2Proof.Machine

/-- Bit `i` of `v` (R8: bit 0 is the least significant). -/
def getBit (v i : Nat) : Bool := v / 2 ^ i % 2 == 1

/-- `v` with bit `i` at `b`. -/
def setBit (v i : Nat) (b : Bool) : Nat := v - (v / 2 ^ i % 2) * 2 ^ i + (if b then 2 ^ i else 0)

/-- Bits `hi` down to `lo` of `v`. -/
def bits (v hi lo : Nat) : Nat := v / 2 ^ lo % 2 ^ (hi + 1 - lo)

/-- A truth value as a bit. -/
def b2n (b : Bool) : Nat := if b then 1 else 0

/-- The two's-complement reading of the low `w` bits of `v` (R17). -/
def sgn (w v : Nat) : Int :=
  let m := v % 2 ^ w
  if m < 2 ^ (w - 1) then (m : Int) else (m : Int) - 2 ^ w

/-- The low `w` bits of an integer, two's complement. -/
def wrap (w : Nat) (x : Int) : Nat := (x % 2 ^ w).toNat

/-- The absolute value. -/
def absI (x : Int) : Int := (x.natAbs : Int)

/-- `x` limited to the range from −`l` to +`l`. -/
def clampI (x l : Int) : Int := max (-l) (min l x)

/-- `x` limited to the range from `lo` to `hi`. -/
def limitI (lo hi x : Int) : Int := max lo (min hi x)

/-- `x` saturated to a signed number of `w` bits. -/
def satI (w : Nat) (x : Int) : Int := limitI (-(2 ^ (w - 1))) (2 ^ (w - 1) - 1) x

/-- The arithmetic shift of the pseudocode: toward minus infinity. -/
def asr (x : Int) (k : Nat) : Int := x / 2 ^ k

/-- Serial-number arithmetic (R18): `a` is newer than `b`, both of `n` bits. -/
def newer (n a b : Nat) : Bool :=
  let d := (a + 2 ^ n - b % 2 ^ n) % 2 ^ n
  1 ≤ d && d < 2 ^ (n - 1)

/-- The four bytes of a word, least significant first (R8). -/
def wordBytes (w : Nat) : List Byte :=
  [BitVec.ofNat 8 w, BitVec.ofNat 8 (w / 2 ^ 8), BitVec.ofNat 8 (w / 2 ^ 16), BitVec.ofNat 8 (w / 2 ^ 24)]

/-- `n` bytes of a number, least significant first (R8). -/
def leBytes : Nat → Nat → List Byte
  | 0, _ => []
  | n + 1, v => BitVec.ofNat 8 v :: leBytes n (v / 256)

/-- The number that bytes spell, least significant first (R8). -/
def leNat : List Byte → Nat
  | [] => 0
  | b :: t => b.toNat + 256 * leNat t

/-- The bytes `off` to `off + n - 1` of a message as a number (R8). -/
def field (l : List Byte) (off n : Nat) : Nat := leNat ((l.drop off).take n)

end Sys2Proof.Machine
end

