-- ==== Sys2Proof/Machine/RegMap.lean ====
section
/-!
DEFINITION. The register map (R33, R37 and the register tables of every chapter of spec/): for every register address of
every peripheral block the list of its fields, with each field's place, access code (R9), reset value and legal values
(R15). A field marked `row` is written by a command of its own (R9's row: "a register field that has no row of its own"),
so REGISTER_WRITE leaves it to that command. After the map, one named place (block, register, field) per field, by
which every meaning reads and writes registers. A reset value the tables give as "see text" is the one of the log's
entries 3 and 4.
-/
namespace Sys2Proof.Machine

/-- The access codes of R9, and `ovf hi lo`: the OVF bit of a counter, whose clear also clears the counter (R16). -/
inductive Access where
  | rw | ro | wo | w1c | w1s | rwl | rwc
  | ovf (cntHi cntLo : Nat)
  deriving DecidableEq, Repr

/-- The values a write may put into a field (R15); `clamp` is a register that states that the value is clamped. -/
inductive Legal where
  | any
  | range (lo hi : Nat)
  | rangeMul (lo hi m : Nat)
  | clamp (hi : Nat)
  | among (vs : List Nat)
  deriving DecidableEq, Repr

/-- One field of a register: bits hi:lo, access, reset value, legal values, and whether a command of its own writes it.
(DEDUCED, log entry 13). -/
structure Fld where
  hi : Nat
  lo : Nat
  acc : Access
  rst : Nat
  legal : Legal
  row : Bool
  deriving DecidableEq, Repr

/-- The place of a field: its register's bus address and its bits. -/
structure RF where
  addr : Nat
  hi : Nat
  lo : Nat
  deriving DecidableEq, Repr

/-- The key under which State holds the field: its register's bus address and its lowest bit. -/
def RF.key (f : RF) : Nat := 32 * f.addr + f.lo

/-- One more than the largest value of the field. -/
def RF.bound (f : RF) : Nat := 2 ^ (f.hi + 1 - f.lo)

/-- Default POLICY of ERRAGG source i (R295): 0 CONTAIN, 1 ESCALATE. -/
def srcPolicyDefault (i : Nat) : Nat :=
  if i = 2 ∨ i = 7 ∨ i = 8 ∨ i = 9 ∨ i = 26 ∨ i = 34 ∨ (48 ≤ i ∧ i ≤ 52) then 1 else 0

/-- The peripheral blocks of R37. -/
inductive Block where
  | clkgen | pwrctl | rstctl | evroute | uart (n : Nat) | svcwire | memctl | recstore | flashctl | erragg | mtime | adcseq | rtc | harvest | touch | aonctl | vaultctl | lane (n : Nat) | pineng | schedld | port (n : Nat) | ringctl | linkq | dicteng | mbox
  deriving DecidableEq, Repr

/-- Fields of the CLKGEN register at offset `off`. -/
def clkgenFields (off : Nat) : List Fld :=
  match off with
  | 0x000 => -- SYS_CFG
      [⟨31, 24, .rw, 0xC8, .range 4 200, true⟩, ⟨17, 16, .rw, 0, .any, true⟩,
       ⟨4, 0, .rw, 0x10, .range 16 31, true⟩]
  | 0x004 => -- STAT
      [⟨31, 31, .ro, 0, .any, false⟩, ⟨30, 30, .ro, 0, .any, false⟩, ⟨29, 29, .ro, 0, .any, false⟩,
       ⟨28, 28, .w1c, 0, .any, false⟩, ⟨27, 26, .ro, 2, .any, false⟩, ⟨8, 0, .ro, 0x20, .any, false⟩]
  | _ => []

/-- Fields of the PWRCTL register at offset `off`. -/
def pwrctlFields (off : Nat) : List Fld :=
  match off with
  | 0x000 => -- CTRL
      [⟨8, 8, .rw, 0, .any, false⟩, ⟨2, 0, .rw, 1, .range 1 5, false⟩]
  | 0x004 => -- STAT
      [⟨31, 31, .w1c, 0, .any, false⟩, ⟨30, 30, .w1c, 0, .any, false⟩, ⟨29, 29, .w1c, 0, .any, false⟩,
       ⟨23, 20, .ro, 0, .any, false⟩, ⟨10, 8, .ro, 0, .any, false⟩, ⟨1, 1, .ro, 0, .any, false⟩,
       ⟨0, 0, .ro, 1, .any, false⟩]
  | 0x008 => -- RET
      [⟨7, 0, .rw, 0, .any, false⟩]
  | _ => []

/-- Fields of the RSTCTL register at offset `off`. -/
def rstctlFields (off : Nat) : List Fld :=
  match off with
  | 0x000 => -- CAUSE
      [⟨31, 31, .ro, 0, .any, false⟩, ⟨30, 30, .ro, 0, .any, false⟩, ⟨29, 29, .ro, 0, .any, false⟩,
       ⟨28, 28, .ro, 0, .any, false⟩, ⟨19, 16, .ro, 0, .any, false⟩, ⟨11, 8, .ro, 0, .any, false⟩,
       ⟨3, 0, .ro, 1, .any, false⟩]
  | 0x004 => -- HEALTH
      [⟨31, 31, .wo, 0, .any, true⟩, ⟨15, 0, .ro, 0, .any, false⟩]
  | 0x008 => -- SWRST
      [⟨15, 0, .wo, 0, .any, true⟩]
  | _ => []

/-- Fields of the EVROUTE register at offset `off`. -/
def evrouteFields (off : Nat) : List Fld :=
  if 0x100 ≤ off ∧ off < 0x180 then -- CH_SEL
      [⟨31, 24, .rw, 0, .any, true⟩, ⟨23, 16, .rw, 0, .any, true⟩, ⟨15, 8, .rw, 0, .any, true⟩,
       ⟨7, 0, .rw, 0, .any, true⟩]
  else
  if 0x180 ≤ off ∧ off < 0x200 then -- CH_CFG
      [⟨31, 30, .rwl, 0, .range 0 2, true⟩, ⟨29, 29, .rwl, 0, .any, true⟩, ⟨7, 7, .rw, 0, .any, true⟩,
       ⟨6, 0, .rw, 0, .any, true⟩]
  else
  match off with
  | 0x000 => -- GCTL
      [⟨31, 31, .w1s, 0, .any, true⟩, ⟨0, 0, .rwl, 0, .any, true⟩]
  | 0x004 => -- FIRE
      [⟨31, 0, .wo, 0, .any, true⟩]
  | 0x008 => -- LEVEL
      [⟨31, 0, .ro, 0, .any, false⟩]
  | 0x00C => -- IRQ_STAT
      [⟨31, 0, .w1c, 0, .any, false⟩]
  | 0x010 => -- IRQ_EN_APP
      [⟨31, 0, .rw, 0, .any, false⟩]
  | 0x014 => -- IRQ_EN_CRK
      [⟨31, 0, .rw, 0, .any, false⟩]
  | 0x018 => -- DENIED
      [⟨31, 31, .ovf 15 0, 0, .any, false⟩, ⟨15, 0, .ro, 0, .any, false⟩]
  | _ => []

/-- Fields of the UART register at offset `off`. -/
def uartFields (n off : Nat) : List Fld :=
  match off with
  | 0x000 => -- CTRL: DICT in UART0 only; DE_EN, DE_POL and RX_IN_DE in UART1 only
      [⟨31, 31, .rw, 0, .any, false⟩, ⟨30, 30, .rw, 0, .any, false⟩, ⟨29, 29, .rw, 0, .any, false⟩] ++
      (if n = 0 then [⟨28, 28, .rw, 0, .any, false⟩]
       else [⟨27, 27, .rw, 0, .any, false⟩, ⟨26, 26, .rw, 0, .any, false⟩, ⟨25, 25, .rw, 0, .any, false⟩]) ++
      [⟨24, 24, .wo, 0, .any, true⟩, ⟨6, 6, .rw, 0, .any, false⟩,
       ⟨5, 5, .rw, 0, .any, false⟩, ⟨4, 4, .rw, 0, .any, false⟩, ⟨3, 2, .rw, 0, .range 0 2, false⟩]
  | 0x004 => -- BAUD
      [⟨19, 0, .rw, 0x8AE, .range 256 1048575, false⟩]
  | 0x008 => -- ADDR
      [⟨15, 8, .rw, 0xFF, .any, false⟩, ⟨7, 0, .rw, 0, .any, false⟩]
  | 0x00C => -- DE_TIME, UART1 only
      if n = 1 then [⟨15, 8, .rw, 0x10, .any, false⟩, ⟨7, 0, .rw, 0x10, .any, false⟩] else []
  | 0x010 => -- STAT
      [⟨31, 31, .ro, 0, .any, false⟩, ⟨30, 30, .ro, 1, .any, false⟩, ⟨29, 29, .ro, 1, .any, false⟩,
       ⟨28, 28, .w1c, 0, .any, false⟩, ⟨27, 27, .w1c, 0, .any, false⟩, ⟨26, 26, .w1c, 0, .any, false⟩,
       ⟨25, 25, .w1c, 0, .any, false⟩, ⟨24, 24, .w1c, 0, .any, false⟩, ⟨23, 23, .ro, 0, .any, false⟩]
  | 0x014 => -- IRQ_EN
      [⟨31, 31, .rw, 0, .any, false⟩, ⟨30, 30, .rw, 0, .any, false⟩, ⟨29, 29, .rw, 0, .any, false⟩,
       ⟨28, 28, .rw, 0, .any, false⟩, ⟨27, 27, .rw, 0, .any, false⟩, ⟨26, 26, .rw, 0, .any, false⟩,
       ⟨25, 25, .rw, 0, .any, false⟩, ⟨24, 24, .rw, 0, .any, false⟩]
  | 0x018 => -- DATA
      [⟨11, 0, .rw, 0, .any, true⟩]
  | 0x01C => -- FIFO
      [⟨28, 24, .ro, 0, .any, false⟩, ⟨20, 16, .ro, 0, .any, false⟩, ⟨11, 8, .rw, 1, .any, false⟩,
       ⟨3, 0, .rw, 0, .any, false⟩]
  | 0x020 => -- PE_CNT
      [⟨31, 31, .ovf 15 0, 0, .any, false⟩, ⟨15, 0, .ro, 0, .any, false⟩]
  | 0x024 => -- FE_CNT
      [⟨31, 31, .ovf 15 0, 0, .any, false⟩, ⟨15, 0, .ro, 0, .any, false⟩]
  | 0x028 => -- NF_CNT
      [⟨31, 31, .ovf 15 0, 0, .any, false⟩, ⟨15, 0, .ro, 0, .any, false⟩]
  | 0x02C => -- OVR_CNT
      [⟨31, 31, .ovf 15 0, 0, .any, false⟩, ⟨15, 0, .ro, 0, .any, false⟩]
  | 0x030 => -- ENV_ERR, UART0 only
      if n = 0 then [⟨31, 31, .ovf 15 0, 0, .any, false⟩, ⟨15, 0, .ro, 0, .any, false⟩] else []
  | _ => []

/-- Fields of the SVCWIRE register at offset `off`. -/
def svcwireFields (off : Nat) : List Fld :=
  match off with
  | 0x000 => -- ADDR
      [⟨31, 31, .w1s, 0, .any, false⟩, ⟨6, 0, .rwl, 0x3A, .range 0x08 0x77, false⟩]
  | 0x004 => -- CTRL
      [⟨31, 31, .rw, 0, .any, false⟩, ⟨30, 30, .rw, 0, .any, false⟩, ⟨29, 29, .rw, 0, .any, false⟩,
       ⟨15, 8, .rw, 0x19, .range 1 255, false⟩, ⟨1, 1, .rw, 0, .any, false⟩, ⟨0, 0, .rw, 0, .any, false⟩]
  | 0x008 => -- STAT
      [⟨31, 31, .ro, 0, .any, false⟩, ⟨30, 30, .ro, 0, .any, false⟩, ⟨29, 29, .ro, 0, .any, false⟩,
       ⟨28, 28, .w1c, 0, .any, false⟩, ⟨27, 27, .w1c, 0, .any, false⟩, ⟨26, 26, .w1c, 0, .any, false⟩,
       ⟨25, 25, .w1c, 0, .any, false⟩, ⟨9, 0, .ro, 0, .any, false⟩]
  | 0x00C => -- RESP
      [⟨31, 31, .wo, 0, .any, true⟩, ⟨9, 0, .rw, 0, .any, false⟩]
  | 0x010 => -- ENV_ERR
      [⟨31, 31, .ovf 15 0, 0, .any, false⟩, ⟨15, 0, .ro, 0, .any, false⟩]
  | _ => []

/-- Fields of the MEMCTL register at offset `off`. -/
def memctlFields (off : Nat) : List Fld :=
  match off with
  | 0x000 => -- MT_CTRL
      [⟨31, 31, .wo, 0, .any, true⟩, ⟨30, 30, .wo, 0, .any, true⟩, ⟨5, 4, .rw, 0, .range 0 2, false⟩,
       ⟨3, 0, .rw, 0, .range 0 10, false⟩]
  | 0x004 => -- MT_STAT
      [⟨31, 31, .ro, 0, .any, false⟩, ⟨30, 30, .w1c, 0, .any, false⟩, ⟨29, 29, .w1c, 0, .any, false⟩,
       ⟨28, 28, .w1c, 0, .any, false⟩, ⟨27, 27, .w1c, 0, .any, false⟩, ⟨2, 0, .ro, 0, .any, false⟩]
  | 0x008 => -- MT_FAIL_ADDR
      [⟨31, 0, .ro, 0, .any, false⟩]
  | 0x00C => -- MT_FAIL_READ
      [⟨31, 0, .ro, 0, .any, false⟩]
  | 0x010 => -- MT_FAIL_EXP
      [⟨31, 0, .ro, 0, .any, false⟩]
  | 0x014 => -- MT_FAIL_CHK
      [⟨14, 8, .ro, 0, .any, false⟩, ⟨6, 0, .ro, 0, .any, false⟩]
  | 0x018 => -- START_RES
      [⟨15, 8, .ro, 0, .any, false⟩, ⟨7, 0, .ro, 0, .any, false⟩]
  | 0x020 => -- ECC_ADDR
      [⟨31, 0, .ro, 0, .any, false⟩]
  | 0x024 => -- IRQ_STAT
      [⟨2, 2, .w1c, 0, .any, false⟩, ⟨1, 1, .w1c, 0, .any, false⟩, ⟨0, 0, .w1c, 0, .any, false⟩]
  | 0x028 => -- IRQ_EN
      [⟨2, 2, .rw, 0, .any, false⟩, ⟨1, 1, .rw, 0, .any, false⟩, ⟨0, 0, .rw, 0, .any, false⟩]
  | 0x02C => -- ECC_CORR
      [⟨31, 31, .ovf 15 0, 0, .any, false⟩, ⟨15, 0, .ro, 0, .any, false⟩]
  | 0x030 => -- ECC_UNCORR
      [⟨31, 31, .ovf 15 0, 0, .any, false⟩, ⟨15, 0, .ro, 0, .any, false⟩]
  | _ => []

/-- Fields of the RECSTORE register at offset `off`. -/
def recstoreFields (off : Nat) : List Fld :=
  if off % 0x800 < 0x40 then
    match off % 0x800 with
    | 0x00 => -- C_CMD
      [⟨31, 31, .wo, 0, .any, true⟩, ⟨30, 30, .wo, 0, .any, true⟩, ⟨3, 0, .rw, 0, .range 1 8, false⟩]
    | 0x04 => -- C_STATUS
      [⟨31, 31, .ro, 0, .any, false⟩, ⟨30, 30, .w1c, 0, .any, false⟩, ⟨29, 29, .w1c, 0, .any, false⟩,
       ⟨28, 28, .w1c, 0, .any, false⟩, ⟨27, 27, .ro, 0, .any, false⟩, ⟨26, 26, .ro, 0, .any, false⟩,
       ⟨7, 0, .ro, 0, .any, false⟩]
    | 0x08 => -- C_ADDR
      [⟨15, 2, .rw, 0, .any, false⟩]
    | 0x0C => -- C_KEY
      [⟨31, 16, .ro, 0, .any, false⟩, ⟨15, 0, .rw, 0, .any, false⟩]
    | 0x10 => -- C_LEN
      [⟨10, 0, .rw, 0, .any, false⟩]
    | 0x14 => -- C_GID
      [⟨15, 0, .ro, 0xFFFF, .any, false⟩]
    | _ => []
  else
  match off with
  | 0x040 => -- CFG
      [⟨31, 31, .w1s, 0, .any, false⟩, ⟨30, 30, .rw, 1, .any, false⟩, ⟨7, 0, .rwl, 0x18, .range 1 255, false⟩]
  | 0x044 => -- LOG_MASK
      [⟨31, 0, .rwl, 0x80000000, .any, false⟩]
  | 0x048 => -- RAW_MASK
      [⟨31, 0, .rwl, 0, .any, false⟩]
  | 0x04C => -- APPEND_PTR
      [⟨20, 16, .ro, 0, .any, false⟩, ⟨10, 0, .ro, 0, .any, false⟩]
  | 0x050 => -- FREE
      [⟨31, 24, .ro, 0, .any, false⟩, ⟨16, 0, .ro, 0, .any, false⟩]
  | 0x054 => -- DIRTY_MASK
      [⟨31, 0, .ro, 0, .any, false⟩]
  | 0x058 => -- IRQ_STAT
      [⟨3, 3, .w1c, 0, .any, false⟩, ⟨2, 2, .w1c, 0, .any, false⟩, ⟨1, 1, .w1c, 0, .any, false⟩,
       ⟨0, 0, .w1c, 0, .any, false⟩]
  | 0x05C => -- IRQ_EN
      [⟨3, 3, .rw, 0, .any, false⟩, ⟨2, 2, .rw, 0, .any, false⟩, ⟨1, 1, .rw, 0, .any, false⟩,
       ⟨0, 0, .rw, 0, .any, false⟩]
  | 0x060 => -- REFRESH_CNT
      [⟨31, 31, .ovf 15 0, 0, .any, false⟩, ⟨15, 0, .ro, 0, .any, false⟩]
  | _ => []

/-- Fields of the FLASHCTL register at offset `off`. -/
def flashctlFields (off : Nat) : List Fld :=
  match off with
  | 0x000 => -- CMD
      [⟨31, 31, .wo, 0, .any, true⟩, ⟨1, 0, .rw, 0, .range 1 3, false⟩]
  | 0x004 => -- STATUS
      [⟨31, 31, .ro, 0, .any, false⟩, ⟨30, 30, .w1c, 0, .any, false⟩, ⟨7, 0, .ro, 0, .any, false⟩]
  | 0x008 => -- ADDR
      [⟨31, 2, .rw, 0, .any, false⟩]
  | 0x00C => -- SRC
      [⟨31, 2, .rw, 0, .any, false⟩]
  | 0x010 => -- LEN
      [⟨12, 0, .rw, 0, .rangeMul 4 4096 4, false⟩]
  | _ => []

/-- The source IDs of R295; the IDs absent from it read 0 and ignore writes. -/
def srcPresent (i : Nat) : Bool :=
  i ≤ 9 || (16 ≤ i && i ≤ 28) || (32 ≤ i && i ≤ 36) || (40 ≤ i && i ≤ 44) || (48 ≤ i && i ≤ 52)

/-- Fields of the ERRAGG register at offset `off`. -/
def erraggFields (off : Nat) : List Fld :=
  if 0x10 ≤ off ∧ off < 0x24 then -- REG
    let n := (off - 0x10) / 0x4
    [⟨31, 31, .w1c, 0, .any, false⟩, ⟨30, 30, .ovf 15 0, 0, .any, false⟩,
     ⟨29, 28, .rwl, 1, (if n = 1 ∨ n = 2 then .range 0 2 else .range 0 1), false⟩,
     ⟨21, 16, .ro, 0, .any, false⟩, ⟨15, 0, .ro, 0, .any, false⟩]
  else
  if 0x100 ≤ off ∧ off < 0x200 then -- SRC
    let n := (off - 0x100) / 0x4
    if srcPresent n then
      [⟨31, 31, .w1c, 0, .any, false⟩, ⟨30, 30, .ovf 23 8, 0, .any, false⟩,
       ⟨29, 28, (if 48 ≤ n then .ro else .rwl), srcPolicyDefault n, .range 0 2, false⟩, ⟨27, 27, .ro, 0, .any, false⟩,
       ⟨26, 26, .ro, 0, .any, false⟩, ⟨25, 24, .ro, 0, .any, false⟩, ⟨23, 8, .ro, 0, .any, false⟩,
       ⟨7, 0, .ro, 0, .any, false⟩]
    else []
  else
  if 0x200 ≤ off ∧ off < 0x300 then -- DETAIL
    if srcPresent ((off - 0x200) / 4) then
      [⟨31, 0, .ro, 0, .any, false⟩]
    else []
  else
  match off with
  | 0x000 => -- CTRL
      [⟨31, 31, .w1s, 0, .any, false⟩, ⟨30, 30, .rwl, 0, .any, false⟩, ⟨1, 0, .rwl, 0, .among [0, 2], false⟩]
  | 0x004 => -- STAT
      [⟨31, 31, .w1c, 0, .any, false⟩, ⟨30, 30, .ro, 0, .any, false⟩, ⟨4, 0, .w1c, 0, .any, false⟩]
  | 0x008 => -- IRQ_EN
      [⟨31, 31, .rw, 0, .any, false⟩, ⟨4, 0, .rw, 0, .any, false⟩]
  | _ => []

/-- Fields of the MTIME register at offset `off`. -/
def mtimeFields (off : Nat) : List Fld :=
  if 0x80 ≤ off ∧ off < 0xA0 then
    match (off - 0x80) % 0x8 with
    | 0x00 => -- CMP_LO
      [⟨31, 0, .rw, 0, .any, false⟩]
    | 0x04 => -- CMP_HI
      [⟨31, 0, .rw, 0, .any, true⟩]
    | _ => []
  else
  match off with
  | 0x000 => -- MT_LO
      [⟨31, 0, .ro, 0, .any, false⟩]
  | 0x004 => -- MT_HI
      [⟨31, 0, .ro, 0, .any, false⟩]
  | 0x008 => -- CTRL
      [⟨31, 31, .wo, 0, .any, true⟩, ⟨0, 0, .rw, 1, .any, false⟩]
  | 0x00C => -- STATUS
      [⟨31, 31, .w1c, 0, .any, false⟩, ⟨30, 30, .w1c, 0, .any, false⟩, ⟨29, 29, .w1c, 0, .any, false⟩,
       ⟨28, 28, .w1c, 0, .any, false⟩, ⟨14, 8, .ro, 0, .any, false⟩, ⟨4, 4, .ro, 0, .any, false⟩,
       ⟨3, 3, .ro, 0, .any, false⟩, ⟨2, 0, .ro, 0, .any, false⟩]
  | 0x010 => -- SERVO_ERR
      [⟨31, 0, .ro, 0, .any, false⟩]
  | 0x014 => -- SERVO_FREQ
      [⟨31, 0, .ro, 0, .any, false⟩]
  | 0x018 => -- SERVO_INT
      [⟨31, 0, .ro, 0, .any, false⟩]
  | 0x01C => -- GAIN_ACQ
      [⟨31, 16, .rw, 0x8000, .any, false⟩, ⟨15, 0, .rw, 0x2000, .any, false⟩]
  | 0x020 => -- GAIN_TRK
      [⟨31, 16, .rw, 0x2000, .any, false⟩, ⟨15, 0, .rw, 0x400, .any, false⟩]
  | 0x024 => -- PULL_LIM
      [⟨21, 0, .rw, 0xD1B71, .clamp 0x0D1B71, true⟩]
  | 0x028 => -- STEP_THR
      [⟨15, 0, .rw, 0x3E8, .range 100 65535, false⟩]
  | 0x02C => -- HOLDOVER_LIM
      [⟨9, 0, .rw, 0x64, .range 1 1000, false⟩]
  | 0x030 => -- PATH_DELAY
      [⟨31, 0, .ro, 0, .any, false⟩]
  | 0x034 => -- LINKDLY_A
      [⟨31, 31, .ro, 0, .any, false⟩, ⟨20, 16, .ro, 0, .any, false⟩, ⟨15, 0, .ro, 0, .any, false⟩]
  | 0x038 => -- LINKDLY_B
      [⟨31, 31, .ro, 0, .any, false⟩, ⟨20, 16, .ro, 0, .any, false⟩, ⟨15, 0, .ro, 0, .any, false⟩]
  | 0x03C => -- ASYM
      [⟨31, 16, .rw, 0, .any, false⟩, ⟨15, 0, .rw, 0, .any, false⟩]
  | 0x040 => -- MASTER_TRIM
      [⟨31, 0, .rw, 0, .any, false⟩]
  | 0x044 => -- SYNCIN_CFG
      [⟨31, 31, .rw, 0, .any, false⟩, ⟨30, 30, .rw, 0, .any, false⟩]
  | 0x048 => -- SYNCIN_PERIOD
      [⟨31, 0, .rw, 0x3B9ACA00, .range 1000 4000000000, false⟩]
  | 0x04C => -- SYNCIN_CAPT_LO
      [⟨31, 0, .ro, 0, .any, false⟩]
  | 0x050 => -- SYNCIN_CAPT_HI
      [⟨31, 0, .ro, 0, .any, false⟩]
  | 0x054 => -- SYNCOUT_START_LO
      [⟨31, 0, .rw, 0, .any, false⟩]
  | 0x058 => -- SYNCOUT_START_HI
      [⟨31, 0, .rw, 0, .any, true⟩]
  | 0x05C => -- SYNCOUT_PERIOD
      [⟨31, 0, .rw, 0x3B9ACA00, .range 40 4000000000, false⟩]
  | 0x060 => -- SYNCOUT_WIDTH
      [⟨31, 0, .rw, 0x2710, .any, false⟩]
  | 0x064 => -- OUT_CTRL
      [⟨3, 3, .rw, 1, .any, false⟩, ⟨2, 2, .rw, 0, .any, false⟩, ⟨1, 1, .rw, 1, .any, false⟩,
       ⟨0, 0, .rw, 0, .any, false⟩]
  | 0x068 => -- IRQ_EN
      [⟨31, 28, .rw, 0, .any, false⟩, ⟨3, 0, .rw, 0, .any, false⟩]
  | 0x06C => -- DIAG_STEP
      [⟨31, 31, .ovf 15 0, 0, .any, false⟩, ⟨15, 0, .ro, 0, .any, false⟩]
  | 0x070 => -- DIAG_HOLDOVER
      [⟨31, 31, .ovf 15 0, 0, .any, false⟩, ⟨15, 0, .ro, 0, .any, false⟩]
  | 0x074 => -- DIAG_SYNCIN_REJ
      [⟨31, 31, .ovf 15 0, 0, .any, false⟩, ⟨15, 0, .ro, 0, .any, false⟩]
  | 0x0A0 => -- CMP_STAT
      [⟨19, 16, .wo, 0, .any, true⟩, ⟨11, 8, .ro, 0, .any, false⟩, ⟨7, 4, .w1c, 0, .any, false⟩,
       ⟨3, 0, .w1c, 0, .any, false⟩]
  | _ => []

/-- Fields of the ADCSEQ register at offset `off`. -/
def adcseqFields (off : Nat) : List Fld :=
  if 0x40 ≤ off ∧ off < 0x68 then -- RES
      [⟨27, 16, .ro, 0, .any, false⟩, ⟨11, 0, .ro, 0, .any, false⟩]
  else
  match off with
  | 0x000 => -- CTRL
      [⟨31, 31, .rw, 0, .any, true⟩, ⟨19, 0, .rw, 0xFFFFF, .any, false⟩]
  | 0x004 => -- STAT
      [⟨31, 31, .w1c, 0, .any, false⟩, ⟨1, 1, .ro, 0, .any, false⟩, ⟨0, 0, .ro, 0, .any, false⟩]
  | 0x008 => -- PERIOD
      [⟨16, 0, .rw, 0x61A8, .rangeMul 10000 100000 4, true⟩]
  | 0x00C => -- FRAME_CNT
      [⟨31, 0, .ro, 0, .any, false⟩]
  | _ => []

/-- Fields of the RTC register at offset `off`. -/
def rtcFields (off : Nat) : List Fld :=
  if 0x50 ≤ off ∧ off < 0x60 then
    match (off - 0x50) % 0x8 with
    | 0x00 => -- ALM_TIME
      [⟨31, 31, .rw, 1, .any, false⟩, ⟨30, 30, .rw, 1, .any, false⟩, ⟨29, 29, .rw, 1, .any, false⟩,
       ⟨20, 16, .rw, 0, .any, false⟩, ⟨13, 8, .rw, 0, .any, false⟩, ⟨5, 0, .rw, 0, .any, false⟩]
    | 0x04 => -- ALM_DATE
      [⟨31, 31, .rw, 1, .any, false⟩, ⟨30, 30, .rw, 1, .any, false⟩, ⟨29, 29, .rw, 1, .any, false⟩,
       ⟨28, 28, .rw, 1, .any, false⟩, ⟨27, 16, .rw, 0x7D0, .any, false⟩, ⟨14, 12, .rw, 0, .any, false⟩,
       ⟨11, 8, .rw, 1, .any, false⟩, ⟨4, 0, .rw, 1, .any, false⟩]
    | _ => []
  else
  if 0x80 ≤ off ∧ off < 0xD0 then
    match (off - 0x80) % 0x8 with
    | 0x00 => -- MC_CTRL
      [⟨31, 31, .rw, 0, .any, false⟩, ⟨23, 0, .rw, 0, .any, false⟩]
    | 0x04 => -- MC_CNT
      [⟨31, 31, .ro, 0, .any, false⟩, ⟨27, 0, .rw, 0, .any, true⟩]
    | _ => []
  else
  match off with
  | 0x000 => -- CTRL
      [⟨31, 31, .rw, 1, .any, false⟩, ⟨30, 30, .wo, 0, .any, true⟩, ⟨29, 29, .wo, 0, .any, true⟩,
       ⟨1, 1, .rw, 0, .any, false⟩, ⟨0, 0, .rw, 0, .any, false⟩]
  | 0x004 => -- STAT
      [⟨31, 31, .w1c, 0, .any, false⟩, ⟨30, 30, .w1c, 0, .any, false⟩, ⟨29, 29, .w1c, 0, .any, false⟩,
       ⟨28, 28, .w1c, 0, .any, false⟩, ⟨27, 27, .w1c, 0, .any, false⟩, ⟨26, 26, .w1c, 0, .any, false⟩,
       ⟨25, 25, .w1c, 0, .any, false⟩, ⟨24, 24, .w1c, 0, .any, false⟩, ⟨23, 23, .w1c, 0, .any, false⟩,
       ⟨3, 3, .ro, 0, .any, false⟩, ⟨2, 2, .ro, 0, .any, false⟩, ⟨1, 1, .ro, 0, .any, false⟩,
       ⟨0, 0, .ro, 0, .any, false⟩]
  | 0x008 => -- IRQ_EN
      [⟨31, 31, .rw, 0, .any, false⟩, ⟨30, 30, .rw, 0, .any, false⟩, ⟨29, 29, .rw, 0, .any, false⟩,
       ⟨28, 28, .rw, 0, .any, false⟩, ⟨27, 27, .rw, 0, .any, false⟩, ⟨26, 26, .rw, 0, .any, false⟩,
       ⟨25, 25, .rw, 0, .any, false⟩, ⟨24, 24, .rw, 0, .any, false⟩, ⟨23, 23, .rw, 0, .any, false⟩]
  | 0x010 => -- RTC_SUBSEC
      [⟨14, 0, .ro, 0, .any, false⟩]
  | 0x014 => -- RTC_TIME
      [⟨20, 16, .ro, 0, .any, false⟩, ⟨13, 8, .ro, 0, .any, false⟩, ⟨5, 0, .ro, 0, .any, false⟩]
  | 0x018 => -- RTC_DATE
      [⟨18, 16, .ro, 5, .any, false⟩, ⟨11, 8, .ro, 1, .any, false⟩, ⟨4, 0, .ro, 1, .any, false⟩]
  | 0x01C => -- RTC_YEAR
      [⟨11, 0, .ro, 0x7D0, .any, false⟩]
  | 0x030 => -- SET_TIME
      [⟨20, 16, .rw, 0, .any, false⟩, ⟨13, 8, .rw, 0, .any, false⟩, ⟨5, 0, .rw, 0, .any, false⟩]
  | 0x034 => -- SET_DATE
      [⟨11, 8, .rw, 0, .any, false⟩, ⟨4, 0, .rw, 0, .any, false⟩]
  | 0x038 => -- SET_YEAR
      [⟨11, 0, .rw, 0, .any, false⟩]
  | 0x040 => -- SHIFT
      [⟨15, 0, .wo, 0, .any, true⟩]
  | 0x044 => -- SHIFT_REM
      [⟨15, 0, .ro, 0, .any, false⟩]
  | 0x048 => -- TRIM
      [⟨22, 0, .rw, 0, .any, true⟩]
  | 0x060 => -- MC_CFG
      [⟨31, 24, .rw, 0x8C, .any, false⟩, ⟨23, 16, .rw, 0x74, .any, false⟩, ⟨15, 8, .rw, 0x5E, .any, false⟩,
       ⟨1, 0, .rw, 1, .any, false⟩]
  | 0x064 => -- MC_WEIGHT
      [⟨31, 24, .rw, 0x20, .any, false⟩, ⟨23, 16, .rw, 0x18, .any, false⟩, ⟨15, 8, .rw, 0x10, .any, false⟩,
       ⟨7, 0, .rw, 0xC, .any, false⟩]
  | 0x068 => -- MC_STAT
      [⟨17, 16, .ro, 0, .any, false⟩, ⟨9, 0, .w1c, 0, .any, false⟩]
  | _ => []

/-- Fields of the HARVEST register at offset `off`. -/
def harvestFields (off : Nat) : List Fld :=
  match off with
  | 0x000 => -- CTRL
      [⟨31, 31, .w1s, 0, .any, false⟩, ⟨2, 2, .wo, 0, .any, true⟩, ⟨1, 1, .rw, 1, .any, false⟩,
       ⟨0, 0, .rw, 1, .any, false⟩]
  | 0x004 => -- MPPT
      [⟨15, 8, .rw, 0x10, .any, false⟩, ⟨6, 0, .rw, 0x4C, .range 50 95, true⟩]
  | 0x008 => -- VOC
      [⟨31, 31, .ro, 0, .any, false⟩, ⟨27, 16, .ro, 0, .any, false⟩, ⟨11, 0, .ro, 0, .any, false⟩]
  | 0x00C => -- CHG
      [⟨20, 16, .rwl, 0x19, .range 0 30, false⟩, ⟨6, 0, .rwl, 8, .range 1 127, false⟩]
  | 0x010 => -- WARN
      [⟨4, 0, .rwl, 0xF, .range 5 30, false⟩]
  | 0x014 => -- NTC
      [⟨31, 31, .rwl, 1, .any, false⟩, ⟨23, 16, .ro, 0, .any, false⟩, ⟨15, 8, .rwl, 0xBE, .any, false⟩,
       ⟨7, 0, .rwl, 0x54, .any, false⟩]
  | 0x018 => -- STAT
      [⟨31, 31, .w1c, 0, .any, false⟩, ⟨30, 30, .w1c, 0, .any, false⟩, ⟨29, 29, .w1c, 0, .any, false⟩,
       ⟨28, 28, .w1c, 0, .any, false⟩, ⟨27, 27, .w1c, 0, .any, false⟩, ⟨26, 26, .w1c, 0, .any, false⟩,
       ⟨11, 11, .ro, 0, .any, false⟩, ⟨10, 10, .ro, 0, .any, false⟩, ⟨9, 9, .ro, 0, .any, false⟩,
       ⟨8, 8, .ro, 0, .any, false⟩, ⟨5, 4, .ro, 2, .any, false⟩, ⟨3, 2, .ro, 0, .any, false⟩,
       ⟨1, 0, .ro, 0, .any, false⟩]
  | 0x01C => -- IRQ_EN
      [⟨31, 31, .rw, 0, .any, false⟩, ⟨30, 30, .rw, 0, .any, false⟩, ⟨29, 29, .rw, 0, .any, false⟩,
       ⟨28, 28, .rw, 0, .any, false⟩, ⟨27, 27, .rw, 0, .any, false⟩]
  | 0x020 => -- LEVELS
      [⟨27, 16, .ro, 0, .any, false⟩, ⟨11, 0, .ro, 0, .any, false⟩]
  | 0x024 => -- SC_CNT
      [⟨31, 31, .ovf 15 0, 0, .any, false⟩, ⟨15, 0, .ro, 0, .any, false⟩]
  | _ => []

/-- Fields of the TOUCH register at offset `off`. -/
def touchFields (off : Nat) : List Fld :=
  if 0x810 ≤ off ∧ off < 0x828 then -- ADC_RES
      [⟨9, 0, .ro, 0, .any, false⟩]
  else
  if 0x840 ≤ off ∧ off < 0x860 then -- MB_A2C_DATA
      [⟨31, 0, .rw, 0, .any, false⟩]
  else
  if 0x860 ≤ off ∧ off < 0x880 then -- MB_C2A_DATA
      [⟨31, 0, .rw, 0, .any, false⟩]
  else
  match off with
  | 0x000 => -- CTRL
      [⟨31, 31, .rw, 0, .any, true⟩, ⟨30, 30, .wo, 0, .any, true⟩, ⟨29, 29, .wo, 0, .any, true⟩,
       ⟨5, 0, .rw, 0, .any, false⟩]
  | 0x004 => -- CFG
      [⟨25, 24, .rw, 1, .any, false⟩, ⟨13, 8, .rw, 0x10, .range 1 63, false⟩,
       ⟨7, 0, .rw, 8, .range 2 255, false⟩]
  | 0x008 => -- RATE01
      [⟨31, 16, .rw, 0x666, .range 33 65535, false⟩, ⟨15, 0, .rw, 0x148, .range 33 65535, false⟩]
  | 0x00C => -- RATE23
      [⟨31, 16, .rw, 0x8000, .range 33 65535, false⟩, ⟨15, 0, .rw, 0x2000, .range 33 65535, false⟩]
  | 0x010 => -- IDLE
      [⟨31, 16, .rw, 0x258, .any, false⟩, ⟨15, 8, .rw, 0x3C, .any, false⟩, ⟨7, 0, .rw, 5, .any, false⟩]
  | 0x014 => -- THRESH
      [⟨31, 20, .rw, 0x40, .any, false⟩, ⟨19, 8, .rw, 0x30, .any, false⟩, ⟨3, 0, .rw, 2, .range 1 15, false⟩]
  | 0x018 => -- TRACK
      [⟨27, 16, .rw, 0x40, .any, false⟩, ⟨15, 8, .rw, 0x14, .any, false⟩, ⟨3, 0, .rw, 8, .range 1 15, false⟩]
  | 0x020 => -- KEYMASK_LO
      [⟨31, 0, .rw, 0, .any, true⟩]
  | 0x024 => -- KEYMASK_HI
      [⟨31, 0, .rw, 0, .any, true⟩]
  | 0x028 => -- KEYS_LO
      [⟨31, 0, .ro, 0, .any, false⟩]
  | 0x02C => -- KEYS_HI
      [⟨31, 0, .ro, 0, .any, false⟩]
  | 0x030 => -- CHG_LO
      [⟨31, 0, .w1c, 0, .any, false⟩]
  | 0x034 => -- CHG_HI
      [⟨31, 0, .w1c, 0, .any, false⟩]
  | 0x038 => -- STAT
      [⟨31, 31, .w1c, 0, .any, false⟩, ⟨30, 30, .w1c, 0, .any, false⟩, ⟨29, 29, .w1c, 0, .any, false⟩,
       ⟨28, 28, .w1c, 0, .any, false⟩, ⟨27, 27, .w1c, 0, .any, false⟩, ⟨13, 8, .ro, 0, .any, false⟩,
       ⟨3, 3, .ro, 0, .any, false⟩, ⟨2, 2, .ro, 0, .any, false⟩, ⟨1, 0, .ro, 0, .any, false⟩]
  | 0x03C => -- IRQ_EN
      [⟨31, 31, .rw, 0, .any, false⟩, ⟨30, 30, .rw, 0, .any, false⟩, ⟨29, 29, .rw, 0, .any, false⟩,
       ⟨28, 28, .rw, 0, .any, false⟩]
  | 0x040 => -- SIG
      [⟨31, 16, .ro, 0, .any, false⟩, ⟨15, 0, .ro, 0, .any, false⟩]
  | 0x044 => -- RECAL_CNT
      [⟨31, 31, .ovf 14 0, 0, .any, false⟩, ⟨14, 0, .ro, 0, .any, false⟩]
  | 0x800 => -- CRK_CTRL
      [⟨31, 31, .w1s, 0, .any, true⟩, ⟨30, 30, .ro, 0, .any, false⟩, ⟨15, 8, .ro, 0x20, .any, false⟩,
       ⟨1, 0, .rw, 0, .range 0 2, false⟩]
  | 0x804 => -- CRK_IRQ_STAT
      [⟨11, 11, .ro, 0, .any, false⟩, ⟨10, 10, .ro, 0, .any, false⟩, ⟨9, 9, .w1c, 0, .any, false⟩,
       ⟨8, 8, .w1c, 0, .any, false⟩, ⟨7, 7, .w1c, 0, .any, false⟩, ⟨6, 6, .w1c, 0, .any, false⟩,
       ⟨5, 5, .ro, 0, .any, false⟩, ⟨4, 4, .ro, 0, .any, false⟩, ⟨3, 3, .w1c, 0, .any, false⟩,
       ⟨2, 2, .ro, 0, .any, false⟩, ⟨1, 1, .w1c, 0, .any, false⟩, ⟨0, 0, .w1c, 0, .any, false⟩]
  | 0x808 => -- CRK_IRQ_EN
      [⟨11, 11, .rw, 0, .any, false⟩, ⟨10, 10, .rw, 0, .any, false⟩, ⟨9, 9, .rw, 0, .any, false⟩,
       ⟨8, 8, .rw, 0, .any, false⟩, ⟨7, 7, .rw, 0, .any, false⟩, ⟨6, 6, .rw, 0, .any, false⟩,
       ⟨5, 5, .rw, 0, .any, false⟩, ⟨4, 4, .rw, 0, .any, false⟩, ⟨3, 3, .rw, 0, .any, false⟩,
       ⟨2, 2, .rw, 0, .any, false⟩, ⟨1, 1, .rw, 0, .any, false⟩, ⟨0, 0, .rw, 0, .any, false⟩]
  | 0x80C => -- ADC_CTRL
      [⟨31, 31, .wo, 0, .any, true⟩, ⟨30, 30, .ro, 0, .any, false⟩, ⟨29, 28, .rw, 0, .range 0 2, false⟩,
       ⟨27, 27, .w1c, 0, .any, false⟩, ⟨5, 0, .rw, 0, .any, false⟩]
  | 0x828 => -- ADC_T25
      [⟨9, 0, .ro, 0, .any, false⟩]
  | 0x880 => -- MB_CTRL
      [⟨31, 31, .wo, 0, .any, true⟩, ⟨30, 30, .wo, 0, .any, true⟩, ⟨29, 29, .wo, 0, .any, true⟩,
       ⟨28, 28, .wo, 0, .any, true⟩, ⟨13, 13, .w1c, 0, .any, false⟩, ⟨11, 11, .w1c, 0, .any, false⟩,
       ⟨10, 10, .w1c, 0, .any, false⟩, ⟨9, 9, .ro, 0, .any, false⟩, ⟨8, 8, .ro, 0, .any, false⟩,
       ⟨1, 1, .rw, 0, .any, false⟩, ⟨0, 0, .rw, 0, .any, false⟩]
  | _ => []

/-- Fields of the AONCTL register at offset `off`. -/
def aonctlFields (off : Nat) : List Fld :=
  match off with
  | 0x000 => -- MODE
      [⟨31, 31, .w1c, 0, .any, false⟩, ⟨30, 30, .w1c, 0, .any, false⟩, ⟨1, 1, .ro, 1, .any, false⟩,
       ⟨0, 0, .ro, 1, .any, false⟩]
  | 0x004 => -- WAKE_EN
      [⟨9, 0, .rw, 0x63, .any, false⟩]
  | 0x008 => -- WAKE_DEST
      [⟨9, 0, .rw, 0, .any, false⟩]
  | 0x00C => -- WAKE_CAUSE
      [⟨28, 24, .ro, 0x1F, .any, false⟩, ⟨23, 21, .ro, 0, .any, false⟩, ⟨9, 0, .w1c, 0, .any, false⟩]
  | 0x010 => -- WAKE_VEC
      [⟨31, 2, .rw, 0, .any, false⟩, ⟨0, 0, .rw, 0, .any, false⟩]
  | 0x014 => -- EVWAKE
      [⟨31, 0, .rw, 0, .any, false⟩]
  | 0x018 => -- STEP
      [⟨10, 8, .ro, 0, .any, false⟩, ⟨2, 0, .ro, 0, .any, false⟩]
  | 0x01C => -- RET_LATCH
      [⟨7, 0, .ro, 0, .any, false⟩]
  | 0x020 => -- CMD
      [⟨31, 31, .wo, 0, .any, true⟩, ⟨30, 30, .wo, 0, .any, true⟩]
  | 0x024 => -- RST_CAUSE
      [⟨5, 5, .w1c, 0, .any, false⟩, ⟨4, 4, .w1c, 0, .any, false⟩, ⟨3, 3, .w1c, 0, .any, false⟩,
       ⟨2, 2, .w1c, 0, .any, false⟩, ⟨1, 1, .w1c, 0, .any, false⟩, ⟨0, 0, .w1c, 1, .any, false⟩]
  | 0x028 => -- DETACH_AT_LO
      [⟨31, 0, .ro, 0, .any, false⟩]
  | 0x02C => -- DOCK_AT_LO
      [⟨31, 0, .ro, 0, .any, false⟩]
  | 0x030 => -- AT_HI
      [⟨15, 8, .ro, 0, .any, false⟩, ⟨7, 0, .ro, 0, .any, false⟩]
  | 0x034 => -- DETACH_CNT
      [⟨31, 31, .ovf 15 0, 0, .any, false⟩, ⟨15, 0, .ro, 0, .any, false⟩]
  | 0x038 => -- DOCK_CNT
      [⟨31, 31, .ovf 15 0, 0, .any, false⟩, ⟨15, 0, .ro, 0, .any, false⟩]
  | 0x03C => -- BOD_CNT
      [⟨31, 31, .ovf 15 0, 0, .any, false⟩, ⟨15, 0, .ro, 0, .any, false⟩]
  | 0x040 => -- DET_SECS
      [⟨31, 31, .ovf 30 0, 0, .any, false⟩, ⟨30, 0, .ro, 0, .any, false⟩]
  | _ => []

/-- Fields of the VAULTCTL register at offset `off`. -/
def vaultctlFields (off : Nat) : List Fld :=
  match off with
  | 0x000 => -- CTRL
      [⟨31, 31, .wo, 0, .any, true⟩]
  | 0x004 => -- STAT
      [⟨31, 31, .w1c, 0, .any, false⟩, ⟨30, 30, .w1c, 0, .any, false⟩, ⟨29, 29, .w1c, 0, .any, false⟩,
       ⟨8, 8, .ro, 0, .any, false⟩, ⟨3, 3, .ro, 0, .any, false⟩, ⟨2, 2, .w1c, 0, .any, false⟩,
       ⟨1, 1, .w1c, 0, .any, false⟩, ⟨0, 0, .w1c, 0, .any, false⟩]
  | 0x008 => -- ECC_ADDR
      [⟨31, 0, .ro, 0, .any, false⟩]
  | 0x00C => -- IRQ_EN
      [⟨31, 31, .rw, 0, .any, false⟩, ⟨30, 30, .rw, 0, .any, false⟩, ⟨29, 29, .rw, 0, .any, false⟩]
  | 0x010 => -- WIPE_CNT
      [⟨31, 31, .ovf 15 0, 0, .any, false⟩, ⟨15, 0, .ro, 0, .any, false⟩]
  | 0x014 => -- ECC_CORR
      [⟨31, 31, .ovf 15 0, 0, .any, false⟩, ⟨15, 0, .ro, 0, .any, false⟩]
  | 0x018 => -- ECC_UNCORR
      [⟨31, 31, .ovf 15 0, 0, .any, false⟩, ⟨15, 0, .ro, 0, .any, false⟩]
  | 0x100 => -- TMP_CFG
      [⟨31, 31, .w1s, 0, .any, false⟩, ⟨30, 30, .rw, 0, .any, false⟩, ⟨29, 29, .rw, 1, .any, false⟩,
       ⟨4, 4, .rw, 0, .any, false⟩, ⟨3, 3, .rw, 0, .any, false⟩, ⟨2, 2, .rw, 0, .any, false⟩,
       ⟨1, 1, .rw, 0, .any, false⟩, ⟨0, 0, .rw, 0, .any, false⟩]
  | 0x104 => -- TMP_STAT
      [⟨3, 0, .w1c, 0, .any, false⟩]
  | 0x108 => -- TMP_CNT
      [⟨31, 31, .ovf 15 0, 0, .any, false⟩, ⟨15, 0, .ro, 0, .any, false⟩]
  | _ => []

/-- Fields of the LANE register at offset `off`. -/
def laneFields (off : Nat) : List Fld :=
  match off with
  | 0x000 => -- CTRL
      [⟨31, 31, .rw, 0, .any, true⟩, ⟨20, 20, .rw, 0, .any, true⟩, ⟨19, 19, .rw, 0, .any, true⟩,
       ⟨18, 18, .rw, 0, .any, true⟩, ⟨17, 17, .rw, 0, .any, true⟩, ⟨16, 16, .rw, 0, .any, true⟩,
       ⟨8, 8, .rw, 0, .any, true⟩, ⟨2, 0, .rw, 0, .range 0 3, true⟩]
  | 0x004 => -- STAT
      [⟨31, 31, .w1c, 0, .any, true⟩, ⟨30, 30, .w1c, 0, .any, true⟩, ⟨29, 29, .w1c, 0, .any, true⟩,
       ⟨24, 16, .ro, 0, .any, true⟩, ⟨11, 11, .ro, 0, .any, true⟩, ⟨10, 10, .ro, 0, .any, true⟩,
       ⟨7, 5, .ro, 0, .any, true⟩, ⟨2, 0, .ro, 0, .any, true⟩]
  | 0x008 => -- POS_CMD
      [⟨31, 0, .ro, 0, .any, true⟩]
  | 0x00C => -- POS_MEAS
      [⟨31, 0, .ro, 0, .any, true⟩]
  | 0x010 => -- POS_ERR
      [⟨31, 0, .ro, 0, .any, true⟩]
  | 0x014 => -- QCNT
      [⟨31, 0, .rw, 0, .any, true⟩]
  | 0x018 => -- QCFG
      [⟨31, 31, .rw, 0, .any, true⟩, ⟨25, 24, .rw, 0, .range 0 2, true⟩, ⟨20, 20, .rw, 0, .any, true⟩,
       ⟨7, 0, .rw, 0, .any, true⟩]
  | 0x01C => -- QIDX
      [⟨31, 0, .ro, 0, .any, true⟩]
  | 0x020 => -- QIDX_MT
      [⟨31, 0, .ro, 0, .any, true⟩]
  | 0x024 => -- QERR
      [⟨31, 31, .ovf 15 0, 0, .any, true⟩, ⟨15, 0, .ro, 0, .any, true⟩]
  | 0x028 => -- PE_POS
      [⟨31, 0, .ro, 0, .any, true⟩]
  | 0x02C => -- FBSCALE
      [⟨31, 0, .rw, 0x10000, .any, true⟩]
  | 0x030 => -- ESCALE
      [⟨31, 0, .rw, 0, .any, true⟩]
  | 0x034 => -- ANGLE
      [⟨31, 16, .ro, 0, .any, true⟩, ⟨15, 0, .rw, 0, .any, true⟩]
  | 0x038 => -- KPOS
      [⟨31, 16, .rw, 0, .any, true⟩, ⟨15, 0, .rw, 0, .any, true⟩]
  | 0x03C => -- KVEL
      [⟨31, 16, .rw, 0, .any, true⟩, ⟨15, 0, .rw, 0, .any, true⟩]
  | 0x040 => -- IQCFG
      [⟨31, 16, .rw, 0, .any, true⟩, ⟨10, 0, .rw, 0, .any, true⟩]
  | 0x044 => -- STEPCUR
      [⟨26, 16, .rw, 0, .any, true⟩, ⟨10, 0, .rw, 0, .any, true⟩]
  | 0x048 => -- HOLDCFG
      [⟨31, 16, .rw, 0, .any, true⟩, ⟨15, 0, .rw, 0x100, .any, true⟩]
  | 0x04C => -- KCUR
      [⟨31, 16, .rw, 0, .any, true⟩, ⟨15, 0, .rw, 0, .any, true⟩]
  | 0x050 => -- VLIM
      [⟨14, 0, .rw, 0, .any, true⟩]
  | 0x054 => -- PWMLIM
      [⟨27, 16, .rw, 0x32, .any, true⟩, ⟨11, 0, .rw, 0x1F4, .any, true⟩]
  | 0x058 => -- OFFS
      [⟨27, 16, .ro, 0, .any, true⟩, ⟨11, 0, .ro, 0, .any, true⟩]
  | 0x05C => -- OFFS_WIN
      [⟨11, 0, .rw, 0x100, .any, true⟩]
  | 0x060 => -- CUR_MEAS
      [⟨31, 16, .ro, 0, .any, true⟩, ⟨15, 0, .ro, 0, .any, true⟩]
  | 0x064 => -- CUR_REF
      [⟨31, 16, .ro, 0, .any, true⟩, ⟨15, 0, .ro, 0, .any, true⟩]
  | 0x068 => -- VOLT
      [⟨31, 16, .ro, 0, .any, true⟩, ⟨15, 0, .ro, 0, .any, true⟩]
  | 0x06C => -- IDQ
      [⟨31, 16, .ro, 0, .any, true⟩, ⟨15, 0, .ro, 0, .any, true⟩]
  | 0x070 => -- PW_A
      [⟨16, 0, .ro, 0, .any, true⟩]
  | 0x074 => -- PW_B
      [⟨16, 0, .ro, 0, .any, true⟩]
  | 0x078 => -- PW_C
      [⟨16, 0, .ro, 0, .any, true⟩]
  | 0x07C => -- PW_D
      [⟨16, 0, .ro, 0, .any, true⟩]
  | 0x080 => -- IRQ_STAT
      [⟨3, 3, .w1c, 0, .any, true⟩, ⟨2, 2, .w1c, 0, .any, true⟩, ⟨1, 1, .w1c, 0, .any, true⟩,
       ⟨0, 0, .w1c, 0, .any, true⟩]
  | 0x084 => -- IRQ_EN
      [⟨3, 3, .rw, 0, .any, true⟩, ⟨2, 2, .rw, 0, .any, true⟩, ⟨1, 1, .rw, 0, .any, true⟩,
       ⟨0, 0, .rw, 0, .any, true⟩]
  | 0x100 => -- FLT_CFG
      [⟨18, 18, .rw, 0, .any, true⟩, ⟨17, 17, .rw, 1, .any, true⟩, ⟨16, 16, .rw, 1, .any, true⟩,
       ⟨9, 8, .rw, 0, .range 0 2, true⟩, ⟨7, 6, .rw, 0, .range 0 2, true⟩,
       ⟨5, 4, .rw, 0, .among [0, 2], true⟩, ⟨3, 2, .rw, 0, .among [0, 2], true⟩, ⟨1, 0, .ro, 0, .any, true⟩]
  | 0x104 => -- FLT_STAT
      [⟨31, 31, .w1c, 0, .any, true⟩, ⟨30, 30, .w1c, 0, .any, true⟩, ⟨29, 29, .w1c, 0, .any, true⟩,
       ⟨28, 28, .w1c, 0, .any, true⟩, ⟨27, 27, .w1c, 0, .any, true⟩, ⟨26, 26, .w1c, 0, .any, true⟩,
       ⟨25, 25, .w1c, 0, .any, true⟩, ⟨22, 22, .ro, 0, .any, true⟩, ⟨21, 21, .ro, 0, .any, true⟩,
       ⟨19, 16, .ro, 0, .any, true⟩, ⟨15, 13, .ro, 0, .any, true⟩, ⟨12, 10, .ro, 0, .any, true⟩,
       ⟨9, 8, .ro, 3, .any, true⟩, ⟨3, 3, .ro, 0, .any, true⟩, ⟨2, 2, .ro, 0, .any, true⟩,
       ⟨1, 1, .ro, 0, .any, true⟩, ⟨0, 0, .ro, 0, .any, true⟩]
  | 0x108 => -- SENSE_CFG
      [⟨27, 16, .rw, 0x20, .any, true⟩, ⟨11, 0, .rw, 0xFDF, .any, true⟩]
  | 0x10C => -- SUMLIM
      [⟨11, 0, .rw, 0x7FF, .any, true⟩]
  | 0x110 => -- OC_THR
      [⟨31, 24, .rw, 0xFF, .any, true⟩, ⟨23, 16, .rw, 0, .any, true⟩, ⟨15, 8, .rw, 0xFF, .any, true⟩,
       ⟨7, 0, .rw, 0, .any, true⟩]
  | 0x114 => -- FE_CFG
      [⟨31, 24, .rw, 4, .range 1 255, true⟩, ⟨23, 0, .rw, 0x10000, .any, true⟩]
  | 0x118 => -- HOLD_CFG2
      [⟨8, 0, .rw, 0x14, .range 1 500, true⟩]
  | 0x11C => -- DRV_FILT
      [⟨7, 0, .rw, 0x19, .range 1 255, true⟩]
  | 0x120 => -- GROUP
      [⟨5, 4, .rw, 0, .range 0 2, true⟩, ⟨2, 0, .rw, 0, .any, true⟩]
  | 0x124 => -- RESUME
      [⟨31, 31, .wo, 0, .any, true⟩, ⟨7, 0, .rw, 0, .any, true⟩]
  | 0x128 => -- RES_AT_LO
      [⟨31, 0, .rw, 0, .any, true⟩]
  | 0x12C => -- RES_STAT
      [⟨31, 31, .ro, 0, .any, true⟩, ⟨7, 0, .ro, 0, .any, true⟩]
  | 0x130 => -- FLT_CNT
      [⟨31, 31, .ovf 15 0, 0, .any, true⟩, ⟨15, 0, .ro, 0, .any, true⟩]
  | 0x134 => -- FLT_IRQ_STAT
      [⟨2, 2, .w1c, 0, .any, true⟩, ⟨1, 1, .w1c, 0, .any, true⟩, ⟨0, 0, .w1c, 0, .any, true⟩]
  | 0x138 => -- FLT_IRQ_EN
      [⟨2, 2, .rw, 0, .any, true⟩, ⟨1, 1, .rw, 0, .any, true⟩, ⟨0, 0, .rw, 0, .any, true⟩]
  | _ => []

/-- Fields of the PINENG register at offset `off`. -/
def pinengFields (off : Nat) : List Fld :=
  if 0x100 ≤ off ∧ off < 0x380 then
    let n := (off - 0x100) / 0x40
    match (off - 0x100) % 0x40 with
    | 0x00 => -- E_CTRL
      [⟨31, 31, .rw, 0, .any, true⟩, ⟨30, 30, .rw, 0, .any, false⟩, ⟨20, 16, .rw, 0, .range 0 16, false⟩,
       ⟨0, 0, .rw, 0, .any, false⟩]
    | 0x04 => -- E_RANGE
      [⟨24, 16, .rw, 0x1FF, .any, false⟩, ⟨8, 0, .rw, 0, .any, false⟩]
    | 0x08 => -- E_CLK
      [⟨15, 0, .rw, 1, .any, false⟩]
    | 0x0C => -- E_STAT
      [⟨31, 31, .w1c, 0, .any, false⟩, ⟨30, 30, .w1c, 0, .any, false⟩, ⟨29, 29, .w1c, 0, .any, false⟩,
       ⟨28, 28, .w1c, 0, .any, false⟩, ⟨27, 27, .w1c, 0, .any, false⟩, ⟨26, 26, .w1c, 0, .any, false⟩,
       ⟨25, 25, .w1c, 0, .any, false⟩, ⟨24, 16, .ro, 0, .any, false⟩, ⟨15, 12, .ro, 0, .any, false⟩,
       ⟨11, 11, .ro, 0, .any, false⟩, ⟨10, 10, .ro, 0, .any, false⟩, ⟨9, 9, .ro, 0, .any, false⟩,
       ⟨8, 8, .ro, 0, .any, false⟩, ⟨2, 0, .ro, 0, .any, false⟩]
    | 0x10 => -- E_BASE
      [⟨31, 0, .ro, 0, .any, false⟩]
    | 0x14 => -- E_X
      [⟨31, 0, .rw, 0, .any, false⟩]
    | 0x18 => -- E_Y
      [⟨31, 0, .rw, 0, .any, false⟩]
    | 0x1C => -- E_INJECT
      [⟨31, 0, .wo, 0, .any, true⟩]
    | 0x20 => -- E_TXFIFO
      [⟨31, 0, .wo, 0, .any, true⟩]
    | 0x24 => -- E_RXFIFO
      [⟨31, 0, .ro, 0, .any, false⟩]
    | 0x28 => -- E_FIFO_STAT
      [⟨31, 24, .ro, 0, .any, false⟩, ⟨15, 12, .ro, 0, .any, false⟩, ⟨7, 4, .ro, 0, .any, false⟩,
       ⟨0, 0, .ro, 0, .any, false⟩]
    | 0x2C => -- E_PINMAP0
      [⟨21, 16, .rw, (6 * n + 2) % 64, .any, false⟩, ⟨13, 8, .rw, (6 * n + 1) % 64, .any, false⟩,
       ⟨5, 0, .rw, 6 * n % 64, .any, false⟩]
    | 0x30 => -- E_PINMAP1
      [⟨21, 16, .rw, (6 * n + 5) % 64, .any, false⟩, ⟨13, 8, .rw, (6 * n + 4) % 64, .any, false⟩,
       ⟨5, 0, .rw, (6 * n + 3) % 64, .any, false⟩]
    | 0x34 => -- E_PINCFG
      [⟨29, 24, .rw, 0, .any, false⟩, ⟨23, 22, .rw, 0, .any, false⟩, ⟨21, 20, .rw, 0, .any, false⟩,
       ⟨19, 18, .rw, 0, .any, false⟩, ⟨17, 16, .rw, 0, .any, false⟩, ⟨15, 14, .rw, 0, .any, false⟩,
       ⟨13, 12, .rw, 0, .any, false⟩, ⟨11, 10, .rw, 0, .range 0 2, false⟩, ⟨9, 8, .rw, 0, .range 0 2, false⟩,
       ⟨7, 6, .rw, 0, .range 0 2, false⟩, ⟨5, 4, .rw, 0, .range 0 2, false⟩,
       ⟨3, 2, .rw, 0, .range 0 2, false⟩, ⟨1, 0, .rw, 0, .range 0 2, false⟩]
    | 0x38 => -- E_LATE_CNT
      [⟨31, 31, .ovf 15 0, 0, .any, false⟩, ⟨15, 0, .ro, 0, .any, false⟩]
    | 0x3C => -- E_RX_OVR
      [⟨31, 31, .ovf 15 0, 0, .any, false⟩, ⟨15, 0, .ro, 0, .any, false⟩]
    | _ => []
  else
  match off with
  | 0x000 => -- SS_CTRL
      [⟨31, 31, .wo, 0, .any, true⟩, ⟨30, 30, .wo, 0, .any, true⟩, ⟨17, 17, .rw, 0, .any, false⟩,
       ⟨16, 16, .rw, 0, .any, false⟩, ⟨9, 0, .rw, 0, .any, false⟩]
  | 0x004 => -- SS_AT
      [⟨31, 0, .rw, 0, .any, false⟩]
  | 0x008 => -- SS_STAT
      [⟨31, 31, .ro, 0, .any, false⟩, ⟨30, 30, .w1c, 0, .any, false⟩, ⟨29, 29, .w1c, 0, .any, false⟩,
       ⟨28, 28, .w1c, 0, .any, false⟩, ⟨25, 16, .w1c, 0, .any, false⟩, ⟨9, 0, .w1c, 0, .any, false⟩]
  | 0x00C => -- IRQ_STAT
      [⟨31, 31, .w1c, 0, .any, false⟩, ⟨25, 16, .w1c, 0, .any, false⟩, ⟨9, 0, .w1c, 0, .any, false⟩]
  | 0x010 => -- IRQ_EN
      [⟨31, 31, .rw, 0, .any, false⟩, ⟨25, 16, .rw, 0, .any, false⟩, ⟨9, 0, .rw, 0, .any, false⟩]
  | 0x014 => -- MAP_CONFLICT
      [⟨9, 0, .ro, 0, .any, false⟩]
  | _ => []

/-- Fields of the SCHEDLD register at offset `off`. -/
def schedldFields (off : Nat) : List Fld :=
  if 0x100 ≤ off ∧ off < 0x380 then
    match (off - 0x100) % 0x40 with
    | 0x00 => -- L_CMD
      [⟨2, 0, .wo, 0, .any, true⟩]
    | 0x04 => -- L_LOADCFG
      [⟨24, 16, .rw, 0, .any, false⟩, ⟨15, 0, .rw, 0, .any, false⟩]
    | 0x08 => -- L_BANKCRC
      [⟨31, 0, .rw, 0, .any, false⟩]
    | 0x0C => -- L_BSTAT
      [⟨31, 31, .ro, 0, .any, false⟩, ⟨30, 30, .ro, 0, .any, false⟩, ⟨26, 24, .ro, 0, .any, false⟩,
       ⟨16, 8, .ro, 0, .any, false⟩, ⟨7, 0, .ro, 0, .any, false⟩]
    | 0x10 => -- L_GEN
      [⟨31, 16, .ro, 0, .any, false⟩, ⟨15, 0, .ro, 0, .any, false⟩]
    | 0x14 => -- L_SWT_LO
      [⟨31, 0, .rw, 0, .any, false⟩]
    | 0x18 => -- L_SWT_HI
      [⟨7, 0, .rw, 0, .any, false⟩]
    | 0x1C => -- L_SWSTAT
      [⟨31, 31, .ro, 0, .any, false⟩, ⟨30, 30, .w1c, 0, .any, false⟩, ⟨29, 29, .w1c, 0, .any, false⟩,
       ⟨7, 0, .ro, 0, .any, false⟩]
    | 0x20 => -- L_POSMIN
      [⟨31, 0, .rwl, 0x80000000, .any, false⟩]
    | 0x24 => -- L_POSMAX
      [⟨31, 0, .rwl, 0x7FFFFFFF, .any, false⟩]
    | 0x28 => -- L_VELMAX
      [⟨31, 0, .rwl, 0, .any, false⟩]
    | 0x2C => -- L_ACCMAX
      [⟨31, 0, .rwl, 0, .any, false⟩]
    | 0x30 => -- L_CONTTOL
      [⟨15, 0, .rwl, 0x100, .any, false⟩]
    | _ => []
  else
  match off with
  | 0x000 => -- CTRL
      [⟨31, 31, .w1s, 0, .any, false⟩]
  | 0x004 => -- IRQ_STAT
      [⟨25, 16, .w1c, 0, .any, false⟩, ⟨9, 0, .w1c, 0, .any, false⟩]
  | 0x008 => -- IRQ_EN
      [⟨25, 16, .rw, 0, .any, false⟩, ⟨9, 0, .rw, 0, .any, false⟩]
  | 0x010 => -- COPY_SRC
      [⟨31, 5, .rw, 0, .any, false⟩]
  | 0x014 => -- COPY_CTRL
      [⟨31, 31, .wo, 0, .any, true⟩, ⟨30, 30, .rw, 0, .any, false⟩, ⟨27, 27, .ro, 0, .any, false⟩,
       ⟨26, 26, .w1c, 0, .any, false⟩, ⟨25, 25, .w1c, 0, .any, false⟩, ⟨24, 16, .rw, 0, .range 1 384, false⟩,
       ⟨3, 0, .rw, 0, .range 0 9, false⟩]
  | _ => []

/-- Fields of the PORT register at offset `off`. -/
def portFields (off : Nat) : List Fld :=
  match off with
  | 0x000 => -- CTRL
      [⟨31, 31, .rw, 1, .any, false⟩, ⟨30, 30, .rw, 0, .any, false⟩]
  | 0x004 => -- STAT
      [⟨31, 31, .ro, 0, .any, false⟩, ⟨30, 30, .ro, 0, .any, false⟩, ⟨29, 29, .ro, 0, .any, false⟩,
       ⟨28, 28, .ro, 0, .any, false⟩, ⟨27, 27, .ro, 0, .any, false⟩, ⟨26, 26, .ro, 0, .any, false⟩,
       ⟨25, 25, .ro, 0, .any, false⟩, ⟨22, 16, .ro, 0, .any, false⟩, ⟨15, 0, .ro, 0, .any, false⟩]
  | 0x008 => -- CODE_ERR
      [⟨31, 31, .ovf 15 0, 0, .any, false⟩, ⟨15, 0, .ro, 0, .any, false⟩]
  | 0x00C => -- CRC_ERR
      [⟨31, 31, .ovf 15 0, 0, .any, false⟩, ⟨15, 0, .ro, 0, .any, false⟩]
  | 0x010 => -- LOS_CNT
      [⟨31, 31, .ovf 15 0, 0, .any, false⟩, ⟨15, 0, .ro, 0, .any, false⟩]
  | _ => []

/-- Fields of the RINGCTL register at offset `off`. -/
def ringctlFields (off : Nat) : List Fld :=
  match off with
  | 0x000 => -- CTRL
      [⟨31, 31, .rw, 0, .any, true⟩, ⟨30, 30, .rw, 0, .any, false⟩, ⟨29, 29, .rw, 1, .any, false⟩,
       ⟨28, 28, .wo, 0, .any, true⟩, ⟨7, 0, .rw, 0x80, .any, false⟩]
  | 0x004 => -- STAT
      [⟨31, 31, .ro, 0, .any, false⟩, ⟨30, 30, .ro, 0, .any, false⟩, ⟨29, 29, .ro, 0, .any, false⟩,
       ⟨28, 28, .ro, 0, .any, false⟩, ⟨27, 27, .ro, 0, .any, false⟩, ⟨26, 26, .ro, 0, .any, false⟩,
       ⟨12, 8, .ro, 0, .any, false⟩, ⟨2, 0, .ro, 0, .any, false⟩]
  | 0x008 => -- ADDR
      [⟨6, 0, .rw, 0, .range 0 126, false⟩]
  | 0x00C => -- CYCLE
      [⟨25, 16, .ro, 0x64, .any, false⟩, ⟨9, 0, .rw, 0x64, .range 25 1000, false⟩]
  | 0x010 => -- SLOT
      [⟨31, 31, .rw, 0, .any, false⟩, ⟨29, 24, .rw, 1, .range 1 32, false⟩, ⟨22, 16, .rw, 0, .any, false⟩,
       ⟨15, 0, .rw, 0x1B, .any, false⟩]
  | 0x014 => -- ACYC
      [⟨31, 16, .ro, 0x1B, .any, false⟩, ⟨15, 0, .rw, 0x1B, .range 27 65535, false⟩]
  | 0x018 => -- CYCNUM
      [⟨15, 0, .ro, 0, .any, false⟩]
  | 0x01C => -- MASTER
      [⟨15, 8, .ro, 0, .any, false⟩, ⟨6, 0, .ro, 0, .any, false⟩]
  | 0x020 => -- MASTER_UID_LO
      [⟨31, 0, .ro, 0, .any, false⟩]
  | 0x024 => -- MASTER_UID_HI
      [⟨31, 0, .ro, 0, .any, false⟩]
  | 0x028 => -- SLEEP
      [⟨31, 31, .wo, 0, .any, true⟩, ⟨30, 30, .wo, 0, .any, true⟩, ⟨29, 29, .ro, 0, .any, false⟩,
       ⟨15, 0, .rw, 0x10, .range 4 32767, false⟩]
  | 0x02C => -- SLEEP_CYC
      [⟨15, 0, .ro, 0, .any, false⟩]
  | 0x030 => -- WAKE
      [⟨31, 31, .w1s, 0, .any, true⟩, ⟨30, 30, .rw, 0, .any, false⟩, ⟨4, 0, .rw, 0, .any, false⟩]
  | 0x034 => -- IRQ_STAT
      [⟨7, 7, .w1c, 0, .any, false⟩, ⟨6, 6, .w1c, 0, .any, false⟩, ⟨5, 5, .w1c, 0, .any, false⟩,
       ⟨4, 4, .w1c, 0, .any, false⟩, ⟨3, 3, .w1c, 0, .any, false⟩, ⟨2, 2, .w1c, 0, .any, false⟩,
       ⟨1, 1, .w1c, 0, .any, false⟩, ⟨0, 0, .w1c, 0, .any, false⟩]
  | 0x038 => -- IRQ_EN
      [⟨7, 7, .rw, 0, .any, false⟩, ⟨6, 6, .rw, 0, .any, false⟩, ⟨5, 5, .rw, 0, .any, false⟩,
       ⟨4, 4, .rw, 0, .any, false⟩, ⟨3, 3, .rw, 0, .any, false⟩, ⟨2, 2, .rw, 0, .any, false⟩,
       ⟨1, 1, .rw, 0, .any, false⟩, ⟨0, 0, .rw, 0, .any, false⟩]
  | 0x03C => -- MUTE_CNT
      [⟨31, 31, .ovf 15 0, 0, .any, false⟩, ⟨15, 0, .ro, 0, .any, false⟩]
  | 0x040 => -- BREAK_CNT
      [⟨31, 31, .ovf 15 0, 0, .any, false⟩, ⟨15, 0, .ro, 0, .any, false⟩]
  | 0x044 => -- SLOT_COLL
      [⟨31, 31, .ovf 15 0, 0, .any, false⟩, ⟨15, 0, .ro, 0, .any, false⟩]
  | 0x048 => -- ORPHAN
      [⟨31, 31, .ovf 15 0, 0, .any, false⟩, ⟨15, 0, .ro, 0, .any, false⟩]
  | _ => []

/-- Fields of the LINKQ register at offset `off`. -/
def linkqFields (off : Nat) : List Fld :=
  if 0x10 ≤ off ∧ off < 0x20 then -- SUB
      [⟨31, 0, .rw, 0, .any, false⟩]
  else
  if 0x100 ≤ off ∧ off < 0x200 then
    match (off - 0x100) % 0x20 with
    | 0x00 => -- Q_BASE
      [⟨31, 4, .rw, 0, .any, false⟩]
    | 0x04 => -- Q_CFG
      [⟨31, 31, .rw, 0, .any, false⟩, ⟨8, 0, .rw, 0x10, .range 2 256, false⟩]
    | 0x08 => -- Q_HEAD
      [⟨7, 0, .ro, 0, .any, false⟩]
    | 0x0C => -- Q_TAIL
      [⟨7, 0, .rw, 0, .any, true⟩]
    | 0x10 => -- Q_DROP
      [⟨31, 31, .ovf 15 0, 0, .any, false⟩, ⟨15, 0, .ro, 0, .any, false⟩]
    | _ => []
  else
  match off with
  | 0x000 => -- CTRL
      [⟨0, 0, .rw, 0, .any, false⟩]
  | 0x004 => -- IRQ_STAT
      [⟨15, 8, .w1c, 0, .any, false⟩, ⟨7, 0, .w1c, 0, .any, false⟩]
  | 0x008 => -- IRQ_EN
      [⟨15, 8, .rw, 0, .any, false⟩, ⟨7, 0, .rw, 0, .any, false⟩]
  | _ => []

/-- Fields of the DICTENG register at offset `off`. -/
def dictengFields (off : Nat) : List Fld :=
  match off with
  | 0x000 => -- CTRL
      [⟨31, 31, .rw, 1, .any, false⟩, ⟨30, 30, .rw, 1, .any, false⟩, ⟨29, 29, .rw, 1, .any, false⟩,
       ⟨28, 28, .rw, 0, .any, false⟩]
  | 0x004 => -- STAT
      [⟨31, 31, .ro, 0, .any, false⟩, ⟨30, 30, .ro, 0, .any, false⟩, ⟨29, 29, .ro, 0, .any, false⟩,
       ⟨11, 8, .ro, 0, .any, false⟩, ⟨3, 0, .ro, 0, .any, false⟩]
  | 0x008 => -- IRQ_STAT
      [⟨11, 11, .w1c, 0, .any, false⟩, ⟨10, 10, .w1c, 0, .any, false⟩, ⟨9, 9, .w1c, 0, .any, false⟩,
       ⟨8, 8, .w1c, 0, .any, false⟩, ⟨7, 4, .w1c, 0, .any, false⟩, ⟨3, 0, .w1c, 0, .any, false⟩]
  | 0x00C => -- IRQ_EN
      [⟨11, 11, .rw, 0, .any, false⟩, ⟨10, 10, .rw, 0, .any, false⟩, ⟨9, 9, .rw, 0, .any, false⟩,
       ⟨8, 8, .rw, 0, .any, false⟩, ⟨7, 4, .rw, 0, .any, false⟩, ⟨3, 0, .rw, 0, .any, false⟩]
  | 0x010 => -- COLL_BASE
      [⟨31, 15, .rw, 0, .any, false⟩]
  | 0x014 => -- LOC_BUF
      [⟨31, 2, .rw, 0, .any, false⟩]
  | 0x018 => -- LOC_CTRL
      [⟨31, 31, .wo, 0, .any, true⟩, ⟨30, 30, .w1c, 0, .any, false⟩]
  | 0x020 => -- APP_CFG
      [⟨31, 31, .rw, 0, .any, false⟩, ⟨15, 0, .rw, 0x3E8, .range 1 65535, false⟩]
  | 0x024 => -- APP_REQ
      [⟨30, 24, .ro, 0, .any, false⟩, ⟨23, 16, .ro, 0, .any, false⟩, ⟨15, 0, .ro, 0, .any, false⟩]
  | 0x028 => -- APP_LEN
      [⟨8, 0, .ro, 0, .any, false⟩]
  | 0x02C => -- APP_BUF
      [⟨31, 2, .rw, 0, .any, false⟩]
  | 0x030 => -- APP_RESP
      [⟨31, 31, .wo, 0, .any, true⟩, ⟨23, 16, .rw, 0, .any, false⟩, ⟨8, 0, .rw, 0, .range 0 500, false⟩]
  | 0x040 => -- REQ_CNT
      [⟨31, 31, .ovf 15 0, 0, .any, false⟩, ⟨15, 0, .ro, 0, .any, false⟩]
  | 0x044 => -- ABORT_CNT
      [⟨31, 31, .ovf 15 0, 0, .any, false⟩, ⟨15, 0, .ro, 0, .any, false⟩]
  | 0x048 => -- LATE_CNT
      [⟨31, 31, .ovf 15 0, 0, .any, false⟩, ⟨15, 0, .ro, 0, .any, false⟩]
  | 0x04C => -- APP_TO_CNT
      [⟨31, 31, .ovf 15 0, 0, .any, false⟩, ⟨15, 0, .ro, 0, .any, false⟩]
  | _ => []

/-- Fields of the MBOX register at offset `off`. -/
def mboxFields (off : Nat) : List Fld :=
  if 0x40 ≤ off ∧ off < 0x80 then -- ARG
      [⟨31, 0, .rw, 0, .any, false⟩]
  else
  match off with
  | 0x000 => -- CMD
      [⟨31, 31, .wo, 0, .any, true⟩, ⟨7, 0, .rw, 0, .any, false⟩]
  | 0x004 => -- STAT
      [⟨31, 31, .ro, 0, .any, false⟩, ⟨30, 30, .w1c, 0, .any, false⟩, ⟨29, 29, .rw, 0, .any, false⟩,
       ⟨7, 0, .ro, 0, .any, false⟩]
  | 0x080 => -- TEMP
      [⟨29, 20, .ro, 0, .any, false⟩, ⟨19, 10, .ro, 0, .any, false⟩, ⟨9, 0, .ro, 0, .any, false⟩]
  | 0x100 => -- WDOG_CTRL
      [⟨31, 31, .w1s, 0, .any, false⟩, ⟨29, 20, .rw, 0xA, .any, false⟩, ⟨19, 16, .rw, 0, .any, false⟩,
       ⟨15, 0, .rw, 0x3E8, .range 1 65535, false⟩]
  | 0x104 => -- WDOG_KICK
      [⟨15, 0, .wo, 0, .any, true⟩]
  | 0x108 => -- WDOG_STAT
      [⟨31, 31, .w1c, 0, .any, false⟩, ⟨15, 0, .ro, 0, .any, false⟩]
  | _ => []

/-- The block whose 4 KiB hold bus address `a` (R37). -/
def blockOf (a : Nat) : Option Block :=
  let p := a / 4096
  if 0x40004 ≤ p ∧ p < 0x40006 then some (.uart (p - 0x40004)) else
  if 0x50000 ≤ p ∧ p < 0x5000A then some (.lane (p - 0x50000)) else
  if 0x60000 ≤ p ∧ p < 0x60002 then some (.port (p - 0x60000)) else
  match p with
  | 0x40000 => some .clkgen
  | 0x40001 => some .pwrctl
  | 0x40002 => some .rstctl
  | 0x40003 => some .evroute
  | 0x40006 => some .svcwire
  | 0x40007 => some .memctl
  | 0x40008 => some .recstore
  | 0x40009 => some .flashctl
  | 0x4000A => some .erragg
  | 0x4000B => some .mtime
  | 0x4000C => some .adcseq
  | 0x48000 => some .rtc
  | 0x48001 => some .harvest
  | 0x48002 => some .touch
  | 0x48003 => some .aonctl
  | 0x48004 => some .vaultctl
  | 0x50100 => some .pineng
  | 0x50200 => some .schedld
  | 0x60002 => some .ringctl
  | 0x60003 => some .linkq
  | 0x60004 => some .dicteng
  | 0x70000 => some .mbox
  | _ => none

/-- The fields of the register at bus address `a`; none at a reserved offset (R13) or outside every block. -/
def fieldsAt (a : Nat) : List Fld :=
  if a % 4 ≠ 0 then [] else
  let off := a % 4096
  match blockOf a with
  | some .clkgen => clkgenFields off
  | some .pwrctl => pwrctlFields off
  | some .rstctl => rstctlFields off
  | some .evroute => evrouteFields off
  | some (.uart n) => uartFields n off
  | some .svcwire => svcwireFields off
  | some .memctl => memctlFields off
  | some .recstore => recstoreFields off
  | some .flashctl => flashctlFields off
  | some .erragg => erraggFields off
  | some .mtime => mtimeFields off
  | some .adcseq => adcseqFields off
  | some .rtc => rtcFields off
  | some .harvest => harvestFields off
  | some .touch => touchFields off
  | some .aonctl => aonctlFields off
  | some .vaultctl => vaultctlFields off
  | some (.lane _) => laneFields off
  | some .pineng => pinengFields off
  | some .schedld => schedldFields off
  | some (.port _) => portFields off
  | some .ringctl => ringctlFields off
  | some .linkq => linkqFields off
  | some .dicteng => dictengFields off
  | some .mbox => mboxFields off
  | none => []

/-- The field held under key `k` (its register's bus address times 32 plus its lowest bit). -/
def fldAt (k : Nat) : Option Fld := (fieldsAt (k / 32)).find? fun f => f.lo == k % 32

/-- The reset value of the field held under key `k`: the one its table gives. (DESIGN CHOICE, log entry 3). -/
def fieldReset (k : Nat) : Nat :=
  match fldAt k with
  | some f => f.rst
  | none => 0

end Sys2Proof.Machine

namespace Sys2Proof.Machine.CLKGEN

/-- CLKGEN.SYS_CFG: bus address. -/
abbrev SYS_CFG : Nat := 0x40000000
abbrev SYS_CFG_CEIL : RF := ⟨SYS_CFG, 31, 24⟩
abbrev SYS_CFG_POST : RF := ⟨SYS_CFG, 17, 16⟩
abbrev SYS_CFG_MUL : RF := ⟨SYS_CFG, 4, 0⟩
/-- CLKGEN.STAT: bus address. -/
abbrev STAT : Nat := 0x40000004
abbrev STAT_RELOCK : RF := ⟨STAT, 31, 31⟩
abbrev STAT_SYS_LOCK : RF := ⟨STAT, 30, 30⟩
abbrev STAT_TB_LOCK : RF := ⟨STAT, 29, 29⟩
abbrev STAT_CEIL_REJ : RF := ⟨STAT, 28, 28⟩
abbrev STAT_SRC : RF := ⟨STAT, 27, 26⟩
abbrev STAT_SYS_MHZ : RF := ⟨STAT, 8, 0⟩

end Sys2Proof.Machine.CLKGEN

namespace Sys2Proof.Machine.PWRCTL

/-- PWRCTL.CTRL: bus address. -/
abbrev CTRL : Nat := 0x40001000
abbrev CTRL_MODE_IE : RF := ⟨CTRL, 8, 8⟩
abbrev CTRL_TARGET : RF := ⟨CTRL, 2, 0⟩
/-- PWRCTL.STAT: bus address. -/
abbrev STAT : Nat := 0x40001004
abbrev STAT_MODE_CHG : RF := ⟨STAT, 31, 31⟩
abbrev STAT_REFUSED : RF := ⟨STAT, 30, 30⟩
abbrev STAT_ABORTED : RF := ⟨STAT, 29, 29⟩
abbrev STAT_REASON : RF := ⟨STAT, 23, 20⟩
abbrev STAT_LAST_EXIT : RF := ⟨STAT, 10, 8⟩
abbrev STAT_REG_LP : RF := ⟨STAT, 1, 1⟩
abbrev STAT_DOCKED : RF := ⟨STAT, 0, 0⟩
/-- PWRCTL.RET: bus address. -/
abbrev RET : Nat := 0x40001008
abbrev RET_RET : RF := ⟨RET, 7, 0⟩

end Sys2Proof.Machine.PWRCTL

namespace Sys2Proof.Machine.RSTCTL

/-- RSTCTL.CAUSE: bus address. -/
abbrev CAUSE : Nat := 0x40002000
abbrev CAUSE_BOOT_REC : RF := ⟨CAUSE, 31, 31⟩
abbrev CAUSE_RECOVERY : RF := ⟨CAUSE, 30, 30⟩
abbrev CAUSE_TRIAL : RF := ⟨CAUSE, 29, 29⟩
abbrev CAUSE_ROLLED_BACK : RF := ⟨CAUSE, 28, 28⟩
abbrev CAUSE_BOOTFAIL : RF := ⟨CAUSE, 19, 16⟩
abbrev CAUSE_ENTRY : RF := ⟨CAUSE, 11, 8⟩
abbrev CAUSE_CODE : RF := ⟨CAUSE, 3, 0⟩
/-- RSTCTL.HEALTH: bus address. -/
abbrev HEALTH : Nat := 0x40002004
abbrev HEALTH_CONFIRM : RF := ⟨HEALTH, 31, 31⟩
abbrev HEALTH_REMAIN : RF := ⟨HEALTH, 15, 0⟩
/-- RSTCTL.SWRST: bus address. -/
abbrev SWRST : Nat := 0x40002008
abbrev SWRST_KEY : RF := ⟨SWRST, 15, 0⟩

end Sys2Proof.Machine.RSTCTL

namespace Sys2Proof.Machine.EVROUTE

/-- EVROUTE.GCTL: bus address. -/
abbrev GCTL : Nat := 0x40003000
abbrev GCTL_LOCK : RF := ⟨GCTL, 31, 31⟩
abbrev GCTL_MODE : RF := ⟨GCTL, 0, 0⟩
/-- EVROUTE.FIRE: bus address. -/
abbrev FIRE : Nat := 0x40003004
abbrev FIRE_FIRE : RF := ⟨FIRE, 31, 0⟩
/-- EVROUTE.LEVEL: bus address. -/
abbrev LEVEL : Nat := 0x40003008
abbrev LEVEL_LEVEL : RF := ⟨LEVEL, 31, 0⟩
/-- EVROUTE.IRQ_STAT: bus address. -/
abbrev IRQ_STAT : Nat := 0x4000300C
abbrev IRQ_STAT_EDGE : RF := ⟨IRQ_STAT, 31, 0⟩
/-- EVROUTE.IRQ_EN_APP: bus address. -/
abbrev IRQ_EN_APP : Nat := 0x40003010
abbrev IRQ_EN_APP_EN : RF := ⟨IRQ_EN_APP, 31, 0⟩
/-- EVROUTE.IRQ_EN_CRK: bus address. -/
abbrev IRQ_EN_CRK : Nat := 0x40003014
abbrev IRQ_EN_CRK_EN : RF := ⟨IRQ_EN_CRK, 31, 0⟩
/-- EVROUTE.DENIED: bus address. -/
abbrev DENIED : Nat := 0x40003018
abbrev DENIED_OVF : RF := ⟨DENIED, 31, 31⟩
abbrev DENIED_COUNT : RF := ⟨DENIED, 15, 0⟩
/-- EVROUTE.CH_SEL: bus address. -/
abbrev CH_SEL (k : Nat) : Nat := 0x40003100 + k * 0x4
abbrev CH_SEL_PSEL3 (k : Nat) : RF := ⟨CH_SEL k, 31, 24⟩
abbrev CH_SEL_PSEL2 (k : Nat) : RF := ⟨CH_SEL k, 23, 16⟩
abbrev CH_SEL_PSEL1 (k : Nat) : RF := ⟨CH_SEL k, 15, 8⟩
abbrev CH_SEL_PSEL0 (k : Nat) : RF := ⟨CH_SEL k, 7, 0⟩
/-- EVROUTE.CH_CFG: bus address. -/
abbrev CH_CFG (k : Nat) : Nat := 0x40003180 + k * 0x4
abbrev CH_CFG_OWN (k : Nat) : RF := ⟨CH_CFG k, 31, 30⟩
abbrev CH_CFG_SEC (k : Nat) : RF := ⟨CH_CFG k, 29, 29⟩
abbrev CH_CFG_GATE_INV (k : Nat) : RF := ⟨CH_CFG k, 7, 7⟩
abbrev CH_CFG_GATE (k : Nat) : RF := ⟨CH_CFG k, 6, 0⟩

end Sys2Proof.Machine.EVROUTE

namespace Sys2Proof.Machine.UART

/-- UART.CTRL: bus address. -/
abbrev CTRL (n : Nat) : Nat := 0x40004000 + n * 0x1000
abbrev CTRL_EN (n : Nat) : RF := ⟨CTRL n, 31, 31⟩
abbrev CTRL_RX_EN (n : Nat) : RF := ⟨CTRL n, 30, 30⟩
abbrev CTRL_TX_EN (n : Nat) : RF := ⟨CTRL n, 29, 29⟩
abbrev CTRL_DICT (n : Nat) : RF := ⟨CTRL n, 28, 28⟩
abbrev CTRL_DE_EN (n : Nat) : RF := ⟨CTRL n, 27, 27⟩
abbrev CTRL_DE_POL (n : Nat) : RF := ⟨CTRL n, 26, 26⟩
abbrev CTRL_RX_IN_DE (n : Nat) : RF := ⟨CTRL n, 25, 25⟩
abbrev CTRL_MUTE_REQ (n : Nat) : RF := ⟨CTRL n, 24, 24⟩
abbrev CTRL_AM_EN (n : Nat) : RF := ⟨CTRL n, 6, 6⟩
abbrev CTRL_NINE (n : Nat) : RF := ⟨CTRL n, 5, 5⟩
abbrev CTRL_STOP2 (n : Nat) : RF := ⟨CTRL n, 4, 4⟩
abbrev CTRL_PAR (n : Nat) : RF := ⟨CTRL n, 3, 2⟩
/-- UART.BAUD: bus address. -/
abbrev BAUD (n : Nat) : Nat := 0x40004004 + n * 0x1000
abbrev BAUD_DIV (n : Nat) : RF := ⟨BAUD n, 19, 0⟩
/-- UART.ADDR: bus address. -/
abbrev ADDR (n : Nat) : Nat := 0x40004008 + n * 0x1000
abbrev ADDR_MASK (n : Nat) : RF := ⟨ADDR n, 15, 8⟩
abbrev ADDR_ADDR (n : Nat) : RF := ⟨ADDR n, 7, 0⟩
/-- UART.DE_TIME: bus address. -/
abbrev DE_TIME (n : Nat) : Nat := 0x4000400C + n * 0x1000
abbrev DE_TIME_DE_LAG (n : Nat) : RF := ⟨DE_TIME n, 15, 8⟩
abbrev DE_TIME_DE_LEAD (n : Nat) : RF := ⟨DE_TIME n, 7, 0⟩
/-- UART.STAT: bus address. -/
abbrev STAT (n : Nat) : Nat := 0x40004010 + n * 0x1000
abbrev STAT_RX_THR (n : Nat) : RF := ⟨STAT n, 31, 31⟩
abbrev STAT_TX_THR (n : Nat) : RF := ⟨STAT n, 30, 30⟩
abbrev STAT_TX_DONE (n : Nat) : RF := ⟨STAT n, 29, 29⟩
abbrev STAT_OVR (n : Nat) : RF := ⟨STAT n, 28, 28⟩
abbrev STAT_BREAK (n : Nat) : RF := ⟨STAT n, 27, 27⟩
abbrev STAT_RX_UNDER (n : Nat) : RF := ⟨STAT n, 26, 26⟩
abbrev STAT_TX_OVR (n : Nat) : RF := ⟨STAT n, 25, 25⟩
abbrev STAT_WR_IGN (n : Nat) : RF := ⟨STAT n, 24, 24⟩
abbrev STAT_MUTED (n : Nat) : RF := ⟨STAT n, 23, 23⟩
/-- UART.IRQ_EN: bus address. -/
abbrev IRQ_EN (n : Nat) : Nat := 0x40004014 + n * 0x1000
abbrev IRQ_EN_RX_THR (n : Nat) : RF := ⟨IRQ_EN n, 31, 31⟩
abbrev IRQ_EN_TX_THR (n : Nat) : RF := ⟨IRQ_EN n, 30, 30⟩
abbrev IRQ_EN_TX_DONE (n : Nat) : RF := ⟨IRQ_EN n, 29, 29⟩
abbrev IRQ_EN_OVR (n : Nat) : RF := ⟨IRQ_EN n, 28, 28⟩
abbrev IRQ_EN_BREAK (n : Nat) : RF := ⟨IRQ_EN n, 27, 27⟩
abbrev IRQ_EN_RX_UNDER (n : Nat) : RF := ⟨IRQ_EN n, 26, 26⟩
abbrev IRQ_EN_TX_OVR (n : Nat) : RF := ⟨IRQ_EN n, 25, 25⟩
abbrev IRQ_EN_WR_IGN (n : Nat) : RF := ⟨IRQ_EN n, 24, 24⟩
/-- UART.DATA: bus address. -/
abbrev DATA (n : Nat) : Nat := 0x40004018 + n * 0x1000
abbrev DATA_DATA (n : Nat) : RF := ⟨DATA n, 11, 0⟩
/-- UART.FIFO: bus address. -/
abbrev FIFO (n : Nat) : Nat := 0x4000401C + n * 0x1000
abbrev FIFO_RX_LVL (n : Nat) : RF := ⟨FIFO n, 28, 24⟩
abbrev FIFO_TX_LVL (n : Nat) : RF := ⟨FIFO n, 20, 16⟩
abbrev FIFO_RX_THR (n : Nat) : RF := ⟨FIFO n, 11, 8⟩
abbrev FIFO_TX_THR (n : Nat) : RF := ⟨FIFO n, 3, 0⟩
/-- UART.PE_CNT: bus address. -/
abbrev PE_CNT (n : Nat) : Nat := 0x40004020 + n * 0x1000
abbrev PE_CNT_OVF (n : Nat) : RF := ⟨PE_CNT n, 31, 31⟩
abbrev PE_CNT_COUNT (n : Nat) : RF := ⟨PE_CNT n, 15, 0⟩
/-- UART.FE_CNT: bus address. -/
abbrev FE_CNT (n : Nat) : Nat := 0x40004024 + n * 0x1000
abbrev FE_CNT_OVF (n : Nat) : RF := ⟨FE_CNT n, 31, 31⟩
abbrev FE_CNT_COUNT (n : Nat) : RF := ⟨FE_CNT n, 15, 0⟩
/-- UART.NF_CNT: bus address. -/
abbrev NF_CNT (n : Nat) : Nat := 0x40004028 + n * 0x1000
abbrev NF_CNT_OVF (n : Nat) : RF := ⟨NF_CNT n, 31, 31⟩
abbrev NF_CNT_COUNT (n : Nat) : RF := ⟨NF_CNT n, 15, 0⟩
/-- UART.OVR_CNT: bus address. -/
abbrev OVR_CNT (n : Nat) : Nat := 0x4000402C + n * 0x1000
abbrev OVR_CNT_OVF (n : Nat) : RF := ⟨OVR_CNT n, 31, 31⟩
abbrev OVR_CNT_COUNT (n : Nat) : RF := ⟨OVR_CNT n, 15, 0⟩
/-- UART.ENV_ERR: bus address. -/
abbrev ENV_ERR (n : Nat) : Nat := 0x40004030 + n * 0x1000
abbrev ENV_ERR_OVF (n : Nat) : RF := ⟨ENV_ERR n, 31, 31⟩
abbrev ENV_ERR_COUNT (n : Nat) : RF := ⟨ENV_ERR n, 15, 0⟩

end Sys2Proof.Machine.UART

namespace Sys2Proof.Machine.SVCWIRE

/-- SVCWIRE.ADDR: bus address. -/
abbrev ADDR : Nat := 0x40006000
abbrev ADDR_LOCK : RF := ⟨ADDR, 31, 31⟩
abbrev ADDR_ADDR : RF := ⟨ADDR, 6, 0⟩
/-- SVCWIRE.CTRL: bus address. -/
abbrev CTRL : Nat := 0x40006004
abbrev CTRL_RDY : RF := ⟨CTRL, 31, 31⟩
abbrev CTRL_ROUTE : RF := ⟨CTRL, 30, 30⟩
abbrev CTRL_OWNER : RF := ⟨CTRL, 29, 29⟩
abbrev CTRL_STRETCH_LIM : RF := ⟨CTRL, 15, 8⟩
abbrev CTRL_ERR_IE : RF := ⟨CTRL, 1, 1⟩
abbrev CTRL_REQ_IE : RF := ⟨CTRL, 0, 0⟩
/-- SVCWIRE.STAT: bus address. -/
abbrev STAT : Nat := 0x40006008
abbrev STAT_BUSY : RF := ⟨STAT, 31, 31⟩
abbrev STAT_REQ : RF := ⟨STAT, 30, 30⟩
abbrev STAT_RESP_RDY : RF := ⟨STAT, 29, 29⟩
abbrev STAT_ENV_EV : RF := ⟨STAT, 28, 28⟩
abbrev STAT_OVR : RF := ⟨STAT, 27, 27⟩
abbrev STAT_STRETCH_TO : RF := ⟨STAT, 26, 26⟩
abbrev STAT_DROP : RF := ⟨STAT, 25, 25⟩
abbrev STAT_RX_LEN : RF := ⟨STAT, 9, 0⟩
/-- SVCWIRE.RESP: bus address. -/
abbrev RESP : Nat := 0x4000600C
abbrev RESP_GO : RF := ⟨RESP, 31, 31⟩
abbrev RESP_LEN : RF := ⟨RESP, 9, 0⟩
/-- SVCWIRE.ENV_ERR: bus address. -/
abbrev ENV_ERR : Nat := 0x40006010
abbrev ENV_ERR_OVF : RF := ⟨ENV_ERR, 31, 31⟩
abbrev ENV_ERR_COUNT : RF := ⟨ENV_ERR, 15, 0⟩

end Sys2Proof.Machine.SVCWIRE

namespace Sys2Proof.Machine.MEMCTL

/-- MEMCTL.MT_CTRL: bus address. -/
abbrev MT_CTRL : Nat := 0x40007000
abbrev MT_CTRL_GO : RF := ⟨MT_CTRL, 31, 31⟩
abbrev MT_CTRL_ABORT : RF := ⟨MT_CTRL, 30, 30⟩
abbrev MT_CTRL_MODE : RF := ⟨MT_CTRL, 5, 4⟩
abbrev MT_CTRL_TARGET : RF := ⟨MT_CTRL, 3, 0⟩
/-- MEMCTL.MT_STAT: bus address. -/
abbrev MT_STAT : Nat := 0x40007004
abbrev MT_STAT_BUSY : RF := ⟨MT_STAT, 31, 31⟩
abbrev MT_STAT_DONE : RF := ⟨MT_STAT, 30, 30⟩
abbrev MT_STAT_FAIL : RF := ⟨MT_STAT, 29, 29⟩
abbrev MT_STAT_REFUSED : RF := ⟨MT_STAT, 28, 28⟩
abbrev MT_STAT_ABORTED : RF := ⟨MT_STAT, 27, 27⟩
abbrev MT_STAT_ELEMENT : RF := ⟨MT_STAT, 2, 0⟩
/-- MEMCTL.MT_FAIL_ADDR: bus address. -/
abbrev MT_FAIL_ADDR : Nat := 0x40007008
abbrev MT_FAIL_ADDR_ADDR : RF := ⟨MT_FAIL_ADDR, 31, 0⟩
/-- MEMCTL.MT_FAIL_READ: bus address. -/
abbrev MT_FAIL_READ : Nat := 0x4000700C
abbrev MT_FAIL_READ_READ : RF := ⟨MT_FAIL_READ, 31, 0⟩
/-- MEMCTL.MT_FAIL_EXP: bus address. -/
abbrev MT_FAIL_EXP : Nat := 0x40007010
abbrev MT_FAIL_EXP_EXP : RF := ⟨MT_FAIL_EXP, 31, 0⟩
/-- MEMCTL.MT_FAIL_CHK: bus address. -/
abbrev MT_FAIL_CHK : Nat := 0x40007014
abbrev MT_FAIL_CHK_CHK_EXP : RF := ⟨MT_FAIL_CHK, 14, 8⟩
abbrev MT_FAIL_CHK_CHK_READ : RF := ⟨MT_FAIL_CHK, 6, 0⟩
/-- MEMCTL.START_RES: bus address. -/
abbrev START_RES : Nat := 0x40007018
abbrev START_RES_TESTED : RF := ⟨START_RES, 15, 8⟩
abbrev START_RES_FAILED : RF := ⟨START_RES, 7, 0⟩
/-- MEMCTL.ECC_ADDR: bus address. -/
abbrev ECC_ADDR : Nat := 0x40007020
abbrev ECC_ADDR_ADDR : RF := ⟨ECC_ADDR, 31, 0⟩
/-- MEMCTL.IRQ_STAT: bus address. -/
abbrev IRQ_STAT : Nat := 0x40007024
abbrev IRQ_STAT_UNCORR : RF := ⟨IRQ_STAT, 2, 2⟩
abbrev IRQ_STAT_CORR : RF := ⟨IRQ_STAT, 1, 1⟩
abbrev IRQ_STAT_MT_DONE : RF := ⟨IRQ_STAT, 0, 0⟩
/-- MEMCTL.IRQ_EN: bus address. -/
abbrev IRQ_EN : Nat := 0x40007028
abbrev IRQ_EN_UNCORR : RF := ⟨IRQ_EN, 2, 2⟩
abbrev IRQ_EN_CORR : RF := ⟨IRQ_EN, 1, 1⟩
abbrev IRQ_EN_MT_DONE : RF := ⟨IRQ_EN, 0, 0⟩
/-- MEMCTL.ECC_CORR: bus address. -/
abbrev ECC_CORR : Nat := 0x4000702C
abbrev ECC_CORR_OVF : RF := ⟨ECC_CORR, 31, 31⟩
abbrev ECC_CORR_COUNT : RF := ⟨ECC_CORR, 15, 0⟩
/-- MEMCTL.ECC_UNCORR: bus address. -/
abbrev ECC_UNCORR : Nat := 0x40007030
abbrev ECC_UNCORR_OVF : RF := ⟨ECC_UNCORR, 31, 31⟩
abbrev ECC_UNCORR_COUNT : RF := ⟨ECC_UNCORR, 15, 0⟩

end Sys2Proof.Machine.MEMCTL

namespace Sys2Proof.Machine.RECSTORE

/-- RECSTORE.C_CMD: bus address. -/
abbrev C_CMD (k : Nat) : Nat := 0x40008000 + k * 0x800
abbrev C_CMD_GO (k : Nat) : RF := ⟨C_CMD k, 31, 31⟩
abbrev C_CMD_ABORT (k : Nat) : RF := ⟨C_CMD k, 30, 30⟩
abbrev C_CMD_OP (k : Nat) : RF := ⟨C_CMD k, 3, 0⟩
/-- RECSTORE.C_STATUS: bus address. -/
abbrev C_STATUS (k : Nat) : Nat := 0x40008004 + k * 0x800
abbrev C_STATUS_BUSY (k : Nat) : RF := ⟨C_STATUS k, 31, 31⟩
abbrev C_STATUS_DONE (k : Nat) : RF := ⟨C_STATUS k, 30, 30⟩
abbrev C_STATUS_TOO_LATE (k : Nat) : RF := ⟨C_STATUS k, 29, 29⟩
abbrev C_STATUS_CMD_IGN (k : Nat) : RF := ⟨C_STATUS k, 28, 28⟩
abbrev C_STATUS_GROUP_OPEN (k : Nat) : RF := ⟨C_STATUS k, 27, 27⟩
abbrev C_STATUS_MOUNTED (k : Nat) : RF := ⟨C_STATUS k, 26, 26⟩
abbrev C_STATUS_RESULT (k : Nat) : RF := ⟨C_STATUS k, 7, 0⟩
/-- RECSTORE.C_ADDR: bus address. -/
abbrev C_ADDR (k : Nat) : Nat := 0x40008008 + k * 0x800
abbrev C_ADDR_ADDR (k : Nat) : RF := ⟨C_ADDR k, 15, 2⟩
/-- RECSTORE.C_KEY: bus address. -/
abbrev C_KEY (k : Nat) : Nat := 0x4000800C + k * 0x800
abbrev C_KEY_SEQ (k : Nat) : RF := ⟨C_KEY k, 31, 16⟩
abbrev C_KEY_KEY (k : Nat) : RF := ⟨C_KEY k, 15, 0⟩
/-- RECSTORE.C_LEN: bus address. -/
abbrev C_LEN (k : Nat) : Nat := 0x40008010 + k * 0x800
abbrev C_LEN_LEN (k : Nat) : RF := ⟨C_LEN k, 10, 0⟩
/-- RECSTORE.C_GID: bus address. -/
abbrev C_GID (k : Nat) : Nat := 0x40008014 + k * 0x800
abbrev C_GID_GID (k : Nat) : RF := ⟨C_GID k, 15, 0⟩
/-- RECSTORE.CFG: bus address. -/
abbrev CFG : Nat := 0x40008040
abbrev CFG_LOCK : RF := ⟨CFG, 31, 31⟩
abbrev CFG_SCAN_EN : RF := ⟨CFG, 30, 30⟩
abbrev CFG_SCAN_HRS : RF := ⟨CFG, 7, 0⟩
/-- RECSTORE.LOG_MASK: bus address. -/
abbrev LOG_MASK : Nat := 0x40008044
abbrev LOG_MASK_MASK : RF := ⟨LOG_MASK, 31, 0⟩
/-- RECSTORE.RAW_MASK: bus address. -/
abbrev RAW_MASK : Nat := 0x40008048
abbrev RAW_MASK_MASK : RF := ⟨RAW_MASK, 31, 0⟩
/-- RECSTORE.APPEND_PTR: bus address. -/
abbrev APPEND_PTR : Nat := 0x4000804C
abbrev APPEND_PTR_SECTOR : RF := ⟨APPEND_PTR, 20, 16⟩
abbrev APPEND_PTR_OFFSET : RF := ⟨APPEND_PTR, 10, 0⟩
/-- RECSTORE.FREE: bus address. -/
abbrev FREE : Nat := 0x40008050
abbrev FREE_ERASED : RF := ⟨FREE, 31, 24⟩
abbrev FREE_BYTES : RF := ⟨FREE, 16, 0⟩
/-- RECSTORE.DIRTY_MASK: bus address. -/
abbrev DIRTY_MASK : Nat := 0x40008054
abbrev DIRTY_MASK_DIRTY : RF := ⟨DIRTY_MASK, 31, 0⟩
/-- RECSTORE.IRQ_STAT: bus address. -/
abbrev IRQ_STAT : Nat := 0x40008058
abbrev IRQ_STAT_REFRESH_FAIL : RF := ⟨IRQ_STAT, 3, 3⟩
abbrev IRQ_STAT_MOUNT : RF := ⟨IRQ_STAT, 2, 2⟩
abbrev IRQ_STAT_DONE_S : RF := ⟨IRQ_STAT, 1, 1⟩
abbrev IRQ_STAT_DONE_A : RF := ⟨IRQ_STAT, 0, 0⟩
/-- RECSTORE.IRQ_EN: bus address. -/
abbrev IRQ_EN : Nat := 0x4000805C
abbrev IRQ_EN_REFRESH_FAIL : RF := ⟨IRQ_EN, 3, 3⟩
abbrev IRQ_EN_MOUNT : RF := ⟨IRQ_EN, 2, 2⟩
abbrev IRQ_EN_DONE_S : RF := ⟨IRQ_EN, 1, 1⟩
abbrev IRQ_EN_DONE_A : RF := ⟨IRQ_EN, 0, 0⟩
/-- RECSTORE.REFRESH_CNT: bus address. -/
abbrev REFRESH_CNT : Nat := 0x40008060
abbrev REFRESH_CNT_OVF : RF := ⟨REFRESH_CNT, 31, 31⟩
abbrev REFRESH_CNT_COUNT : RF := ⟨REFRESH_CNT, 15, 0⟩

end Sys2Proof.Machine.RECSTORE

namespace Sys2Proof.Machine.FLASHCTL

/-- FLASHCTL.CMD: bus address. -/
abbrev CMD : Nat := 0x40009000
abbrev CMD_GO : RF := ⟨CMD, 31, 31⟩
abbrev CMD_OP : RF := ⟨CMD, 1, 0⟩
/-- FLASHCTL.STATUS: bus address. -/
abbrev STATUS : Nat := 0x40009004
abbrev STATUS_BUSY : RF := ⟨STATUS, 31, 31⟩
abbrev STATUS_DONE : RF := ⟨STATUS, 30, 30⟩
abbrev STATUS_RESULT : RF := ⟨STATUS, 7, 0⟩
/-- FLASHCTL.ADDR: bus address. -/
abbrev ADDR : Nat := 0x40009008
abbrev ADDR_ADDR : RF := ⟨ADDR, 31, 2⟩
/-- FLASHCTL.SRC: bus address. -/
abbrev SRC : Nat := 0x4000900C
abbrev SRC_SRC : RF := ⟨SRC, 31, 2⟩
/-- FLASHCTL.LEN: bus address. -/
abbrev LEN : Nat := 0x40009010
abbrev LEN_LEN : RF := ⟨LEN, 12, 0⟩

end Sys2Proof.Machine.FLASHCTL

namespace Sys2Proof.Machine.ERRAGG

/-- ERRAGG.CTRL: bus address. -/
abbrev CTRL : Nat := 0x4000A000
abbrev CTRL_LOCK : RF := ⟨CTRL, 31, 31⟩
abbrev CTRL_WEDGE_RST : RF := ⟨CTRL, 30, 30⟩
abbrev CTRL_CHIP_POL : RF := ⟨CTRL, 1, 0⟩
/-- ERRAGG.STAT: bus address. -/
abbrev STAT : Nat := 0x4000A004
abbrev STAT_CHIP_EV : RF := ⟨STAT, 31, 31⟩
abbrev STAT_WEDGED : RF := ⟨STAT, 30, 30⟩
abbrev STAT_REGION_EV : RF := ⟨STAT, 4, 0⟩
/-- ERRAGG.IRQ_EN: bus address. -/
abbrev IRQ_EN : Nat := 0x4000A008
abbrev IRQ_EN_CHIP_EV : RF := ⟨IRQ_EN, 31, 31⟩
abbrev IRQ_EN_REGION_EV : RF := ⟨IRQ_EN, 4, 0⟩
/-- ERRAGG.REG: bus address. -/
abbrev REG (k : Nat) : Nat := 0x4000A010 + k * 0x4
abbrev REG_LATCH (k : Nat) : RF := ⟨REG k, 31, 31⟩
abbrev REG_OVF (k : Nat) : RF := ⟨REG k, 30, 30⟩
abbrev REG_POLICY (k : Nat) : RF := ⟨REG k, 29, 28⟩
abbrev REG_LAST_SRC (k : Nat) : RF := ⟨REG k, 21, 16⟩
abbrev REG_COUNT (k : Nat) : RF := ⟨REG k, 15, 0⟩
/-- ERRAGG.SRC: bus address. -/
abbrev SRC (k : Nat) : Nat := 0x4000A100 + k * 0x4
abbrev SRC_LATCH (k : Nat) : RF := ⟨SRC k, 31, 31⟩
abbrev SRC_OVF (k : Nat) : RF := ⟨SRC k, 30, 30⟩
abbrev SRC_POLICY (k : Nat) : RF := ⟨SRC k, 29, 28⟩
abbrev SRC_PEND (k : Nat) : RF := ⟨SRC k, 27, 27⟩
abbrev SRC_WEDGED (k : Nat) : RF := ⟨SRC k, 26, 26⟩
abbrev SRC_LEVEL (k : Nat) : RF := ⟨SRC k, 25, 24⟩
abbrev SRC_REPEAT (k : Nat) : RF := ⟨SRC k, 23, 8⟩
abbrev SRC_CAUSE (k : Nat) : RF := ⟨SRC k, 7, 0⟩
/-- ERRAGG.DETAIL: bus address. -/
abbrev DETAIL (k : Nat) : Nat := 0x4000A200 + k * 0x4
abbrev DETAIL_DETAIL (k : Nat) : RF := ⟨DETAIL k, 31, 0⟩

end Sys2Proof.Machine.ERRAGG

namespace Sys2Proof.Machine.MTIME

/-- MTIME.MT_LO: bus address. -/
abbrev MT_LO : Nat := 0x4000B000
abbrev MT_LO_MT_LO : RF := ⟨MT_LO, 31, 0⟩
/-- MTIME.MT_HI: bus address. -/
abbrev MT_HI : Nat := 0x4000B004
abbrev MT_HI_MT_HI : RF := ⟨MT_HI, 31, 0⟩
/-- MTIME.CTRL: bus address. -/
abbrev CTRL : Nat := 0x4000B008
abbrev CTRL_SERVO_RESTART : RF := ⟨CTRL, 31, 31⟩
abbrev CTRL_STEP_EN : RF := ⟨CTRL, 0, 0⟩
/-- MTIME.STATUS: bus address. -/
abbrev STATUS : Nat := 0x4000B00C
abbrev STATUS_STEP_FLAG : RF := ⟨STATUS, 31, 31⟩
abbrev STATUS_VALID_FALL : RF := ⟨STATUS, 30, 30⟩
abbrev STATUS_STATE_CHG : RF := ⟨STATUS, 29, 29⟩
abbrev STATUS_SYNCIN_EDGE : RF := ⟨STATUS, 28, 28⟩
abbrev STATUS_GOOD_CNT : RF := ⟨STATUS, 14, 8⟩
abbrev STATUS_SYNCIN_LOCK : RF := ⟨STATUS, 4, 4⟩
abbrev STATUS_TIME_VALID : RF := ⟨STATUS, 3, 3⟩
abbrev STATUS_STATE : RF := ⟨STATUS, 2, 0⟩
/-- MTIME.SERVO_ERR: bus address. -/
abbrev SERVO_ERR : Nat := 0x4000B010
abbrev SERVO_ERR_E : RF := ⟨SERVO_ERR, 31, 0⟩
/-- MTIME.SERVO_FREQ: bus address. -/
abbrev SERVO_FREQ : Nat := 0x4000B014
abbrev SERVO_FREQ_F : RF := ⟨SERVO_FREQ, 31, 0⟩
/-- MTIME.SERVO_INT: bus address. -/
abbrev SERVO_INT : Nat := 0x4000B018
abbrev SERVO_INT_I : RF := ⟨SERVO_INT, 31, 0⟩
/-- MTIME.GAIN_ACQ: bus address. -/
abbrev GAIN_ACQ : Nat := 0x4000B01C
abbrev GAIN_ACQ_KP : RF := ⟨GAIN_ACQ, 31, 16⟩
abbrev GAIN_ACQ_KI : RF := ⟨GAIN_ACQ, 15, 0⟩
/-- MTIME.GAIN_TRK: bus address. -/
abbrev GAIN_TRK : Nat := 0x4000B020
abbrev GAIN_TRK_KP : RF := ⟨GAIN_TRK, 31, 16⟩
abbrev GAIN_TRK_KI : RF := ⟨GAIN_TRK, 15, 0⟩
/-- MTIME.PULL_LIM: bus address. -/
abbrev PULL_LIM : Nat := 0x4000B024
abbrev PULL_LIM_LIM : RF := ⟨PULL_LIM, 21, 0⟩
/-- MTIME.STEP_THR: bus address. -/
abbrev STEP_THR : Nat := 0x4000B028
abbrev STEP_THR_THR : RF := ⟨STEP_THR, 15, 0⟩
/-- MTIME.HOLDOVER_LIM: bus address. -/
abbrev HOLDOVER_LIM : Nat := 0x4000B02C
abbrev HOLDOVER_LIM_LIMIT_MS : RF := ⟨HOLDOVER_LIM, 9, 0⟩
/-- MTIME.PATH_DELAY: bus address. -/
abbrev PATH_DELAY : Nat := 0x4000B030
abbrev PATH_DELAY_D_PATH : RF := ⟨PATH_DELAY, 31, 0⟩
/-- MTIME.LINKDLY_A: bus address. -/
abbrev LINKDLY_A : Nat := 0x4000B034
abbrev LINKDLY_A_VALID : RF := ⟨LINKDLY_A, 31, 31⟩
abbrev LINKDLY_A_SAMPLES : RF := ⟨LINKDLY_A, 20, 16⟩
abbrev LINKDLY_A_DELAY : RF := ⟨LINKDLY_A, 15, 0⟩
/-- MTIME.LINKDLY_B: bus address. -/
abbrev LINKDLY_B : Nat := 0x4000B038
abbrev LINKDLY_B_VALID : RF := ⟨LINKDLY_B, 31, 31⟩
abbrev LINKDLY_B_SAMPLES : RF := ⟨LINKDLY_B, 20, 16⟩
abbrev LINKDLY_B_DELAY : RF := ⟨LINKDLY_B, 15, 0⟩
/-- MTIME.ASYM: bus address. -/
abbrev ASYM : Nat := 0x4000B03C
abbrev ASYM_ASYM_B : RF := ⟨ASYM, 31, 16⟩
abbrev ASYM_ASYM_A : RF := ⟨ASYM, 15, 0⟩
/-- MTIME.MASTER_TRIM: bus address. -/
abbrev MASTER_TRIM : Nat := 0x4000B040
abbrev MASTER_TRIM_TRIM : RF := ⟨MASTER_TRIM, 31, 0⟩
/-- MTIME.SYNCIN_CFG: bus address. -/
abbrev SYNCIN_CFG : Nat := 0x4000B044
abbrev SYNCIN_CFG_EN : RF := ⟨SYNCIN_CFG, 31, 31⟩
abbrev SYNCIN_CFG_EDGE : RF := ⟨SYNCIN_CFG, 30, 30⟩
/-- MTIME.SYNCIN_PERIOD: bus address. -/
abbrev SYNCIN_PERIOD : Nat := 0x4000B048
abbrev SYNCIN_PERIOD_PERIOD : RF := ⟨SYNCIN_PERIOD, 31, 0⟩
/-- MTIME.SYNCIN_CAPT_LO: bus address. -/
abbrev SYNCIN_CAPT_LO : Nat := 0x4000B04C
abbrev SYNCIN_CAPT_LO_CAPT : RF := ⟨SYNCIN_CAPT_LO, 31, 0⟩
/-- MTIME.SYNCIN_CAPT_HI: bus address. -/
abbrev SYNCIN_CAPT_HI : Nat := 0x4000B050
abbrev SYNCIN_CAPT_HI_CAPT : RF := ⟨SYNCIN_CAPT_HI, 31, 0⟩
/-- MTIME.SYNCOUT_START_LO: bus address. -/
abbrev SYNCOUT_START_LO : Nat := 0x4000B054
abbrev SYNCOUT_START_LO_START : RF := ⟨SYNCOUT_START_LO, 31, 0⟩
/-- MTIME.SYNCOUT_START_HI: bus address. -/
abbrev SYNCOUT_START_HI : Nat := 0x4000B058
abbrev SYNCOUT_START_HI_START : RF := ⟨SYNCOUT_START_HI, 31, 0⟩
/-- MTIME.SYNCOUT_PERIOD: bus address. -/
abbrev SYNCOUT_PERIOD : Nat := 0x4000B05C
abbrev SYNCOUT_PERIOD_PERIOD : RF := ⟨SYNCOUT_PERIOD, 31, 0⟩
/-- MTIME.SYNCOUT_WIDTH: bus address. -/
abbrev SYNCOUT_WIDTH : Nat := 0x4000B060
abbrev SYNCOUT_WIDTH_WIDTH : RF := ⟨SYNCOUT_WIDTH, 31, 0⟩
/-- MTIME.OUT_CTRL: bus address. -/
abbrev OUT_CTRL : Nat := 0x4000B064
abbrev OUT_CTRL_REFOUT_GATE : RF := ⟨OUT_CTRL, 3, 3⟩
abbrev OUT_CTRL_REFOUT_EN : RF := ⟨OUT_CTRL, 2, 2⟩
abbrev OUT_CTRL_SYNCOUT_GATE : RF := ⟨OUT_CTRL, 1, 1⟩
abbrev OUT_CTRL_SYNCOUT_EN : RF := ⟨OUT_CTRL, 0, 0⟩
/-- MTIME.IRQ_EN: bus address. -/
abbrev IRQ_EN : Nat := 0x4000B068
abbrev IRQ_EN_FLAG_EN : RF := ⟨IRQ_EN, 31, 28⟩
abbrev IRQ_EN_CMP_EN : RF := ⟨IRQ_EN, 3, 0⟩
/-- MTIME.DIAG_STEP: bus address. -/
abbrev DIAG_STEP : Nat := 0x4000B06C
abbrev DIAG_STEP_OVF : RF := ⟨DIAG_STEP, 31, 31⟩
abbrev DIAG_STEP_COUNT : RF := ⟨DIAG_STEP, 15, 0⟩
/-- MTIME.DIAG_HOLDOVER: bus address. -/
abbrev DIAG_HOLDOVER : Nat := 0x4000B070
abbrev DIAG_HOLDOVER_OVF : RF := ⟨DIAG_HOLDOVER, 31, 31⟩
abbrev DIAG_HOLDOVER_COUNT : RF := ⟨DIAG_HOLDOVER, 15, 0⟩
/-- MTIME.DIAG_SYNCIN_REJ: bus address. -/
abbrev DIAG_SYNCIN_REJ : Nat := 0x4000B074
abbrev DIAG_SYNCIN_REJ_OVF : RF := ⟨DIAG_SYNCIN_REJ, 31, 31⟩
abbrev DIAG_SYNCIN_REJ_COUNT : RF := ⟨DIAG_SYNCIN_REJ, 15, 0⟩
/-- MTIME.CMP_LO: bus address. -/
abbrev CMP_LO (k : Nat) : Nat := 0x4000B080 + k * 0x8
abbrev CMP_LO_CMP (k : Nat) : RF := ⟨CMP_LO k, 31, 0⟩
/-- MTIME.CMP_HI: bus address. -/
abbrev CMP_HI (k : Nat) : Nat := 0x4000B084 + k * 0x8
abbrev CMP_HI_CMP (k : Nat) : RF := ⟨CMP_HI k, 31, 0⟩
/-- MTIME.CMP_STAT: bus address. -/
abbrev CMP_STAT : Nat := 0x4000B0A0
abbrev CMP_STAT_DISARM : RF := ⟨CMP_STAT, 19, 16⟩
abbrev CMP_STAT_ARMED : RF := ⟨CMP_STAT, 11, 8⟩
abbrev CMP_STAT_LATE : RF := ⟨CMP_STAT, 7, 4⟩
abbrev CMP_STAT_FIRED : RF := ⟨CMP_STAT, 3, 0⟩

end Sys2Proof.Machine.MTIME

namespace Sys2Proof.Machine.ADCSEQ

/-- ADCSEQ.CTRL: bus address. -/
abbrev CTRL : Nat := 0x4000C000
abbrev CTRL_RUN : RF := ⟨CTRL, 31, 31⟩
abbrev CTRL_SLOT_EN : RF := ⟨CTRL, 19, 0⟩
/-- ADCSEQ.STAT: bus address. -/
abbrev STAT : Nat := 0x4000C004
abbrev STAT_CFG_IGN : RF := ⟨STAT, 31, 31⟩
abbrev STAT_ALIGNED : RF := ⟨STAT, 1, 1⟩
abbrev STAT_RUNNING : RF := ⟨STAT, 0, 0⟩
/-- ADCSEQ.PERIOD: bus address. -/
abbrev PERIOD : Nat := 0x4000C008
abbrev PERIOD_P : RF := ⟨PERIOD, 16, 0⟩
/-- ADCSEQ.FRAME_CNT: bus address. -/
abbrev FRAME_CNT : Nat := 0x4000C00C
abbrev FRAME_CNT_COUNT : RF := ⟨FRAME_CNT, 31, 0⟩
/-- ADCSEQ.RES: bus address. -/
abbrev RES (k : Nat) : Nat := 0x4000C040 + k * 0x4
abbrev RES_ISB (k : Nat) : RF := ⟨RES k, 27, 16⟩
abbrev RES_ISA (k : Nat) : RF := ⟨RES k, 11, 0⟩

end Sys2Proof.Machine.ADCSEQ

namespace Sys2Proof.Machine.RTC

/-- RTC.CTRL: bus address. -/
abbrev CTRL : Nat := 0x48000000
abbrev CTRL_DISC_EN : RF := ⟨CTRL, 31, 31⟩
abbrev CTRL_SET : RF := ⟨CTRL, 30, 30⟩
abbrev CTRL_SET_CANCEL : RF := ⟨CTRL, 29, 29⟩
abbrev CTRL_ALM1_EN : RF := ⟨CTRL, 1, 1⟩
abbrev CTRL_ALM0_EN : RF := ⟨CTRL, 0, 0⟩
/-- RTC.STAT: bus address. -/
abbrev STAT : Nat := 0x48000004
abbrev STAT_ALM0 : RF := ⟨STAT, 31, 31⟩
abbrev STAT_ALM1 : RF := ⟨STAT, 30, 30⟩
abbrev STAT_SEC_EV : RF := ⟨STAT, 29, 29⟩
abbrev STAT_SET_DONE : RF := ⟨STAT, 28, 28⟩
abbrev STAT_SET_ERR : RF := ⟨STAT, 27, 27⟩
abbrev STAT_CMD_IGN : RF := ⟨STAT, 26, 26⟩
abbrev STAT_RANGE_EV : RF := ⟨STAT, 25, 25⟩
abbrev STAT_MC_EXP_EV : RF := ⟨STAT, 24, 24⟩
abbrev STAT_SHADOW_EXP : RF := ⟨STAT, 23, 23⟩
abbrev STAT_SHIFT_BUSY : RF := ⟨STAT, 3, 3⟩
abbrev STAT_DISC_ACT : RF := ⟨STAT, 2, 2⟩
abbrev STAT_SET_PEND : RF := ⟨STAT, 1, 1⟩
abbrev STAT_VALID : RF := ⟨STAT, 0, 0⟩
/-- RTC.IRQ_EN: bus address. -/
abbrev IRQ_EN : Nat := 0x48000008
abbrev IRQ_EN_ALM0 : RF := ⟨IRQ_EN, 31, 31⟩
abbrev IRQ_EN_ALM1 : RF := ⟨IRQ_EN, 30, 30⟩
abbrev IRQ_EN_SEC_EV : RF := ⟨IRQ_EN, 29, 29⟩
abbrev IRQ_EN_SET_DONE : RF := ⟨IRQ_EN, 28, 28⟩
abbrev IRQ_EN_SET_ERR : RF := ⟨IRQ_EN, 27, 27⟩
abbrev IRQ_EN_CMD_IGN : RF := ⟨IRQ_EN, 26, 26⟩
abbrev IRQ_EN_RANGE_EV : RF := ⟨IRQ_EN, 25, 25⟩
abbrev IRQ_EN_MC_EXP_EV : RF := ⟨IRQ_EN, 24, 24⟩
abbrev IRQ_EN_SHADOW_EXP : RF := ⟨IRQ_EN, 23, 23⟩
/-- RTC.RTC_SUBSEC: bus address. -/
abbrev RTC_SUBSEC : Nat := 0x48000010
abbrev RTC_SUBSEC_SUBSEC : RF := ⟨RTC_SUBSEC, 14, 0⟩
/-- RTC.RTC_TIME: bus address. -/
abbrev RTC_TIME : Nat := 0x48000014
abbrev RTC_TIME_HOUR : RF := ⟨RTC_TIME, 20, 16⟩
abbrev RTC_TIME_MIN : RF := ⟨RTC_TIME, 13, 8⟩
abbrev RTC_TIME_SEC : RF := ⟨RTC_TIME, 5, 0⟩
/-- RTC.RTC_DATE: bus address. -/
abbrev RTC_DATE : Nat := 0x48000018
abbrev RTC_DATE_WDAY : RF := ⟨RTC_DATE, 18, 16⟩
abbrev RTC_DATE_MON : RF := ⟨RTC_DATE, 11, 8⟩
abbrev RTC_DATE_DAY : RF := ⟨RTC_DATE, 4, 0⟩
/-- RTC.RTC_YEAR: bus address. -/
abbrev RTC_YEAR : Nat := 0x4800001C
abbrev RTC_YEAR_YEAR : RF := ⟨RTC_YEAR, 11, 0⟩
/-- RTC.SET_TIME: bus address. -/
abbrev SET_TIME : Nat := 0x48000030
abbrev SET_TIME_HOUR : RF := ⟨SET_TIME, 20, 16⟩
abbrev SET_TIME_MIN : RF := ⟨SET_TIME, 13, 8⟩
abbrev SET_TIME_SEC : RF := ⟨SET_TIME, 5, 0⟩
/-- RTC.SET_DATE: bus address. -/
abbrev SET_DATE : Nat := 0x48000034
abbrev SET_DATE_MON : RF := ⟨SET_DATE, 11, 8⟩
abbrev SET_DATE_DAY : RF := ⟨SET_DATE, 4, 0⟩
/-- RTC.SET_YEAR: bus address. -/
abbrev SET_YEAR : Nat := 0x48000038
abbrev SET_YEAR_YEAR : RF := ⟨SET_YEAR, 11, 0⟩
/-- RTC.SHIFT: bus address. -/
abbrev SHIFT : Nat := 0x48000040
abbrev SHIFT_AMOUNT : RF := ⟨SHIFT, 15, 0⟩
/-- RTC.SHIFT_REM: bus address. -/
abbrev SHIFT_REM : Nat := 0x48000044
abbrev SHIFT_REM_REM : RF := ⟨SHIFT_REM, 15, 0⟩
/-- RTC.TRIM: bus address. -/
abbrev TRIM : Nat := 0x48000048
abbrev TRIM_TRIM : RF := ⟨TRIM, 22, 0⟩
/-- RTC.ALM_TIME: bus address. -/
abbrev ALM_TIME (k : Nat) : Nat := 0x48000050 + k * 0x8
abbrev ALM_TIME_MSK_HOUR (k : Nat) : RF := ⟨ALM_TIME k, 31, 31⟩
abbrev ALM_TIME_MSK_MIN (k : Nat) : RF := ⟨ALM_TIME k, 30, 30⟩
abbrev ALM_TIME_MSK_SEC (k : Nat) : RF := ⟨ALM_TIME k, 29, 29⟩
abbrev ALM_TIME_HOUR (k : Nat) : RF := ⟨ALM_TIME k, 20, 16⟩
abbrev ALM_TIME_MIN (k : Nat) : RF := ⟨ALM_TIME k, 13, 8⟩
abbrev ALM_TIME_SEC (k : Nat) : RF := ⟨ALM_TIME k, 5, 0⟩
/-- RTC.ALM_DATE: bus address. -/
abbrev ALM_DATE (k : Nat) : Nat := 0x48000054 + k * 0x8
abbrev ALM_DATE_MSK_YEAR (k : Nat) : RF := ⟨ALM_DATE k, 31, 31⟩
abbrev ALM_DATE_MSK_MON (k : Nat) : RF := ⟨ALM_DATE k, 30, 30⟩
abbrev ALM_DATE_MSK_DAY (k : Nat) : RF := ⟨ALM_DATE k, 29, 29⟩
abbrev ALM_DATE_MSK_WDAY (k : Nat) : RF := ⟨ALM_DATE k, 28, 28⟩
abbrev ALM_DATE_YEAR (k : Nat) : RF := ⟨ALM_DATE k, 27, 16⟩
abbrev ALM_DATE_WDAY (k : Nat) : RF := ⟨ALM_DATE k, 14, 12⟩
abbrev ALM_DATE_MON (k : Nat) : RF := ⟨ALM_DATE k, 11, 8⟩
abbrev ALM_DATE_DAY (k : Nat) : RF := ⟨ALM_DATE k, 4, 0⟩
/-- RTC.MC_CFG: bus address. -/
abbrev MC_CFG : Nat := 0x48000060
abbrev MC_CFG_B1 : RF := ⟨MC_CFG, 31, 24⟩
abbrev MC_CFG_B2 : RF := ⟨MC_CFG, 23, 16⟩
abbrev MC_CFG_B3 : RF := ⟨MC_CFG, 15, 8⟩
abbrev MC_CFG_DEF_BAND : RF := ⟨MC_CFG, 1, 0⟩
/-- RTC.MC_WEIGHT: bus address. -/
abbrev MC_WEIGHT : Nat := 0x48000064
abbrev MC_WEIGHT_W3 : RF := ⟨MC_WEIGHT, 31, 24⟩
abbrev MC_WEIGHT_W2 : RF := ⟨MC_WEIGHT, 23, 16⟩
abbrev MC_WEIGHT_W1 : RF := ⟨MC_WEIGHT, 15, 8⟩
abbrev MC_WEIGHT_W0 : RF := ⟨MC_WEIGHT, 7, 0⟩
/-- RTC.MC_STAT: bus address. -/
abbrev MC_STAT : Nat := 0x48000068
abbrev MC_STAT_BAND : RF := ⟨MC_STAT, 17, 16⟩
abbrev MC_STAT_EXP : RF := ⟨MC_STAT, 9, 0⟩
/-- RTC.MC_CTRL: bus address. -/
abbrev MC_CTRL (k : Nat) : Nat := 0x48000080 + k * 0x8
abbrev MC_CTRL_EN (k : Nat) : RF := ⟨MC_CTRL k, 31, 31⟩
abbrev MC_CTRL_LIMIT (k : Nat) : RF := ⟨MC_CTRL k, 23, 0⟩
/-- RTC.MC_CNT: bus address. -/
abbrev MC_CNT (k : Nat) : Nat := 0x48000084 + k * 0x8
abbrev MC_CNT_SAT (k : Nat) : RF := ⟨MC_CNT k, 31, 31⟩
abbrev MC_CNT_COUNT (k : Nat) : RF := ⟨MC_CNT k, 27, 0⟩

end Sys2Proof.Machine.RTC

namespace Sys2Proof.Machine.HARVEST

/-- HARVEST.CTRL: bus address. -/
abbrev CTRL : Nat := 0x48001000
abbrev CTRL_LOCK : RF := ⟨CTRL, 31, 31⟩
abbrev CTRL_SAMPLE : RF := ⟨CTRL, 2, 2⟩
abbrev CTRL_VINCHG_EN : RF := ⟨CTRL, 1, 1⟩
abbrev CTRL_BOOST_EN : RF := ⟨CTRL, 0, 0⟩
/-- HARVEST.MPPT: bus address. -/
abbrev MPPT : Nat := 0x48001004
abbrev MPPT_INTERVAL : RF := ⟨MPPT, 15, 8⟩
abbrev MPPT_FRAC : RF := ⟨MPPT, 6, 0⟩
/-- HARVEST.VOC: bus address. -/
abbrev VOC : Nat := 0x48001008
abbrev VOC_VALID : RF := ⟨VOC, 31, 31⟩
abbrev VOC_TARGET_MV : RF := ⟨VOC, 27, 16⟩
abbrev VOC_VOC_MV : RF := ⟨VOC, 11, 0⟩
/-- HARVEST.CHG: bus address. -/
abbrev CHG : Nat := 0x4800100C
abbrev CHG_VCHG : RF := ⟨CHG, 20, 16⟩
abbrev CHG_ICHG : RF := ⟨CHG, 6, 0⟩
/-- HARVEST.WARN: bus address. -/
abbrev WARN : Nat := 0x48001010
abbrev WARN_WARN_V : RF := ⟨WARN, 4, 0⟩
/-- HARVEST.NTC: bus address. -/
abbrev NTC : Nat := 0x48001014
abbrev NTC_NTC_EN : RF := ⟨NTC, 31, 31⟩
abbrev NTC_LAST : RF := ⟨NTC, 23, 16⟩
abbrev NTC_T_COLD : RF := ⟨NTC, 15, 8⟩
abbrev NTC_T_HOT : RF := ⟨NTC, 7, 0⟩
/-- HARVEST.STAT: bus address. -/
abbrev STAT : Nat := 0x48001018
abbrev STAT_LOW_EV : RF := ⟨STAT, 31, 31⟩
abbrev STAT_SC_EV : RF := ⟨STAT, 30, 30⟩
abbrev STAT_TEMP_EV : RF := ⟨STAT, 29, 29⟩
abbrev STAT_FULL_EV : RF := ⟨STAT, 28, 28⟩
abbrev STAT_CMD_IGN : RF := ⟨STAT, 27, 27⟩
abbrev STAT_COLD_START : RF := ⟨STAT, 26, 26⟩
abbrev STAT_SC_LATCH : RF := ⟨STAT, 11, 11⟩
abbrev STAT_NTC_OPEN : RF := ⟨STAT, 10, 10⟩
abbrev STAT_TEMP_HOLD : RF := ⟨STAT, 9, 9⟩
abbrev STAT_LOW : RF := ⟨STAT, 8, 8⟩
abbrev STAT_CELL : RF := ⟨STAT, 5, 4⟩
abbrev STAT_CHARGE : RF := ⟨STAT, 3, 2⟩
abbrev STAT_BOOST : RF := ⟨STAT, 1, 0⟩
/-- HARVEST.IRQ_EN: bus address. -/
abbrev IRQ_EN : Nat := 0x4800101C
abbrev IRQ_EN_LOW_EV : RF := ⟨IRQ_EN, 31, 31⟩
abbrev IRQ_EN_SC_EV : RF := ⟨IRQ_EN, 30, 30⟩
abbrev IRQ_EN_TEMP_EV : RF := ⟨IRQ_EN, 29, 29⟩
abbrev IRQ_EN_FULL_EV : RF := ⟨IRQ_EN, 28, 28⟩
abbrev IRQ_EN_CMD_IGN : RF := ⟨IRQ_EN, 27, 27⟩
/-- HARVEST.LEVELS: bus address. -/
abbrev LEVELS : Nat := 0x48001020
abbrev LEVELS_VSTORE_MV : RF := ⟨LEVELS, 27, 16⟩
abbrev LEVELS_BAT_MV : RF := ⟨LEVELS, 11, 0⟩
/-- HARVEST.SC_CNT: bus address. -/
abbrev SC_CNT : Nat := 0x48001024
abbrev SC_CNT_OVF : RF := ⟨SC_CNT, 31, 31⟩
abbrev SC_CNT_COUNT : RF := ⟨SC_CNT, 15, 0⟩

end Sys2Proof.Machine.HARVEST

namespace Sys2Proof.Machine.TOUCH

/-- TOUCH.CTRL: bus address. -/
abbrev CTRL : Nat := 0x48002000
abbrev CTRL_EN : RF := ⟨CTRL, 31, 31⟩
abbrev CTRL_RECAL_ALL : RF := ⟨CTRL, 30, 30⟩
abbrev CTRL_RECAL : RF := ⟨CTRL, 29, 29⟩
abbrev CTRL_KEY : RF := ⟨CTRL, 5, 0⟩
/-- TOUCH.CFG: bus address. -/
abbrev CFG : Nat := 0x48002004
abbrev CFG_DIAP_STAGE : RF := ⟨CFG, 25, 24⟩
abbrev CFG_BURST : RF := ⟨CFG, 13, 8⟩
abbrev CFG_PULSE : RF := ⟨CFG, 7, 0⟩
/-- TOUCH.RATE01: bus address. -/
abbrev RATE01 : Nat := 0x48002008
abbrev RATE01_RATE1 : RF := ⟨RATE01, 31, 16⟩
abbrev RATE01_RATE0 : RF := ⟨RATE01, 15, 0⟩
/-- TOUCH.RATE23: bus address. -/
abbrev RATE23 : Nat := 0x4800200C
abbrev RATE23_RATE3 : RF := ⟨RATE23, 31, 16⟩
abbrev RATE23_RATE2 : RF := ⟨RATE23, 15, 0⟩
/-- TOUCH.IDLE: bus address. -/
abbrev IDLE : Nat := 0x48002010
abbrev IDLE_IDLE3 : RF := ⟨IDLE, 31, 16⟩
abbrev IDLE_IDLE2 : RF := ⟨IDLE, 15, 8⟩
abbrev IDLE_IDLE1 : RF := ⟨IDLE, 7, 0⟩
/-- TOUCH.THRESH: bus address. -/
abbrev THRESH : Nat := 0x48002014
abbrev THRESH_TH_ON : RF := ⟨THRESH, 31, 20⟩
abbrev THRESH_TH_OFF : RF := ⟨THRESH, 19, 8⟩
abbrev THRESH_DEB : RF := ⟨THRESH, 3, 0⟩
/-- TOUCH.TRACK: bus address. -/
abbrev TRACK : Nat := 0x48002018
abbrev TRACK_TH_NEG : RF := ⟨TRACK, 27, 16⟩
abbrev TRACK_HOLD_LIM : RF := ⟨TRACK, 15, 8⟩
abbrev TRACK_SHIFT : RF := ⟨TRACK, 3, 0⟩
/-- TOUCH.KEYMASK_LO: bus address. -/
abbrev KEYMASK_LO : Nat := 0x48002020
abbrev KEYMASK_LO_MASK : RF := ⟨KEYMASK_LO, 31, 0⟩
/-- TOUCH.KEYMASK_HI: bus address. -/
abbrev KEYMASK_HI : Nat := 0x48002024
abbrev KEYMASK_HI_MASK : RF := ⟨KEYMASK_HI, 31, 0⟩
/-- TOUCH.KEYS_LO: bus address. -/
abbrev KEYS_LO : Nat := 0x48002028
abbrev KEYS_LO_KEYS : RF := ⟨KEYS_LO, 31, 0⟩
/-- TOUCH.KEYS_HI: bus address. -/
abbrev KEYS_HI : Nat := 0x4800202C
abbrev KEYS_HI_KEYS : RF := ⟨KEYS_HI, 31, 0⟩
/-- TOUCH.CHG_LO: bus address. -/
abbrev CHG_LO : Nat := 0x48002030
abbrev CHG_LO_CHG : RF := ⟨CHG_LO, 31, 0⟩
/-- TOUCH.CHG_HI: bus address. -/
abbrev CHG_HI : Nat := 0x48002034
abbrev CHG_HI_CHG : RF := ⟨CHG_HI, 31, 0⟩
/-- TOUCH.STAT: bus address. -/
abbrev STAT : Nat := 0x48002038
abbrev STAT_KEY_EV : RF := ⟨STAT, 31, 31⟩
abbrev STAT_RECAL_EV : RF := ⟨STAT, 30, 30⟩
abbrev STAT_ACQ_EV : RF := ⟨STAT, 29, 29⟩
abbrev STAT_OVERRUN : RF := ⟨STAT, 28, 28⟩
abbrev STAT_CMD_IGN : RF := ⟨STAT, 27, 27⟩
abbrev STAT_RECAL_KEY : RF := ⟨STAT, 13, 8⟩
abbrev STAT_ACQ : RF := ⟨STAT, 3, 3⟩
abbrev STAT_SCANNING : RF := ⟨STAT, 2, 2⟩
abbrev STAT_STAGE : RF := ⟨STAT, 1, 0⟩
/-- TOUCH.IRQ_EN: bus address. -/
abbrev IRQ_EN : Nat := 0x4800203C
abbrev IRQ_EN_KEY_EV : RF := ⟨IRQ_EN, 31, 31⟩
abbrev IRQ_EN_RECAL_EV : RF := ⟨IRQ_EN, 30, 30⟩
abbrev IRQ_EN_ACQ_EV : RF := ⟨IRQ_EN, 29, 29⟩
abbrev IRQ_EN_OVERRUN : RF := ⟨IRQ_EN, 28, 28⟩
/-- TOUCH.SIG: bus address. -/
abbrev SIG : Nat := 0x48002040
abbrev SIG_BASE : RF := ⟨SIG, 31, 16⟩
abbrev SIG_M : RF := ⟨SIG, 15, 0⟩
/-- TOUCH.RECAL_CNT: bus address. -/
abbrev RECAL_CNT : Nat := 0x48002044
abbrev RECAL_CNT_OVF : RF := ⟨RECAL_CNT, 31, 31⟩
abbrev RECAL_CNT_COUNT : RF := ⟨RECAL_CNT, 14, 0⟩
/-- TOUCH.CRK_CTRL: bus address. -/
abbrev CRK_CTRL : Nat := 0x48002800
abbrev CRK_CTRL_RUN : RF := ⟨CRK_CTRL, 31, 31⟩
abbrev CRK_CTRL_SLEEPING : RF := ⟨CRK_CTRL, 30, 30⟩
abbrev CRK_CTRL_OSC_MHZ : RF := ⟨CRK_CTRL, 15, 8⟩
abbrev CRK_CTRL_FREQ : RF := ⟨CRK_CTRL, 1, 0⟩
/-- TOUCH.CRK_IRQ_STAT: bus address. -/
abbrev CRK_IRQ_STAT : Nat := 0x48002804
abbrev CRK_IRQ_STAT_EVT : RF := ⟨CRK_IRQ_STAT, 11, 11⟩
abbrev CRK_IRQ_STAT_SVC : RF := ⟨CRK_IRQ_STAT, 10, 10⟩
abbrev CRK_IRQ_STAT_MAIN_UP : RF := ⟨CRK_IRQ_STAT, 9, 9⟩
abbrev CRK_IRQ_STAT_BOD : RF := ⟨CRK_IRQ_STAT, 8, 8⟩
abbrev CRK_IRQ_STAT_MODE : RF := ⟨CRK_IRQ_STAT, 7, 7⟩
abbrev CRK_IRQ_STAT_WAKE : RF := ⟨CRK_IRQ_STAT, 6, 6⟩
abbrev CRK_IRQ_STAT_HARVEST : RF := ⟨CRK_IRQ_STAT, 5, 5⟩
abbrev CRK_IRQ_STAT_RTC : RF := ⟨CRK_IRQ_STAT, 4, 4⟩
abbrev CRK_IRQ_STAT_ADC : RF := ⟨CRK_IRQ_STAT, 3, 3⟩
abbrev CRK_IRQ_STAT_TOUCH : RF := ⟨CRK_IRQ_STAT, 2, 2⟩
abbrev CRK_IRQ_STAT_MB_DONE : RF := ⟨CRK_IRQ_STAT, 1, 1⟩
abbrev CRK_IRQ_STAT_MB_RX : RF := ⟨CRK_IRQ_STAT, 0, 0⟩
/-- TOUCH.CRK_IRQ_EN: bus address. -/
abbrev CRK_IRQ_EN : Nat := 0x48002808
abbrev CRK_IRQ_EN_EVT : RF := ⟨CRK_IRQ_EN, 11, 11⟩
abbrev CRK_IRQ_EN_SVC : RF := ⟨CRK_IRQ_EN, 10, 10⟩
abbrev CRK_IRQ_EN_MAIN_UP : RF := ⟨CRK_IRQ_EN, 9, 9⟩
abbrev CRK_IRQ_EN_BOD : RF := ⟨CRK_IRQ_EN, 8, 8⟩
abbrev CRK_IRQ_EN_MODE : RF := ⟨CRK_IRQ_EN, 7, 7⟩
abbrev CRK_IRQ_EN_WAKE : RF := ⟨CRK_IRQ_EN, 6, 6⟩
abbrev CRK_IRQ_EN_HARVEST : RF := ⟨CRK_IRQ_EN, 5, 5⟩
abbrev CRK_IRQ_EN_RTC : RF := ⟨CRK_IRQ_EN, 4, 4⟩
abbrev CRK_IRQ_EN_ADC : RF := ⟨CRK_IRQ_EN, 3, 3⟩
abbrev CRK_IRQ_EN_TOUCH : RF := ⟨CRK_IRQ_EN, 2, 2⟩
abbrev CRK_IRQ_EN_MB_DONE : RF := ⟨CRK_IRQ_EN, 1, 1⟩
abbrev CRK_IRQ_EN_MB_RX : RF := ⟨CRK_IRQ_EN, 0, 0⟩
/-- TOUCH.ADC_CTRL: bus address. -/
abbrev ADC_CTRL : Nat := 0x4800280C
abbrev ADC_CTRL_START : RF := ⟨ADC_CTRL, 31, 31⟩
abbrev ADC_CTRL_BUSY : RF := ⟨ADC_CTRL, 30, 30⟩
abbrev ADC_CTRL_TRIG : RF := ⟨ADC_CTRL, 29, 28⟩
abbrev ADC_CTRL_CMD_IGN : RF := ⟨ADC_CTRL, 27, 27⟩
abbrev ADC_CTRL_CHMASK : RF := ⟨ADC_CTRL, 5, 0⟩
/-- TOUCH.ADC_RES: bus address. -/
abbrev ADC_RES (k : Nat) : Nat := 0x48002810 + k * 0x4
abbrev ADC_RES_CODE (k : Nat) : RF := ⟨ADC_RES k, 9, 0⟩
/-- TOUCH.ADC_T25: bus address. -/
abbrev ADC_T25 : Nat := 0x48002828
abbrev ADC_T25_T25 : RF := ⟨ADC_T25, 9, 0⟩
/-- TOUCH.MB_A2C_DATA: bus address. -/
abbrev MB_A2C_DATA (k : Nat) : Nat := 0x48002840 + k * 0x4
abbrev MB_A2C_DATA_DATA (k : Nat) : RF := ⟨MB_A2C_DATA k, 31, 0⟩
/-- TOUCH.MB_C2A_DATA: bus address. -/
abbrev MB_C2A_DATA (k : Nat) : Nat := 0x48002860 + k * 0x4
abbrev MB_C2A_DATA_DATA (k : Nat) : RF := ⟨MB_C2A_DATA k, 31, 0⟩
/-- TOUCH.MB_CTRL: bus address. -/
abbrev MB_CTRL : Nat := 0x48002880
abbrev MB_CTRL_A2C_SEND : RF := ⟨MB_CTRL, 31, 31⟩
abbrev MB_CTRL_A2C_ACK : RF := ⟨MB_CTRL, 30, 30⟩
abbrev MB_CTRL_C2A_SEND : RF := ⟨MB_CTRL, 29, 29⟩
abbrev MB_CTRL_C2A_ACK : RF := ⟨MB_CTRL, 28, 28⟩
abbrev MB_CTRL_A2C_DONE : RF := ⟨MB_CTRL, 13, 13⟩
abbrev MB_CTRL_A2C_OVR : RF := ⟨MB_CTRL, 11, 11⟩
abbrev MB_CTRL_C2A_OVR : RF := ⟨MB_CTRL, 10, 10⟩
abbrev MB_CTRL_A2C_FULL : RF := ⟨MB_CTRL, 9, 9⟩
abbrev MB_CTRL_C2A_FULL : RF := ⟨MB_CTRL, 8, 8⟩
abbrev MB_CTRL_APP_IE_C2A : RF := ⟨MB_CTRL, 1, 1⟩
abbrev MB_CTRL_APP_IE_DONE : RF := ⟨MB_CTRL, 0, 0⟩

end Sys2Proof.Machine.TOUCH

namespace Sys2Proof.Machine.AONCTL

/-- AONCTL.MODE: bus address. -/
abbrev MODE : Nat := 0x48003000
abbrev MODE_DETACH_EV : RF := ⟨MODE, 31, 31⟩
abbrev MODE_DOCK_EV : RF := ⟨MODE, 30, 30⟩
abbrev MODE_VIN_NOW : RF := ⟨MODE, 1, 1⟩
abbrev MODE_DOCKED : RF := ⟨MODE, 0, 0⟩
/-- AONCTL.WAKE_EN: bus address. -/
abbrev WAKE_EN : Nat := 0x48003004
abbrev WAKE_EN_EN : RF := ⟨WAKE_EN, 9, 0⟩
/-- AONCTL.WAKE_DEST: bus address. -/
abbrev WAKE_DEST : Nat := 0x48003008
abbrev WAKE_DEST_DEST : RF := ⟨WAKE_DEST, 9, 0⟩
/-- AONCTL.WAKE_CAUSE: bus address. -/
abbrev WAKE_CAUSE : Nat := 0x4800300C
abbrev WAKE_CAUSE_FIRST : RF := ⟨WAKE_CAUSE, 28, 24⟩
abbrev WAKE_CAUSE_FROM : RF := ⟨WAKE_CAUSE, 23, 21⟩
abbrev WAKE_CAUSE_CAUSE : RF := ⟨WAKE_CAUSE, 9, 0⟩
/-- AONCTL.WAKE_VEC: bus address. -/
abbrev WAKE_VEC : Nat := 0x48003010
abbrev WAKE_VEC_VEC : RF := ⟨WAKE_VEC, 31, 2⟩
abbrev WAKE_VEC_VALID : RF := ⟨WAKE_VEC, 0, 0⟩
/-- AONCTL.EVWAKE: bus address. -/
abbrev EVWAKE : Nat := 0x48003014
abbrev EVWAKE_MASK : RF := ⟨EVWAKE, 31, 0⟩
/-- AONCTL.STEP: bus address. -/
abbrev STEP : Nat := 0x48003018
abbrev STEP_DEEPEST : RF := ⟨STEP, 10, 8⟩
abbrev STEP_STEP : RF := ⟨STEP, 2, 0⟩
/-- AONCTL.RET_LATCH: bus address. -/
abbrev RET_LATCH : Nat := 0x4800301C
abbrev RET_LATCH_RET : RF := ⟨RET_LATCH, 7, 0⟩
/-- AONCTL.CMD: bus address. -/
abbrev CMD : Nat := 0x48003020
abbrev CMD_WAKE_MAIN : RF := ⟨CMD, 31, 31⟩
abbrev CMD_GO_PUPA : RF := ⟨CMD, 30, 30⟩
/-- AONCTL.RST_CAUSE: bus address. -/
abbrev RST_CAUSE : Nat := 0x48003024
abbrev RST_CAUSE_SW : RF := ⟨RST_CAUSE, 5, 5⟩
abbrev RST_CAUSE_BOD : RF := ⟨RST_CAUSE, 4, 4⟩
abbrev RST_CAUSE_WDOG : RF := ⟨RST_CAUSE, 3, 3⟩
abbrev RST_CAUSE_DICT : RF := ⟨RST_CAUSE, 2, 2⟩
abbrev RST_CAUSE_PIN : RF := ⟨RST_CAUSE, 1, 1⟩
abbrev RST_CAUSE_POR : RF := ⟨RST_CAUSE, 0, 0⟩
/-- AONCTL.DETACH_AT_LO: bus address. -/
abbrev DETACH_AT_LO : Nat := 0x48003028
abbrev DETACH_AT_LO_SECS : RF := ⟨DETACH_AT_LO, 31, 0⟩
/-- AONCTL.DOCK_AT_LO: bus address. -/
abbrev DOCK_AT_LO : Nat := 0x4800302C
abbrev DOCK_AT_LO_SECS : RF := ⟨DOCK_AT_LO, 31, 0⟩
/-- AONCTL.AT_HI: bus address. -/
abbrev AT_HI : Nat := 0x48003030
abbrev AT_HI_DOCK_HI : RF := ⟨AT_HI, 15, 8⟩
abbrev AT_HI_DETACH_HI : RF := ⟨AT_HI, 7, 0⟩
/-- AONCTL.DETACH_CNT: bus address. -/
abbrev DETACH_CNT : Nat := 0x48003034
abbrev DETACH_CNT_OVF : RF := ⟨DETACH_CNT, 31, 31⟩
abbrev DETACH_CNT_COUNT : RF := ⟨DETACH_CNT, 15, 0⟩
/-- AONCTL.DOCK_CNT: bus address. -/
abbrev DOCK_CNT : Nat := 0x48003038
abbrev DOCK_CNT_OVF : RF := ⟨DOCK_CNT, 31, 31⟩
abbrev DOCK_CNT_COUNT : RF := ⟨DOCK_CNT, 15, 0⟩
/-- AONCTL.BOD_CNT: bus address. -/
abbrev BOD_CNT : Nat := 0x4800303C
abbrev BOD_CNT_OVF : RF := ⟨BOD_CNT, 31, 31⟩
abbrev BOD_CNT_COUNT : RF := ⟨BOD_CNT, 15, 0⟩
/-- AONCTL.DET_SECS: bus address. -/
abbrev DET_SECS : Nat := 0x48003040
abbrev DET_SECS_OVF : RF := ⟨DET_SECS, 31, 31⟩
abbrev DET_SECS_COUNT : RF := ⟨DET_SECS, 30, 0⟩

end Sys2Proof.Machine.AONCTL

namespace Sys2Proof.Machine.VAULTCTL

/-- VAULTCTL.CTRL: bus address. -/
abbrev CTRL : Nat := 0x48004000
abbrev CTRL_WIPE : RF := ⟨CTRL, 31, 31⟩
/-- VAULTCTL.STAT: bus address. -/
abbrev STAT : Nat := 0x48004004
abbrev STAT_WIPE_EV : RF := ⟨STAT, 31, 31⟩
abbrev STAT_UNCORR : RF := ⟨STAT, 30, 30⟩
abbrev STAT_CORR : RF := ⟨STAT, 29, 29⟩
abbrev STAT_MCACHE_VALID : RF := ⟨STAT, 8, 8⟩
abbrev STAT_WIPING : RF := ⟨STAT, 3, 3⟩
abbrev STAT_CAUSE_SW : RF := ⟨STAT, 2, 2⟩
abbrev STAT_CAUSE_LC : RF := ⟨STAT, 1, 1⟩
abbrev STAT_CAUSE_TAMPER : RF := ⟨STAT, 0, 0⟩
/-- VAULTCTL.ECC_ADDR: bus address. -/
abbrev ECC_ADDR : Nat := 0x48004008
abbrev ECC_ADDR_ADDR : RF := ⟨ECC_ADDR, 31, 0⟩
/-- VAULTCTL.IRQ_EN: bus address. -/
abbrev IRQ_EN : Nat := 0x4800400C
abbrev IRQ_EN_WIPE_EV : RF := ⟨IRQ_EN, 31, 31⟩
abbrev IRQ_EN_UNCORR : RF := ⟨IRQ_EN, 30, 30⟩
abbrev IRQ_EN_CORR : RF := ⟨IRQ_EN, 29, 29⟩
/-- VAULTCTL.WIPE_CNT: bus address. -/
abbrev WIPE_CNT : Nat := 0x48004010
abbrev WIPE_CNT_OVF : RF := ⟨WIPE_CNT, 31, 31⟩
abbrev WIPE_CNT_COUNT : RF := ⟨WIPE_CNT, 15, 0⟩
/-- VAULTCTL.ECC_CORR: bus address. -/
abbrev ECC_CORR : Nat := 0x48004014
abbrev ECC_CORR_OVF : RF := ⟨ECC_CORR, 31, 31⟩
abbrev ECC_CORR_COUNT : RF := ⟨ECC_CORR, 15, 0⟩
/-- VAULTCTL.ECC_UNCORR: bus address. -/
abbrev ECC_UNCORR : Nat := 0x48004018
abbrev ECC_UNCORR_OVF : RF := ⟨ECC_UNCORR, 31, 31⟩
abbrev ECC_UNCORR_COUNT : RF := ⟨ECC_UNCORR, 15, 0⟩
/-- VAULTCTL.TMP_CFG: bus address. -/
abbrev TMP_CFG : Nat := 0x48004100
abbrev TMP_CFG_LOCK : RF := ⟨TMP_CFG, 31, 31⟩
abbrev TMP_CFG_RESET : RF := ⟨TMP_CFG, 30, 30⟩
abbrev TMP_CFG_MESH_EN : RF := ⟨TMP_CFG, 29, 29⟩
abbrev TMP_CFG_PAIR : RF := ⟨TMP_CFG, 4, 4⟩
abbrev TMP_CFG_MODE1 : RF := ⟨TMP_CFG, 3, 3⟩
abbrev TMP_CFG_MODE0 : RF := ⟨TMP_CFG, 2, 2⟩
abbrev TMP_CFG_LVL1 : RF := ⟨TMP_CFG, 1, 1⟩
abbrev TMP_CFG_LVL0 : RF := ⟨TMP_CFG, 0, 0⟩
/-- VAULTCTL.TMP_STAT: bus address. -/
abbrev TMP_STAT : Nat := 0x48004104
abbrev TMP_STAT_EV : RF := ⟨TMP_STAT, 3, 0⟩
/-- VAULTCTL.TMP_CNT: bus address. -/
abbrev TMP_CNT : Nat := 0x48004108
abbrev TMP_CNT_OVF : RF := ⟨TMP_CNT, 31, 31⟩
abbrev TMP_CNT_COUNT : RF := ⟨TMP_CNT, 15, 0⟩

end Sys2Proof.Machine.VAULTCTL

namespace Sys2Proof.Machine.LANE

/-- LANE.CTRL: bus address. -/
abbrev CTRL (n : Nat) : Nat := 0x50000000 + n * 0x1000
abbrev CTRL_EN (n : Nat) : RF := ⟨CTRL n, 31, 31⟩
abbrev CTRL_DECAY (n : Nat) : RF := ⟨CTRL n, 20, 20⟩
abbrev CTRL_SVM (n : Nat) : RF := ⟨CTRL n, 19, 19⟩
abbrev CTRL_INV_B (n : Nat) : RF := ⟨CTRL n, 18, 18⟩
abbrev CTRL_INV_A (n : Nat) : RF := ⟨CTRL n, 17, 17⟩
abbrev CTRL_FB_SRC (n : Nat) : RF := ⟨CTRL n, 16, 16⟩
abbrev CTRL_UNIT (n : Nat) : RF := ⟨CTRL n, 8, 8⟩
abbrev CTRL_DRIVE (n : Nat) : RF := ⟨CTRL n, 2, 0⟩
/-- LANE.STAT: bus address. -/
abbrev STAT (n : Nat) : Nat := 0x50000004 + n * 0x1000
abbrev STAT_WR_IGN (n : Nat) : RF := ⟨STAT n, 31, 31⟩
abbrev STAT_CFG_ERR (n : Nat) : RF := ⟨STAT n, 30, 30⟩
abbrev STAT_OFFS_BAD (n : Nat) : RF := ⟨STAT n, 29, 29⟩
abbrev STAT_REC_INDEX (n : Nat) : RF := ⟨STAT n, 24, 16⟩
abbrev STAT_ENDED (n : Nat) : RF := ⟨STAT n, 11, 11⟩
abbrev STAT_IN_SEG (n : Nat) : RF := ⟨STAT n, 10, 10⟩
abbrev STAT_KIND (n : Nat) : RF := ⟨STAT n, 7, 5⟩
abbrev STAT_LSTATE (n : Nat) : RF := ⟨STAT n, 2, 0⟩
/-- LANE.POS_CMD: bus address. -/
abbrev POS_CMD (n : Nat) : Nat := 0x50000008 + n * 0x1000
abbrev POS_CMD_P (n : Nat) : RF := ⟨POS_CMD n, 31, 0⟩
/-- LANE.POS_MEAS: bus address. -/
abbrev POS_MEAS (n : Nat) : Nat := 0x5000000C + n * 0x1000
abbrev POS_MEAS_P (n : Nat) : RF := ⟨POS_MEAS n, 31, 0⟩
/-- LANE.POS_ERR: bus address. -/
abbrev POS_ERR (n : Nat) : Nat := 0x50000010 + n * 0x1000
abbrev POS_ERR_P (n : Nat) : RF := ⟨POS_ERR n, 31, 0⟩
/-- LANE.QCNT: bus address. -/
abbrev QCNT (n : Nat) : Nat := 0x50000014 + n * 0x1000
abbrev QCNT_COUNT (n : Nat) : RF := ⟨QCNT n, 31, 0⟩
/-- LANE.QCFG: bus address. -/
abbrev QCFG (n : Nat) : Nat := 0x50000018 + n * 0x1000
abbrev QCFG_EN (n : Nat) : RF := ⟨QCFG n, 31, 31⟩
abbrev QCFG_IDXMODE (n : Nat) : RF := ⟨QCFG n, 25, 24⟩
abbrev QCFG_DIR (n : Nat) : RF := ⟨QCFG n, 20, 20⟩
abbrev QCFG_FILT (n : Nat) : RF := ⟨QCFG n, 7, 0⟩
/-- LANE.QIDX: bus address. -/
abbrev QIDX (n : Nat) : Nat := 0x5000001C + n * 0x1000
abbrev QIDX_CAPT (n : Nat) : RF := ⟨QIDX n, 31, 0⟩
/-- LANE.QIDX_MT: bus address. -/
abbrev QIDX_MT (n : Nat) : Nat := 0x50000020 + n * 0x1000
abbrev QIDX_MT_CAPT (n : Nat) : RF := ⟨QIDX_MT n, 31, 0⟩
/-- LANE.QERR: bus address. -/
abbrev QERR (n : Nat) : Nat := 0x50000024 + n * 0x1000
abbrev QERR_OVF (n : Nat) : RF := ⟨QERR n, 31, 31⟩
abbrev QERR_COUNT (n : Nat) : RF := ⟨QERR n, 15, 0⟩
/-- LANE.PE_POS: bus address. -/
abbrev PE_POS (n : Nat) : Nat := 0x50000028 + n * 0x1000
abbrev PE_POS_PE_POS (n : Nat) : RF := ⟨PE_POS n, 31, 0⟩
/-- LANE.FBSCALE: bus address. -/
abbrev FBSCALE (n : Nat) : Nat := 0x5000002C + n * 0x1000
abbrev FBSCALE_FBSCALE (n : Nat) : RF := ⟨FBSCALE n, 31, 0⟩
/-- LANE.ESCALE: bus address. -/
abbrev ESCALE (n : Nat) : Nat := 0x50000030 + n * 0x1000
abbrev ESCALE_ESCALE (n : Nat) : RF := ⟨ESCALE n, 31, 0⟩
/-- LANE.ANGLE: bus address. -/
abbrev ANGLE (n : Nat) : Nat := 0x50000034 + n * 0x1000
abbrev ANGLE_THETA (n : Nat) : RF := ⟨ANGLE n, 31, 16⟩
abbrev ANGLE_EOFFS (n : Nat) : RF := ⟨ANGLE n, 15, 0⟩
/-- LANE.KPOS: bus address. -/
abbrev KPOS (n : Nat) : Nat := 0x50000038 + n * 0x1000
abbrev KPOS_KPP (n : Nat) : RF := ⟨KPOS n, 31, 16⟩
abbrev KPOS_KIP (n : Nat) : RF := ⟨KPOS n, 15, 0⟩
/-- LANE.KVEL: bus address. -/
abbrev KVEL (n : Nat) : Nat := 0x5000003C + n * 0x1000
abbrev KVEL_KDP (n : Nat) : RF := ⟨KVEL n, 31, 16⟩
abbrev KVEL_KFF (n : Nat) : RF := ⟨KVEL n, 15, 0⟩
/-- LANE.IQCFG: bus address. -/
abbrev IQCFG (n : Nat) : Nat := 0x50000040 + n * 0x1000
abbrev IQCFG_IQ_BIAS (n : Nat) : RF := ⟨IQCFG n, 31, 16⟩
abbrev IQCFG_IQMAX (n : Nat) : RF := ⟨IQCFG n, 10, 0⟩
/-- LANE.STEPCUR: bus address. -/
abbrev STEPCUR (n : Nat) : Nat := 0x50000044 + n * 0x1000
abbrev STEPCUR_IRUN (n : Nat) : RF := ⟨STEPCUR n, 26, 16⟩
abbrev STEPCUR_IHOLD (n : Nat) : RF := ⟨STEPCUR n, 10, 0⟩
/-- LANE.HOLDCFG: bus address. -/
abbrev HOLDCFG (n : Nat) : Nat := 0x50000048 + n * 0x1000
abbrev HOLDCFG_ID_CMD (n : Nat) : RF := ⟨HOLDCFG n, 31, 16⟩
abbrev HOLDCFG_HOLDDLY (n : Nat) : RF := ⟨HOLDCFG n, 15, 0⟩
/-- LANE.KCUR: bus address. -/
abbrev KCUR (n : Nat) : Nat := 0x5000004C + n * 0x1000
abbrev KCUR_KPC (n : Nat) : RF := ⟨KCUR n, 31, 16⟩
abbrev KCUR_KIC (n : Nat) : RF := ⟨KCUR n, 15, 0⟩
/-- LANE.VLIM: bus address. -/
abbrev VLIM (n : Nat) : Nat := 0x50000050 + n * 0x1000
abbrev VLIM_VLIM (n : Nat) : RF := ⟨VLIM n, 14, 0⟩
/-- LANE.PWMLIM: bus address. -/
abbrev PWMLIM (n : Nat) : Nat := 0x50000054 + n * 0x1000
abbrev PWMLIM_MINON (n : Nat) : RF := ⟨PWMLIM n, 27, 16⟩
abbrev PWMLIM_MINOFF (n : Nat) : RF := ⟨PWMLIM n, 11, 0⟩
/-- LANE.OFFS: bus address. -/
abbrev OFFS (n : Nat) : Nat := 0x50000058 + n * 0x1000
abbrev OFFS_OFFS_B (n : Nat) : RF := ⟨OFFS n, 27, 16⟩
abbrev OFFS_OFFS_A (n : Nat) : RF := ⟨OFFS n, 11, 0⟩
/-- LANE.OFFS_WIN: bus address. -/
abbrev OFFS_WIN (n : Nat) : Nat := 0x5000005C + n * 0x1000
abbrev OFFS_WIN_WIN (n : Nat) : RF := ⟨OFFS_WIN n, 11, 0⟩
/-- LANE.CUR_MEAS: bus address. -/
abbrev CUR_MEAS (n : Nat) : Nat := 0x50000060 + n * 0x1000
abbrev CUR_MEAS_B (n : Nat) : RF := ⟨CUR_MEAS n, 31, 16⟩
abbrev CUR_MEAS_A (n : Nat) : RF := ⟨CUR_MEAS n, 15, 0⟩
/-- LANE.CUR_REF: bus address. -/
abbrev CUR_REF (n : Nat) : Nat := 0x50000064 + n * 0x1000
abbrev CUR_REF_B (n : Nat) : RF := ⟨CUR_REF n, 31, 16⟩
abbrev CUR_REF_A (n : Nat) : RF := ⟨CUR_REF n, 15, 0⟩
/-- LANE.VOLT: bus address. -/
abbrev VOLT (n : Nat) : Nat := 0x50000068 + n * 0x1000
abbrev VOLT_B (n : Nat) : RF := ⟨VOLT n, 31, 16⟩
abbrev VOLT_A (n : Nat) : RF := ⟨VOLT n, 15, 0⟩
/-- LANE.IDQ: bus address. -/
abbrev IDQ (n : Nat) : Nat := 0x5000006C + n * 0x1000
abbrev IDQ_ID (n : Nat) : RF := ⟨IDQ n, 31, 16⟩
abbrev IDQ_IQ (n : Nat) : RF := ⟨IDQ n, 15, 0⟩
/-- LANE.PW_A: bus address. -/
abbrev PW_A (n : Nat) : Nat := 0x50000070 + n * 0x1000
abbrev PW_A_W (n : Nat) : RF := ⟨PW_A n, 16, 0⟩
/-- LANE.PW_B: bus address. -/
abbrev PW_B (n : Nat) : Nat := 0x50000074 + n * 0x1000
abbrev PW_B_W (n : Nat) : RF := ⟨PW_B n, 16, 0⟩
/-- LANE.PW_C: bus address. -/
abbrev PW_C (n : Nat) : Nat := 0x50000078 + n * 0x1000
abbrev PW_C_W (n : Nat) : RF := ⟨PW_C n, 16, 0⟩
/-- LANE.PW_D: bus address. -/
abbrev PW_D (n : Nat) : Nat := 0x5000007C + n * 0x1000
abbrev PW_D_W (n : Nat) : RF := ⟨PW_D n, 16, 0⟩
/-- LANE.IRQ_STAT: bus address. -/
abbrev IRQ_STAT (n : Nat) : Nat := 0x50000080 + n * 0x1000
abbrev IRQ_STAT_ENDED (n : Nat) : RF := ⟨IRQ_STAT n, 3, 3⟩
abbrev IRQ_STAT_IDX (n : Nat) : RF := ⟨IRQ_STAT n, 2, 2⟩
abbrev IRQ_STAT_CAL_DONE (n : Nat) : RF := ⟨IRQ_STAT n, 1, 1⟩
abbrev IRQ_STAT_STATE_CHG (n : Nat) : RF := ⟨IRQ_STAT n, 0, 0⟩
/-- LANE.IRQ_EN: bus address. -/
abbrev IRQ_EN (n : Nat) : Nat := 0x50000084 + n * 0x1000
abbrev IRQ_EN_ENDED (n : Nat) : RF := ⟨IRQ_EN n, 3, 3⟩
abbrev IRQ_EN_IDX (n : Nat) : RF := ⟨IRQ_EN n, 2, 2⟩
abbrev IRQ_EN_CAL_DONE (n : Nat) : RF := ⟨IRQ_EN n, 1, 1⟩
abbrev IRQ_EN_STATE_CHG (n : Nat) : RF := ⟨IRQ_EN n, 0, 0⟩
/-- LANE.FLT_CFG: bus address. -/
abbrev FLT_CFG (n : Nat) : Nat := 0x50000100 + n * 0x1000
abbrev FLT_CFG_FE_EN (n : Nat) : RF := ⟨FLT_CFG n, 18, 18⟩
abbrev FLT_CFG_DRV_EN (n : Nat) : RF := ⟨FLT_CFG n, 17, 17⟩
abbrev FLT_CFG_OPEN_EN (n : Nat) : RF := ⟨FLT_CFG n, 16, 16⟩
abbrev FLT_CFG_FE_POL (n : Nat) : RF := ⟨FLT_CFG n, 9, 8⟩
abbrev FLT_CFG_OPEN_POL (n : Nat) : RF := ⟨FLT_CFG n, 7, 6⟩
abbrev FLT_CFG_DRV_POL (n : Nat) : RF := ⟨FLT_CFG n, 5, 4⟩
abbrev FLT_CFG_OC_POL (n : Nat) : RF := ⟨FLT_CFG n, 3, 2⟩
abbrev FLT_CFG_SENSE_POL (n : Nat) : RF := ⟨FLT_CFG n, 1, 0⟩
/-- LANE.FLT_STAT: bus address. -/
abbrev FLT_STAT (n : Nat) : Nat := 0x50000104 + n * 0x1000
abbrev FLT_STAT_SENSE (n : Nat) : RF := ⟨FLT_STAT n, 31, 31⟩
abbrev FLT_STAT_OC (n : Nat) : RF := ⟨FLT_STAT n, 30, 30⟩
abbrev FLT_STAT_DRV (n : Nat) : RF := ⟨FLT_STAT n, 29, 29⟩
abbrev FLT_STAT_OPEN (n : Nat) : RF := ⟨FLT_STAT n, 28, 28⟩
abbrev FLT_STAT_FE (n : Nat) : RF := ⟨FLT_STAT n, 27, 27⟩
abbrev FLT_STAT_GROUP (n : Nat) : RF := ⟨FLT_STAT n, 26, 26⟩
abbrev FLT_STAT_TIME_LOST (n : Nat) : RF := ⟨FLT_STAT n, 25, 25⟩
abbrev FLT_STAT_LIVE_OC (n : Nat) : RF := ⟨FLT_STAT n, 22, 22⟩
abbrev FLT_STAT_LIVE_DRV (n : Nat) : RF := ⟨FLT_STAT n, 21, 21⟩
abbrev FLT_STAT_SRC_LANE (n : Nat) : RF := ⟨FLT_STAT n, 19, 16⟩
abbrev FLT_STAT_FIRST (n : Nat) : RF := ⟨FLT_STAT n, 15, 13⟩
abbrev FLT_STAT_ACTION (n : Nat) : RF := ⟨FLT_STAT n, 12, 10⟩
abbrev FLT_STAT_PHASE (n : Nat) : RF := ⟨FLT_STAT n, 9, 8⟩
abbrev FLT_STAT_SUB_OFFS (n : Nat) : RF := ⟨FLT_STAT n, 3, 3⟩
abbrev FLT_STAT_SUB_SUM (n : Nat) : RF := ⟨FLT_STAT n, 2, 2⟩
abbrev FLT_STAT_SUB_PLAUS (n : Nat) : RF := ⟨FLT_STAT n, 1, 1⟩
abbrev FLT_STAT_SUB_STUCK (n : Nat) : RF := ⟨FLT_STAT n, 0, 0⟩
/-- LANE.SENSE_CFG: bus address. -/
abbrev SENSE_CFG (n : Nat) : Nat := 0x50000108 + n * 0x1000
abbrev SENSE_CFG_PLAUS_LO (n : Nat) : RF := ⟨SENSE_CFG n, 27, 16⟩
abbrev SENSE_CFG_PLAUS_HI (n : Nat) : RF := ⟨SENSE_CFG n, 11, 0⟩
/-- LANE.SUMLIM: bus address. -/
abbrev SUMLIM (n : Nat) : Nat := 0x5000010C + n * 0x1000
abbrev SUMLIM_SUMLIM (n : Nat) : RF := ⟨SUMLIM n, 11, 0⟩
/-- LANE.OC_THR: bus address. -/
abbrev OC_THR (n : Nat) : Nat := 0x50000110 + n * 0x1000
abbrev OC_THR_ISB_HI (n : Nat) : RF := ⟨OC_THR n, 31, 24⟩
abbrev OC_THR_ISB_LO (n : Nat) : RF := ⟨OC_THR n, 23, 16⟩
abbrev OC_THR_ISA_HI (n : Nat) : RF := ⟨OC_THR n, 15, 8⟩
abbrev OC_THR_ISA_LO (n : Nat) : RF := ⟨OC_THR n, 7, 0⟩
/-- LANE.FE_CFG: bus address. -/
abbrev FE_CFG (n : Nat) : Nat := 0x50000114 + n * 0x1000
abbrev FE_CFG_FE_CNT (n : Nat) : RF := ⟨FE_CFG n, 31, 24⟩
abbrev FE_CFG_FE_LIM (n : Nat) : RF := ⟨FE_CFG n, 23, 0⟩
/-- LANE.HOLD_CFG2: bus address. -/
abbrev HOLD_CFG2 (n : Nat) : Nat := 0x50000118 + n * 0x1000
abbrev HOLD_CFG2_HOLD_TIME (n : Nat) : RF := ⟨HOLD_CFG2 n, 8, 0⟩
/-- LANE.DRV_FILT: bus address. -/
abbrev DRV_FILT (n : Nat) : Nat := 0x5000011C + n * 0x1000
abbrev DRV_FILT_FILT (n : Nat) : RF := ⟨DRV_FILT n, 7, 0⟩
/-- LANE.GROUP: bus address. -/
abbrev GROUP (n : Nat) : Nat := 0x50000120 + n * 0x1000
abbrev GROUP_PARTNER_POL (n : Nat) : RF := ⟨GROUP n, 5, 4⟩
abbrev GROUP_GRP (n : Nat) : RF := ⟨GROUP n, 2, 0⟩
/-- LANE.RESUME: bus address. -/
abbrev RESUME (n : Nat) : Nat := 0x50000124 + n * 0x1000
abbrev RESUME_CMD (n : Nat) : RF := ⟨RESUME n, 31, 31⟩
abbrev RESUME_RES_AT_HI (n : Nat) : RF := ⟨RESUME n, 7, 0⟩
/-- LANE.RES_AT_LO: bus address. -/
abbrev RES_AT_LO (n : Nat) : Nat := 0x50000128 + n * 0x1000
abbrev RES_AT_LO_RES_AT_LO (n : Nat) : RF := ⟨RES_AT_LO n, 31, 0⟩
/-- LANE.RES_STAT: bus address. -/
abbrev RES_STAT (n : Nat) : Nat := 0x5000012C + n * 0x1000
abbrev RES_STAT_PENDING (n : Nat) : RF := ⟨RES_STAT n, 31, 31⟩
abbrev RES_STAT_OUTCOME (n : Nat) : RF := ⟨RES_STAT n, 7, 0⟩
/-- LANE.FLT_CNT: bus address. -/
abbrev FLT_CNT (n : Nat) : Nat := 0x50000130 + n * 0x1000
abbrev FLT_CNT_OVF (n : Nat) : RF := ⟨FLT_CNT n, 31, 31⟩
abbrev FLT_CNT_COUNT (n : Nat) : RF := ⟨FLT_CNT n, 15, 0⟩
/-- LANE.FLT_IRQ_STAT: bus address. -/
abbrev FLT_IRQ_STAT (n : Nat) : Nat := 0x50000134 + n * 0x1000
abbrev FLT_IRQ_STAT_RES_DONE (n : Nat) : RF := ⟨FLT_IRQ_STAT n, 2, 2⟩
abbrev FLT_IRQ_STAT_HOLD_END (n : Nat) : RF := ⟨FLT_IRQ_STAT n, 1, 1⟩
abbrev FLT_IRQ_STAT_FAULT (n : Nat) : RF := ⟨FLT_IRQ_STAT n, 0, 0⟩
/-- LANE.FLT_IRQ_EN: bus address. -/
abbrev FLT_IRQ_EN (n : Nat) : Nat := 0x50000138 + n * 0x1000
abbrev FLT_IRQ_EN_RES_DONE (n : Nat) : RF := ⟨FLT_IRQ_EN n, 2, 2⟩
abbrev FLT_IRQ_EN_HOLD_END (n : Nat) : RF := ⟨FLT_IRQ_EN n, 1, 1⟩
abbrev FLT_IRQ_EN_FAULT (n : Nat) : RF := ⟨FLT_IRQ_EN n, 0, 0⟩

end Sys2Proof.Machine.LANE

namespace Sys2Proof.Machine.PINENG

/-- PINENG.SS_CTRL: bus address. -/
abbrev SS_CTRL : Nat := 0x50100000
abbrev SS_CTRL_GO : RF := ⟨SS_CTRL, 31, 31⟩
abbrev SS_CTRL_CANCEL : RF := ⟨SS_CTRL, 30, 30⟩
abbrev SS_CTRL_CLKRST : RF := ⟨SS_CTRL, 17, 17⟩
abbrev SS_CTRL_START : RF := ⟨SS_CTRL, 16, 16⟩
abbrev SS_CTRL_MASK : RF := ⟨SS_CTRL, 9, 0⟩
/-- PINENG.SS_AT: bus address. -/
abbrev SS_AT : Nat := 0x50100004
abbrev SS_AT_AT : RF := ⟨SS_AT, 31, 0⟩
/-- PINENG.SS_STAT: bus address. -/
abbrev SS_STAT : Nat := 0x50100008
abbrev SS_STAT_ARMED : RF := ⟨SS_STAT, 31, 31⟩
abbrev SS_STAT_DONE : RF := ⟨SS_STAT, 30, 30⟩
abbrev SS_STAT_LATE : RF := ⟨SS_STAT, 29, 29⟩
abbrev SS_STAT_TOO_LATE : RF := ⟨SS_STAT, 28, 28⟩
abbrev SS_STAT_CRMISS : RF := ⟨SS_STAT, 25, 16⟩
abbrev SS_STAT_MISS : RF := ⟨SS_STAT, 9, 0⟩
/-- PINENG.IRQ_STAT: bus address. -/
abbrev IRQ_STAT : Nat := 0x5010000C
abbrev IRQ_STAT_SS_DONE : RF := ⟨IRQ_STAT, 31, 31⟩
abbrev IRQ_STAT_ERR : RF := ⟨IRQ_STAT, 25, 16⟩
abbrev IRQ_STAT_EVT : RF := ⟨IRQ_STAT, 9, 0⟩
/-- PINENG.IRQ_EN: bus address. -/
abbrev IRQ_EN : Nat := 0x50100010
abbrev IRQ_EN_SS_DONE : RF := ⟨IRQ_EN, 31, 31⟩
abbrev IRQ_EN_ERR : RF := ⟨IRQ_EN, 25, 16⟩
abbrev IRQ_EN_EVT : RF := ⟨IRQ_EN, 9, 0⟩
/-- PINENG.MAP_CONFLICT: bus address. -/
abbrev MAP_CONFLICT : Nat := 0x50100014
abbrev MAP_CONFLICT_CONFLICT : RF := ⟨MAP_CONFLICT, 9, 0⟩
/-- PINENG.E_CTRL: bus address. -/
abbrev E_CTRL (k : Nat) : Nat := 0x50100100 + k * 0x40
abbrev E_CTRL_EN (k : Nat) : RF := ⟨E_CTRL k, 31, 31⟩
abbrev E_CTRL_ARM (k : Nat) : RF := ⟨E_CTRL k, 30, 30⟩
abbrev E_CTRL_TSCALE (k : Nat) : RF := ⟨E_CTRL k, 20, 16⟩
abbrev E_CTRL_MSBF (k : Nat) : RF := ⟨E_CTRL k, 0, 0⟩
/-- PINENG.E_RANGE: bus address. -/
abbrev E_RANGE (k : Nat) : Nat := 0x50100104 + k * 0x40
abbrev E_RANGE_END (k : Nat) : RF := ⟨E_RANGE k, 24, 16⟩
abbrev E_RANGE_START (k : Nat) : RF := ⟨E_RANGE k, 8, 0⟩
/-- PINENG.E_CLK: bus address. -/
abbrev E_CLK (k : Nat) : Nat := 0x50100108 + k * 0x40
abbrev E_CLK_DIV (k : Nat) : RF := ⟨E_CLK k, 15, 0⟩
/-- PINENG.E_STAT: bus address. -/
abbrev E_STAT (k : Nat) : Nat := 0x5010010C + k * 0x40
abbrev E_STAT_LATE (k : Nat) : RF := ⟨E_STAT k, 31, 31⟩
abbrev E_STAT_INJ_BUSY (k : Nat) : RF := ⟨E_STAT k, 30, 30⟩
abbrev E_STAT_INJ_REJ (k : Nat) : RF := ⟨E_STAT k, 29, 29⟩
abbrev E_STAT_TX_OVR (k : Nat) : RF := ⟨E_STAT k, 28, 28⟩
abbrev E_STAT_RX_UNDER (k : Nat) : RF := ⟨E_STAT k, 27, 27⟩
abbrev E_STAT_SLOT_OVR (k : Nat) : RF := ⟨E_STAT k, 26, 26⟩
abbrev E_STAT_WR_IGN (k : Nat) : RF := ⟨E_STAT k, 25, 25⟩
abbrev E_STAT_PC (k : Nat) : RF := ⟨E_STAT k, 24, 16⟩
abbrev E_STAT_ERR_CODE (k : Nat) : RF := ⟨E_STAT k, 15, 12⟩
abbrev E_STAT_STALE (k : Nat) : RF := ⟨E_STAT k, 11, 11⟩
abbrev E_STAT_TO (k : Nat) : RF := ⟨E_STAT k, 10, 10⟩
abbrev E_STAT_C (k : Nat) : RF := ⟨E_STAT k, 9, 9⟩
abbrev E_STAT_WAIT (k : Nat) : RF := ⟨E_STAT k, 8, 8⟩
abbrev E_STAT_ESTATE (k : Nat) : RF := ⟨E_STAT k, 2, 0⟩
/-- PINENG.E_BASE: bus address. -/
abbrev E_BASE (k : Nat) : Nat := 0x50100110 + k * 0x40
abbrev E_BASE_BASE (k : Nat) : RF := ⟨E_BASE k, 31, 0⟩
/-- PINENG.E_X: bus address. -/
abbrev E_X (k : Nat) : Nat := 0x50100114 + k * 0x40
abbrev E_X_X (k : Nat) : RF := ⟨E_X k, 31, 0⟩
/-- PINENG.E_Y: bus address. -/
abbrev E_Y (k : Nat) : Nat := 0x50100118 + k * 0x40
abbrev E_Y_Y (k : Nat) : RF := ⟨E_Y k, 31, 0⟩
/-- PINENG.E_INJECT: bus address. -/
abbrev E_INJECT (k : Nat) : Nat := 0x5010011C + k * 0x40
abbrev E_INJECT_INSTR (k : Nat) : RF := ⟨E_INJECT k, 31, 0⟩
/-- PINENG.E_TXFIFO: bus address. -/
abbrev E_TXFIFO (k : Nat) : Nat := 0x50100120 + k * 0x40
abbrev E_TXFIFO_DATA (k : Nat) : RF := ⟨E_TXFIFO k, 31, 0⟩
/-- PINENG.E_RXFIFO: bus address. -/
abbrev E_RXFIFO (k : Nat) : Nat := 0x50100124 + k * 0x40
abbrev E_RXFIFO_DATA (k : Nat) : RF := ⟨E_RXFIFO k, 31, 0⟩
/-- PINENG.E_FIFO_STAT: bus address. -/
abbrev E_FIFO_STAT (k : Nat) : Nat := 0x50100128 + k * 0x40
abbrev E_FIFO_STAT_SLOT_PEND (k : Nat) : RF := ⟨E_FIFO_STAT k, 31, 24⟩
abbrev E_FIFO_STAT_RX_LVL (k : Nat) : RF := ⟨E_FIFO_STAT k, 15, 12⟩
abbrev E_FIFO_STAT_TX_LVL (k : Nat) : RF := ⟨E_FIFO_STAT k, 7, 4⟩
abbrev E_FIFO_STAT_INJ_PEND (k : Nat) : RF := ⟨E_FIFO_STAT k, 0, 0⟩
/-- PINENG.E_PINMAP0: bus address. -/
abbrev E_PINMAP0 (k : Nat) : Nat := 0x5010012C + k * 0x40
abbrev E_PINMAP0_B2 (k : Nat) : RF := ⟨E_PINMAP0 k, 21, 16⟩
abbrev E_PINMAP0_B1 (k : Nat) : RF := ⟨E_PINMAP0 k, 13, 8⟩
abbrev E_PINMAP0_B0 (k : Nat) : RF := ⟨E_PINMAP0 k, 5, 0⟩
/-- PINENG.E_PINMAP1: bus address. -/
abbrev E_PINMAP1 (k : Nat) : Nat := 0x50100130 + k * 0x40
abbrev E_PINMAP1_B5 (k : Nat) : RF := ⟨E_PINMAP1 k, 21, 16⟩
abbrev E_PINMAP1_B4 (k : Nat) : RF := ⟨E_PINMAP1 k, 13, 8⟩
abbrev E_PINMAP1_B3 (k : Nat) : RF := ⟨E_PINMAP1 k, 5, 0⟩
/-- PINENG.E_PINCFG: bus address. -/
abbrev E_PINCFG (k : Nat) : Nat := 0x50100134 + k * 0x40
abbrev E_PINCFG_INIT (k : Nat) : RF := ⟨E_PINCFG k, 29, 24⟩
abbrev E_PINCFG_FSAFE5 (k : Nat) : RF := ⟨E_PINCFG k, 23, 22⟩
abbrev E_PINCFG_FSAFE4 (k : Nat) : RF := ⟨E_PINCFG k, 21, 20⟩
abbrev E_PINCFG_FSAFE3 (k : Nat) : RF := ⟨E_PINCFG k, 19, 18⟩
abbrev E_PINCFG_FSAFE2 (k : Nat) : RF := ⟨E_PINCFG k, 17, 16⟩
abbrev E_PINCFG_FSAFE1 (k : Nat) : RF := ⟨E_PINCFG k, 15, 14⟩
abbrev E_PINCFG_FSAFE0 (k : Nat) : RF := ⟨E_PINCFG k, 13, 12⟩
abbrev E_PINCFG_DIR5 (k : Nat) : RF := ⟨E_PINCFG k, 11, 10⟩
abbrev E_PINCFG_DIR4 (k : Nat) : RF := ⟨E_PINCFG k, 9, 8⟩
abbrev E_PINCFG_DIR3 (k : Nat) : RF := ⟨E_PINCFG k, 7, 6⟩
abbrev E_PINCFG_DIR2 (k : Nat) : RF := ⟨E_PINCFG k, 5, 4⟩
abbrev E_PINCFG_DIR1 (k : Nat) : RF := ⟨E_PINCFG k, 3, 2⟩
abbrev E_PINCFG_DIR0 (k : Nat) : RF := ⟨E_PINCFG k, 1, 0⟩
/-- PINENG.E_LATE_CNT: bus address. -/
abbrev E_LATE_CNT (k : Nat) : Nat := 0x50100138 + k * 0x40
abbrev E_LATE_CNT_OVF (k : Nat) : RF := ⟨E_LATE_CNT k, 31, 31⟩
abbrev E_LATE_CNT_COUNT (k : Nat) : RF := ⟨E_LATE_CNT k, 15, 0⟩
/-- PINENG.E_RX_OVR: bus address. -/
abbrev E_RX_OVR (k : Nat) : Nat := 0x5010013C + k * 0x40
abbrev E_RX_OVR_OVF (k : Nat) : RF := ⟨E_RX_OVR k, 31, 31⟩
abbrev E_RX_OVR_COUNT (k : Nat) : RF := ⟨E_RX_OVR k, 15, 0⟩

end Sys2Proof.Machine.PINENG

namespace Sys2Proof.Machine.SCHEDLD

/-- SCHEDLD.CTRL: bus address. -/
abbrev CTRL : Nat := 0x50200000
abbrev CTRL_LIMIT_LOCK : RF := ⟨CTRL, 31, 31⟩
/-- SCHEDLD.IRQ_STAT: bus address. -/
abbrev IRQ_STAT : Nat := 0x50200004
abbrev IRQ_STAT_SW_DONE : RF := ⟨IRQ_STAT, 25, 16⟩
abbrev IRQ_STAT_VER_DONE : RF := ⟨IRQ_STAT, 9, 0⟩
/-- SCHEDLD.IRQ_EN: bus address. -/
abbrev IRQ_EN : Nat := 0x50200008
abbrev IRQ_EN_SW_DONE : RF := ⟨IRQ_EN, 25, 16⟩
abbrev IRQ_EN_VER_DONE : RF := ⟨IRQ_EN, 9, 0⟩
/-- SCHEDLD.COPY_SRC: bus address. -/
abbrev COPY_SRC : Nat := 0x50200010
abbrev COPY_SRC_SRC : RF := ⟨COPY_SRC, 31, 5⟩
/-- SCHEDLD.COPY_CTRL: bus address. -/
abbrev COPY_CTRL : Nat := 0x50200014
abbrev COPY_CTRL_START : RF := ⟨COPY_CTRL, 31, 31⟩
abbrev COPY_CTRL_AUTO_VERIFY : RF := ⟨COPY_CTRL, 30, 30⟩
abbrev COPY_CTRL_BUSY : RF := ⟨COPY_CTRL, 27, 27⟩
abbrev COPY_CTRL_DONE : RF := ⟨COPY_CTRL, 26, 26⟩
abbrev COPY_CTRL_ERR : RF := ⟨COPY_CTRL, 25, 25⟩
abbrev COPY_CTRL_COUNT : RF := ⟨COPY_CTRL, 24, 16⟩
abbrev COPY_CTRL_LANE : RF := ⟨COPY_CTRL, 3, 0⟩
/-- SCHEDLD.L_CMD: bus address. -/
abbrev L_CMD (k : Nat) : Nat := 0x50200100 + k * 0x40
abbrev L_CMD_CMD (k : Nat) : RF := ⟨L_CMD k, 2, 0⟩
/-- SCHEDLD.L_LOADCFG: bus address. -/
abbrev L_LOADCFG (k : Nat) : Nat := 0x50200104 + k * 0x40
abbrev L_LOADCFG_COUNT (k : Nat) : RF := ⟨L_LOADCFG k, 24, 16⟩
abbrev L_LOADCFG_GEN (k : Nat) : RF := ⟨L_LOADCFG k, 15, 0⟩
/-- SCHEDLD.L_BANKCRC: bus address. -/
abbrev L_BANKCRC (k : Nat) : Nat := 0x50200108 + k * 0x40
abbrev L_BANKCRC_CRC (k : Nat) : RF := ⟨L_BANKCRC k, 31, 0⟩
/-- SCHEDLD.L_BSTAT: bus address. -/
abbrev L_BSTAT (k : Nat) : Nat := 0x5020010C + k * 0x40
abbrev L_BSTAT_FRONT_VALID (k : Nat) : RF := ⟨L_BSTAT k, 31, 31⟩
abbrev L_BSTAT_FRONT_PHYS (k : Nat) : RF := ⟨L_BSTAT k, 30, 30⟩
abbrev L_BSTAT_BACK_STATE (k : Nat) : RF := ⟨L_BSTAT k, 26, 24⟩
abbrev L_BSTAT_REC_INDEX (k : Nat) : RF := ⟨L_BSTAT k, 16, 8⟩
abbrev L_BSTAT_REASON (k : Nat) : RF := ⟨L_BSTAT k, 7, 0⟩
/-- SCHEDLD.L_GEN: bus address. -/
abbrev L_GEN (k : Nat) : Nat := 0x50200110 + k * 0x40
abbrev L_GEN_FRONT_GEN (k : Nat) : RF := ⟨L_GEN k, 31, 16⟩
abbrev L_GEN_BACK_GEN (k : Nat) : RF := ⟨L_GEN k, 15, 0⟩
/-- SCHEDLD.L_SWT_LO: bus address. -/
abbrev L_SWT_LO (k : Nat) : Nat := 0x50200114 + k * 0x40
abbrev L_SWT_LO_S_LO (k : Nat) : RF := ⟨L_SWT_LO k, 31, 0⟩
/-- SCHEDLD.L_SWT_HI: bus address. -/
abbrev L_SWT_HI (k : Nat) : Nat := 0x50200118 + k * 0x40
abbrev L_SWT_HI_S_HI (k : Nat) : RF := ⟨L_SWT_HI k, 7, 0⟩
/-- SCHEDLD.L_SWSTAT: bus address. -/
abbrev L_SWSTAT (k : Nat) : Nat := 0x5020011C + k * 0x40
abbrev L_SWSTAT_ARMED (k : Nat) : RF := ⟨L_SWSTAT k, 31, 31⟩
abbrev L_SWSTAT_TOO_LATE (k : Nat) : RF := ⟨L_SWSTAT k, 30, 30⟩
abbrev L_SWSTAT_CMD_IGN (k : Nat) : RF := ⟨L_SWSTAT k, 29, 29⟩
abbrev L_SWSTAT_OUTCOME (k : Nat) : RF := ⟨L_SWSTAT k, 7, 0⟩
/-- SCHEDLD.L_POSMIN: bus address. -/
abbrev L_POSMIN (k : Nat) : Nat := 0x50200120 + k * 0x40
abbrev L_POSMIN_POSMIN (k : Nat) : RF := ⟨L_POSMIN k, 31, 0⟩
/-- SCHEDLD.L_POSMAX: bus address. -/
abbrev L_POSMAX (k : Nat) : Nat := 0x50200124 + k * 0x40
abbrev L_POSMAX_POSMAX (k : Nat) : RF := ⟨L_POSMAX k, 31, 0⟩
/-- SCHEDLD.L_VELMAX: bus address. -/
abbrev L_VELMAX (k : Nat) : Nat := 0x50200128 + k * 0x40
abbrev L_VELMAX_VELMAX (k : Nat) : RF := ⟨L_VELMAX k, 31, 0⟩
/-- SCHEDLD.L_ACCMAX: bus address. -/
abbrev L_ACCMAX (k : Nat) : Nat := 0x5020012C + k * 0x40
abbrev L_ACCMAX_ACCMAX (k : Nat) : RF := ⟨L_ACCMAX k, 31, 0⟩
/-- SCHEDLD.L_CONTTOL: bus address. -/
abbrev L_CONTTOL (k : Nat) : Nat := 0x50200130 + k * 0x40
abbrev L_CONTTOL_CONTTOL (k : Nat) : RF := ⟨L_CONTTOL k, 15, 0⟩

end Sys2Proof.Machine.SCHEDLD

namespace Sys2Proof.Machine.PORT

/-- PORT.CTRL: bus address. -/
abbrev CTRL (n : Nat) : Nat := 0x60000000 + n * 0x1000
abbrev CTRL_EN (n : Nat) : RF := ⟨CTRL n, 31, 31⟩
abbrev CTRL_FORCE_FLT (n : Nat) : RF := ⟨CTRL n, 30, 30⟩
/-- PORT.STAT: bus address. -/
abbrev STAT (n : Nat) : Nat := 0x60000004 + n * 0x1000
abbrev STAT_SIG (n : Nat) : RF := ⟨STAT n, 31, 31⟩
abbrev STAT_ALIGNED (n : Nat) : RF := ⟨STAT n, 30, 30⟩
abbrev STAT_LOST (n : Nat) : RF := ⟨STAT n, 29, 29⟩
abbrev STAT_FLT_RX (n : Nat) : RF := ⟨STAT n, 28, 28⟩
abbrev STAT_MISWIRED (n : Nat) : RF := ⟨STAT n, 27, 27⟩
abbrev STAT_NBR_READY (n : Nat) : RF := ⟨STAT n, 26, 26⟩
abbrev STAT_HEAL_PEND (n : Nat) : RF := ⟨STAT n, 25, 25⟩
abbrev STAT_NBR_ADDR (n : Nat) : RF := ⟨STAT n, 22, 16⟩
abbrev STAT_HEAL_CYC (n : Nat) : RF := ⟨STAT n, 15, 0⟩
/-- PORT.CODE_ERR: bus address. -/
abbrev CODE_ERR (n : Nat) : Nat := 0x60000008 + n * 0x1000
abbrev CODE_ERR_OVF (n : Nat) : RF := ⟨CODE_ERR n, 31, 31⟩
abbrev CODE_ERR_COUNT (n : Nat) : RF := ⟨CODE_ERR n, 15, 0⟩
/-- PORT.CRC_ERR: bus address. -/
abbrev CRC_ERR (n : Nat) : Nat := 0x6000000C + n * 0x1000
abbrev CRC_ERR_OVF (n : Nat) : RF := ⟨CRC_ERR n, 31, 31⟩
abbrev CRC_ERR_COUNT (n : Nat) : RF := ⟨CRC_ERR n, 15, 0⟩
/-- PORT.LOS_CNT: bus address. -/
abbrev LOS_CNT (n : Nat) : Nat := 0x60000010 + n * 0x1000
abbrev LOS_CNT_OVF (n : Nat) : RF := ⟨LOS_CNT n, 31, 31⟩
abbrev LOS_CNT_COUNT (n : Nat) : RF := ⟨LOS_CNT n, 15, 0⟩

end Sys2Proof.Machine.PORT

namespace Sys2Proof.Machine.RINGCTL

/-- RINGCTL.CTRL: bus address. -/
abbrev CTRL : Nat := 0x60002000
abbrev CTRL_EN : RF := ⟨CTRL, 31, 31⟩
abbrev CTRL_INSERT : RF := ⟨CTRL, 30, 30⟩
abbrev CTRL_MASTER_CAP : RF := ⟨CTRL, 29, 29⟩
abbrev CTRL_RST : RF := ⟨CTRL, 28, 28⟩
abbrev CTRL_PRIO : RF := ⟨CTRL, 7, 0⟩
/-- RINGCTL.STAT: bus address. -/
abbrev STAT : Nat := 0x60002004
abbrev STAT_LOOP_A : RF := ⟨STAT, 31, 31⟩
abbrev STAT_LOOP_B : RF := ⟨STAT, 30, 30⟩
abbrev STAT_WRAP : RF := ⟨STAT, 29, 29⟩
abbrev STAT_MUTED : RF := ⟨STAT, 28, 28⟩
abbrev STAT_BYPASS : RF := ⟨STAT, 27, 27⟩
abbrev STAT_HELD : RF := ⟨STAT, 26, 26⟩
abbrev STAT_GOOD : RF := ⟨STAT, 12, 8⟩
abbrev STAT_RSTATE : RF := ⟨STAT, 2, 0⟩
/-- RINGCTL.ADDR: bus address. -/
abbrev ADDR : Nat := 0x60002008
abbrev ADDR_ADDR : RF := ⟨ADDR, 6, 0⟩
/-- RINGCTL.CYCLE: bus address. -/
abbrev CYCLE : Nat := 0x6000200C
abbrev CYCLE_CUR_TC : RF := ⟨CYCLE, 25, 16⟩
abbrev CYCLE_TC_US : RF := ⟨CYCLE, 9, 0⟩
/-- RINGCTL.SLOT: bus address. -/
abbrev SLOT : Nat := 0x60002010
abbrev SLOT_EN : RF := ⟨SLOT, 31, 31⟩
abbrev SLOT_LEN : RF := ⟨SLOT, 29, 24⟩
abbrev SLOT_IDX : RF := ⟨SLOT, 22, 16⟩
abbrev SLOT_POS : RF := ⟨SLOT, 15, 0⟩
/-- RINGCTL.ACYC: bus address. -/
abbrev ACYC : Nat := 0x60002014
abbrev ACYC_CUR_POS : RF := ⟨ACYC, 31, 16⟩
abbrev ACYC_POS : RF := ⟨ACYC, 15, 0⟩
/-- RINGCTL.CYCNUM: bus address. -/
abbrev CYCNUM : Nat := 0x60002018
abbrev CYCNUM_CYCLE : RF := ⟨CYCNUM, 15, 0⟩
/-- RINGCTL.MASTER: bus address. -/
abbrev MASTER : Nat := 0x6000201C
abbrev MASTER_PRIO : RF := ⟨MASTER, 15, 8⟩
abbrev MASTER_ADDR : RF := ⟨MASTER, 6, 0⟩
/-- RINGCTL.MASTER_UID_LO: bus address. -/
abbrev MASTER_UID_LO : Nat := 0x60002020
abbrev MASTER_UID_LO_UID : RF := ⟨MASTER_UID_LO, 31, 0⟩
/-- RINGCTL.MASTER_UID_HI: bus address. -/
abbrev MASTER_UID_HI : Nat := 0x60002024
abbrev MASTER_UID_HI_UID : RF := ⟨MASTER_UID_HI, 31, 0⟩
/-- RINGCTL.SLEEP: bus address. -/
abbrev SLEEP : Nat := 0x60002028
abbrev SLEEP_GO : RF := ⟨SLEEP, 31, 31⟩
abbrev SLEEP_CANCEL : RF := ⟨SLEEP, 30, 30⟩
abbrev SLEEP_PEND : RF := ⟨SLEEP, 29, 29⟩
abbrev SLEEP_AHEAD : RF := ⟨SLEEP, 15, 0⟩
/-- RINGCTL.SLEEP_CYC: bus address. -/
abbrev SLEEP_CYC : Nat := 0x6000202C
abbrev SLEEP_CYC_T : RF := ⟨SLEEP_CYC, 15, 0⟩
/-- RINGCTL.WAKE: bus address. -/
abbrev WAKE : Nat := 0x60002030
abbrev WAKE_REQ : RF := ⟨WAKE, 31, 31⟩
abbrev WAKE_EVT_EN : RF := ⟨WAKE, 30, 30⟩
abbrev WAKE_EVT : RF := ⟨WAKE, 4, 0⟩
/-- RINGCTL.IRQ_STAT: bus address. -/
abbrev IRQ_STAT : Nat := 0x60002034
abbrev IRQ_STAT_MUTE : RF := ⟨IRQ_STAT, 7, 7⟩
abbrev IRQ_STAT_CANCELLED : RF := ⟨IRQ_STAT, 6, 6⟩
abbrev IRQ_STAT_SLEPT : RF := ⟨IRQ_STAT, 5, 5⟩
abbrev IRQ_STAT_RESET : RF := ⟨IRQ_STAT, 4, 4⟩
abbrev IRQ_STAT_ELECTED : RF := ⟨IRQ_STAT, 3, 3⟩
abbrev IRQ_STAT_HEAL : RF := ⟨IRQ_STAT, 2, 2⟩
abbrev IRQ_STAT_BREAK : RF := ⟨IRQ_STAT, 1, 1⟩
abbrev IRQ_STAT_STATE_CHG : RF := ⟨IRQ_STAT, 0, 0⟩
/-- RINGCTL.IRQ_EN: bus address. -/
abbrev IRQ_EN : Nat := 0x60002038
abbrev IRQ_EN_MUTE : RF := ⟨IRQ_EN, 7, 7⟩
abbrev IRQ_EN_CANCELLED : RF := ⟨IRQ_EN, 6, 6⟩
abbrev IRQ_EN_SLEPT : RF := ⟨IRQ_EN, 5, 5⟩
abbrev IRQ_EN_RESET : RF := ⟨IRQ_EN, 4, 4⟩
abbrev IRQ_EN_ELECTED : RF := ⟨IRQ_EN, 3, 3⟩
abbrev IRQ_EN_HEAL : RF := ⟨IRQ_EN, 2, 2⟩
abbrev IRQ_EN_BREAK : RF := ⟨IRQ_EN, 1, 1⟩
abbrev IRQ_EN_STATE_CHG : RF := ⟨IRQ_EN, 0, 0⟩
/-- RINGCTL.MUTE_CNT: bus address. -/
abbrev MUTE_CNT : Nat := 0x6000203C
abbrev MUTE_CNT_OVF : RF := ⟨MUTE_CNT, 31, 31⟩
abbrev MUTE_CNT_COUNT : RF := ⟨MUTE_CNT, 15, 0⟩
/-- RINGCTL.BREAK_CNT: bus address. -/
abbrev BREAK_CNT : Nat := 0x60002040
abbrev BREAK_CNT_OVF : RF := ⟨BREAK_CNT, 31, 31⟩
abbrev BREAK_CNT_COUNT : RF := ⟨BREAK_CNT, 15, 0⟩
/-- RINGCTL.SLOT_COLL: bus address. -/
abbrev SLOT_COLL : Nat := 0x60002044
abbrev SLOT_COLL_OVF : RF := ⟨SLOT_COLL, 31, 31⟩
abbrev SLOT_COLL_COUNT : RF := ⟨SLOT_COLL, 15, 0⟩
/-- RINGCTL.ORPHAN: bus address. -/
abbrev ORPHAN : Nat := 0x60002048
abbrev ORPHAN_OVF : RF := ⟨ORPHAN, 31, 31⟩
abbrev ORPHAN_COUNT : RF := ⟨ORPHAN, 15, 0⟩

end Sys2Proof.Machine.RINGCTL

namespace Sys2Proof.Machine.LINKQ

/-- LINKQ.CTRL: bus address. -/
abbrev CTRL : Nat := 0x60003000
abbrev CTRL_TX_COMMON : RF := ⟨CTRL, 0, 0⟩
/-- LINKQ.IRQ_STAT: bus address. -/
abbrev IRQ_STAT : Nat := 0x60003004
abbrev IRQ_STAT_DROP : RF := ⟨IRQ_STAT, 15, 8⟩
abbrev IRQ_STAT_DONE : RF := ⟨IRQ_STAT, 7, 0⟩
/-- LINKQ.IRQ_EN: bus address. -/
abbrev IRQ_EN : Nat := 0x60003008
abbrev IRQ_EN_DROP : RF := ⟨IRQ_EN, 15, 8⟩
abbrev IRQ_EN_DONE : RF := ⟨IRQ_EN, 7, 0⟩
/-- LINKQ.SUB: bus address. -/
abbrev SUB (k : Nat) : Nat := 0x60003010 + k * 0x4
abbrev SUB_SUB (k : Nat) : RF := ⟨SUB k, 31, 0⟩
/-- LINKQ.Q_BASE: bus address. -/
abbrev Q_BASE (k : Nat) : Nat := 0x60003100 + k * 0x20
abbrev Q_BASE_BASE (k : Nat) : RF := ⟨Q_BASE k, 31, 4⟩
/-- LINKQ.Q_CFG: bus address. -/
abbrev Q_CFG (k : Nat) : Nat := 0x60003104 + k * 0x20
abbrev Q_CFG_EN (k : Nat) : RF := ⟨Q_CFG k, 31, 31⟩
abbrev Q_CFG_SIZE (k : Nat) : RF := ⟨Q_CFG k, 8, 0⟩
/-- LINKQ.Q_HEAD: bus address. -/
abbrev Q_HEAD (k : Nat) : Nat := 0x60003108 + k * 0x20
abbrev Q_HEAD_HEAD (k : Nat) : RF := ⟨Q_HEAD k, 7, 0⟩
/-- LINKQ.Q_TAIL: bus address. -/
abbrev Q_TAIL (k : Nat) : Nat := 0x6000310C + k * 0x20
abbrev Q_TAIL_TAIL (k : Nat) : RF := ⟨Q_TAIL k, 7, 0⟩
/-- LINKQ.Q_DROP: bus address. -/
abbrev Q_DROP (k : Nat) : Nat := 0x60003110 + k * 0x20
abbrev Q_DROP_OVF (k : Nat) : RF := ⟨Q_DROP k, 31, 31⟩
abbrev Q_DROP_COUNT (k : Nat) : RF := ⟨Q_DROP k, 15, 0⟩

end Sys2Proof.Machine.LINKQ

namespace Sys2Proof.Machine.DICTENG

/-- DICTENG.CTRL: bus address. -/
abbrev CTRL : Nat := 0x60004000
abbrev CTRL_EN_RING : RF := ⟨CTRL, 31, 31⟩
abbrev CTRL_EN_SVC : RF := ⟨CTRL, 30, 30⟩
abbrev CTRL_EN_UART0 : RF := ⟨CTRL, 29, 29⟩
abbrev CTRL_COLLECT : RF := ⟨CTRL, 28, 28⟩
/-- DICTENG.STAT: bus address. -/
abbrev STAT : Nat := 0x60004004
abbrev STAT_BUSY : RF := ⟨STAT, 31, 31⟩
abbrev STAT_APP_PEND : RF := ⟨STAT, 30, 30⟩
abbrev STAT_LOC_BUSY : RF := ⟨STAT, 29, 29⟩
abbrev STAT_SNAP : RF := ⟨STAT, 11, 8⟩
abbrev STAT_WS_ARMED : RF := ⟨STAT, 3, 0⟩
/-- DICTENG.IRQ_STAT: bus address. -/
abbrev IRQ_STAT : Nat := 0x60004008
abbrev IRQ_STAT_LOC_DONE : RF := ⟨IRQ_STAT, 11, 11⟩
abbrev IRQ_STAT_APP_REQ : RF := ⟨IRQ_STAT, 10, 10⟩
abbrev IRQ_STAT_SNAP_INC : RF := ⟨IRQ_STAT, 9, 9⟩
abbrev IRQ_STAT_SNAP_DONE : RF := ⟨IRQ_STAT, 8, 8⟩
abbrev IRQ_STAT_WS_FAIL : RF := ⟨IRQ_STAT, 7, 4⟩
abbrev IRQ_STAT_WS_COMMIT : RF := ⟨IRQ_STAT, 3, 0⟩
/-- DICTENG.IRQ_EN: bus address. -/
abbrev IRQ_EN : Nat := 0x6000400C
abbrev IRQ_EN_LOC_DONE : RF := ⟨IRQ_EN, 11, 11⟩
abbrev IRQ_EN_APP_REQ : RF := ⟨IRQ_EN, 10, 10⟩
abbrev IRQ_EN_SNAP_INC : RF := ⟨IRQ_EN, 9, 9⟩
abbrev IRQ_EN_SNAP_DONE : RF := ⟨IRQ_EN, 8, 8⟩
abbrev IRQ_EN_WS_FAIL : RF := ⟨IRQ_EN, 7, 4⟩
abbrev IRQ_EN_WS_COMMIT : RF := ⟨IRQ_EN, 3, 0⟩
/-- DICTENG.COLL_BASE: bus address. -/
abbrev COLL_BASE : Nat := 0x60004010
abbrev COLL_BASE_BASE : RF := ⟨COLL_BASE, 31, 15⟩
/-- DICTENG.LOC_BUF: bus address. -/
abbrev LOC_BUF : Nat := 0x60004014
abbrev LOC_BUF_BUF : RF := ⟨LOC_BUF, 31, 2⟩
/-- DICTENG.LOC_CTRL: bus address. -/
abbrev LOC_CTRL : Nat := 0x60004018
abbrev LOC_CTRL_GO : RF := ⟨LOC_CTRL, 31, 31⟩
abbrev LOC_CTRL_DONE : RF := ⟨LOC_CTRL, 30, 30⟩
/-- DICTENG.APP_CFG: bus address. -/
abbrev APP_CFG : Nat := 0x60004020
abbrev APP_CFG_EN : RF := ⟨APP_CFG, 31, 31⟩
abbrev APP_CFG_TIMEOUT : RF := ⟨APP_CFG, 15, 0⟩
/-- DICTENG.APP_REQ: bus address. -/
abbrev APP_REQ : Nat := 0x60004024
abbrev APP_REQ_OP : RF := ⟨APP_REQ, 30, 24⟩
abbrev APP_REQ_SUB : RF := ⟨APP_REQ, 23, 16⟩
abbrev APP_REQ_INDEX : RF := ⟨APP_REQ, 15, 0⟩
/-- DICTENG.APP_LEN: bus address. -/
abbrev APP_LEN : Nat := 0x60004028
abbrev APP_LEN_LEN : RF := ⟨APP_LEN, 8, 0⟩
/-- DICTENG.APP_BUF: bus address. -/
abbrev APP_BUF : Nat := 0x6000402C
abbrev APP_BUF_BUF : RF := ⟨APP_BUF, 31, 2⟩
/-- DICTENG.APP_RESP: bus address. -/
abbrev APP_RESP : Nat := 0x60004030
abbrev APP_RESP_DONE : RF := ⟨APP_RESP, 31, 31⟩
abbrev APP_RESP_STATUS : RF := ⟨APP_RESP, 23, 16⟩
abbrev APP_RESP_LEN : RF := ⟨APP_RESP, 8, 0⟩
/-- DICTENG.REQ_CNT: bus address. -/
abbrev REQ_CNT : Nat := 0x60004040
abbrev REQ_CNT_OVF : RF := ⟨REQ_CNT, 31, 31⟩
abbrev REQ_CNT_COUNT : RF := ⟨REQ_CNT, 15, 0⟩
/-- DICTENG.ABORT_CNT: bus address. -/
abbrev ABORT_CNT : Nat := 0x60004044
abbrev ABORT_CNT_OVF : RF := ⟨ABORT_CNT, 31, 31⟩
abbrev ABORT_CNT_COUNT : RF := ⟨ABORT_CNT, 15, 0⟩
/-- DICTENG.LATE_CNT: bus address. -/
abbrev LATE_CNT : Nat := 0x60004048
abbrev LATE_CNT_OVF : RF := ⟨LATE_CNT, 31, 31⟩
abbrev LATE_CNT_COUNT : RF := ⟨LATE_CNT, 15, 0⟩
/-- DICTENG.APP_TO_CNT: bus address. -/
abbrev APP_TO_CNT : Nat := 0x6000404C
abbrev APP_TO_CNT_OVF : RF := ⟨APP_TO_CNT, 31, 31⟩
abbrev APP_TO_CNT_COUNT : RF := ⟨APP_TO_CNT, 15, 0⟩

end Sys2Proof.Machine.DICTENG

namespace Sys2Proof.Machine.MBOX

/-- MBOX.CMD: bus address. -/
abbrev CMD : Nat := 0x70000000
abbrev CMD_GO : RF := ⟨CMD, 31, 31⟩
abbrev CMD_OP : RF := ⟨CMD, 7, 0⟩
/-- MBOX.STAT: bus address. -/
abbrev STAT : Nat := 0x70000004
abbrev STAT_BUSY : RF := ⟨STAT, 31, 31⟩
abbrev STAT_DONE : RF := ⟨STAT, 30, 30⟩
abbrev STAT_IE : RF := ⟨STAT, 29, 29⟩
abbrev STAT_RESULT : RF := ⟨STAT, 7, 0⟩
/-- MBOX.ARG: bus address. -/
abbrev ARG (k : Nat) : Nat := 0x70000040 + k * 0x4
abbrev ARG_ARG (k : Nat) : RF := ⟨ARG k, 31, 0⟩
/-- MBOX.TEMP: bus address. -/
abbrev TEMP : Nat := 0x70000080
abbrev TEMP_S2 : RF := ⟨TEMP, 29, 20⟩
abbrev TEMP_S1 : RF := ⟨TEMP, 19, 10⟩
abbrev TEMP_S0 : RF := ⟨TEMP, 9, 0⟩
/-- MBOX.WDOG_CTRL: bus address. -/
abbrev WDOG_CTRL : Nat := 0x70000100
abbrev WDOG_CTRL_EN : RF := ⟨WDOG_CTRL, 31, 31⟩
abbrev WDOG_CTRL_WARN_MS : RF := ⟨WDOG_CTRL, 29, 20⟩
abbrev WDOG_CTRL_WIN : RF := ⟨WDOG_CTRL, 19, 16⟩
abbrev WDOG_CTRL_PERIOD : RF := ⟨WDOG_CTRL, 15, 0⟩
/-- MBOX.WDOG_KICK: bus address. -/
abbrev WDOG_KICK : Nat := 0x70000104
abbrev WDOG_KICK_KEY : RF := ⟨WDOG_KICK, 15, 0⟩
/-- MBOX.WDOG_STAT: bus address. -/
abbrev WDOG_STAT : Nat := 0x70000108
abbrev WDOG_STAT_WARN : RF := ⟨WDOG_STAT, 31, 31⟩
abbrev WDOG_STAT_REMAIN : RF := ⟨WDOG_STAT, 15, 0⟩

end Sys2Proof.Machine.MBOX
end

