-- ==== Sys2Proof/Machine/Store.lean ====
section
/-!
DEFINITION. The sparse map that holds the registers' fields and the memories' bytes: a list of key and value pairs in one
canonical form, keys strictly rising. The rule that no entry equals what an unlisted key reads as is kept by the callers
(`State.set`, `State.poke`), which erase such an entry.
-/
namespace Sys2Proof.Machine.Store

variable {β : Type}

/-- The value listed under key `k`. -/
def find? (k : Nat) : List (Nat × β) → Option β
  | [] => none
  | (k', v) :: t => if k' = k then some v else find? k t

/-- The list with `v` under key `k`. -/
def insert (k : Nat) (v : β) : List (Nat × β) → List (Nat × β)
  | [] => [(k, v)]
  | (k', v') :: t =>
    if k < k' then (k, v) :: (k', v') :: t
    else if k' = k then (k, v) :: t
    else (k', v') :: insert k v t

/-- The list with nothing under key `k`. -/
def erase (k : Nat) (m : List (Nat × β)) : List (Nat × β) := m.filter fun c => c.1 ≠ k

/-- Keys strictly rise. -/
def sorted : List (Nat × β) → Bool
  | [] => true
  | [_] => true
  | (k, _) :: (k', v) :: t => decide (k < k') && sorted ((k', v) :: t)

/-- The canonical form: keys strictly rise, and no entry holds what an unlisted key reads as. -/
def wf [DecidableEq β] (dflt : Nat → Option β) (m : List (Nat × β)) : Bool :=
  sorted m && m.all fun c => decide (dflt c.1 ≠ some c.2)

/-- The list with `v` under key `k`, in canonical form: nothing is listed where `v` is what the key reads as unlisted. -/
def put [DecidableEq β] (dflt : Nat → Option β) (k : Nat) (v : β) (m : List (Nat × β)) : List (Nat × β) :=
  if dflt k = some v then erase k m else insert k v m

/-- The value under key `k`, an unlisted key reading as `dflt`. -/
def get (dflt : Nat → Option β) (k : Nat) (m : List (Nat × β)) : Option β :=
  match find? k m with
  | some v => some v
  | none => dflt k

end Sys2Proof.Machine.Store
end

