-- ==== Sys2Proof/Machine/State.lean ====
section
/-!
DEFINITION. The state of the STQ1040: the register fields and the memories in canonical sparse form, what every block holds
beside its registers, and the queue of waiting commands; and the state right after power-on reset.
-/
namespace Sys2Proof.Machine

/-- No command ends in a fault: every error the spec names is an effect on State (a bus error is the bus answer `error`). -/
inductive Fault where
  deriving DecidableEq, Repr

/-- Why a command is refused. -/
inductive Refusal where
  /-- The command has no meaning yet; raised by `exec` for the row named. Safe: nothing is claimed of such a command. -/
  | notModelled (mnemonic : String)
  /-- A debug instruction of the TAP aimed at an open scope: the spec does not say what it does there (R289). Raised by
  TAP_ACCESS. Safe: the model stops where the hardware goes on. -/
  | debugInstruction
  deriving DecidableEq, Repr

/-- The ladder steps (R196). -/
inductive PStep where
  | run | hover | rest | torpor | diapause | pupa | cold
  deriving DecidableEq, Repr

/-- The step's code (R196). -/
def PStep.code : PStep → Nat
  | .run => 0
  | .hover => 1
  | .rest => 2
  | .torpor => 3
  | .diapause => 4
  | .pupa => 5
  | .cold => 5

/-- What the bus answered to the last access (R13, R14, R38): nothing yet, an access completed with its read data, a bus
error, or an access held off. The model's own record of what the master sees. (DEDUCED, log entry 80). -/
inductive BusAns where
  | none
  | ok (data : Nat)
  | error
  | held
  deriving DecidableEq, Repr

/-- Machine time (02_machine_time.md): what the servo, the outputs and the compare channels hold beside the registers. -/
structure TmSt where
  /-- Arrival stamp of the last accepted Cycle Start, in ns (T_last, R51). -/
  tLast : Option Nat := none
  /-- Missed has occurred since the last accepted Cycle Start (R51). -/
  missed : Bool := false
  /-- F that takes effect at a later tick: the timebase tick and the value (R50). -/
  fNext : Option (Nat × Nat) := none
  /-- A step called for: the timebase tick from which it is applied, and how far MT moves (R52). -/
  stepNext : Option (Nat × Int) := none
  /-- Ports A and B: the link-delay samples q, newest first, at most 16 (R48). -/
  samplesA : List Int := []
  samplesB : List Int := []
  /-- Ports A and B: departure time t1 of the delay request that is out (R48). -/
  t1A : Option Nat := none
  t1B : Option Nat := none
  /-- MT at the entry into HOLDOVER (R54). -/
  hoEntry : Nat := 0
  /-- The holdover time has elapsed (R54). -/
  hoExpired : Bool := false
  /-- Stamp of the previous MT_SYNC_IN edge from which the next interval is measured (R58). -/
  syncinLast : Option Nat := none
  /-- Consecutive accepted MT_SYNC_IN edges (R58). -/
  syncinGood : Nat := 0
  /-- SYNCIN_CAPT_HI frozen by a read of SYNCIN_CAPT_LO. -/
  captFrozen : Option Nat := none
  /-- The last MT_SYNC_IN edge that the master took, in ns of the timebase (R58). -/
  syncinNs : Nat := 0
  /-- The armed MT_SYNC_OUT pattern: its START, and its next pulse instant (R59). -/
  syncoutBase : Nat := 0
  syncoutNext : Option Nat := none
  /-- The rise and the fall of the last MT_SYNC_OUT pulse, in ns of the timebase; no fall: none is in progress (R59, R61). -/
  syncoutRise : Nat := 0
  syncoutFall : Option Nat := none
  /-- MT at which TIME_VALID last became 1: gated outputs resume with the first pattern instant from there on (R61). -/
  validAt : Nat := 0
  /-- The timebase tick at which MT was last frozen: REF_OUT's undefined phase starts with it (R61). -/
  frozenAt : Nat := 0
  /-- The instants that compare channels 0 to 3 were armed with (R66). -/
  cmp : List Nat := [0, 0, 0, 0]
  /-- The read shadow of MT_HI (R26). -/
  shadow : Nat := 0
  /-- The calendar copy of objects 0x4010 (R62): MT_ref, cal_s, RTC_VALID, held, publishing node. -/
  calMt : Nat := 0
  calSec : Nat := 0
  calValid : Bool := false
  calHeld : Bool := false
  calNode : Nat := 0
  deriving DecidableEq, Repr

/-- The commands of a lane's loader (R80). -/
inductive SwCmd where
  | arm | cancel | verify | invalidate
  deriving DecidableEq, Repr

/-- What those commands write: BACK_STATE, BACK_GEN, OUTCOME, ARMED, TOO_LATE, CMD_IGN, and the lane's SW_DONE bit. -/
structure SwRegs where
  back : Nat
  gen : Nat
  outcome : Nat
  armed : Nat
  tooLate : Nat
  ign : Nat
  done : Bool
  deriving DecidableEq, Repr

/-- The commands of one lane that have landed in one tick (R80), each with whether a write set gave it: the tick, the registers before
the first of them and after the last, and the commands in the order in which they came. -/
structure Landed where
  tick : Nat
  before : SwRegs
  after : SwRegs
  cmds : List (SwCmd × Bool)
  deriving DecidableEq, Repr

/-- One lane's schedule loader (03_schedules.md) beside its registers. -/
structure SchedSt where
  /-- The full switch instant S of the armed switch (R78). -/
  armS : Nat := 0
  /-- Inputs of the verification in progress, taken in the tick in which VERIFY landed (R72). -/
  vCount : Nat := 0
  vGen : Nat := 0
  vCrc : Nat := 0
  vPosMin : Nat := 0
  vPosMax : Nat := 0
  vVel : Nat := 0
  vAcc : Nat := 0
  /-- LOAD_OFFSET, object 0x2n40/0x01 (R81). -/
  loadOffset : Nat := 0
  landed : Option Landed := none
  deriving DecidableEq, Repr

/-- The copy channel's command in progress (COPY_CTRL). -/
structure CopySt where
  src : Nat := 0
  count : Nat := 0
  lane : Nat := 0
  auto : Bool := false
  deriving DecidableEq, Repr

/-- Actions of a played record that await their instant (R71): the instant, the SLOT bits, the SEGEVT bits. -/
structure SegAct where
  inst : Nat
  slots : Nat
  evts : Nat
  deriving DecidableEq, Repr

/-- The end of a resume in the tick of RES_AT, while that tick lasts (R116): the tick, OUTCOME and RES_DONE before it, and, of a
lane that became ACTIVE, the action that was in force. -/
structure ResNow where
  tick : Nat
  outcome : Nat
  done : Nat
  act : Option Nat
  deriving DecidableEq, Repr

/-- One lane (04_lanes.md, 05_lane_faults.md) beside its registers. (DEDUCED, log entry 39; DEDUCED, log entry 39). -/
structure LaneSt where
  /-- LANEn register writes that have landed and await the lane tick (R100): landing tick, offset and value, oldest first. -/
  stage : List (Nat × Nat × Word) := []
  /-- A write of EN := 1 that has landed and awaits the lane tick (R100): its landing tick. -/
  enAt : Option Nat := none
  /-- Accepted levels of the quadrature A and B inputs (R90). -/
  qa : Bool := false
  qb : Bool := false
  /-- The first tick in which a new level of A, of B, and of the index can be accepted (R90). -/
  qaNext : Nat := 0
  qbNext : Nat := 0
  qiNext : Nat := 0
  /-- The tick of the last counts of QCNT and what they add up to; the tick of the last index capture (R91, R92). -/
  qdTick : Nat := 0
  qd : Int := 0
  idxTick : Option Nat := none
  /-- Feedback count of the previous tick (R89). -/
  fbPrev : Nat := 0
  /-- The 40-bit accumulators Pm (R89) and Θ (R95). -/
  pm : Nat := 0
  theta : Nat := 0
  /-- The position p of R95 at the previous tick, and whether Θ has been set on entry to READY. -/
  angPrev : Nat := 0
  /-- Integrators: Iacc (R93), Ii_A and Ii_B (R97). -/
  iacc : Int := 0
  iiA : Int := 0
  iiB : Int := 0
  /-- Ticks since dp was last not 0 (R94). -/
  still : Nat := 65535
  /-- Calibration (R102): the lane entered CAL at its last tick, and the next codes are that tick's; codes summed of inputs A
  and B, and the sums. -/
  calNew : Bool := false
  calN : Nat := 0
  calNB : Nat := 0
  calA : Nat := 0
  calB : Nat := 0
  /-- Widths that take effect at c + P/2: PWM_A to PWM_D (R83, R98). -/
  pwNextA : Nat := 0
  pwNextB : Nat := 0
  pwNextC : Nat := 0
  pwNextD : Nat := 0
  /-- The timebase tick that contains c + P/2, from which they are in force (R83). -/
  widthAt : Option Nat := none
  /-- The tick in which the lane's last tick completes, at c + 1,000 ns, and what its "at the last tick" registers show until then:
  POS_CMD, POS_MEAS, POS_ERR, CUR_MEAS, CUR_REF, VOLT, IDQ, THETA, IN_SEG (R105). -/
  doneAt : Option Nat := none
  shown : List Nat := []
  /-- Pulse widths W of phases A/U and B/V of the last tick (R98, for the stuck check of R106). -/
  wA : Nat := 0
  wB : Nat := 0
  /-- The current references of the last tick in which the loops ran, frozen by HOLD_SAFE (R111). -/
  irA : Int := 0
  irB : Int := 0
  /-- v of phases A and B as the current PI gave them at the last tick (R97). -/
  piA : Int := 0
  piB : Int := 0
  /-- A fast comparator has tripped and its policy awaits the next lane tick; the outputs stay low until then (R108). -/
  ocPend : Bool := false
  /-- LANEn_FLT_N has been low for DRV_FILT × 4 ns and has not been seen high since (R106, R107). -/
  drvQual : Bool := false
  /-- The timebase tick in which the lane was stopped as a partner of its group, and its GROUP latch before (R114). -/
  groupAt : Option (Nat × Nat) := none
  /-- The lane's first tick since it entered ACTIVE is still to come (R107). -/
  entered : Bool := false
  /-- Consecutive-tick counters of R106: open phase A/U, B/V, W; stuck; plausibility; phase sum; following error. -/
  openA : Nat := 0
  openB : Nat := 0
  openW : Nat := 0
  stuckA : Nat := 0
  stuckB : Nat := 0
  codeA : Option Nat := none
  codeB : Option Nat := none
  plausA : Nat := 0
  plausB : Nat := 0
  sumN : Nat := 0
  feN : Nat := 0
  /-- HOLD_SAFE: the frozen references, iq and the open phase, and the centre at which the hold ends (R111). -/
  holdA : Int := 0
  holdB : Int := 0
  holdPhase : Nat := 3
  /-- The end of a HOLD_SAFE, in ns of the timebase (R111). -/
  holdEnd : Nat := 0
  /-- The action in force while SUSPENDED: 0 NONE (R53), 1 HOLD_SAFE, 2 COAST, 3 BRAKE, 4 STOP_HOLD (R110 to R114). -/
  act : Nat := 0
  /-- The full instant of a pending resume (R115). -/
  resAt : Nat := 0
  resNow : Option ResNow := none
  /-- The player plays the front bank's schedule (R79, R103). -/
  playing : Bool := false
  /-- A record has started since the switch (R87). -/
  started : Bool := false
  /-- Index and full START of the record current or last played. -/
  cur : Nat := 0
  curS : Nat := 0
  /-- P0 of that record (R69). -/
  p0 : Nat := 0
  /-- Index and full START of the next record to play; none when no record remains. -/
  nxt : Option (Nat × Nat) := none
  /-- The position held before the first record, or after a resumption (R79, R87, R115). -/
  held : Nat := 0
  /-- The lane holds the position above instead of a segment's end: no record has started since the switch or resumption. -/
  holding : Bool := true
  /-- A COAST record has started and no other since (R88). -/
  coasting : Bool := false
  /-- Actions of played records that await their instant (R71). -/
  acts : List SegAct := []
  /-- The values of objects 0x2n00/0x01 to 0x0C at the completion of the last completed tick (R105); empty before the first. -/
  objs : List Nat := []
  deriving DecidableEq, Repr

/-- The frame sequencer of ADCSEQ (R83, R85). -/
structure FrameSt where
  /-- The tick from which the first frame may start has come: frames run. -/
  running : Bool := false
  /-- The timebase tick in which RUN landed, while the first frame has still to start (R83). -/
  startAt : Option Nat := none
  /-- The period in force (R85: a PERIOD written while RUN is 1 waits for the next start). -/
  period : Nat := 25000
  /-- The timebase tick at which the present frame started. -/
  frameTick : Nat := 0
  /-- Lanes whose tick of the present frame is done: bit n. -/
  done : Nat := 0
  deriving DecidableEq, Repr

/-- A slot trigger that is pending for an engine (R131): slot and instant. -/
structure SlotTrig where
  slot : Nat
  inst : Nat
  deriving DecidableEq, Repr

/-- An injected instruction (R135): its word, and the instant of an AT_KEEP instruction (`past` when it was classified past). -/
structure Inject where
  word : Nat
  inst : Option Nat
  past : Bool
  deriving DecidableEq, Repr

/-- What an engine's current instruction is waiting for (R122, R128). -/
inductive EWait where
  /-- The instruction at PC has not begun. -/
  | fresh
  /-- WAITPIN has begun: the tick it began in, and the level seen in the previous tick. -/
  | pin (tick : Nat) (prev : Bool)
  /-- SHIFT is executing: the tick it started in. -/
  | shift (tick : Nat)
  /-- PUSH or PULL stalls. -/
  | push
  | pull
  /-- SYNC waits. -/
  | sync
  deriving DecidableEq, Repr

/-- Words put into a full FIFO in a tick (R133): the tick, the words in order, and what the overrun record held before them: the count
and its OVF, or the flag. -/
structure FifoLost where
  tick : Nat
  words : List Nat
  count : Nat
  ovf : Nat
  deriving DecidableEq, Repr

/-- One pin engine (06_pin_engines.md) beside its registers. -/
structure EngSt where
  /-- Step reference: a timebase tick (R122). -/
  stepRef : Nat := 0
  capw : Nat := 0
  emtw : Nat := 0
  /-- The first tick in which the next instruction may become current: the one after the preceding one completed (R122). -/
  next : Nat := 0
  /-- The instruction at PC has become current (R122, R123). -/
  cur : Bool := false
  /-- The full instant or deadline of the current instruction, once classified (R123). -/
  inst : Option Nat := none
  /-- It was classified past, or became current while STALE was 1 (R125, R126). -/
  late : Bool := false
  stale : Bool := false
  /-- The instant BASE + 2^30 ns, for STALE (R126). -/
  staleAt : Nat := 2 ^ 30
  wait : EWait := .fresh
  /-- Each word of the TX FIFO with the tick in which it was written (R133). -/
  tx : List (Nat × Nat) := []
  /-- Each word of the RX FIFO with the tick in which it was put there (R133). -/
  rx : List (Nat × Nat) := []
  /-- Words that found the TX or the RX FIFO full: they are taken where a word is removed in the same tick (R133). -/
  txLost : Option FifoLost := none
  rxLost : Option FifoLost := none
  /-- What a receiving SHIFT sampled at each mid-bit so far, the first bit first: the level, and whether the device settles it, the
  pin being mapped to no ball or to one that only the device drives (R118, R120, R128). -/
  mids : List (Bool × Bool) := []
  /-- The ACTs of tick `edgeTick`: the ns into it at which each local pin changed, and the levels before it (R124). -/
  edgeTick : Option Nat := none
  edgeNs : List Nat := [0, 0, 0, 0, 0, 0]
  edgeOld : Nat := 0
  /-- PE_POS before the PUSH of tick `posTick` (R134). -/
  posTick : Nat := 0
  posPrev : Nat := 0
  trigs : List SlotTrig := []
  /-- The released slot, the next word of it, and how many words PULL SRC 1 may still take (R131). -/
  slot : Option Nat := none
  slotNext : Nat := 0
  slotLeft : Nat := 0
  inj : Option Inject := none
  /-- Levels: the stored (program) level of each local pin, bit j; it is the held level while not RUNNING (R120, R138). -/
  stored : Nat := 0
  /-- PIN_C of a SHIFT that completed in this tick: it goes low at the end of the last bit, the start of the next tick (R128). -/
  clkEnd : Option Nat := none
  deriving DecidableEq, Repr

/-- What drives the 60 lane balls (bit 6n + k): the board now, and the device at the end of the last tick and of the one before, as
the balls and their levels (R120). -/
structure DriveSt where
  /-- The balls that the board drives, as last given with a command: bit 6n + k. -/
  board : Nat := 0
  /-- The balls driven at the end of the last tick, and their levels (R120). -/
  mask1 : Nat := 0
  level1 : Nat := 0
  /-- The same one tick earlier: what the engines read now (R120). -/
  mask2 : Nat := 0
  level2 : Nat := 0
  deriving DecidableEq, Repr

/-- The synchronous start (R136): the full instant that is armed, and the mask, START and CLKRST it was armed with. -/
structure SyncStart where
  inst : Nat := 0
  mask : Nat := 0
  start : Bool := false
  clkrst : Bool := false
  deriving DecidableEq, Repr

/-- A report on its way through the containment hierarchy (R21, R22, R297). -/
structure Report where
  src : Nat
  cause : Nat
  detail : Nat
  /-- Level at which it is made: 0 cell, 1 block, 2 region, 3 chip. -/
  level : Nat
  /-- Master of a BUS_VIOLATION (R297). -/
  master : Nat := 0
  /-- Forwarded as information (R21): no policy applies. -/
  info : Bool := false
  deriving DecidableEq, Repr

/-- A chip-level report that waits for the log (R22, R299): further equal reports and further other reports of its source. -/
structure ChipPend where
  rep : Report
  same : Nat
  others : Nat
  deriving DecidableEq, Repr

/-- The arbiters of ERRAGG and the chip arbiter (R21, R22, R298) beside their registers. (DEDUCED, log entry 22). -/
structure ErrSt where
  /-- Reports held by a source's pending bit (SRCi.PEND). -/
  pend : List Report := []
  /-- Regions 0 to 4: one more than the timebase tick in which its arbiter last accepted a report. -/
  acc : List Nat := [0, 0, 0, 0, 0]
  /-- Chip-level reports that wait for the log. -/
  chip : List ChipPend := []
  /-- Sources under RESET or CONTAIN whose liveness is checked again, with the timebase tick of the policy (R298). -/
  recheck : List (Nat × Nat) := []
  deriving DecidableEq, Repr

/-- An entry of the event log (R301). -/
structure LogEntry where
  calSec : Nat
  subsec : Nat
  rtcValid : Bool
  rep : Nat
  src : Nat
  level : Nat
  cls : Nat
  master : Nat
  cause : Nat
  detail : Nat
  deriving DecidableEq, Repr

/-- The event log (R299 to R303). -/
structure LogSt where
  /-- Entries, newest first, at most 256. -/
  entries : List LogEntry := []
  /-- How many of the newest entries are not flushed. -/
  unflushed : Nat := 0
  /-- The timebase tick of the last flush that came of the time (R302). -/
  flushedAt : Nat := 0
  /-- Entries created since power-on reset, saturating (0x7040/0x01). -/
  created : Nat := 0
  /-- One more than the timebase tick of the last new entry (R299). -/
  lastNew : Nat := 0
  /-- Lost counters 0 to 7 and their OVF (R300). -/
  lost : List Nat := [0, 0, 0, 0, 0, 0, 0, 0]
  lostOvf : List Bool := [false, false, false, false, false, false, false, false]
  /-- SEL of 0x7040/0x02. -/
  sel : Nat := 0
  deriving DecidableEq, Repr

/-- EVROUTE (R306 to R312) beside its registers. -/
structure EvSt where
  /-- Producers that now pulse, with the timebase tick in which the pulse ends. -/
  pulses : List (Nat × Nat) := []
  /-- Channels that FIRE drives, with the timebase tick in which the pulse ends (R309). -/
  fire : List (Nat × Nat) := []
  /-- Rising edges that the edge catchers hold: bit k (R310). -/
  caught : Nat := 0
  /-- The level last seen of each channel: bit k. -/
  seen : Nat := 0
  /-- Channels held at 0 by a write of their selection, with the timebase tick in which the fast-clock period ends (R311). -/
  blank : List (Nat × Nat) := []
  /-- Channels that have risen in the present tick, and what the pin engines' catchers took of the outputs in the last tick and
  in the one before: bit k (R310). -/
  rose : Nat := 0
  chan1 : Nat := 0
  chan2 : Nat := 0
  /-- Channels that the containment of EVROUTE holds inactive: bit k (R295). -/
  dead : Nat := 0
  deriving DecidableEq, Repr

/-- A character that found a full RX FIFO: the timebase tick, the character with its tags, and STAT.OVR and OVR_CNT before it
(R318). -/
structure CharLost where
  tick : Nat
  d : Nat
  pe : Bool
  fe : Bool
  nf : Bool
  ovr : Nat
  cnt : Nat
  ovf : Nat
  deriving DecidableEq, Repr

/-- One UART (R316 to R323) beside its registers. -/
structure UartSt where
  rx : List Nat := []
  tx : List Nat := []
  /-- The character in the transmit shift register (R321). -/
  shift : Option Nat := none
  /-- The timebase tick at which the transmitter took it, and the sixteenths of a bit that its start bit is behind (R321). -/
  shiftAt : Nat := 0
  lead : Nat := 0
  /-- UART1_DE is active; and the FIFO and shift register are empty, so that the lag runs (R321). -/
  de : Bool := false
  lag : Bool := false
  lagAt : Nat := 0
  /-- After a break the line has not yet been high for one bit time (R319). -/
  brk : Bool := false
  /-- MUTE_REQ was written: MUTED from the next start bit (R320). -/
  muteReq : Bool := false
  /-- UART0's envelope parser: none while it hunts for 0x7E, else the bytes after it (R322). -/
  env : Option (List Byte) := none
  /-- The timebase tick of the last character that it took (R322). -/
  envAt : Nat := 0
  /-- The character that last found the RX FIFO full: it is stored where a read of the same clock frees an entry (R318). -/
  overrun : Option CharLost := none
  deriving DecidableEq, Repr

/-- The service wire (R324 to R328) beside its registers and buffers. -/
structure SvcSt where
  /-- An acknowledged address byte has opened a transaction: whether it is a read (R324). -/
  xact : Option Bool := none
  /-- The rest of the transaction has no effect after STRETCH_TO (R325). -/
  dead : Bool := false
  /-- The address of the write in progress was acknowledged while STAT.BUSY was 1 (R326). -/
  refuse : Bool := false
  /-- The timebase tick of the address match, from which SCL is held (R325). -/
  heldAt : Nat := 0
  /-- The next read returns status 0x03 (R326). -/
  envErr : Bool := false
  /-- The response envelope that is held (R327). -/
  resp : Option (List Byte) := none
  deriving DecidableEq, Repr

/-- A physical memory protection entry of the application core (R291): the range it covers, as its first 32-byte granule and the
number of granules, where firmware has set one; and whether it is locked. -/
structure PmpEntry where
  range : Option (Nat × Nat) := none
  locked : Bool := false
  deriving DecidableEq, Repr

/-- The boot record in PD_AON (R333) and what start-up chose. -/
structure BootSt where
  bootFail : Nat := 0
  trial : Bool := false
  trialFail : Bool := false
  promotePend : Bool := false
  /-- The last reset's code (R329) and AONCTL's view of it. -/
  code : Nat := 1
  /-- The level of BOOT_REC sampled when the reset ended. -/
  strap : Bool := false
  /-- RESET_N is held low: the main domain stays in reset (R329). -/
  resetHeld : Bool := false
  /-- Scarab has released the application core; before that it is held in reset. -/
  released : Bool := false
  /-- The timebase tick of that release (R339). -/
  releasedAt : Nat := 0
  /-- The slot that start-up selected, whether it runs in recovery mode, and the recovery entry. -/
  slot : Nat := 0
  recovery : Bool := false
  /-- The slot that downloads in recovery go to (R341). -/
  dlSlot : Nat := 1
  rolledBack : Bool := false
  /-- Where the application core was released to: the boot ROM, or WAKE_VEC (R203). -/
  startPc : Nat := 0
  /-- The protection entries as the boot ROM leaves them for firmware: unset and unlocked (R291). -/
  pmp : Vector PmpEntry 16 := Vector.replicate 16 {}
  /-- 0x7050/0x0A: ranges reset to defaults at the last promotion (R340). -/
  promoted : Nat := 0
  /-- The persisted objects take their stored values once the record store has mounted (R171, R273). -/
  loadPend : Bool := false
  /-- PEND is to be withdrawn when the regulator is next in normal mode (R338, R339). -/
  withdraw : Bool := false
  deriving DecidableEq, Repr

/-- Firmware download (R335 to R338). -/
structure DlSt where
  /-- STATE of 0x7050/0x04: 0 IDLE, 1 ERASING, 2 HEADER, 3 BODY, 4 VERIFYING, 5 VALID, 6 REFUSED, 7 ARMED. -/
  st : Nat := 0
  reason : Nat := 0
  offset : Nat := 0
  /-- Bytes received. -/
  held : Nat := 0
  /-- ACTIVATE_AT in force (0x7050/0x06, bits 39:0), and the full instant of a committed activation (R338). -/
  activateAt : Nat := 0
  armedAt : Option Nat := none
  deriving DecidableEq, Repr

/-- A FLASHCTL command in progress. -/
structure FlashOp where
  op : Nat
  addr : Nat
  src : Nat
  len : Nat
  deriving DecidableEq, Repr

/-- Scarab (R278 to R294, R304) beside the mailbox and Carapace registers. (DESIGN CHOICE, log entry 4). -/
structure ScSt where
  /-- Life-cycle fuses, copies 1 to 3: the highest state whose fuses are burned in each (R286, R288). -/
  fuse1 : Nat := 1
  fuse2 : Nat := 1
  fuse3 : Nat := 1
  /-- The owner debug key hash (R279), once written. -/
  ownerHash : Option (List Byte) := none
  /-- The device private key has been burned to all ones (R286). -/
  keyBurned : Bool := false
  /-- A life-cycle change in progress: its target, and whether its wipe has been started (R287). -/
  lcTarget : Option Nat := none
  /-- The transport and TID of the request that began it, for its response. -/
  lcReq : Option (Via × Nat) := none
  /-- The debug challenge in force (R290), the failures since reset, consecutive failures, lockout, scopes opened. -/
  challenge : Option (List Byte) := none
  fails : Nat := 0
  failRun : Nat := 0
  lockout : Bool := false
  scopes : Nat := 0
  /-- A debug scope was unlocked since the last full reset; a Carapace event since the last power-on reset (R285). -/
  debugEver : Bool := false
  tamperEver : Bool := false
  /-- Attestation through 0x7010 (R284): STATUS, the nonce, the report. -/
  attStatus : Nat := 0
  attNonce : List Byte := []
  attReport : List Byte := []
  /-- Mailbox operation in progress (R281). -/
  op : Option Nat := none
  /-- The measurements M_CFG and M_IMG last made (R282), and whether the cache was used (R283). -/
  mCfg : List Byte := []
  mImg : List Byte := []
  cached : Bool := false
  /-- The TEMP report is re-armed (R280). -/
  tempArmed : Bool := true
  /-- Watchdog: the first half of a kick was written; the timebase tick of the last kick; the period in force (R304). -/
  wdHalf : Bool := false
  wdLast : Option Nat := none
  wdPeriod : Nat := 1000
  /-- The application core is halted by the debugger (R304). -/
  coreHalted : Bool := false
  /-- Carapace detectors TAMPER0, TAMPER1, pair, mesh: re-armed since they last fired (R293): bit i. -/
  detArmed : Nat := 15
  /-- The slow-clock period in which the pair's, and the mesh's, condition was last present (R293). -/
  pairSeen : Option Nat := none
  meshSeen : Option Nat := none
  /-- A full reset follows the wipe in progress (R293). -/
  tamperReset : Bool := false
  /-- TAMPER reports that wait until PD_MGT is On (R293): detectors. -/
  tamperReports : List Nat := []
  /-- The instruction register of the TAP (R289). -/
  tapIr : Nat := 15
  deriving DecidableEq, Repr
/-- An output that leaves the device (R8 byte order where bytes are listed). (DESIGN CHOICE, log entry 54). -/
inductive Out where
  /-- An MT_SYNC_OUT pulse: rise and width. -/
  | syncPulse (rise width : Nat)
  /-- A Cycle Start sent or forwarded. -/
  | cs (port : Nat) (f : CycleStart)
  /-- A cyclic slot sent. -/
  | slot (port idx src flags : Nat) (data : List Byte)
  | tok (port : Nat)
  /-- An acyclic frame sent or forwarded. -/
  | acyc (port : Nat) (f : AcyclicFrame)
  | clm (port : Nat) (uid : BitVec 64) (prio : Nat) (run : Bool)
  | rst (port : Nat)
  | dly (port : Nat) (f : DlyFrame)
  /-- The wake pattern. -/
  | wake (port : Nat)
  /-- ABT in place of the rest of a frame. -/
  | abt (port : Nat)
  /-- A dictionary response on its transport. -/
  | resp (via : Via) (msg : List Byte)
  /-- A UART character. -/
  | uart (n ch : Nat)
  /-- Bytes a service-wire read returned. -/
  | svc (bytes : List Byte)
  /-- The address byte, a data byte or nothing acknowledged on the service wire. -/
  | ack (b : Bool)
  /-- MT_SYNC_OUT held low before the end of its pulse (R61). -/
  | syncLow
  /-- Wake sources that interrupt the application core in Run or Hover (R200): bit per source. -/
  | coreIrq (srcs : Nat)
  /-- What a TAP data-register access shifted out. -/
  | tdo (v : Nat)
  deriving DecidableEq, Repr

/-- The ring (07_gnourlink.md) beside its registers. (DEDUCED, log entry 51). -/
structure RingSt where
  /-- B_last and its CYCLE (R160). -/
  bLast : Option (Nat × Nat) := none
  /-- CYCLE of the Cycle Start accepted last (R148). -/
  lastCyc : Option Nat := none
  /-- The transmitter by which the Cycle Start of the present cycle left, which the slot takes too (R149, R162). -/
  slotBy : Fin 2 := 1
  /-- The timebase tick from which the 100 µs of silence in LISTEN count: the entry, or the last Cycle Start or CLM (R158). -/
  quietAt : Nat := 0
  /-- The timebase tick of the last CLM that this claimant sent (R159). -/
  clmAt : Option Nat := none
  /-- The timebase tick at which CTRL.EN became 1 (R142). -/
  enAt : Nat := 0
  /-- The last four Cycle Starts sent (R158). -/
  sent4 : List CycleStart := []
  /-- The lowest key seen since the last Cycle Start (R159). -/
  bestKey : Option Nat := none
  /-- The master's next boundary and its CYCLE (R160). -/
  nextB : Option (Nat × Nat) := none
  /-- One more than the timebase tick at which RST was last sent (R161). -/
  rstTick : Nat := 0
  /-- The sleep cycle T that is announced (master) or seen (follower) (R165, R166). -/
  sleepT : Option Nat := none
  /-- Cycle Starts that are still to carry CANCEL (R166). -/
  cancelLeft : Nat := 0
  /-- The slot's settings in force since the last boundary: EN, LEN, IDX, POS. -/
  slotEn : Bool := false
  slotLen : Nat := 1
  slotIdx : Nat := 0
  slotPos : Nat := 27
  /-- The slot of the present cycle has been sent or dropped. -/
  slotDone : Bool := true
  /-- The payload fetched for a slot: bytes, STALE, DICT, and the queue it came from; and the cycle of that slot (R155). -/
  fetched : Option (List Byte × Bool × Bool × Option Nat) := none
  fetchCyc : Nat := 0
  /-- The last cyclic payload sent by each port (R155). -/
  lastPayA : Option (List Byte) := none
  lastPayB : Option (List Byte) := none
  /-- Slot indices stored in this cycle (R155). -/
  stored : List Nat := []
  /-- Sources of slots received with a correct CRC in this cycle and in the one before (R189). -/
  srcs : List Nat := []
  srcsPrev : List Nat := []
  /-- The token of this cycle has been sent by the master. -/
  tokSent : Bool := false
  /-- Acyclic frames of the queues sent and not yet returned: queue, descriptor, MT of SOF at the ball (R152, R154). -/
  txOut : List (Nat × Nat × Nat) := []
  /-- The node slept when PD_LINK left On: RSTATE comes back with the domain (R158, R203). -/
  parked : Bool := false
  /-- A wake pattern is due once PD_LINK is On; a pulse of WAKE.EVT has come meanwhile (R167, R168). -/
  wakeDue : Bool := false
  evtDue : Bool := false
  deriving DecidableEq, Repr

/-- A request that DICTENG holds (R174). -/
structure DictReq where
  via : Via
  msg : List Byte
  deriving DecidableEq, Repr

/-- An entry of a write set (R180). -/
structure WsEntry where
  index : Nat
  sub : Nat
  value : List Byte
  deriving DecidableEq, Repr

/-- A write set (R180 to R184). -/
structure WriteSet where
  entries : List WsEntry := []
  /-- 0 EMPTY, 1 STAGING, 2 ARMED. -/
  st : Nat := 0
  /-- The stamp S, bits 39:0, and its full instant. -/
  stamp : Nat := 0
  inst : Nat := 0
  outcome : Nat := 0
  failPos : Nat := 0
  failCode : Nat := 0
  tooLate : Bool := false
  sel : Nat := 0
  commitMt : Nat := 0
  deriving DecidableEq, Repr

/-- Snapshots (R185 to R190). -/
structure SnapSt where
  /-- 0x1030/0x01 and 0x1030/0x02 to 0x21. -/
  count : Nat := 0
  list : List Nat := List.replicate 32 0
  /-- 0x1031/0x01 to 0x09. -/
  st : Nat := 0
  id : Nat := 0
  stamp : Nat := 0
  inst : Nat := 0
  /-- The id and B of an ARMED request (`inst` is its S), and B of the capture. -/
  armId : Nat := 0
  armB : Nat := 0
  /-- The collection of the capture: 0 none or ended, 1 waits for C0, 2 collecting, 3 INCOMPLETE. -/
  phase : Nat := 0
  b : Nat := 0
  c0 : Nat := 0
  /-- MT at which the collection window ends. -/
  windowEnd : Nat := 0
  cap : Option (List Byte) := none
  roster : Nat := 0
  missing : Nat := 0
  sel : Nat := 1
  /-- Chunks received: address and chunk. -/
  got : List (Nat × Nat) := []
  /-- A RECOLLECT in force: its start cycle, and whether this node sends (R190). -/
  re : Option (Nat × Bool) := none
  deriving DecidableEq, Repr

/-- A request that DICTENG has taken and not yet answered: its operation and message. -/
structure HeldReq where
  op : Nat
  m : DictMsg
  deriving DecidableEq, Repr

/-- A request forwarded to the ring (R175): the request, the timebase tick in which it was forwarded, and the number of its
frame. -/
structure FwdReq where
  req : HeldReq
  tick : Nat
  id : Nat
  deriving DecidableEq, Repr

/-- A frame that DICTENG sends, and its number: 0 where nothing waits for its return. -/
structure DictFrame where
  frame : AcyclicFrame
  id : Nat
  deriving DecidableEq, Repr

/-- DICTENG (08_dictionary.md) beside its registers. -/
structure DictSt where
  /-- Requests that wait, oldest first; of the ring's at most four (R174). -/
  reqs : List DictReq := []
  /-- The transport served last (R174). -/
  turn : Nat := 4
  ws : Vector WriteSet 4 := Vector.replicate 4 {}
  snap : SnapSt := {}
  /-- A request that waits for firmware, and the timebase tick in which it was handed over (R178). -/
  app : Option HeldReq := none
  appAt : Nat := 0
  /-- A local request is executing: its TID (LOC_CTRL). -/
  loc : Option Nat := none
  /-- Requests forwarded to the ring, oldest first (R175). -/
  fwd : List FwdReq := []
  /-- A barrier in flight (R191): it waits for the next cycle boundary; the number of its frame. -/
  barrier : Option HeldReq := none
  barrierHold : Bool := false
  barrierId : Nat := 0
  /-- A request that waits for the vault (R41): transport and message. -/
  vault : Option DictReq := none
  vaultAt : Nat := 0
  /-- The key selector of 0x5001/0x01. -/
  keySel : Nat := 1
  /-- 0x0A5C was written to 0x1010/0x01: a full reset follows (R179). -/
  resetPend : Bool := false
  resetAt : Nat := 0
  /-- Frames DICTENG has to send in the acyclic window, and those on the ring with the MT of their SOF (R152). -/
  out : List DictFrame := []
  onRing : List (DictFrame × Nat) := []
  /-- The number of the next frame whose return something waits for. -/
  nextId : Nat := 1
  deriving DecidableEq, Repr

/-- The ladder (09_power_ladder.md) beside PWRCTL, AONCTL and CLKGEN. -/
structure PwrSt where
  /-- The step the main domain is in. -/
  step : PStep := .run
  /-- A step that was requested and accepted, while Scarab prepares it (R198). -/
  req : Option PStep := none
  /-- A step whose entry is past its commit point (R198). -/
  entry : Option PStep := none
  /-- Wake sources qualified since the commit point, which are held (R198): bit per source of R200. -/
  held : Nat := 0
  /-- The first slow-clock period of a held source's qualification: its lowest bit is FIRST (R201). -/
  heldFirst : Nat := 0x1F
  /-- The slow-clock period of the first source of the wake that is recorded or held last (R201). -/
  wakeAt : Nat := 0
  /-- An enabled interrupt has come since the commit point of Rest, which is held (R198, R200). -/
  irqHeld : Bool := false
  /-- The exit that is under way: the step left (R203). -/
  exit : Option PStep := none
  /-- MT and the slow clock saved at the loss of the timebase PLL (R55). -/
  saved : Option (Nat × Nat) := none
  /-- MUL of the system PLL's stored trim; the timebase PLL has a stored trim (R207). -/
  trimMul : Option Nat := none
  trimTb : Bool := false
  /-- The system PLL, the timebase PLL is relocking (R207). -/
  relockSys : Bool := false
  relockTb : Bool := true
  /-- The device docked in a step deeper than Hover: PD_LANE and PD_LINK come up at the exit (R194). -/
  lateDock : Bool := false
  /-- The main domain is held in Pupa by a cold start (R223). -/
  coldHold : Bool := false
  deriving DecidableEq, Repr

/-- The stages of a cold start (R222): none; the starter runs; the boost raises VSTORE; PD_AON is out of reset and the cell
is not yet connected. (DESIGN CHOICE, log entry 74). -/
inductive ColdStage where
  | none | starter | boost | released
  deriving DecidableEq, Repr

/-- The harvester (10_harvester.md) beside its registers. -/
structure HvSt where
  /-- The timebase tick at which the last sample began (R213). -/
  sampleAt : Nat := 0
  /-- The slow-clock period at which the interval timer last restarted, and the interval in force in s (R213, R215). -/
  sampleEnd : Nat := 0
  interval : Nat := 16
  /-- Consecutive comparisons with BAT at or below 3.00 V (R220). -/
  low : Nat := 0
  /-- CELL before the last short-circuit trip, whether the return is due, and the consecutive trips (R221). -/
  scPrev : Nat := 0
  scWait : Bool := false
  /-- The timebase tick of the last trip (R221). -/
  scAt : Nat := 0
  scRun : Nat := 0
  stage : ColdStage := .none
  deriving DecidableEq, Repr

/-- Cricket and its ADC (11_cricket_touch.md) beside their registers. -/
structure CrkSt where
  /-- Cricket has been released since its last reset, and the pc it started from in machine mode (R224). -/
  started : Bool := false
  startPc : Nat := 0
  /-- The channels of the ADC sequence in progress (R227). -/
  adcMask : Nat := 0
  deriving DecidableEq, Repr

/-- One touch key (R233, R234). -/
structure KeySt where
  /-- The baseline B_k with 8 fraction bits, and the last m_k. -/
  base : Nat := 0
  m : Nat := 0
  on : Nat := 0
  off : Nat := 0
  /-- The slow-clock period in which it became touched. -/
  since : Nat := 0
  /-- Acquiring: scans done and the sum of m_k. -/
  acq : Option (Nat × Nat) := none
  deriving DecidableEq, Repr

/-- The settings a touch scan works with, taken at its start (R238). -/
structure TouchCfg where
  mask : Nat := 0
  thOn : Nat := 64
  thOff : Nat := 48
  deb : Nat := 2
  idle1 : Nat := 5
  idle2 : Nat := 60
  idle3 : Nat := 600
  rate0 : Nat := 328
  rate1 : Nat := 1638
  rate2 : Nat := 8192
  rate3 : Nat := 32768
  burst : Nat := 16
  pulse : Nat := 8
  diap : Nat := 1
  deriving DecidableEq, Repr

/-- The touch matrix (11_cricket_touch.md) beside its registers. -/
structure TouchSt where
  keys : Vector KeySt 64 := Vector.replicate 64 {}
  /-- The settings in force for the scan in progress, or the last one. -/
  cfg : TouchCfg := {}
  /-- The slow-clock periods of the last scan's start, of the next, and from which idle time counts. -/
  lastStart : Nat := 0
  nextStart : Nat := 0
  idleFrom : Nat := 0
  /-- The timebase tick at which the last scan started, and the stage in force when one last ended (R231, R236). -/
  scanTick : Nat := 0
  endStage : Nat := 0
  /-- Keys that the scan in progress recalibrates at its end, and those that the next scan will: bit k (R235). -/
  recal : Nat := 0
  recalNext : Nat := 0
  /-- Keys whose acquisition starts with the next scan: bit k (R234, R238). -/
  acqNext : Nat := 0
  deriving DecidableEq, Repr

/-- A frozen read shadow of the RTC (R243). -/
structure Shadow where
  subsec : Nat
  time : Nat
  date : Nat
  year : Nat
  taken : Nat
  deriving DecidableEq, Repr

/-- The RTC (12_rtc.md) beside its registers. (DEDUCED, log entry 78). -/
structure RtcSt where
  /-- Counts since the last second boundary (R241); a boundary is due from 32,768 on. -/
  sub : Nat := 0
  /-- Counts that the coming slow-clock periods withhold (R246, R248). -/
  skip : Nat := 0
  /-- The slow-clock period of the last count that a shift added or withheld (R246). -/
  shiftAt : Option Nat := none
  /-- The trim accumulator (R248). -/
  acc : Int := 0
  /-- MT of the last second boundary, and its calendar seconds (R62, R247). -/
  secMt : Option Nat := none
  secCal : Nat := 0
  /-- Its timebase tick, and whether the master has yet to publish it. -/
  secTick : Nat := 0
  calDue : Bool := false
  /-- Second boundaries since power-on reset, modulo 60, and whether a moisture tick is due (R251). -/
  secs : Nat := 0
  moistDue : Bool := false
  /-- The slow-clock period in which SET landed (R244). -/
  setAt : Nat := 0
  shApp : Option Shadow := none
  shCrk : Option Shadow := none
  shDict : Option Shadow := none
  /-- The discipline window: MT at its first boundary, the boundaries since, and the MT elapsed over a full window whose TRIM is
  not yet taken (R247). -/
  winMt : Option Nat := none
  winN : Nat := 0
  winDelta : Option Int := none
  /-- MT to 1 ns at the last edge of the slow clock, the stamp of a second boundary in its period (R247). -/
  edgeMt : Nat := 0
  /-- The last slow-clock period in which an alarm register was written, with the registers' values before it (R250). -/
  almAt : Nat := 0
  almOld : List (Nat × Nat) := []
  /-- The slow-clock period of the last moisture tick, with what it added to each clock (R252). -/
  mcAt : Nat := 0
  mcInc : Vector Nat 10 := Vector.replicate 10 0
  deriving DecidableEq, Repr

/-- A transfer of a DMA master that a march test holds off (R263): an RX queue's payload (queue, TYPE, source, stamp, word 3, data),
or the read of a local request. -/
inductive HeldDma where
  | rx (q typ src stamp word3 : Nat) (data : List Byte)
  | loc
  deriving DecidableEq, Repr

/-- The march engine (R260 to R264) beside its registers. -/
structure MarchSt where
  target : Nat := 0
  mode : Nat := 0
  /-- An ABORT in PRESERVE mode waits for the end of E2, E4 or E5. -/
  aborting : Bool := false
  /-- Transfers of LINKQ and DICTENG that the test holds off, oldest first (R263). -/
  waiting : List HeldDma := []
  deriving DecidableEq, Repr

/-- One act of a record-store command (R265): a word programmed, or a sector erased. -/
inductive RecAct where
  | word (a w : Nat)
  | erase (sector : Nat)
  deriving DecidableEq, Repr

/-- The open group (R271, R272): owner, GID, bytes reserved and used, the members' CRC words in address order. -/
structure GroupSt where
  ch : Chan
  gid : Nat
  reserved : Nat
  used : Nat
  crcs : List Nat
  deriving DecidableEq, Repr

/-- A record-store command in progress or queued: channel, OP, its acts, its RESULT, and what it leaves in the channel's
registers when it completes. -/
structure RecCmd where
  ch : Chan
  op : Nat
  acts : List RecAct
  result : Nat
  seq : Option Nat := none
  addr : Option Nat := none
  len : Option Nat := none
  gid : Option Nat := none
  /-- What becomes of the open group and the closed sectors. -/
  group : Option GroupSt := none
  closed : Nat := 0
  deriving DecidableEq, Repr

/-- The record store (R265 to R275) beside its registers and its sectors' bytes. -/
structure RecSt where
  /-- The command in progress, and the OP queued on the other channel. -/
  cur : Option RecCmd := none
  queued : Option (Chan × Nat) := none
  /-- The timebase tick at which the command in progress was requested, where the store was free then (R265). -/
  askedAt : Option Nat := none
  /-- What waits for the end of the command in progress (R265): the device's own groups (R171, R340), a flush of the log, and a full
  reset that follows that flush (R302). -/
  own : List (List (Nat × List Byte)) := []
  flushDue : Bool := false
  resetDue : Option Nat := none
  group : Option GroupSt := none
  /-- Sectors that an APPEND has closed since mounting (R267): bit per sector. -/
  closed : Nat := 0
  /-- Sectors whose erase or header was cut off, DIRTY until they are erased (R273): bit per sector. -/
  torn : Nat := 0
  /-- Mount has not been done since PD_SYS was powered up. -/
  mounted : Bool := false
  deriving DecidableEq, Repr

/-- What the device has set in the present clock of a block (R10, R16): the field (its key) with the bits that were set in it, and
the counters (their key, once for each increment). The clock is the timebase tick, and the slow-clock period for the blocks whose
register clock is the always-on slow one (R37). (DESIGN CHOICE, log entry 108). -/
structure NowSt where
  raised : List (Nat × Nat) := []
  counted : List Nat := []
  deriving DecidableEq, Repr

/-- The whole machine. `regs`: register fields by key (32 × bus address + lowest bit), only those that differ from their reset
values; `mem`: memory bytes that differ from what an unlisted address reads as.
(DESIGN CHOICE, log entry 12; DEDUCED, log entry 24; DESIGN CHOICE, log entry 48). -/
structure State where
  regs : List (Nat × Nat) := []
  mem : List Host.Cell := []
  /-- Timebase ticks and slow-clock periods since power-on (the model's clocks), and MT at the start of the present tick. -/
  tick : Nat := 0
  slow : Nat := 0
  mt : Nat := 0
  /-- The model's own: free values used, and losses of memory contents so far. -/
  free : Nat := 0
  epoch : Nat := 0
  now : NowSt := {}
  /-- The model's own record of the last bus answer, of the last dictionary request's status, and of what left the device. -/
  bus : BusAns := .none
  abort : Nat := 0
  sent : List Out := []
  /-- The levels that the outside drives on the 60 lane IO balls: bit 6n + k. -/
  balls : Nat := 0
  drives : DriveSt := {}
  tm : TmSt := {}
  sched : Vector SchedSt 10 := Vector.replicate 10 {}
  copy : CopySt := {}
  lanes : Vector LaneSt 10 := Vector.replicate 10 {}
  frame : FrameSt := {}
  engines : Vector EngSt 10 := Vector.replicate 10 {}
  ss : SyncStart := {}
  err : ErrSt := {}
  log : LogSt := {}
  ev : EvSt := {}
  uart0 : UartSt := {}
  uart1 : UartSt := {}
  svc : SvcSt := {}
  boot : BootSt := {}
  dl : DlSt := {}
  flash : Option FlashOp := none
  /-- FLASHCTL under CONTAIN: no program or erase until full reset (R295). -/
  flashHeld : Bool := false
  sc : ScSt := {}
  ring : RingSt := {}
  dict : DictSt := {}
  pwr : PwrSt := {}
  hv : HvSt := {}
  crk : CrkSt := {}
  touch : TouchSt := {}
  rtc : RtcSt := {}
  march : MarchSt := {}
  rs : RecSt := {}
  /-- Commands waiting, first in, first out. -/
  pending : List Instr := []
  deriving DecidableEq, Repr

/-- The machine right after power-on reset with VIN present, before START_UP: every register at its reset value, nothing in
any memory that power-on loses, erased flash. (DESIGN CHOICE, log entry 4). -/
def State.reset : State := {}

end Sys2Proof.Machine
end

