-- ==== Sys2Proof/Machine/Ops.lean ====
section
/-!
DEFINITION. The named operations over State: reading and writing register fields (R9), counters (R16), memories (R33),
MT stamps (R63), power domains (R29), event producers (R306), error reports (R21, R22, R295, R299), the fall of
TIME_VALID (R53) and the resets (R329). Every meaning goes through them.
-/
namespace Sys2Proof.Machine

/-- A meaning answers a next state. -/
abbrev Ans := Host.Outcome State Fault Refusal

/-! ### Register fields -/

/-- What an unlisted register field reads as: its reset value. -/
def regDefault (k : Nat) : Option Nat := some (fieldReset k)

/-- The value of a register field. -/
def State.get (s : State) (f : RF) : Nat := (Store.get regDefault f.key s.regs).getD 0

/-- `v` put into a register field, cut to the field's width. -/
def State.put (s : State) (f : RF) (v : Nat) : State :=
  { s with regs := Store.put regDefault f.key (v % f.bound) s.regs }

/-- Bits that the device sets in a field in the present clock (R10). -/
def State.noteRaised (s : State) (f : RF) (bits : Nat) : State :=
  { s with now := { s.now with raised := if bits = 0 then s.now.raised else (f.key, bits) :: s.now.raised } }

/-- The device puts `v` into a register field; the bits of `v` are set in the present clock (R10). -/
def State.set (s : State) (f : RF) (v : Nat) : State := (s.put f v).noteRaised f (v % f.bound)

/-- The bits of a field that the device has set in the present clock (R10). -/
def State.raised (s : State) (f : RF) : Nat :=
  s.now.raised.foldl (fun m e => if e.1 = f.key then m ||| e.2 else m) 0

/-- A one-bit field reads 1. -/
def State.on (s : State) (f : RF) : Bool := s.get f == 1

/-- A signed field (R17). -/
def State.getI (s : State) (f : RF) : Int := sgn (f.hi + 1 - f.lo) (s.get f)

/-- A signed value into a field. -/
def State.setI (s : State) (f : RF) (x : Int) : State := s.set f (wrap (f.hi + 1 - f.lo) x)

/-- A truth value into a one-bit field. -/
def State.setF (s : State) (f : RF) (b : Bool) : State := s.set f (b2n b)

/-- Bit `i` of a field. -/
def State.bit (s : State) (f : RF) (i : Nat) : Bool := getBit (s.get f) i

/-- Bit `i` of a field at `b`. -/
def State.setBit (s : State) (f : RF) (i : Nat) (b : Bool) : State :=
  (s.put f (Machine.setBit (s.get f) i b)).noteRaised f (b2n b * 2 ^ i % f.bound)

/-- Bits of a field set, the others as they are. -/
def State.orBits (s : State) (f : RF) (m : Nat) : State := (s.put f (s.get f ||| m)).noteRaised f (m % f.bound)

/-- A field back to its reset value. -/
def State.clear (s : State) (f : RF) : State := s.set f (fieldReset f.key)

/-- A counter that counts in the present clock (R16). -/
def State.noteCounted (s : State) (cnt : RF) : State := { s with now := { s.now with counted := cnt.key :: s.now.counted } }

/-- A counter's increment (R16): it stops at its maximum, and an increment it could not count sets OVF. -/
def State.count (s : State) (cnt ovf : RF) : State :=
  (if s.get cnt + 1 < cnt.bound then s.put cnt (s.get cnt + 1) else s.put ovf 1).noteCounted cnt

/-- A 64-bit value from its high and low registers. -/
def State.get64 (s : State) (hi lo : RF) : Nat := s.get hi * 2 ^ 32 + s.get lo

/-! ### Memories -/

/-- What an address that nothing is listed for reads as: an erased byte in code flash, boot configuration and record
store; nothing (never written) elsewhere. (DESIGN CHOICE, log entry 4). -/
def memUnlisted (a : Nat) : Option Byte :=
  if 0x08000000 ≤ a ∧ a < 0x08210000 then some 0xFF
  else if 0x0C000000 ≤ a ∧ a < 0x0C010000 then some 0xFF
  else none

/-- The byte at an address; one that nothing has written is an undefined value, the same until it is written or lost.
(DESIGN CHOICE, log entry 5). -/
def State.byte (s : State) (a : Nat) : Byte := (Store.get memUnlisted a s.mem).getD (Config.undefByte s.epoch a)

/-- A byte written. -/
def State.poke (s : State) (a : Nat) (v : Byte) : State := { s with mem := Store.put memUnlisted a v s.mem }

/-- `n` bytes from an address up. -/
def State.bytes (s : State) (a : Nat) : Nat → List Byte
  | 0 => []
  | n + 1 => s.byte a :: s.bytes (a + 1) n

/-- Bytes written from an address up. -/
def State.pokes (s : State) (a : Nat) : List Byte → State
  | [] => s
  | b :: t => (s.poke a b).pokes (a + 1) t

/-- The number in `n` bytes, least significant first (R8). -/
def State.mem? (s : State) (a n : Nat) : Nat := leNat (s.bytes a n)

/-- A 32-bit word written. -/
def State.pokeWord (s : State) (a w : Nat) : State := s.pokes a (wordBytes w)

/-- The addresses in a range lose their contents. (DESIGN CHOICE, log entry 5). -/
def State.lose (s : State) (lo hi : Nat) : State :=
  { s with mem := s.mem.filter (fun c => !(decide (lo ≤ c.1) && decide (c.1 < hi))), epoch := s.epoch + 1 }

/-- Bytes of a range set to 0xFF: a flash erasure. -/
def State.eraseRange (s : State) (lo n : Nat) : State :=
  { s with mem := s.mem.filter (fun c => !(decide (lo ≤ c.1) && decide (c.1 < lo + n))) }

/-- A range of memory filled, byte by byte. -/
def State.fillWith (s : State) (lo n : Nat) (f : Nat → Byte) : State :=
  { s with mem := s.mem.filter (fun c => decide (c.1 < lo)) ++
      ((List.range n).filterMap fun i => if memUnlisted (lo + i) = some (f (lo + i)) then none else some (lo + i, f (lo + i))) ++
      s.mem.filter fun c => decide (lo + n ≤ c.1) }

/-- A range of memory filled with one byte. -/
def State.fill (s : State) (lo n : Nat) (v : Byte) : State := s.fillWith lo n fun _ => v

/-- A range of memory left with undefined bytes. (DESIGN CHOICE, log entry 5). -/
def State.garble (s : State) (lo n : Nat) : State :=
  { s.fillWith lo n (fun a => Config.undefByte (s.epoch + 1) a) with epoch := s.epoch + 1 }

/-! ### Time -/

/-- The tick that now runs contains the instant, or the instant has passed (MT at the tick's start is `mt`); while MT is frozen it
reaches no later instant (R47, R123). (DEDUCED, log entry 24). -/
def State.due (s : State) (t : Nat) : Bool := if s.get MTIME.STATUS_STATE = 0 then t ≤ s.mt else t < s.mt + 4

/-- A 40-bit stamp against MT (R63): its full instant, and whether it is past. -/
def State.stamp40 (s : State) (x : Nat) : Nat × Bool :=
  let d := (x + 2 ^ 40 - s.mt % 2 ^ 40) % 2 ^ 40
  if d < 2 ^ 39 then (s.mt + d, false) else (s.mt + d - 2 ^ 40, true)

/-- The timebase tick of the first tick that begins at least `ns` nanoseconds after the instant `t` of the present tick. -/
def State.tickAfter (s : State) (t ns : Nat) : Nat := s.tick + (t - s.mt + ns + 3) / 4

/-- TIME_VALID. -/
def State.timeValid (s : State) : Bool := s.on MTIME.STATUS_TIME_VALID

/-- The running image is on trial (R333, R339): the boot record's TRIAL, but not in recovery mode. (DEDUCED, log entry 91). -/
def State.onTrial (s : State) : Bool := s.boot.trial && !s.boot.recovery

/-- A fresh undefined value; the count of those used goes up. (DESIGN CHOICE, log entry 6). -/
def State.fresh (s : State) : Nat × State := (Config.freeValue s.free, { s with free := s.free + 1 })

/-- An output that leaves the device, newest first. -/
def State.emit (s : State) (o : Out) : State := { s with sent := o :: s.sent }

/-- A lane's state replaced. -/
def State.lane (s : State) (n : Fin 10) (f : LaneSt → LaneSt) : State := { s with lanes := s.lanes.set n.1 (f s.lanes[n]) }

/-- A lane's schedule-loader state replaced. -/
def State.schedOf (s : State) (n : Fin 10) (f : SchedSt → SchedSt) : State :=
  { s with sched := s.sched.set n.1 (f s.sched[n]) }

/-- A pin engine's state replaced. -/
def State.eng (s : State) (n : Fin 10) (f : EngSt → EngSt) : State :=
  { s with engines := s.engines.set n.1 (f s.engines[n]) }

/-- Something done for each of the ten lanes in ascending order. -/
def State.forLanes (s : State) (f : Fin 10 → State → State) : State :=
  (List.finRange 10).foldl (fun s n => f n s) s

/-! ### Power domains (R29, R31) -/

/-- The power domains of the architecture chapter. -/
inductive Dom where
  | aon | crk | mgt | sys | lane | link
  deriving DecidableEq, Repr

/-- A domain's state in a ladder step (R29). -/
inductive DomState where
  | on | gated | retained | off
  deriving DecidableEq, Repr

/-- The table of R29; PD_LANE and PD_LINK are Off whenever the device is Detached (R31). (DEDUCED, log entry 72). -/
def domTable (d : Dom) (docked : Bool) (st : PStep) : DomState :=
  match d with
  | .aon => if st = .cold then .off else .on
  | .crk => match st with
    | .pupa | .cold => .off
    | _ => .on
  | .mgt | .sys => match st with
    | .run | .hover => .on
    | .rest => .gated
    | .torpor => .retained
    | _ => .off
  | .lane | .link => if !docked then .off else match st with
    | .run | .hover => .on
    | .rest => .gated
    | .torpor => .retained
    | _ => .off

/-- The state of a power domain now: after a docking in a deeper step PD_LANE and PD_LINK come up only at the exit (R194). -/
def State.dom (s : State) (d : Dom) : DomState := domTable d (s.on AONCTL.MODE_DOCKED && !s.pwr.lateDock) s.pwr.step

/-- The domain is On. -/
def State.domOn (s : State) (d : Dom) : Bool := s.dom d == .on

/-- The power domain of a peripheral block (R37). -/
def Block.dom : Block → Dom
  | .clkgen | .pwrctl | .rstctl | .uart _ | .memctl | .recstore | .flashctl | .erragg | .mtime => .sys
  | .evroute | .svcwire | .touch => .crk
  | .rtc | .harvest | .aonctl | .vaultctl => .aon
  | .adcseq | .lane _ | .pineng | .schedld => .lane
  | .port _ | .ringctl | .linkq | .dicteng => .link
  | .mbox => .mgt

/-- A register access to the address can complete: its block's domain is On or Gated (R38). -/
def State.accessible (s : State) (a : Nat) : Bool :=
  match blockOf a with
  | some b => s.dom b.dom == .on || s.dom b.dom == .gated
  | none => false

/-- A register access that performs `k` where the block can be reached, and ends with a bus error where not (R38).
(DEDUCED, log entry 103). -/
def State.busDo (s : State) (a : Nat) (k : State → State) : Ans :=
  if s.accessible a then .next { k s with bus := .ok 0 } else .next { s with bus := .error }

/-! ### Event producers and channels (R306 to R311) -/

/-- A pulse producer pulses now. -/
def State.pulsing (s : State) (id : Nat) : Bool := s.ev.pulses.any fun p => p.1 == id && decide (s.tick < p.2)

/-- The domain of a producer that pulses (R307). -/
def producerDom (id : Nat) : Dom :=
  if id ≤ 0x04 ∨ id = 0x79 then .sys else if id ≤ 0x67 then .lane else if id = 0x78 then .link else if id = 0x75 then .crk else .aon

/-- The level of a producer (R307); a producer whose domain is not On gives 0 (R209). -/
def State.producer (s : State) (id : Nat) : Bool :=
  match id with
  | 0x70 => s.domOn .sys && s.on (UART.STAT_RX_THR 0)
  | 0x71 => s.domOn .sys && s.on (UART.STAT_RX_THR 1)
  | 0x72 => s.domOn .sys && s.on (UART.STAT_TX_DONE 0)
  | 0x73 => s.domOn .sys && s.on (UART.STAT_TX_DONE 1)
  | 0x74 => s.domOn .crk && s.on SVCWIRE.STAT_BUSY
  | 0x76 => s.on HARVEST.STAT_LOW
  | 0x77 => s.on AONCTL.MODE_DOCKED
  | _ => s.domOn (producerDom id) && s.pulsing id

/-- The level of a lane ball after its synchroniser (R90, R120): what the device drove at the end of the second tick before the
present one, or the level that the board drives, as last given with a command; a ball that nothing drives, or that both drive, reads
an undefined level. (DESIGN CHOICE, log entry 48). -/
def State.ballRead (s : State) (b : Nat) : Bool :=
  if 60 ≤ b then false
  else match getBit s.drives.mask2 b, getBit s.drives.board b with
    | true, false => getBit s.drives.level2 b
    | false, true => getBit s.balls b
    | _, _ => Config.ballLevel s.tick b

/-- The gate signals of R308; those of a domain that is not On are clamped to 0 (R209). -/
def State.gate (s : State) (id : Nat) : Bool :=
  if id = 1 then s.domOn .sys && s.timeValid
  else if 2 ≤ id ∧ id ≤ 0x0B then s.domOn .lane && s.get (LANE.STAT_LSTATE (id - 2)) == 3
  else if id = 0x0C then s.on AONCTL.MODE_DOCKED
  else if 0x20 ≤ id ∧ id ≤ 0x5B then s.domOn .lane && s.ballRead (id - 0x20)
  else false

/-- G of R306. -/
def State.gateOf (s : State) (k : Nat) : Bool :=
  let g := s.get (EVROUTE.CH_CFG_GATE k)
  if g = 0 then true else s.gate g != s.on (EVROUTE.CH_CFG_GATE_INV k)

/-- A producer selected by the channel. -/
def State.selects (s : State) (k id : Nat) : Bool :=
  s.get (EVROUTE.CH_SEL_PSEL0 k) == id || s.get (EVROUTE.CH_SEL_PSEL1 k) == id ||
  s.get (EVROUTE.CH_SEL_PSEL2 k) == id || s.get (EVROUTE.CH_SEL_PSEL3 k) == id

/-- The software pulse of R309 is on. -/
def State.firing (s : State) (k : Nat) : Bool := s.ev.fire.any fun p => p.1 == k && decide (s.tick < p.2)

/-- The output is held at 0 while a write of its selection lands (R311). -/
def State.held (s : State) (k : Nat) : Bool := s.ev.blank.any fun p => p.1 == k && decide (s.tick < p.2)

/-- The channel's output (R306); held at 0 while a write of its selection lands (R311) and under the containment of EVROUTE
(R295), and 0 where PD_CRK is off (R315). -/
def State.chanLevel (s : State) (k : Nat) : Bool :=
  s.domOn .crk && !s.held k && !getBit s.ev.dead k && s.gateOf k &&
  (s.firing k ||
    (s.get (EVROUTE.CH_SEL_PSEL0 k) != 0 && s.producer (s.get (EVROUTE.CH_SEL_PSEL0 k))) ||
    (s.get (EVROUTE.CH_SEL_PSEL1 k) != 0 && s.producer (s.get (EVROUTE.CH_SEL_PSEL1 k))) ||
    (s.get (EVROUTE.CH_SEL_PSEL2 k) != 0 && s.producer (s.get (EVROUTE.CH_SEL_PSEL2 k))) ||
    (s.get (EVROUTE.CH_SEL_PSEL3 k) != 0 && s.producer (s.get (EVROUTE.CH_SEL_PSEL3 k))))

/-- A producer pulses for `ticks` timebase ticks; the catchers hold the rising edge of every channel that it raises (R310). -/
def State.pulse (s : State) (id ticks : Nat) : State :=
  let s' : State := { s with ev := { s.ev with pulses := (id, s.tick + ticks) :: s.ev.pulses } }
  let c := (List.range 32).foldl (fun c k =>
    if s'.selects k id && s'.chanLevel k && !s.chanLevel k then c ||| 2 ^ k else c) 0
  { s' with ev := { s'.ev with caught := s.ev.caught ||| c, rose := s.ev.rose ||| c } }

/-- The outputs of all channels: bit k. -/
def State.chanMask (s : State) : Nat :=
  if s.ev.fire.isEmpty && !s.regs.any (fun p => decide (32 * EVROUTE.CH_SEL 0 ≤ p.1) && decide (p.1 < 32 * EVROUTE.CH_SEL 32)) then 0
  else (List.range 32).foldl (fun v k => v + b2n (s.chanLevel k) * 2 ^ k) 0

/-- The end of a tick: the pin engines' catchers take the outputs, and the channels that rose in it (R310). -/
def State.noteChannels (s : State) : State :=
  { s with ev := { s.ev with chan1 := s.chanMask ||| s.ev.rose, chan2 := s.ev.chan1, rose := 0 } }

/-- The channels after a timebase tick: pulses that have ended are dropped, and the level each channel was seen at falls with
it. -/
def State.tickChannels (s : State) : State :=
  let s : State := { s with ev := { s.ev with
    pulses := s.ev.pulses.filter (fun p => decide (s.tick < p.2)), fire := s.ev.fire.filter (fun p => decide (s.tick < p.2)),
    blank := s.ev.blank.filter (fun p => decide (s.tick < p.2)) } }
  if s.ev.seen = 0 then s
  else
    { s with ev := { s.ev with seen := (List.range 32).foldl (fun c k =>
        if getBit s.ev.seen k && s.chanLevel k then c + 2 ^ k else c) 0 } }

/-! ### Discipline of the RTC (R247) -/

/-- Discipline is active (R247). -/
def State.discNow (s : State) : Bool := s.on RTC.CTRL_DISC_EN && s.on AONCTL.MODE_DOCKED && s.timeValid

/-- `n` periods of the always-on fast clock in timebase ticks, rounded up (R225). -/
def State.fastTicks (s : State) (n : Nat) : Nat :=
  let f := s.get TOUCH.CRK_CTRL_OSC_MHZ
  if f = 0 then 32 * n else (250 * n + f - 1) / f

/-- The discipline window ends unused; the next one starts at the following boundary (R247). (DEDUCED, log entry 79). -/
def State.endWindow (s : State) : State := { s with rtc := { s.rtc with winMt := none, winN := 0 } }

/-- STAT.DISC_ACT shows whether discipline is active; its stop ends the window (R247). -/
def State.showDisc (s : State) : State :=
  let act := s.discNow
  let s := s.setF RTC.STAT_DISC_ACT act
  if act = true then s else s.endWindow

/-! ### Work on memories, and what is left where it is cut off -/

/-- The bus address of a store offset, and a sector's first offset (R265). -/
def recAddr (o : Nat) : Nat := 0x0C000000 + o
def secOff (k : Nat) : Nat := k * 0x800

/-- A programmed word whose read-back mismatched, or that was cut off, holds undefined bytes. -/
def State.badWord (s : State) (a : Nat) : State := s.garble a 4

/-- One act of a record-store command carried out. -/
def State.recAct (s : State) (a : RecAct) : State :=
  match a with
  | .word o w => s.pokeWord (recAddr o) w
  | .erase k =>
    let s := (s.eraseRange (recAddr (secOff k)) 2048).setBit RECSTORE.DIRTY_MASK_DIRTY k false
    { s with rs := { s.rs with closed := Machine.setBit s.rs.closed k false, torn := Machine.setBit s.rs.torn k false } }

/-- Acts carried out in order. -/
def State.recActs (s : State) (l : List RecAct) : State := l.foldl State.recAct s

/-- A sector is DIRTY until it is erased (R273). -/
def State.tearSector (s : State) (k : Nat) : State :=
  let s := s.setBit RECSTORE.DIRTY_MASK_DIRTY k true
  { s with rs := { s.rs with torn := Machine.setBit s.rs.torn k true } }

/-- An erase that stops half-way (R273, R274): the sector holds undefined bytes and is DIRTY. -/
def State.halfErased (s : State) (k : Nat) : State := (s.garble (recAddr (secOff k)) 2048).tearSector k

/-- A word whose programming was cut off: within a DATA sector's header the sector is DIRTY (R273). -/
def State.halfWord (s : State) (o : Nat) : State :=
  let k := o / 0x800
  let s := s.badWord (recAddr o)
  if o % 0x800 < 16 ∧ s.bit RECSTORE.LOG_MASK_MASK k = false ∧ s.bit RECSTORE.RAW_MASK_MASK k = false then s.tearSector k
  else s

/-- A command stopped after `n` of its acts (R273, R274): a sector it has erased is DIRTY until the whole erase, its header with
it, is done. (DEDUCED, log entry 83). -/
def State.stopRec (s : State) (c : RecCmd) (n : Nat) : State :=
  let s := s.recActs (c.acts.take n)
  if c.acts.length ≤ n then s
  else (c.acts.take n).foldl (fun s a => match a with
    | .erase k => s.tearSector k
    | .word _ _ => s) s

/-- The record-store command in progress is cut off (R272, R273, R329): an undefined number of its acts have been carried out,
and the next one may be half done. (DEDUCED, log entry 83). -/
def State.cutRec (s : State) : State :=
  match s.rs.cur with
  | none => s
  | some c =>
    let (x, s) := s.fresh
    let n := x / 2 % (c.acts.length + 1)
    let s := s.stopRec c n
    if x % 2 = 0 then s
    else match c.acts[n]? with
      | some (.erase k) => s.halfErased k
      | some (.word o _) => s.halfWord o
      | none => s

/-- The record store as after reset. -/
def State.resetRec (s : State) : State :=
  let s := s.cutRec
  { s with rs := { torn := s.rs.torn } }

/-- The first flash address and the bytes that a FLASHCTL command touches. -/
def flashSpan (op addr len : Nat) : Nat × Nat :=
  match op with
  | 1 => (addr, len)
  | 2 => (addr / 0x2000 * 0x2000, 0x2000)
  | _ => (addr / 0x100000 * 0x100000, 0x100000)

/-- A FLASHCTL command in progress is cut off: what it touches is undefined. (DEDUCED, log entry 93). -/
def State.resetFlash (s : State) : State :=
  match s.flash with
  | none => s
  | some f =>
    let (lo, n) := flashSpan f.op f.addr f.len
    { s.garble lo n with flash := none }

/-- The first address and the bytes of a march target (R263). -/
def marchSpan (t : Nat) : Nat × Nat :=
  if t < 8 then (0x20000000 + t * 0x10000, 0x10000)
  else if t = 8 then (0x24000000, 0x40000)
  else if t = 9 then (0x28000000, 0x3800)
  else (0x30000000, 0x8000)

/-- The target's contents are undefined (R261, R264). -/
def State.marchLoss (s : State) : State :=
  let (a, n) := marchSpan s.march.target
  s.garble a n

/-- A march test in progress is cut off: its target is undefined. (DEDUCED, log entry 81). -/
def State.resetMarch (s : State) : State :=
  let s := if s.on MEMCTL.MT_STAT_BUSY then s.marchLoss else s
  { s with march := {} }

/-! ### Resets of blocks and domains -/

/-- The registers whose address satisfies `p` return to their reset values. -/
def State.resetRegs (s : State) (p : Nat → Bool) : State := { s with regs := s.regs.filter fun c => !p (c.1 / 32) }

/-- The LOCK bit of a block that has one (R11). -/
def lockOf : Block → Option RF
  | .evroute => some EVROUTE.GCTL_LOCK
  | .svcwire => some SVCWIRE.ADDR_LOCK
  | .recstore => some RECSTORE.CFG_LOCK
  | .erragg => some ERRAGG.CTRL_LOCK
  | .harvest => some HARVEST.CTRL_LOCK
  | .vaultctl => some VAULTCTL.TMP_CFG_LOCK
  | .schedld => some SCHEDLD.CTRL_LIMIT_LOCK
  | _ => none

/-- The registers of a block return to their reset values, but for its LOCK bit, which only the reset source of its summary line
clears (R11). -/
def State.resetBlockRegs (s : State) (b : Block) : State :=
  let t := s.resetRegs fun a => blockOf a == some b
  match lockOf b with
  | some f => t.put f (s.get f)
  | none => t

/-- A lane's registers and internal state as after reset. -/
def State.resetLane (s : State) (n : Fin 10) : State := (s.resetBlockRegs (.lane n)).lane n fun _ => {}

/-- ACTION and the action in force. -/
def State.setAction (s : State) (n : Fin 10) (a : Nat) : State :=
  (s.set (LANE.FLT_STAT_ACTION n) a).lane n fun l => { l with act := a }

/-! ### Error containment (R21, R22, R295 to R299) -/

/-- The region of a source (R295): 0 System, 1 Lane, 2 Link, 3 Always-on, 4 Management. -/
def srcRegion (src : Nat) : Nat :=
  if src < 16 then 0 else if src < 32 then 1 else if src < 40 then 2 else if src < 48 then 3 else 4

/-- The chip arbiter receives a report (R22, R299): it waits for the log; a further report of a source that already waits is
counted, equal reports and others apart. -/
def State.chipReport (s : State) (r : Report) : State :=
  let s := s.set ERRAGG.STAT_CHIP_EV 1
  let hit := s.err.chip.any fun c => c.rep.src == r.src
  let chip := if hit then
      s.err.chip.map fun c =>
        if c.rep.src = r.src then (if c.rep = r then { c with same := c.same + 1 } else { c with others := c.others + 1 }) else c
    else s.err.chip ++ [⟨r, 0, 0⟩]
  { s with err := { s.err with chip := chip } }

/-- A block makes a report (R22): it is held in the source's pending bit until its region's arbiter takes it; further reports of a
pending source are counted. In Rest and Torpor, where the clock of ERRAGG stands, it stays pending until the clock returns; where
PD_SYS is Off there is no pending bit, and the report is lost. (DESIGN CHOICE, log entry 21). -/
def State.report (s : State) (r : Report) : State :=
  if s.dom .sys == .off then s
  else if s.on (ERRAGG.SRC_PEND r.src) then s.count (ERRAGG.SRC_REPEAT r.src) (ERRAGG.SRC_OVF r.src)
  else { s.set (ERRAGG.SRC_PEND r.src) 1 with err := { s.err with pend := s.err.pend ++ [r] } }

/-! ### Lane states and the loss of time (R53, R113) -/

/-- LSTATE changes; IRQ_STAT.STATE_CHG. -/
def State.setLstate (s : State) (n : Nat) (st : Nat) : State :=
  if s.get (LANE.STAT_LSTATE n) = st then s else (s.set (LANE.STAT_LSTATE n) st).set (LANE.IRQ_STAT_STATE_CHG n) 1

/-- A lane becomes SUSPENDED (R113): FIRST, ACTION and SRC_LANE are recorded, FLT_IRQ_STAT.FAULT is set; pending actions of
played records fall (R71). (DEDUCED, log entry 32; DEDUCED, log entry 37). -/
def State.suspend (s : State) (n : Fin 10) (first action src : Nat) : State :=
  let s := s.setLstate n 4
  let s := ((s.set (LANE.FLT_STAT_FIRST n) first).setAction n action).set (LANE.FLT_STAT_SRC_LANE n) src
  (s.set (LANE.FLT_IRQ_STAT_FAULT n) 1).lane n fun l => { l with acts := [] }

/-- The suspension of R53 and R113: TIME_LOST, with no action. (DEDUCED, log entry 37). -/
def State.timeLost (s : State) (n : Fin 10) : State :=
  ((s.suspend n 7 0 0).set (LANE.FLT_STAT_TIME_LOST n) 1).set (LANE.FLT_STAT_PHASE n) 3

end Sys2Proof.Machine
end

