-- ==== Sys2Proof/Machine/BusMap.lean ====
section
/-!
DEFINITION. Which bus master may reach which target (R33, R34, R39), and what a forbidden access does (R39, R297).
-/
namespace Sys2Proof.Machine

/-- The memories of R33. -/
inductive MemKind where
  | bootRom | flash | bootConfig | recStore | sram | sched | vault | secure | crkSram
  deriving DecidableEq, Repr

/-- The memory that holds an address (R33). -/
def memKind (a : Nat) : Option MemKind :=
  if a < 0x10000 then some .bootRom
  else if 0x08000000 ≤ a ∧ a < 0x08200000 then some .flash
  else if 0x08200000 ≤ a ∧ a < 0x08210000 then some .bootConfig
  else if 0x0C000000 ≤ a ∧ a < 0x0C010000 then some .recStore
  else if 0x20000000 ≤ a ∧ a < 0x20080000 then some .sram
  else if 0x24000000 ≤ a ∧ a < 0x24040000 then some .sched
  else if 0x28000000 ≤ a ∧ a < 0x28003800 then some .vault
  else if 0x28003800 ≤ a ∧ a < 0x28004000 then some .secure
  else if 0x30000000 ≤ a ∧ a < 0x30008000 then some .crkSram
  else none

/-- The table of R39 for memories; `mach`: the application core is in machine mode; `core`: it has been released from reset, which
shuts Scarab out of the measurement cache (R258). (DEDUCED, log entry 20). -/
def mayMem (m : Master) (mach core wr : Bool) (k : MemKind) (a : Nat) : Bool :=
  match m, k with
  | .app, .secure => mach
  | .app, .bootConfig => !wr
  | .app, .recStore => !wr
  | .app, _ => true
  | .cricket, .vault => true
  | .cricket, .crkSram => true
  | .scarab, .bootRom => !wr
  | .scarab, .flash => !wr
  | .scarab, .bootConfig => !wr
  | .scarab, .recStore => !wr
  | .scarab, .sram => true
  | .scarab, .secure => !core && decide (0x28003FC0 ≤ a)
  | .copy, .sram => !wr
  | .copy, .sched => wr
  | .linkq, .sram => true
  | .dict, .recStore => !wr
  | .dict, .sram => true
  | .dict, .sched => true
  | .dict, .vault => true
  | _, _ => false

/-- The table of R39 for a peripheral register. (DEDUCED, log entry 20). -/
def mayReg (m : Master) (wr : Bool) (b : Block) (a : Nat) : Bool :=
  match m with
  | .app => true
  | .cricket => match b with
    | .evroute | .svcwire | .rtc | .harvest | .touch | .aonctl | .vaultctl => true
    | .pwrctl => !wr
    | _ => false
  | .scarab => match b with
    | .flashctl | .recstore | .rstctl | .erragg | .memctl | .aonctl | .vaultctl | .mbox => true
    | .clkgen => !wr
    | .lane _ => a % 4096 == 0
    | _ => false
  | .copy => false
  | .linkq => b == .linkq
  | .dict => b != .mbox

/-- The number of a master in a BUS_VIOLATION (R297). -/
def masterNum : Master → Nat
  | .app => 0
  | .cricket => 1
  | .scarab => 2
  | .copy => 3
  | .linkq => 4
  | .dict => 5

/-- A forbidden access (R39): a bus error, and a block-level report of the interconnect. (DEDUCED, log entry 20). -/
def State.violation (s : State) (m : Master) (a : Nat) : State :=
  { s.report ⟨0, 0x02, a, 1, masterNum m, false⟩ with bus := .error }

/-- A register access by a master: forbidden under R39, or as `busDo`. -/
def State.busBy (s : State) (m : Master) (wr : Bool) (a : Nat) (k : State → State) : Ans :=
  match blockOf a with
  | none => .next { s with bus := .error }
  | some b => if mayReg m wr b a then s.busDo a k else .next (s.violation m a)

end Sys2Proof.Machine
end

