-- ==== Sys2Proof/Machine/AbortCodes.lean ====
section
/-!
DEFINITION. The abort codes of dictionary responses (R176).
-/
namespace Sys2Proof.Machine.Abort

abbrev ok : Nat := 0x00
abbrev noObject : Nat := 0x01
abbrev noSub : Nat := 0x02
abbrev readOnly : Nat := 0x03
abbrev writeOnly : Nat := 0x04
abbrev badLength : Nat := 0x05
abbrev range : Nat := 0x06
abbrev locked : Nat := 0x07
abbrev needsCommit : Nat := 0x08
abbrev state : Nat := 0x09
abbrev busyResource : Nat := 0x0A
abbrev wsFull : Nat := 0x0B
abbrev wsArmed : Nat := 0x0C
abbrev wsEmpty : Nat := 0x0D
abbrev notStageable : Nat := 0x0E
abbrev notSnappable : Nat := 0x0F
abbrev badOp : Nat := 0x10
abbrev badField : Nat := 0x11
abbrev access : Nat := 0x12
abbrev domainOff : Nat := 0x13
abbrev noResponse : Nat := 0x14
abbrev appTimeout : Nat := 0x15

end Sys2Proof.Machine.Abort
end

