-- ==== Sys2Proof/Machine/Flags.lean ====
section
/-!
DEFINITION. Checks and status computations the spec gives: CRC-16 (R70), CRC-32C (R72), the sine table of R96, and the
fault classes, latches and actions of a lane (R106, R109, R112).
-/
namespace Sys2Proof.Machine

/-! ### Cyclic redundancy checks -/

/-- One bit of CRC-16, polynomial 0x1021, no reflection (R70). -/
def crc16Bit (c : Nat) : Nat :=
  if getBit c 15 then (c * 2 % 65536) ^^^ 0x1021 else c * 2 % 65536

/-- One byte of CRC-16. -/
def crc16Byte (c : Nat) (b : Byte) : Nat :=
  let x := c ^^^ (b.toNat * 256)
  crc16Bit (crc16Bit (crc16Bit (crc16Bit (crc16Bit (crc16Bit (crc16Bit (crc16Bit x)))))))

/-- CRC-16 with initial value 0xFFFF and no final XOR (R70). -/
def crc16 (l : List Byte) : Nat := l.foldl crc16Byte 0xFFFF

/-- One bit of CRC-32C, polynomial 0x1EDC6F41 reflected (R72). -/
def crc32cBit (c : Nat) : Nat := if c % 2 = 1 then (c / 2) ^^^ 0x82F63B78 else c / 2

/-- One byte of CRC-32C. -/
def crc32cByte (c : Nat) (b : Byte) : Nat :=
  let x := c ^^^ b.toNat
  crc32cBit (crc32cBit (crc32cBit (crc32cBit (crc32cBit (crc32cBit (crc32cBit (crc32cBit x)))))))

/-- CRC-32C with initial value and final XOR 0xFFFF_FFFF (R72). -/
def crc32c (l : List Byte) : Nat := (l.foldl crc32cByte 0xFFFFFFFF) ^^^ 0xFFFFFFFF

/-! ### The sine table of R96 -/

/-- π in units of 2^−96, rounded down. -/
def pi96 : Nat := 248902613312231085230521944622

/-- The terms of the sine series from term `i`, the term's value being `t` and the squared argument `x2`, all in 2^−96. -/
def sinSeries (x2 : Nat) : Nat → Nat → Nat → Int
  | 0, _, _ => 0
  | n + 1, i, t => (t : Int) - sinSeries x2 n (i + 1) (t * x2 / 2 ^ 96 / ((2 * i + 2) * (2 * i + 3)))

/-- round(32,767 × sin(2πk / 4,096)) for k from 0 to 1,024. -/
def sinQuarter (k : Nat) : Int :=
  let x := pi96 * k / 2048
  (32767 * sinSeries (x * x / 2 ^ 96) 20 0 x + 2 ^ 95) / 2 ^ 96

/-- Entry k of the table of 4,096 entries of R96: round(32,767 × sin(2πk / 4,096)). -/
def sinTable (k : Nat) : Int :=
  let k := k % 4096
  if k ≤ 1024 then sinQuarter k
  else if k ≤ 2048 then sinQuarter (2048 - k)
  else if k ≤ 3072 then -sinQuarter (k - 2048)
  else -sinQuarter (4096 - k)

/-! ### Lane faults -/

/-- The fault classes of R106 that carry a policy, in the order of R112: 1 SENSE, 2 OC, 3 DRV, 4 OPEN, 5 FE (FLT_STAT.FIRST). -/
inductive FaultClass where
  | sense | oc | drv | openPhase | fe
  deriving DecidableEq, Repr

/-- The code of FLT_STAT.FIRST. -/
def FaultClass.code : FaultClass → Nat
  | .sense => 1
  | .oc => 2
  | .drv => 3
  | .openPhase => 4
  | .fe => 5

/-- The policy field of the class in FLT_CFG of lane n. -/
def FaultClass.polField (n : Nat) : FaultClass → RF
  | .sense => LANE.FLT_CFG_SENSE_POL n
  | .oc => LANE.FLT_CFG_OC_POL n
  | .drv => LANE.FLT_CFG_DRV_POL n
  | .openPhase => LANE.FLT_CFG_OPEN_POL n
  | .fe => LANE.FLT_CFG_FE_POL n

/-- The latch of the class in FLT_STAT of lane n. -/
def FaultClass.latch (n : Nat) : FaultClass → RF
  | .sense => LANE.FLT_STAT_SENSE n
  | .oc => LANE.FLT_STAT_OC n
  | .drv => LANE.FLT_STAT_DRV n
  | .openPhase => LANE.FLT_STAT_OPEN n
  | .fe => LANE.FLT_STAT_FE n

/-- The ACTION a policy value stands for: COAST 2, HOLD_SAFE 1, BRAKE 3 (R109, FLT_STAT.ACTION). -/
def polAction (p : Nat) : Nat :=
  match p with
  | 1 => 1
  | 2 => 3
  | _ => 2

/-- The action after a later detection (R112): the action in force, the class detected and its policy. -/
def laterAction (act : Nat) (c : FaultClass) (pol : Nat) : Nat :=
  if act = 1 ∨ act = 4 then (if pol = 1 then 2 else polAction pol)
  else if act = 3 then (if c = .oc ∨ c = .drv then 2 else 3)
  else act

end Sys2Proof.Machine
end

