-- ==== Sys2Proof/Machine/Operands.lean ====
section
/-!
DEFINITION. Operand forms: a bus write of a 32-bit value to the fields of a register by their access codes (R9, R11, R15, R16),
a bus read of a register (R13), and the fields of a pin-engine instruction word (R127).
-/
namespace Sys2Proof.Machine

/-! ### Register writes and reads -/

/-- The value lies in the field's stated range (R15). -/
def Legal.ok : Legal → Nat → Bool
  | .any, _ => true
  | .range lo hi, v => decide (lo ≤ v) && decide (v ≤ hi)
  | .rangeMul lo hi m, v => decide (lo ≤ v) && decide (v ≤ hi) && v % m == 0
  | .clamp _, _ => true
  | .among vs, v => vs.contains v

/-- What the field takes of a value: a register that states a clamp takes the clamped value (R15). -/
def Legal.take : Legal → Nat → Nat
  | .clamp hi, v => min v hi
  | _, v => v

/-- A value put into a field, or the field kept where the value is reserved or out of range (R15). -/
def State.setLegal (s : State) (f : RF) (l : Legal) (v : Nat) : State :=
  if l.ok v then s.put f (l.take v) else s

/-- Bits of a W1C field cleared by software (R9); those the device sets in the same clock read 1 afterwards (R10). -/
def State.clearBits (s : State) (f : RF) (x : Nat) : State :=
  s.put f (s.get f &&& (f.bound - 1 - x) ||| (s.get f &&& s.raised f))

/-- A counter cleared through its OVF bit (R16): the increments of the same clock are counted after the clear. -/
def State.clearCount (s : State) (cnt ovf : RF) : State :=
  (s.put ovf 0).put cnt (min (cnt.bound - 1) (s.now.counted.count cnt.key))

/-- One field of a register write, by its access code (R9). -/
def State.writeField (s : State) (addr v : Nat) (locked : Bool) (f : Fld) : State :=
  let r : RF := ⟨addr, f.hi, f.lo⟩
  let x := bits v f.hi f.lo
  match f.acc with
  | .rw => s.setLegal r f.legal x
  | .ro => s
  | .wo => s
  | .w1c => s.clearBits r x
  | .w1s => s.put r (s.get r ||| x)
  | .rwl => if locked then s else s.setLegal r f.legal x
  | .rwc => s
  | .ovf hi lo => if x = 1 then s.clearCount ⟨addr, hi, lo⟩ r else s

/-- A register write of those fields that `p` selects. -/
def State.writeFields (s : State) (p : Fld → Bool) (addr v : Nat) (locked : Bool) : State :=
  ((fieldsAt addr).filter p).foldl (fun s f => s.writeField addr v locked f) s

/-- What a read of one field returns (R9): a WO field reads 0. -/
def State.readField (s : State) (addr : Nat) (f : Fld) : Nat :=
  match f.acc with
  | .wo => 0
  | _ => s.get ⟨addr, f.hi, f.lo⟩ * 2 ^ f.lo

/-- What the fields of a register hold, reserved bits and reserved offsets reading 0 (R13). -/
def State.rawReg (s : State) (addr : Nat) : Nat := (fieldsAt addr).foldl (fun v f => v + s.readField addr f) 0

/-- The lane registers described as "at the last tick": before their tick completes they show the previous one (R105). -/
def State.laneShown (s : State) (n : Fin 10) (addr : Nat) : Option Nat :=
  let l := s.lanes[n]
  if l.doneAt = none then none
  else if addr = LANE.POS_CMD n then l.shown[0]?
  else if addr = LANE.POS_MEAS n then l.shown[1]?
  else if addr = LANE.POS_ERR n then l.shown[2]?
  else if addr = LANE.CUR_MEAS n then l.shown[3]?
  else if addr = LANE.CUR_REF n then l.shown[4]?
  else if addr = LANE.VOLT n then l.shown[5]?
  else if addr = LANE.IDQ n then l.shown[6]?
  else if addr = LANE.ANGLE n then l.shown[7]?.map fun t => t * 2 ^ 16 + s.get (LANE.ANGLE_EOFFS n)
  else if addr = LANE.STAT n then l.shown[8]?.map fun b => Machine.setBit (s.rawReg addr) 10 (b == 1)
  else none

/-- The registers that show what the state holds elsewhere: the channel outputs, the count and baseline of the selected touch
key, SUBSEC, machine time and its read shadow (R26), the frozen half of an MT_SYNC_IN stamp, and a lane's last tick (R105). -/
def State.viewReg (s : State) (addr : Nat) : Option Nat :=
  if addr = EVROUTE.LEVEL then some s.chanMask
  else if addr = TOUCH.SIG then
    (s.touch.keys.toList[s.get TOUCH.CTRL_KEY]?).map fun k => k.base / 256 % 2 ^ 16 * 2 ^ 16 + k.m % 2 ^ 16
  else if addr = RTC.RTC_SUBSEC then some (min 32767 s.rtc.sub)
  else if addr = MTIME.MT_LO then some (s.mt % 2 ^ 32)
  else if addr = MTIME.MT_HI then some s.tm.shadow
  else if addr = MTIME.SYNCIN_CAPT_HI then s.tm.captFrozen
  else match blockOf addr with
    | some (.lane n) => if h : n < 10 then s.laneShown ⟨n, h⟩ addr else none
    | _ => none

/-- What a read of a register returns (R9, R13). -/
def State.readReg (s : State) (addr : Nat) : Nat := (s.viewReg addr).getD (s.rawReg addr)

/-! ### Pin-engine instruction words (R127) -/

/-- OP, bits 31:28. -/
def peOp (w : Nat) : Nat := bits w 31 28
/-- TMODE, bits 27:26. -/
def peTmode (w : Nat) : Nat := bits w 27 26
/-- T, bits 13:0. -/
def peT (w : Nat) : Nat := bits w 13 0
/-- MASK of ACT and SAMPLE, bits 25:20. -/
def peMask (w : Nat) : Nat := bits w 25 20
/-- VAL of ACT or EXP of SAMPLE, bits 19:14. -/
def peVal (w : Nat) : Nat := bits w 19 14
/-- SRC of WAITPIN, PUSH, PULL and SYNC, bits 25:24. -/
def peSrc (w : Nat) : Nat := bits w 25 24
/-- DEST of PUSH and PULL, bits 23:22. -/
def peDest (w : Nat) : Nat := bits w 23 22
/-- STALL of PUSH and PULL, bit 21. -/
def peStall (w : Nat) : Bool := getBit w 21
/-- IDX, COND and STAMP of WAITPIN. -/
def peIdx (w : Nat) : Nat := bits w 23 19
def peCond (w : Nat) : Nat := bits w 18 17
def peStamp (w : Nat) : Bool := getBit w 16
/-- DIR, PIN_D, PIN_C and CNT of SHIFT. -/
def peDirIn (w : Nat) : Bool := getBit w 25
def pePinD (w : Nat) : Nat := bits w 24 22
def pePinC (w : Nat) : Nat := bits w 21 19
def peCnt (w : Nat) : Nat := if bits w 18 14 = 0 then 32 else bits w 18 14
/-- COND and ADDR of JMP, REG of DJNZ. -/
def peJcond (w : Nat) : Nat := bits w 25 23
def peAddr (w : Nat) : Nat := bits w 22 14
def peReg (w : Nat) : Bool := getBit w 25
/-- MASK and IRQ of EVT. -/
def peEvtMask (w : Nat) : Nat := bits w 25 22
def peIrq (w : Nat) : Bool := getBit w 21
/-- SLOTS of SYNC. -/
def peSlots (w : Nat) : Nat := bits w 23 16

/-- The TMODE values each opcode accepts (R127): 0 NOW, 1 AT, 2 AT_KEEP, 3 BY. -/
def peTmodeOk (op tm : Nat) : Bool :=
  match op with
  | 0 | 1 | 3 | 8 => tm != 3
  | 2 | 4 | 5 => true
  | 6 | 7 => tm == 0
  | 9 => tm == 0 || tm == 3
  | _ => false

/-- Reserved operand bits are 0, T is 0 under NOW, and no operand holds a reserved value (R127, R128). -/
def peFieldsOk (w : Nat) : Bool :=
  (peTmode w != 0 || peT w == 0) &&
  match peOp w with
  | 0 | 1 => true
  | 2 => bits w 15 14 == 0 && peSrc w != 3 && (peSrc w != 0 || decide (peIdx w ≤ 5)) && (peSrc w != 2 || decide (peIdx w ≤ 5))
  | 3 => decide (pePinD w ≤ 5) && pePinC w != 6
  | 4 => bits w 20 14 == 0 && peDest w != 3
  | 5 => bits w 20 14 == 0 && peSrc w != 3 && peDest w != 3
  | 6 => peJcond w != 7
  | 7 => bits w 24 23 == 0
  | 8 => bits w 20 14 == 0
  | 9 => bits w 15 14 == 0 && decide (peSrc w ≤ 1)
  | _ => true

end Sys2Proof.Machine
end

