-- ==== Sys2Proof/Machine/EngOps.lean ====
section
/-!
DEFINITION. Shared operations of the pin engines (06_pin_engines.md): ball levels and drivers, the program store, errors, the
classification of a timed instruction, completion, FIFOs, and the release at SYNC.
-/
namespace Sys2Proof.Machine

/-! ### Balls and levels (R118 to R120, R138) -/

/-- The ball that local pin `j` of engine n maps to (R118). -/
def State.pinBall (s : State) (n : Nat) (j : Nat) : Nat :=
  match j with
  | 0 => s.get (PINENG.E_PINMAP0_B0 n)
  | 1 => s.get (PINENG.E_PINMAP0_B1 n)
  | 2 => s.get (PINENG.E_PINMAP0_B2 n)
  | 3 => s.get (PINENG.E_PINMAP1_B3 n)
  | 4 => s.get (PINENG.E_PINMAP1_B4 n)
  | _ => s.get (PINENG.E_PINMAP1_B5 n)

/-- PINCFG of engine n: the direction of local pin `j`, its INIT level, its FSAFE. -/
def State.pinDir (s : State) (n : Nat) (j : Nat) : Nat :=
  match j with
  | 0 => s.get (PINENG.E_PINCFG_DIR0 n)
  | 1 => s.get (PINENG.E_PINCFG_DIR1 n)
  | 2 => s.get (PINENG.E_PINCFG_DIR2 n)
  | 3 => s.get (PINENG.E_PINCFG_DIR3 n)
  | 4 => s.get (PINENG.E_PINCFG_DIR4 n)
  | _ => s.get (PINENG.E_PINCFG_DIR5 n)
def State.pinSafe (s : State) (n : Nat) (j : Nat) : Nat :=
  match j with
  | 0 => s.get (PINENG.E_PINCFG_FSAFE0 n)
  | 1 => s.get (PINENG.E_PINCFG_FSAFE1 n)
  | 2 => s.get (PINENG.E_PINCFG_FSAFE2 n)
  | 3 => s.get (PINENG.E_PINCFG_FSAFE3 n)
  | 4 => s.get (PINENG.E_PINCFG_FSAFE4 n)
  | _ => s.get (PINENG.E_PINCFG_FSAFE5 n)

/-- A ball that a lane's quadrature counter claims as an input (R90, R119). -/
def State.ballClaimed (s : State) (b : Nat) : Bool := decide (b % 6 < 3) && decide (b < 60) && s.on (LANE.QCFG_EN (b / 6))

/-- The local pins configured as outputs, the lowest engine's first and within it the lowest pin. -/
def State.outputs (s : State) : List (Fin 10 × Nat) :=
  ((List.finRange 10).flatMap fun n => (List.range 6).map fun j => (n, j)).filter fun p => s.pinDir p.1 p.2 != 0

/-- The local pin that drives a ball: the lowest engine, and within it the lowest local pin, mapped there as an output (R119). -/
def State.ballDriver (s : State) (b : Nat) : Option (Fin 10 × Nat) :=
  if 60 ≤ b || s.ballClaimed b then none else s.outputs.find? fun p => s.pinBall p.1 p.2 == b

/-- Local pin `j` of engine n is an output that drives its ball. -/
def State.pinDrives (s : State) (n : Fin 10) (j : Nat) : Bool := s.ballDriver (s.pinBall n j) == some (n, j)

/-- MAP_CONFLICT (R119): engines with an output pin that drives nothing although it maps to a ball. -/
def State.mapConflict (s : State) : Nat :=
  s.outputs.foldl (fun v p =>
    if decide (s.pinBall p.1 p.2 < 60) && !s.pinDrives p.1 p.2 then Machine.setBit v p.1 true else v) 0

/-- The lane of the engine is suspended by a fault, so that FSAFE levels override (R138). -/
def State.safeOverride (s : State) (n : Fin 10) : Bool :=
  s.get (LANE.STAT_LSTATE n) == 4 && decide (1 ≤ s.get (LANE.FLT_STAT_FIRST n)) && decide (s.get (LANE.FLT_STAT_FIRST n) ≤ 6)

/-- The word at the engine's PC; a word that nothing has written holds an arbitrary value (R130). (DEDUCED, log entry 41). -/
def State.peWord (s : State) (n : Nat) : Nat := s.mem? (0x50100800 + 4 * s.get (PINENG.E_STAT_PC n)) 4

/-- The step length in timebase ticks: CLK.DIV, 0 meaning 65,536 (R122). -/
def State.peDiv (s : State) (n : Nat) : Nat := if s.get (PINENG.E_CLK_DIV n) = 0 then 65536 else s.get (PINENG.E_CLK_DIV n)

/-- The stored levels of the pins `ns` ns into the present tick: a pin that an ACT changes in it has its old level before (R124). -/
def State.storedAt (s : State) (n : Fin 10) (ns : Nat) : Nat :=
  let e := s.engines[n]
  if e.edgeTick ≠ some s.tick then e.stored
  else (List.range 6).foldl (fun v j => if ns < e.edgeNs.getD j 0 then Machine.setBit v j (getBit e.edgeOld j) else v) e.stored

/-- The levels the engine's pins have `ns` ns into the present tick (R120, R128): while a SHIFT executes, PIN_D has the bit being
sent, and PIN_C is high from mid-bit to the end of each bit. -/
def State.pinsAt (s : State) (n : Fin 10) (ns : Nat) : Nat :=
  let e := s.engines[n]
  match e.wait with
  | .shift t =>
    let w := s.peWord n
    let h := (s.tick - t) / s.peDiv n
    let k := min (h / 2) (peCnt w - 1)
    let v := if peDirIn w then e.stored
      else Machine.setBit e.stored (pePinD w) (getBit e.emtw (if s.on (PINENG.E_CTRL_MSBF n) then 31 - k else k))
    if pePinC w ≤ 5 ∧ 1 ≤ h then Machine.setBit v (pePinC w) (h % 2 == 1) else v
  | _ => s.storedAt n ns

/-- The level the device drives on a ball `ns` ns into the present tick: none where nothing drives it or the driver is at high
impedance (R120, R138). With the clocks of PD_LANE stopped an output has its INIT level, and a domain that is Retained or Off drives
nothing (R32, R346). (DESIGN CHOICE, log entry 48). -/
def State.ballDriveAt (s : State) (b ns : Nat) : Option Bool :=
  match s.dom .lane, s.ballDriver b with
  | _, none => none
  | .gated, some (n, j) =>
    let v := s.bit (PINENG.E_PINCFG_INIT n) j
    if s.pinDir n j = 2 then (if v then none else some false) else some v
  | .retained, _ => none
  | .off, _ => none
  | .on, some (n, j) =>
    let safe := s.pinSafe n j
    if s.safeOverride n && safe != 0 then
      (if safe = 1 then some false else if safe = 2 then some true else none)
    else
      let v := getBit (s.pinsAt n ns) j
      if s.pinDir n j = 2 then (if v then none else some false) else some v

/-- The level the device drives on a ball at the end of the present tick. -/
def State.ballDrive (s : State) (b : Nat) : Option Bool := s.ballDriveAt b 3

/-- The balls the device drives now and their levels (R120). -/
def State.drivenNow (s : State) : Nat × Nat :=
  s.outputs.foldl (fun d p =>
    let b := s.pinBall p.1 p.2
    match s.ballDrive b with
    | some v => (Machine.setBit d.1 b true, Machine.setBit d.2 b v)
    | none => d) (0, 0)

/-- The end of a tick: what the device drove in it goes into the synchronisers (R120). (DESIGN CHOICE, log entry 48). -/
def State.noteDrives (s : State) : State :=
  let d := s.drivenNow
  { s with drives := { s.drives with mask1 := d.1, level1 := d.2, mask2 := s.drives.mask1, level2 := s.drives.level1 } }

/-- The level local pin `j` of engine n reads (R118, R120): 0 where it is mapped to nothing. -/
def State.pinLevel (s : State) (n : Nat) (j : Nat) : Bool := s.ballRead (s.pinBall n j)

/-! ### The program (R129, R130) -/

/-- The next instruction waits to become current. -/
def State.peFresh (s : State) (n : Fin 10) : State :=
  (s.set (PINENG.E_STAT_WAIT n) 0).eng n fun e => { e with wait := .fresh, inst := none, late := false, stale := false, cur := false }

/-- The engine enters ERROR (R129): the outputs drive INIT, IRQ_STAT.ERR, and a block-level report. -/
def State.peError (s : State) (n : Fin 10) (code : Nat) : State :=
  let s := (s.set (PINENG.E_STAT_ESTATE n) 3).set (PINENG.E_STAT_ERR_CODE n) code
  let s := (s.peFresh n).eng n fun e =>
    { e with stored := s.get (PINENG.E_PINCFG_INIT n), clkEnd := none }
  (s.setBit PINENG.IRQ_STAT_ERR n true).report { src := 27, cause := 0x07, detail := Config.packDetail n code, level := 1 }

/-- The ERR_CODE of a word that may not be executed (R129): 0 for a legal word. Of a word that is bad in several ways the opcode is
judged first, then TMODE, then the fields: the model's choice. (DESIGN CHOICE, log entry 44). -/
def peIllegal (w : Nat) : Nat :=
  if 0xA ≤ peOp w then 1
  else if !peTmodeOk (peOp w) (peTmode w) then 2
  else if !peFieldsOk w then 4
  else 0

/-- The classification of an instant of 32 bits (R123): the full instant, or none where it is past. -/
def State.class32 (s : State) (a : Nat) : Option Nat :=
  let d := (a + 2 ^ 32 - s.mt % 2 ^ 32) % 2 ^ 32
  if d < 2 ^ 31 then some (s.mt + d) else none

/-- BASE written, STALE returning to 0 until the tick that contains BASE + 2^30 ns (R126). (DEDUCED, log entry 43). -/
def State.setBase (s : State) (n : Fin 10) (v : Nat) : State :=
  let at' := match s.class32 ((v + 2 ^ 30) % 2 ^ 32) with
    | some t => t
    | none => s.mt
  ((s.set (PINENG.E_BASE_BASE n) (v % 2 ^ 32)).set (PINENG.E_STAT_STALE n) 0).eng n fun e => { e with staleAt := at' }

/-- The instant A of an instruction with operand T (R123), and MT's distance to it. (DEDUCED, log entry 43). -/
def State.peInstant (s : State) (n : Nat) (w : Nat) : Nat :=
  (s.get (PINENG.E_BASE_BASE n) + peT w * 2 ^ s.get (PINENG.E_CTRL_TSCALE n)) % 2 ^ 32

/-- The instruction at PC becomes current (R123, R126): an illegal word puts the engine in ERROR (R129), a timed instruction is
classified once, and a SYNC ends the hold on a released slot (R132); with it, whatever its SRC, PULL SRC 1 finds no more words: the
model's choice. (DESIGN CHOICE, log entry 44). -/
def State.peCurrent (s : State) (n : Fin 10) : State :=
  let w := s.peWord n
  if peIllegal w ≠ 0 then s.peError n (peIllegal w)
  else
    let s := s.eng n fun e => { e with cur := true, slot := if peOp w = 9 then none else e.slot }
    if peTmode w = 0 then s
    else if s.on (PINENG.E_STAT_STALE n) then
      (s.setBase n s.mt).eng n fun e => { e with inst := some s.mt, late := true, stale := true }
    else
      match s.class32 (s.peInstant n w) with
      | some t =>
        (if peTmode w ≠ 3 && !s.due t then s.set (PINENG.E_STAT_WAIT n) 1 else s).eng n fun e => { e with inst := some t }
      | none => s.eng n fun e => { e with inst := some s.mt, late := true }

/-- The present tick is a step boundary of the engine (R122). (DEDUCED, log entry 40). -/
def State.atBoundary (s : State) (n : Fin 10) : Bool := (s.tick - s.engines[n].stepRef) % s.peDiv n == 0

/-- After the tick in which the preceding instruction completed the one at PC becomes current: an AT or AT_KEEP instruction in the
next tick, a NOW or BY instruction at the first step boundary (R122 to R124). (DEDUCED, log entry 40). -/
def State.peBegin (s : State) (n : Fin 10) : State :=
  let tm := peTmode (s.peWord n)
  if s.get (PINENG.E_STAT_ESTATE n) == 2 && !s.engines[n].cur && decide (s.engines[n].next ≤ s.tick) &&
      (tm == 1 || tm == 2 || s.atBoundary n) then s.peCurrent n
  else s

/-- PC goes to `pc`, which must lie in RANGE (R129). -/
def State.peGoto (s : State) (n : Fin 10) (pc : Nat) : State :=
  if decide (s.get (PINENG.E_RANGE_START n) ≤ pc) && decide (pc ≤ s.get (PINENG.E_RANGE_END n)) then
    (s.set (PINENG.E_STAT_PC n) pc).peFresh n
  else s.peError n 3

/-- An instruction completes in this tick (R122) and the engine goes on at `pc`. -/
def State.peDone (s : State) (n : Fin 10) (pc : Nat) : State :=
  (s.eng n fun e => { e with next := s.tick + 1 }).peGoto n pc

/-- The address after the current one. (DEDUCED, log entry 46). -/
def State.peNext (s : State) (n : Nat) : Nat := s.get (PINENG.E_STAT_PC n) + 1

/-- LATE and LATE_CNT (R125). -/
def State.peLate (s : State) (n : Nat) : State :=
  (s.set (PINENG.E_STAT_LATE n) 1).count (PINENG.E_LATE_CNT_COUNT n) (PINENG.E_LATE_CNT_OVF n)

/-! ### FIFOs (R133) -/

/-- The FIFO levels shown in FIFO_STAT. -/
def State.peLevels (s : State) (n : Fin 10) : State :=
  (s.set (PINENG.E_FIFO_STAT_RX_LVL n) s.engines[n].rx.length).set (PINENG.E_FIFO_STAT_TX_LVL n) s.engines[n].tx.length

/-- A word that found the RX FIFO full is remembered for the rest of the tick, with RX_OVR as it was before (R133). -/
def State.rxMiss (s : State) (n : Fin 10) (w : Nat) : State :=
  let cnt := s.get (PINENG.E_RX_OVR_COUNT n)
  let ovf := s.get (PINENG.E_RX_OVR_OVF n)
  s.eng n fun e => { e with rxLost := match e.rxLost with
    | some l => if l.tick = s.tick then some { l with words := l.words ++ [w] } else some ⟨s.tick, [w], cnt, ovf⟩
    | none => some ⟨s.tick, [w], cnt, ovf⟩ }

/-- A word put into the RX FIFO as a PUSH with STALL = 0 does (R128): into a full FIFO it goes nowhere, C := 0 and RX_OVR
counts; success sets C := 1. (DEDUCED, log entry 42). -/
def State.pushRx (s : State) (n : Fin 10) (w : Nat) : State :=
  if 8 ≤ s.engines[n].rx.length then
    ((s.rxMiss n w).set (PINENG.E_STAT_C n) 0).count (PINENG.E_RX_OVR_COUNT n) (PINENG.E_RX_OVR_OVF n)
  else ((s.eng n fun e => { e with rx := e.rx ++ [(s.tick, w)] }).peLevels n).set (PINENG.E_STAT_C n) 1

/-- A word is taken from the full RX FIFO (R133): removal comes first within a tick, so the first word that found it full in this tick
goes in after all, and RX_OVR counts only the others. -/
def State.rxRemoved (s : State) (n : Fin 10) : State :=
  match s.engines[n].rxLost.filter fun l => l.tick == s.tick with
  | some ⟨_, w :: ws, cnt, ovf⟩ =>
    let s := (s.put (PINENG.E_RX_OVR_COUNT n) cnt).put (PINENG.E_RX_OVR_OVF n) ovf
    let s := ws.foldl (fun s _ => s.count (PINENG.E_RX_OVR_COUNT n) (PINENG.E_RX_OVR_OVF n)) s
    let s := (s.eng n fun e => { e with rx := e.rx ++ [(s.tick, w)], rxLost := none }).peLevels n
    if ws = [] then s.set (PINENG.E_STAT_C n) 1 else s
  | _ => s

/-- A write that found the TX FIFO full is remembered for the rest of the tick, with TX_OVR as it was before (R133). -/
def State.txMiss (s : State) (n : Fin 10) (w : Nat) : State :=
  let ovr := s.get (PINENG.E_STAT_TX_OVR n)
  s.eng n fun e => { e with txLost := match e.txLost with
    | some l => if l.tick = s.tick then some { l with words := l.words ++ [w] } else some ⟨s.tick, [w], ovr, 0⟩
    | none => some ⟨s.tick, [w], ovr, 0⟩ }

/-- A word is taken from the full TX FIFO (R133): the first write that found it full in this tick goes in after all. -/
def State.txRemoved (s : State) (n : Fin 10) : State :=
  match s.engines[n].txLost.filter fun l => l.tick == s.tick with
  | some ⟨_, w :: ws, ovr, _⟩ =>
    let s := if ws = [] then s.put (PINENG.E_STAT_TX_OVR n) ovr else s
    (s.eng n fun e => { e with tx := e.tx ++ [(s.tick, w)], txLost := none }).peLevels n
  | _ => s

/-! ### The release at SYNC (R131) -/

/-- The lowest pending slot that SLOTS selects. -/
def State.slotFor (s : State) (n : Fin 10) (slots : Nat) : Option SlotTrig :=
  (List.range 8).findSome? fun k =>
    if getBit slots k && s.bit (PINENG.E_FIFO_STAT_SLOT_PEND n) k then s.engines[n].trigs.find? (fun t => t.slot == k) else none

/-- The first address of slot `k` of lane n's action table (R67). -/
def slotAddr (n k : Nat) : Nat := 0x2403C000 + n * 0x600 + k * 0xC0

/-- The engine takes a pending slot (R131): the pending bit clears, BASE is the trigger's instant, PC the slot's ENTRY.
(DESIGN CHOICE, log entry 44). -/
def State.slotTake (s : State) (n : Fin 10) (t : SlotTrig) : State :=
  let h := s.mem? (slotAddr n t.slot) 4
  let s := s.setBit (PINENG.E_FIFO_STAT_SLOT_PEND n) t.slot false
  let s := s.eng n fun e => { e with
    trigs := e.trigs.filter (fun x => x.slot != t.slot), slot := some t.slot, slotNext := 1, slotLeft := min (bits h 15 10) 47 }
  (s.setBase n t.inst).peDone n (bits h 8 0)

/-- A BY instruction that was classified past, or whose deadline's tick is over, can only be abandoned (R124, R125). -/
def State.byOver (s : State) (n : Fin 10) (w : Nat) : Bool :=
  peTmode w == 3 && (s.engines[n].late || match s.engines[n].inst with
    | some t => decide (t + 4 ≤ s.mt)
    | none => false)

/-- The first word of the TX FIFO: a word written in the present tick is not yet there (R133). -/
def State.txHead (s : State) (n : Fin 10) : Option Nat :=
  match s.engines[n].tx with
  | (k, x) :: _ => if k < s.tick then some x else none
  | [] => none

/-- A completed BY instruction (R124): TO := 0 and BASE := MT of the completion tick. (DEDUCED, log entry 43). -/
def State.byDone (s : State) (n : Fin 10) (w : Nat) : State :=
  if peTmode w = 3 then (s.set (PINENG.E_STAT_TO n) 0).setBase n s.mt else s

/-- An engine that waits at a SYNC with SRC 1 takes a pending slot that SLOTS selects (R131). (DEDUCED, log entry 46). -/
def State.syncTake (s : State) (n : Fin 10) : State :=
  let w := s.peWord n
  if s.engines[n].wait == .sync && peSrc w == 1 && !s.byOver n w then
    match s.slotFor n (peSlots w) with
    | some t => (if peTmode w = 3 then s.set (PINENG.E_STAT_TO n) 0 else s).slotTake n t
    | none => s
  else s

/-- MAP_CONFLICT shows the pins that drive nothing (R119). -/
def State.showConflict (s : State) : State := s.set PINENG.MAP_CONFLICT_CONFLICT s.mapConflict

/-- The end of the last bit of a SHIFT: PIN_C goes low (R128). -/
def State.endClock (s : State) (n : Fin 10) : State :=
  match s.engines[n].clkEnd with
  | some j => s.eng n fun e => { e with stored := Machine.setBit e.stored j false, clkEnd := none }
  | none => s

/-- A receiving SHIFT samples PIN_D at mid-bit (R128). -/
def State.midBit (s : State) (n : Fin 10) : State :=
  match s.engines[n].wait with
  | .shift t =>
    let w := s.peWord n
    let d := s.peDiv n
    if peDirIn w && (s.tick - t) % (2 * d) == d then
      let b := s.pinBall n (pePinD w)
      let sure := decide (60 ≤ b) || (getBit s.drives.mask2 b && !getBit s.drives.board b)
      s.eng n fun e => { e with mids := e.mids ++ [(s.ballRead b, sure)] }
    else s
  | _ => s

/-- What the engines do at a timebase tick by themselves (R122). (DEDUCED, log entry 40). -/
def State.tickEngines (s : State) : State :=
  (List.finRange 10).foldl (fun s n => ((s.endClock n).midBit n).peBegin n) s.showConflict

end Sys2Proof.Machine
end

