-- ==== Sys2Proof/Machine/Player.lean ====
section
/-!
DEFINITION. The segment record (R68, R69) and the segment player (R86 to R88): which record is current, the commanded
position, and the actions of records that have played (R71, R131).
-/
namespace Sys2Proof.Machine

/-- A segment record (R68), its fields decoded. -/
structure Seg where
  start : Nat
  actEnd : Bool
  cont : Bool
  rel : Bool
  kind : Nat
  segevt : Nat
  slot : Nat
  dur : Nat
  c0 : Int
  c1 : Int
  c2 : Int
  c3 : Int
  /-- The reserved bits, 0 in a well-formed record. -/
  reserved : Nat
  crc : Nat
  deriving DecidableEq, Repr

/-- A record from its 32 bytes (R68). -/
def Seg.ofBytes (b : List Byte) : Seg :=
  let f := field b 5 1
  let m := field b 6 2
  { start := field b 0 5, actEnd := getBit f 5, cont := getBit f 4, rel := getBit f 3, kind := bits f 2 0
    segevt := bits m 11 8, slot := bits m 7 0, dur := field b 8 4
    c0 := sgn 32 (field b 12 4), c1 := sgn 32 (field b 16 4), c2 := sgn 32 (field b 20 4), c3 := sgn 32 (field b 24 4)
    reserved := bits f 7 6 + bits m 15 12 + field b 28 2, crc := field b 30 2 }

/-- The end position of a record that started at P0 (R69): C1, C2 and C3 are 0 for DWELL and HOLD. -/
def Seg.endPos (r : Seg) (p0 : Nat) : Nat :=
  if r.kind = 0 then wrap 32 ((p0 : Int) + r.c1 + r.c2 + r.c3) else p0

/-- The commanded position of a record `dt` ns after its START (R86). -/
def Seg.posAt (r : Seg) (p0 dt : Nat) : Nat :=
  if r.kind = 0 then
    if dt < r.dur then
      let u : Int := (dt * 2 ^ 24 / r.dur : Nat)
      wrap 32 ((p0 : Int) + (r.c1 * u * 2 ^ 48 + r.c2 * u ^ 2 * 2 ^ 24 + r.c3 * u ^ 3) / 2 ^ 72)
    else r.endPos p0
  else p0

/-- The first address of physical bank `k` of lane n (R35). -/
def bankBase (n : Nat) (k : Nat) : Nat := 0x24000000 + n * 0x6000 + k * 0x3000

/-- The physical banks that are front and back (R67, BSTAT.FRONT_PHYS). -/
def State.frontPhys (s : State) (n : Nat) : Nat := s.get (SCHEDLD.L_BSTAT_FRONT_PHYS n)
def State.backPhys (s : State) (n : Nat) : Nat := 1 - s.get (SCHEDLD.L_BSTAT_FRONT_PHYS n)

/-- Record `i` of physical bank `k` of lane n. -/
def State.seg (s : State) (n k i : Nat) : Seg := Seg.ofBytes (s.bytes (bankBase n k + i * 32) 32)

/-- The record the lane's player is at, in the front bank. -/
def State.curSeg (s : State) (n : Fin 10) : Seg := s.seg n (s.frontPhys n) s.lanes[n].cur

/-- The position held when the next record starts: the end position of the last, the measured one after a COAST (R69, R87,
R88). -/
def State.basePos (s : State) (n : Fin 10) : Nat :=
  let l := s.lanes[n]
  if l.coasting then s.get (LANE.POS_CMD_P n)
  else if l.holding then l.held
  else (s.curSeg n).endPos l.p0

/-- Record `i` of the front bank starts at its full START instant (R71, R87): it counts as played, and its actions await
their instant. -/
def State.startSeg (s : State) (n : Fin 10) (i full : Nat) : State :=
  let r := s.seg n (s.frontPhys n) i
  let base := s.basePos n
  let next := if r.kind = 4 ∨ 383 ≤ i then none
    else some (i + 1, (s.stamp40 (s.seg n (s.frontPhys n) (i + 1)).start).1)
  let act : List SegAct := if r.slot = 0 ∧ r.segevt = 0 then []
    else [⟨if r.actEnd then full + r.dur else full, r.slot, r.segevt⟩]
  let s := s.lane n fun l => { l with
    cur := i, curS := full, started := true, nxt := next, acts := l.acts ++ act
    p0 := if r.kind = 0 ∨ r.kind = 1 ∨ r.kind = 2 then (if r.rel then base else wrap 32 r.c0) else base
    holding := r.kind == 4, held := base
    coasting := if r.kind = 3 then true else if r.kind = 4 then l.coasting else false }
  let s := (s.set (LANE.STAT_REC_INDEX n) i).set (LANE.STAT_KIND n) r.kind
  if r.kind = 4 then (s.set (LANE.STAT_ENDED n) 1).set (LANE.IRQ_STAT_ENDED n) 1 else s

/-- Records whose START is at or before `t` start, at most `k` of them. -/
def State.advanceN (n : Fin 10) (t : Nat) : Nat → State → State
  | 0, s => s
  | k + 1, s =>
    match s.lanes[n].nxt with
    | some (i, full) => if full ≤ t then State.advanceN n t k (s.startSeg n i full) else s
    | none => s

/-- The player up to the instant `t` (R87): only while the lane plays a schedule and is not suspended. -/
def State.advance (s : State) (n : Fin 10) (t : Nat) : State :=
  if s.lanes[n].playing && s.get (LANE.STAT_LSTATE n) == 3 then State.advanceN n t 384 s else s

/-- A record is current at `t` (R87): from its START until START + DURATION, a HOLD of duration 0 until the next START. -/
def State.inSeg (s : State) (n : Fin 10) (t : Nat) : Bool :=
  let l := s.lanes[n]
  let r := s.curSeg n
  l.playing && l.started && r.kind != 4 &&
    (decide (t < l.curS + r.dur) || (r.kind == 2 && r.dur == 0 && l.nxt.isSome))

/-- The record that is current at the switch instant, in the schedule the lane plays, is a TRAJ (R79). -/
def State.inTraj (s : State) (n : Fin 10) : Bool :=
  s.inSeg n s.sched[n].armS && (s.curSeg n).kind == 0

/-- The commanded position at `t` (R86, R87), the lane not coasting. (DEDUCED, log entry 29). -/
def State.cmdPos (s : State) (n : Fin 10) (t : Nat) : Nat :=
  let l := s.lanes[n]
  if l.holding then l.held else (s.curSeg n).posAt l.p0 (t - l.curS)

/-! ### The loss of time (R53) -/

/-- A lane that plays a schedule suspends when TIME_VALID falls (R53, R101); its current segment still plays to its end.
(DEDUCED, log entry 106). -/
def State.loseTime (s : State) (n : Fin 10) : State :=
  if s.get (LANE.STAT_LSTATE n) = 3 && s.lanes[n].playing then (s.advance n s.mt).timeLost n else s

/-- A gated MT_SYNC_OUT pulse in progress ends as TIME_VALID falls (R61). -/
def State.syncoutCut (s : State) : State :=
  match s.tm.syncoutFall with
  | some t =>
    if s.on MTIME.OUT_CTRL_SYNCOUT_GATE && decide (4 * s.tick < t) then
      ({ s with tm := { s.tm with syncoutFall := none } } : State).emit .syncLow
    else s
  | none => s

/-- TIME_VALID falls (R52, R53): VALID_FALL, gated outputs go low (R61), and every lane that plays a schedule suspends. -/
def State.timeFall (s : State) : State :=
  if !s.timeValid then s
  else
    let s := ((s.set MTIME.STATUS_TIME_VALID 0).set MTIME.STATUS_VALID_FALL 1).syncoutCut
    s.showDisc.forLanes fun n s => s.loseTime n

/-- MT is about to be moved (R53): a lane suspended by the loss of time that has not reached the end of its segment holds the
commanded position of its last tick, another the end position. (DEDUCED, log entry 106). -/
def State.timeHold (s : State) (n : Fin 10) : State :=
  if s.get (LANE.STAT_LSTATE n) = 4 && s.lanes[n].act == 0 then
    let p := if s.inSeg n s.mt then s.get (LANE.POS_CMD_P n) else s.basePos n
    s.lane n fun l => { l with held := p, holding := true, started := false }
  else s

/-! ### Actions of records (R71, R131) -/

/-- Slot `k` of engine n becomes pending with a record's action instant (R131): only while the engine is RUNNING; a slot
already pending keeps the earlier instant. -/
def State.slotTrigger (s : State) (n : Fin 10) (k inst : Nat) : State :=
  if s.get (PINENG.E_STAT_ESTATE n) ≠ 2 then s
  else if s.bit (PINENG.E_FIFO_STAT_SLOT_PEND n) k then s.set (PINENG.E_STAT_SLOT_OVR n) 1
  else
    ((s.setBit (PINENG.E_FIFO_STAT_SLOT_PEND n) k true).eng n fun e => { e with trigs := ⟨k, inst⟩ :: e.trigs }).syncTake n

/-- The actions of one record (R71): its SLOT triggers, then its SEGEVT pulses. -/
def State.fireActs (s : State) (n : Fin 10) (a : SegAct) : State :=
  let s := (List.range 8).foldl (fun s k => if getBit a.slots k then s.slotTrigger n k a.inst else s) s
  (List.range 4).foldl (fun s j => if getBit a.evts j then s.pulse (0x18 + 4 * n + j) 1 else s) s

end Sys2Proof.Machine
end

