-- ==== Sys2Proof/Machine/Sectors.lean ====
section
/-!
DEFINITION. The record store's sectors as their bytes spell them (13_memories.md, R265, R266, R268, R273), the erasure of flash and
record store, and the life-cycle fuses, which outlast every reset (14_management_trust.md, R286 to R288).
-/
namespace Sys2Proof.Machine

/-! ### Sectors (R265, R266, R268, R273) -/

/-- The word at a store offset. -/
def State.recWord (s : State) (o : Nat) : Nat := s.mem? (recAddr o) 4

/-- The roles of R266. -/
inductive Role where
  | log | raw | data
  deriving DecidableEq, Repr

/-- The role of a sector. -/
def State.role (s : State) (k : Nat) : Role :=
  if s.bit RECSTORE.LOG_MASK_MASK k then .log else if s.bit RECSTORE.RAW_MASK_MASK k then .raw else .data

/-- What mounting makes of a DATA sector (R273); `opened` with its SSEQ. -/
inductive SecClass where
  | erased | opened (sseq : Nat) | dirty
  deriving DecidableEq, Repr

/-- A DATA sector's class by its header (R268, R273). -/
def State.classify (s : State) (k : Nat) : SecClass :=
  let o := secOff k
  let w2 := s.recWord (o + 8)
  if s.recWord o = 0x53525351 ∧ s.recWord (o + 4) / 2 ^ 24 = 0xFF then
    if w2 = 0xFFFFFFFF then .erased else if w2 / 2 ^ 16 = 0xFFFF then .opened (w2 % 65536) else .dirty
  else if (s.bytes (recAddr o) 2048).all (· == 0xFF) then .erased
  else .dirty

/-- The class in force: a sector of DIRTY_MASK is DIRTY until it is erased. -/
def State.secClass (s : State) (k : Nat) : SecClass :=
  if s.bit RECSTORE.DIRTY_MASK_DIRTY k then .dirty else s.classify k

/-- The DATA sectors, ascending. -/
def State.dataSectors (s : State) : List Nat := (List.range 32).filter fun k => s.role k == .data

/-- ERASES after one more erase (R268): unknown stays unknown, and after an erase that did not complete the count is lost.
(DEDUCED, log entry 86). -/
def State.erasesAfter (s : State) (k : Nat) : Nat :=
  if s.secClass k = .dirty then 0x0FFFFF
  else if s.recWord (secOff k) ≠ 0x53525351 then 0xFFFFFF
  else
    let e := s.recWord (secOff k + 4) % 2 ^ 24
    if 0xFFFFFE ≤ e then e else e + 1

/-- The acts of an erase; a DATA sector gets its header (R268). -/
def State.eraseActs (s : State) (k : Nat) : List RecAct :=
  .erase k :: (if s.role k = .data then
    [.word (secOff k) 0x53525351, .word (secOff k + 4) (0xFF000000 + s.erasesAfter k)] else [])

/-! ### Erasure and fuses (R283, R286 to R288) -/

/-- MCACHE_VALID := 0 (R283). -/
def State.dropMcache (s : State) : State := s.set VAULTCTL.STAT_MCACHE_VALID 0

/-- Every record-store sector is erased (R287). -/
def State.eraseStore (s : State) : State :=
  let s := (List.range 32).foldl (fun s k => s.recActs (s.eraseActs k)) s
  { s with rs := { s.rs with cur := none, queued := none, group := none, closed := 0 } }

/-- The entry into Returned erases both slots, the boot configuration and the record store (R286, R287). -/
def State.eraseForReturn (s : State) : State := ((s.eraseRange 0x08000000 0x210000).dropMcache).eraseStore

/-- The life-cycle state (R288): the highest that at least two of the three fuse copies reach. -/
def State.lifeCycle (s : State) : Nat :=
  max (min s.sc.fuse1 s.sc.fuse2) (max (min s.sc.fuse1 s.sc.fuse3) (min s.sc.fuse2 s.sc.fuse3))

/-- The scopes that are open (R286, R290). -/
def State.openScopes (s : State) : Nat :=
  match s.lifeCycle with
  | 0 => 7
  | 1 => 3
  | 4 => 0
  | _ => s.sc.scopes

/-- The first `n` copies of a state's fuses are burned, and the private key with them where `key` says so (R286, R287). -/
def State.burnFuses (s : State) (t n : Nat) (key : Bool) : State :=
  { s with sc := { s.sc with
    fuse1 := if 1 ≤ n then max s.sc.fuse1 t else s.sc.fuse1
    fuse2 := if 2 ≤ n then max s.sc.fuse2 t else s.sc.fuse2
    fuse3 := if 3 ≤ n then max s.sc.fuse3 t else s.sc.fuse3
    keyBurned := s.sc.keyBurned || key } }

/-- A slot's first address (R332). -/
def slotBase (k : Nat) : Nat := 0x08000000 + k * 0x100000

/-- The slot that is not running, to which downloads go (R335, R341). (DEDUCED, log entry 90). -/
def State.inactive (s : State) : Nat := if s.boot.recovery then s.boot.dlSlot else 1 - s.boot.slot

/-- The erasure of a download's slot is cut off (R336): the slot holds undefined bytes. (DEDUCED, log entry 94). -/
def State.cutErase (s : State) : State := if s.dl.st = 1 then s.garble (slotBase s.inactive) 0x100000 else s

/-- A life-cycle change is cut off by a reset or a loss of power (R288). While its wipe runs, it has done no more than that. Then, at
an undefined point, the erasure for Returned has not begun, has stopped half-way, or is done, and after it none, one, two or three
copies are burned, the private key perhaps with the third. (DEDUCED, log entry 95). -/
def State.cutChange (s : State) : State :=
  match s.sc.lcTarget with
  | none => s
  | some t =>
    let s : State := { s with sc := { s.sc with lcTarget := none, lcReq := none } }
    if s.on VAULTCTL.STAT_WIPING then s
    else
      let x := s.fresh.1
      let s := s.fresh.2
      let n := x % 4
      let key := t == 4 && n == 3 && x / 16 % 2 == 1
      if t ≠ 3 then s.burnFuses t n key
      else match x / 4 % 4 with
        | 0 => s
        | 1 => (List.range 32).foldl (fun s k => s.halfErased k) ((s.garble 0x08000000 0x210000).dropMcache)
        | _ => s.eraseForReturn.burnFuses t n key

end Sys2Proof.Machine
end

