-- ==== Sys2Proof/Machine/MachineTime.lean ====
section
/-!
DEFINITION. Machine time (02_machine_time.md): the follower servo, its states, link delays, holdover, MT_SYNC_IN and
MT_SYNC_OUT, the compare channels, the calendar copy, and what the passing timebase ticks do to them.
-/
namespace Sys2Proof.Machine

/-! ### Shared operations -/

/-- STATUS.STATE set; STATE_CHG when it changes (R51). -/
def State.setSync (s : State) (st : Nat) : State :=
  if s.get MTIME.STATUS_STATE = st then s
  else (s.set MTIME.STATUS_STATE st).set MTIME.STATUS_STATE_CHG 1

/-- A step is called for (R51, R52): `v` is what MT reads at the arrival instant `t`. It is applied at the first tick that
begins at least 40 ns after `t`. -/
def State.callStep (s : State) (v t : Nat) : State :=
  { s with tm := { s.tm with stepNext := some (s.tickAfter t 40, (v : Int) - (t : Int)) } }

/-- What the arrival instant is to read: T_m + D_path rounded to the nearest ns, an exact half up (R51). -/
def arrivalReads (tm dpath : Nat) : Nat := (16 * tm + dpath + 8) / 16

/-- The phase error e in 1/16 ns, saturated to 32 bits (R50). -/
def phaseError (tm dpath tArr : Nat) : Int := satI 32 ((16 * tm + dpath : Nat) - (16 * tArr : Nat) : Int)

/-- The servo's arithmetic (R50) with tracking gains or acquire gains; the new F takes effect 40 ns after `tArr`. -/
def State.servoUpdate (s : State) (track : Bool) (e : Int) (tArr : Nat) : State :=
  let tc : Int := (s.get RINGCTL.CYCLE_CUR_TC * 1000 : Nat)
  let kp : Int := (s.get (if track then MTIME.GAIN_TRK_KP else MTIME.GAIN_ACQ_KP) : Nat)
  let ki : Int := (s.get (if track then MTIME.GAIN_TRK_KI else MTIME.GAIN_ACQ_KI) : Nat)
  let lim : Int := (s.get MTIME.PULL_LIM_LIM : Nat)
  let ef := e * 2 ^ 28 / tc
  let i := clampI (s.getI MTIME.SERVO_INT_I + asr (ki * ef) 16) lim
  let f := clampI (i + asr (kp * ef) 16) lim
  let s := (s.setI MTIME.SERVO_ERR_E e).setI MTIME.SERVO_INT_I i
  { s with tm := { s.tm with fNext := some (s.tickAfter tArr 40, wrap 32 f) } }

/-- TIME_VALID becomes 1; gated outputs resume with the first pattern instant from here on (R51, R61). -/
def State.timeRise (s : State) : State :=
  let s : State := { s with tm := { s.tm with validAt := if s.timeValid then s.tm.validAt else s.mt } }
  (s.set MTIME.STATUS_TIME_VALID 1).showDisc

/-- The timebase runs and MT counts, but in UNLOCKED (R45, R47, R55): in Torpor and deeper steps the timebase PLL is off. -/
def State.mtRuns (s : State) : Bool :=
  match s.pwr.step with
  | .run | .hover | .rest => true
  | _ => false

/-- The present tick's start plus `t` − MT, in ns of the timebase. -/
def State.timebaseNs (s : State) (t : Nat) : Nat := 4 * s.tick + t - s.mt

/-- F := I at once (R51). -/
def State.freqHold (s : State) : State :=
  let s := s.set MTIME.SERVO_FREQ_F (s.get MTIME.SERVO_INT_I)
  { s with tm := { s.tm with fNext := none } }

/-- The follower takes an accepted Cycle Start (R49 to R53): master's stamp `tm`, path delay `dpath` in 1/16 ns, arrival
stamp `tArr`. -/
def State.servoAccept (s : State) (tm dpath tArr : Nat) : State :=
  let s := s.set MTIME.PATH_DELAY_D_PATH dpath
  let s := { s with tm := { s.tm with tLast := some tArr, missed := false } }
  let e := phaseError tm dpath tArr
  let v := arrivalReads tm dpath
  let far := decide ((16 * s.get MTIME.STEP_THR_THR : Nat) < e.natAbs) && s.on MTIME.CTRL_STEP_EN
  match s.get MTIME.STATUS_STATE with
  | 0 => ((s.callStep v tArr).set MTIME.STATUS_GOOD_CNT 0).setSync 1
  | 1 =>
    if far then (s.callStep v tArr).set MTIME.STATUS_GOOD_CNT 0
    else if e.natAbs < 320 then
      let s := s.servoUpdate false e tArr
      let g := s.get MTIME.STATUS_GOOD_CNT + 1
      let s := s.set MTIME.STATUS_GOOD_CNT (min g 64)
      if 64 ≤ g then (s.setSync 2).timeRise else s
    else (s.servoUpdate false e tArr).set MTIME.STATUS_GOOD_CNT 0
  | 2 =>
    if e.natAbs < 4000 then s.servoUpdate true e tArr
    else (((s.servoUpdate true e tArr).set MTIME.STATUS_GOOD_CNT 0).setSync 1).timeFall
  | 3 =>
    if e.natAbs < 4000 then ((s.servoUpdate true e tArr).setSync 2).timeRise
    else
      let s := if far then s.callStep v tArr else s.servoUpdate false e tArr
      ((s.set MTIME.STATUS_GOOD_CNT 0).setSync 1).timeFall
  | _ => s

/-- The MT that half periods later than the last Cycle Start makes Missed (R51): 2.5 × CUR_TC × 1,000 ns. -/
def State.missedAt (s : State) (t : Nat) : Nat := t + 2500 * s.get RINGCTL.CYCLE_CUR_TC

/-- A compare channel fires (R66). -/
def State.fireCmp (s : State) (c : Nat) (late : Bool) : State :=
  let s := s.setBit MTIME.CMP_STAT_FIRED c true
  let s := if late then s.setBit MTIME.CMP_STAT_LATE c true else s
  (s.setBit MTIME.CMP_STAT_ARMED c false).pulse (1 + c) 1

/-- The instant that compare channel `c` was armed with (R66). -/
def State.cmpInst (s : State) (c : Nat) : Nat := s.tm.cmp.getD c 0

/-- The first pattern instant at or after `t` of the pattern that starts at `start` with period `p` (R59). -/
def patternFrom (start p t : Nat) : Nat :=
  if t ≤ start ∨ p = 0 then start else start + (t - start + p - 1) / p * p

/-- The armed MT_SYNC_OUT pattern goes on with its first instant at or after `t` (R59, R61). A PERIOD written while a pattern is
armed holds for the instants after the one that stands. (DESIGN CHOICE, log entry 26). -/
def State.syncoutFrom (s : State) (t : Nat) : State :=
  { s with tm := { s.tm with
      syncoutNext := s.tm.syncoutNext.map fun _ => patternFrom s.tm.syncoutBase (s.get MTIME.SYNCOUT_PERIOD_PERIOD) t } }

/-- MT is moved to `m` (R45, R53, R61, R66, R85), on the tick grid: STEP_FLAG; ADCSEQ loses alignment; a lane suspended by the
loss of time holds at once; compare channels that are passed fire late; MT_SYNC_OUT moves with MT. (DEDUCED, log entry 24). -/
def State.moveMt (s : State) (m : Nat) : State :=
  let s := s.forLanes fun n s => s.timeHold n
  let w := s.endWindow
  let s : State := { w with mt := m - m % 4, rtc := { w.rtc with edgeMt := w.rtc.edgeMt + (m - m % 4) - s.mt } }
  let s := (s.set MTIME.STATUS_STEP_FLAG 1).set ADCSEQ.STAT_ALIGNED 0
  let s := [0, 1, 2, 3].foldl (fun s c =>
    if s.bit MTIME.CMP_STAT_ARMED c && decide (s.cmpInst c < s.mt) then s.fireCmp c true else s) s
  s.syncoutFrom s.mt

/-- The servo's step: MT moves by `d` ns (R52), and the last arrival then reads its stepped stamp (R51); DIAG_STEP.
(DEDUCED, log entry 23). -/
def State.applyStep (s : State) (d : Int) : State :=
  let s : State := { s with tm := { s.tm with tLast := s.tm.tLast.map fun t => ((t : Int) + d).toNat } }
  (s.moveMt (((s.mt : Int) + d).toNat % 2 ^ 64)).count MTIME.DIAG_STEP_COUNT MTIME.DIAG_STEP_OVF

/-- The restore of R55 on exit from Torpor: saved MT and slow-clock periods; the state becomes ACQUIRE and TIME_VALID 0, but in
UNLOCKED MT stays frozen (R47). (DEDUCED, log entry 25; DEDUCED, log entry 69). -/
def State.restoreMt (s : State) (saved : Nat × Nat) : State :=
  if s.get MTIME.STATUS_STATE = 0 then s
  else
    let s := ((s.set MTIME.STATUS_GOOD_CNT 0).setSync 1).timeFall
    let s : State := { s with tm := { s.tm with tLast := none, missed := false, fNext := none, stepNext := none } }
    s.moveMt ((saved.1 + (s.slow - saved.2) * 1000000000 / 32768) % 2 ^ 64)

/-- Everything waiting for a timebase tick: F in force (R50), a step (R52). -/
def State.tickTime (s : State) : State :=
  let s := match s.tm.fNext with
    | some (k, f) => if k ≤ s.tick then { s.set MTIME.SERVO_FREQ_F f with tm := { s.tm with fNext := none } } else s
    | none => s
  match s.tm.stepNext with
  | some (k, d) => if k ≤ s.tick then ({ s with tm := { s.tm with stepNext := none } } : State).applyStep d else s
  | none => s

/-- An edge of the 32.768 kHz clock: the slow clock, SUBSEC and the trim accumulator go on (R241, R248). -/
def State.tickSlow (s : State) : State :=
  { s with slow := s.slow + 1,
           rtc := { s.rtc with sub := if s.rtc.skip = 0 then s.rtc.sub + 1 else s.rtc.sub, skip := s.rtc.skip - 1, acc := s.rtc.acc + s.getI RTC.TRIM_TRIM } }

/-- The debugger may halt the application core while scope 0 is open (R289, R304). (DESIGN CHOICE, log entry 16). -/
def State.noteHalt (s : State) : State :=
  { s with sc := { s.sc with coreHalted := getBit s.openScopes 0 && Config.coreHalted s.tick } }

/-- A millisecond of the timebase: the trial's time and the watchdog's count go down (R304, R339). -/
def State.tickMs (s : State) : State :=
  let s := if s.onTrial then s.set RSTCTL.HEALTH_REMAIN (s.get RSTCTL.HEALTH_REMAIN - 1) else s
  let s := s.noteHalt
  if s.on MBOX.WDOG_CTRL_EN && s.domOn .mgt && s.pwr.entry.isNone && !s.sc.coreHalted then
    s.set MBOX.WDOG_STAT_REMAIN (s.get MBOX.WDOG_STAT_REMAIN - 1)
  else s

/-! ### The commands -/

/-- CYCLE_START_MISSED (R51): the node's MT reaches T_last + 2.5 × CUR_TC × 1,000 ns. A servo whose domain is not On waits for its
clock (R38). (DEDUCED, log entry 23). -/
def execCycleStartMissed (s : State) : Ans :=
  match s.tm.tLast with
  | none => .next s
  | some t =>
    if s.tm.missed || !s.due (s.missedAt t) || !s.domOn .sys then .next s
    else
      let s' : State := { s with tm := { s.tm with missed := true } }
      match s.get MTIME.STATUS_STATE with
      | 1 => .next ((s'.set MTIME.STATUS_GOOD_CNT 0).freqHold)
      | 2 => .next { (s'.freqHold).setSync 3 with tm := { (s'.freqHold).tm with hoEntry := s.mt, hoExpired := false } }
      | _ => .next s'

/-- HOLDOVER_EXPIRY (R54): LIMIT_MS × 1,000,000 ns of MT have passed since the entry into HOLDOVER. -/
def execHoldoverExpiry (s : State) : Ans :=
  if s.get MTIME.STATUS_STATE = 3 && s.domOn .sys && !s.tm.hoExpired &&
      s.due (s.tm.hoEntry + s.get MTIME.HOLDOVER_LIM_LIMIT_MS * 1000000) then
    .next (({ s with tm := { s.tm with hoExpired := true } } : State).timeFall.count
      MTIME.DIAG_HOLDOVER_COUNT MTIME.DIAG_HOLDOVER_OVF)
  else .next s

/-- SERVO_RESTART (R51): CTRL.SERVO_RESTART written 1; ignored in UNLOCKED and MASTER. -/
def State.servoRestart (s : State) : State :=
  let st := s.get MTIME.STATUS_STATE
  if st = 1 ∨ st = 2 ∨ st = 3 then ((s.set MTIME.STATUS_GOOD_CNT 0).setSync 1).timeFall else s

def execServoRestart (s : State) : Ans := s.busDo MTIME.CTRL State.servoRestart

/-- A signed field clamped to ±`l` (R50). -/
def State.clampField (s : State) (f : RF) (l : Nat) : State := s.setI f (clampI (s.getI f) l)

/-- PULL_LIM_WRITE (R50): LIM, itself clamped, bounds I, F and MASTER_TRIM in the tick of the write. -/
def execPullLimWrite (v : Word) (s : State) : Ans :=
  s.busDo MTIME.PULL_LIM fun s =>
    let l := min (bits v.toNat 21 0) 0x0D1B71
    let s := s.set MTIME.PULL_LIM_LIM l
    let s := ((s.clampField MTIME.SERVO_INT_I l).clampField MTIME.SERVO_FREQ_F l).clampField MTIME.MASTER_TRIM_TRIM l
    { s with tm := { s.tm with fNext := s.tm.fNext.map fun p => (p.1, wrap 32 (clampI (sgn 32 p.2) l)) } }

/-- The link-delay samples held by a port and its registers (R48): port A is 0, port B is 1. -/
def State.samples (s : State) (p : Fin 2) : List Int := if p = 0 then s.tm.samplesA else s.tm.samplesB

/-- The mean of the samples plus the asymmetry, in 1/16 ns (R48). -/
def linkDelay (qs : List Int) (asym : Int) : Int := asr (qs.foldl (· + ·) 0 + 16) 5 + asym

/-- LINKDLY_x.DELAY from the samples held and ASYM_x, once there are 16 (R48). -/
def State.showDelay (s : State) (p : Fin 2) : State :=
  let qs := s.samples p
  if qs.length ≠ 16 then s
  else if p = 0 then s.setI MTIME.LINKDLY_A_DELAY (linkDelay qs (s.getI MTIME.ASYM_ASYM_A))
  else s.setI MTIME.LINKDLY_B_DELAY (linkDelay qs (s.getI MTIME.ASYM_ASYM_B))

/-- A new link-delay sample of a port (R48): the latest 16 are kept; VALID comes with the 16th.
(DESIGN CHOICE, log entry 27). -/
def State.addSample (s : State) (p : Fin 2) (q : Int) : State :=
  let qs := (q :: s.samples p).take 16
  let full := qs.length == 16
  if p = 0 then
    let s := (s.set MTIME.LINKDLY_A_SAMPLES qs.length).setF MTIME.LINKDLY_A_VALID full
    ({ s with tm := { s.tm with samplesA := qs, t1A := none } } : State).showDelay p
  else
    let s := (s.set MTIME.LINKDLY_B_SAMPLES qs.length).setF MTIME.LINKDLY_B_VALID full
    ({ s with tm := { s.tm with samplesB := qs, t1B := none } } : State).showDelay p

/-- A port that loses signal loses its samples (R48). -/
def State.dropSamples (s : State) (p : Fin 2) : State :=
  if p = 0 then
    let s := (s.set MTIME.LINKDLY_A_SAMPLES 0).set MTIME.LINKDLY_A_VALID 0
    { s with tm := { s.tm with samplesA := [], t1A := none } }
  else
    let s := (s.set MTIME.LINKDLY_B_SAMPLES 0).set MTIME.LINKDLY_B_VALID 0
    { s with tm := { s.tm with samplesB := [], t1B := none } }

/-- LINKDLY_x.VALID and LINKDLY_x.DELAY of a port. -/
def State.linkValid (s : State) (p : Fin 2) : Bool :=
  if p = 0 then s.on MTIME.LINKDLY_A_VALID else s.on MTIME.LINKDLY_B_VALID
def State.linkDly (s : State) (p : Fin 2) : Nat :=
  if p = 0 then s.get MTIME.LINKDLY_A_DELAY else s.get MTIME.LINKDLY_B_DELAY

/-- The master's steering by an accepted interval (R58). -/
def State.steer (s : State) (delta : Int) : State :=
  let p : Int := (s.get MTIME.SYNCIN_PERIOD_PERIOD : Nat)
  let ef := (p - delta) * 2 ^ 32 / p
  let ki : Int := (s.get MTIME.GAIN_TRK_KI : Nat)
  let t := clampI (s.getI MTIME.MASTER_TRIM_TRIM + asr (ki * ef) 16) (s.get MTIME.PULL_LIM_LIM : Nat)
  (s.setI MTIME.MASTER_TRIM_TRIM t).setI MTIME.SERVO_FREQ_F t

/-- The master's part of a qualifying MT_SYNC_IN edge (R58). (DEDUCED, log entry 28). -/
def State.syncinMaster (s : State) (t : Nat) : State :=
  match s.tm.syncinLast with
  | none => { s with tm := { s.tm with syncinLast := some t, syncinGood := 0 } }
  | some t0 =>
    let delta : Int := (t : Int) - (t0 : Int)
    let p := s.get MTIME.SYNCIN_PERIOD_PERIOD
    if (p / 1000 : Nat) < (delta - (p : Int)).natAbs then
      let s := (s.count MTIME.DIAG_SYNCIN_REJ_COUNT MTIME.DIAG_SYNCIN_REJ_OVF).set MTIME.STATUS_SYNCIN_LOCK 0
      { s with tm := { s.tm with syncinLast := some t, syncinGood := 0 } }
    else
      let g := s.tm.syncinGood + 1
      let s := s.steer delta
      let s := if 8 ≤ g then s.set MTIME.STATUS_SYNCIN_LOCK 1 else s
      { s with tm := { s.tm with syncinLast := some t, syncinGood := min g 8 } }

/-- MT_SYNC_IN_EDGE (R58): an edge of the input, held for 20 ns, at stamp `t` (1 ns), rising or falling; MTIME takes it only while
PD_SYS is clocked (R38). -/
def execMtSyncInEdge (t : Nat) (rising : Bool) (s : State) : Ans :=
  if rising == s.on MTIME.SYNCIN_CFG_EDGE || !s.domOn .sys then .next s
  else
    let s := (s.set MTIME.SYNCIN_CAPT_LO_CAPT (t % 2 ^ 32)).set MTIME.SYNCIN_CAPT_HI_CAPT (t / 2 ^ 32)
    let s := (s.set MTIME.STATUS_SYNCIN_EDGE 1).pulse 0x79 1
    if s.get MTIME.STATUS_STATE = 4 && s.on MTIME.SYNCIN_CFG_EN then
      .next { s.syncinMaster t with tm := { (s.syncinMaster t).tm with syncinNs := s.timebaseNs t } }
    else .next s

/-- SYNCIN_TIMEOUT (R58): two periods have passed since the last edge that steered the master, whatever the node is now.
(DEDUCED, log entry 28). -/
def execSyncinTimeout (s : State) : Ans :=
  if s.domOn .sys && decide (s.tm.syncinNs + 2 * s.get MTIME.SYNCIN_PERIOD_PERIOD < 4 * s.tick + 4) then
    .next { s.set MTIME.STATUS_SYNCIN_LOCK 0 with tm := { s.tm with syncinGood := 0 } }
  else .next s

/-- MT_READ_CAPTURE (R26, R46): a read of MT_LO captures all 64 bits of MT and returns the low half. -/
def execMtReadCapture (s : State) : Ans :=
  if s.accessible MTIME.MT_LO then
    .next { s with tm := { s.tm with shadow := s.mt / 2 ^ 32 }, bus := .ok (s.mt % 2 ^ 32) }
  else .next { s with bus := .error }

/-- A read of SYNCIN_CAPT_LO freezes SYNCIN_CAPT_HI, and a read of that releases it. -/
def execCaptRead (hi : Bool) (s : State) : Ans :=
  if !s.accessible MTIME.SYNCIN_CAPT_LO then .next { s with bus := .error }
  else if hi then
    .next { s with tm := { s.tm with captFrozen := none }, bus := .ok (s.readReg MTIME.SYNCIN_CAPT_HI) }
  else
    .next { s with tm := { s.tm with captFrozen := some (s.readReg MTIME.SYNCIN_CAPT_HI) }, bus := .ok (s.readReg MTIME.SYNCIN_CAPT_LO) }

/-- SYNCOUT_ARM (R59): a write of SYNCOUT_START_HI arms a new pattern, from at least 32 ns ahead of MT. -/
def execSyncoutArm (hi : Word) (s : State) : Ans :=
  s.busDo MTIME.SYNCOUT_START_HI fun s =>
    let s := s.set MTIME.SYNCOUT_START_HI_START hi.toNat
    let st := s.get64 MTIME.SYNCOUT_START_HI_START MTIME.SYNCOUT_START_LO_START
    { s with tm := { s.tm with
        syncoutBase := st
        syncoutNext := some (patternFrom st (s.get MTIME.SYNCOUT_PERIOD_PERIOD) (s.mt + 32)) } }

/-- MT_SYNC_OUT is driven: enabled, and not held low by its gate (R61). -/
def State.syncoutOn (s : State) : Bool :=
  s.on MTIME.OUT_CTRL_SYNCOUT_EN && (!s.on MTIME.OUT_CTRL_SYNCOUT_GATE || s.timeValid)

/-- MT_SYNC_OUT_PULSE (R59, R61): the next pattern instant; a gated output stays low while TIME_VALID is 0, and one whose domain is
not On is held low or floats (R346). (DESIGN CHOICE, log entry 26). -/
def execMtSyncOutPulse (s : State) : Ans :=
  match s.tm.syncoutNext with
  | none => .next s
  | some t =>
    if s.get MTIME.STATUS_STATE = 0 || !s.due t then .next s
    else
      let s' := s.syncoutFrom (t + 1)
      if s.syncoutOn && s.domOn .sys then
        let w := s.get MTIME.SYNCOUT_WIDTH_WIDTH
        .next (({ s' with tm := { s'.tm with
          syncoutRise := s.timebaseNs t, syncoutFall := some (s.timebaseNs t + w) } } : State).emit (.syncPulse t w))
      else .next s'

/-- CMP_ARM (R66): a write of CMPc_HI arms channel c; an instant in or before the landing tick fires late at once. -/
def execCmpArm (c : Fin 4) (hi : Word) (s : State) : Ans :=
  s.busDo (MTIME.CMP_HI c) fun s =>
    let s := s.set (MTIME.CMP_HI_CMP c) hi.toNat
    let t := s.get64 (MTIME.CMP_HI_CMP c) (MTIME.CMP_LO_CMP c)
    let s : State := { s with tm := { s.tm with cmp := s.tm.cmp.set c t } }
    if s.due t then s.fireCmp c true else s.setBit MTIME.CMP_STAT_ARMED c true

/-- CMP_DISARM (R66): 1 to DISARM[c] disarms each channel of the mask, also in the tick of its instant. -/
def execCmpDisarm (mask : BitVec 4) (s : State) : Ans :=
  s.busDo MTIME.CMP_STAT fun s =>
    s.set MTIME.CMP_STAT_ARMED (s.get MTIME.CMP_STAT_ARMED &&& (15 - mask.toNat))

/-- CMP_FIRE (R66): the tick that contains an armed channel's instant, while MT counts: in Rest too, whose wake sources name the
compare channels (R200). (DEDUCED, log entry 69). -/
def execCmpFire (c : Fin 4) (s : State) : Ans :=
  if s.bit MTIME.CMP_STAT_ARMED c && s.mtRuns && s.due (s.cmpInst c) then .next (s.fireCmp c false) else .next s

end Sys2Proof.Machine
end

