-- ==== Sys2Proof/Machine/DictOps.lean ====
section
/-!
DEFINITION. What other blocks need of DICTENG (08_dictionary.md): messages and envelopes (R172, R322), answering a request on
its transport (R174, R175), requests that arrive (R174), write-set and snapshot states (R184 to R190), and publications (R62).
-/
namespace Sys2Proof.Machine

/-! ### Messages (R172) and envelopes (R322) -/

/-- A response's 12-byte header and its data. -/
def respMsg (op tid status aux index sub : Nat) (data : List Byte) : List Byte :=
  [BitVec.ofNat 8 (op % 128 + 128), BitVec.ofNat 8 tid, 0, BitVec.ofNat 8 status, BitVec.ofNat 8 aux, 0] ++ leBytes 2 index ++
  [BitVec.ofNat 8 sub, 0] ++ leBytes 2 data.length ++ data

/-- A request's header and data, with the NODE given. -/
def reqMsg (op : Nat) (m : DictMsg) (node : Byte) : List Byte :=
  [BitVec.ofNat 8 op, m.tid, node, 0, m.aux, (if m.rsv then 1 else 0)] ++ leBytes 2 m.index.toNat ++ [m.sub, 0] ++
  leBytes 2 m.data.length ++ m.data

/-- The envelope of a message: LEN, the message, CRC-16 over both (R322). -/
def envelope (m : List Byte) : List Byte :=
  let l := leBytes 2 m.length ++ m
  l ++ leBytes 2 (crc16 l)

/-- The message of a valid envelope (R322). -/
def unenvelope (e : List Byte) : Option (List Byte) :=
  let n := field e 0 2
  if 12 ≤ n ∧ n ≤ 512 ∧ e.length = n + 4 ∧ field e (n + 2) 2 = crc16 (e.take (n + 2)) then some ((e.drop 2).take n) else none

/-- OP of a message. -/
def msgOp (l : List Byte) : Nat := field l 0 1

/-- A message but for its operation, read from its bytes (R172). -/
def msgOf (via : Via) (l : List Byte) : DictMsg :=
  { via := via, tid := BitVec.ofNat 8 (field l 1 1), node := BitVec.ofNat 8 (field l 2 1)
    rsv := field l 3 1 != 0 || field l 5 1 != 0 || field l 9 1 != 0, aux := BitVec.ofNat 8 (field l 4 1)
    index := BitVec.ofNat 16 (field l 6 2), sub := BitVec.ofNat 8 (field l 8 1), data := (l.drop 12).take (field l 10 2) }

/-- The operation is one that R173 lets a request carry: PUBLISH is sent by the device alone. -/
def opKnown (op : Nat) : Bool := [1, 2, 3, 0x10, 0x11, 0x12, 0x20, 0x21, 0x30].contains op

/-! ### Answering -/

/-- UART0's transmit levels (FIFO, TX_THR, TX_DONE). -/
def State.showTx (s : State) (n : Nat) (tx : List Nat) (busy : Bool) : State :=
  let l := min 16 tx.length
  let s := (s.set (UART.FIFO_TX_LVL n) l).setF (UART.STAT_TX_THR n) (decide (l ≤ s.get (UART.FIFO_TX_THR n)))
  s.setF (UART.STAT_TX_DONE n) (tx.isEmpty && !busy)

/-- A frame of this node to an address, or to a unique ID where that is 0 (R151, R156). -/
def State.ownFrameTo (s : State) (dest : Nat) (duid : Option Nat) (typ : Nat) (payload : List Byte) : AcyclicFrame :=
  let own := s.get RINGCTL.ADDR_ADDR
  { dest := dest, src := own, typ := typ, hops := 0, duid := if dest = 0 then duid else none
    suid := if own = 0 then some Config.uniqueId.toNat else none, payload := payload, ack := 0 }

/-- DICTENG has a frame to send, for whose return nothing waits. -/
def State.sendFrame (s : State) (f : AcyclicFrame) : State := { s with dict := { s.dict with out := s.dict.out ++ [⟨f, 0⟩] } }

/-- DICTENG has a frame to send that carries the next number. -/
def State.sendNumbered (s : State) (f : AcyclicFrame) : State :=
  { s with dict := { s.dict with out := s.dict.out ++ [⟨f, s.dict.nextId⟩], nextId := s.dict.nextId + 1 } }

/-- A message is sent back on the transport of its request (R174, R175, R322, R327; LOC_CTRL); a broadcast request receives none
(R173). -/
def State.sendBack (s : State) (via : Via) (msg : List Byte) : State :=
  match via with
  | .ring src suid => (s.emit (.resp via msg)).sendFrame (s.ownFrameTo src suid 2 msg)
  | .bcast _ => s
  | .svc =>
    let s := (((s.emit (.resp via msg)).set SVCWIRE.STAT_BUSY 0).set SVCWIRE.STAT_REQ 0).set SVCWIRE.STAT_RESP_RDY 1
    { s with svc := { s.svc with resp := some (envelope msg) } }
  | .uart0 =>
    let s := s.emit (.resp via msg)
    let tx := s.uart0.tx ++ (0x7E :: (envelope msg).map (·.toNat))
    ({ s with uart0 := { s.uart0 with tx := tx } } : State).showTx 0 tx s.uart0.shift.isSome
  | .loc =>
    let s := (s.emit (.resp via msg)).pokes (s.get DICTENG.LOC_BUF_BUF * 4) msg
    let s := ((s.set DICTENG.LOC_CTRL_DONE 1).set DICTENG.STAT_LOC_BUSY 0).set DICTENG.IRQ_STAT_LOC_DONE 1
    { s with dict := { s.dict with loc := none } }
  | .tap => s.emit (.resp via msg)

/-- A request ends with a status and data (R174, R176): counted as executed, and as refused where it is, and answered. -/
def State.answer (s : State) (op : Nat) (m : DictMsg) (status : Nat) (data : List Byte) : State :=
  let s := s.count DICTENG.REQ_CNT_COUNT DICTENG.REQ_CNT_OVF
  let s := if status = 0 then s else s.count DICTENG.ABORT_CNT_COUNT DICTENG.ABORT_CNT_OVF
  let s : State := { s with abort := status }
  s.sendBack m.via (respMsg op m.tid.toNat status m.aux.toNat m.index.toNat m.sub.toNat (if status = 0 then data else []))

/-- The transports that are served in turn (R174): ring, service wire, UART0, LOC_CTRL, TAP. -/
def transport : Via → Nat
  | .ring _ _ => 0
  | .bcast _ => 0
  | .svc => 1
  | .uart0 => 2
  | .loc => 3
  | .tap => 4

/-- A request executes until firmware has answered it or the vault is granted (R174). (DEDUCED, log entry 57). -/
def State.dictBusy (s : State) : Bool := s.dict.app.isSome || s.dict.vault.isSome

/-- The request that DICTENG takes next (R174): the oldest of the first transport in turn on which one waits.
(DEDUCED, log entry 56). -/
def State.nextReq (s : State) : Option DictReq :=
  [1, 2, 3, 4, 5].findSome? fun k => s.dict.reqs.find? fun r => transport r.via == (s.dict.turn + k) % 5

/-- The abort code of a message that no command row executes: its operation is undefined, or its LEN is not its length (R176). -/
def badMsg (l : List Byte) : Nat :=
  if !opKnown (msgOp l) then Abort.badOp else if l.length ≠ 12 + field l 10 2 then Abort.badLength else 0

/-- Waiting requests of that kind are answered as their turn comes, up to the first that is another (R174, R176). -/
def State.serveBad : Nat → State → State
  | 0, s => s
  | k + 1, s =>
    if s.dictBusy then s
    else match s.nextReq with
      | none => s
      | some r =>
        if badMsg r.msg = 0 then s
        else
          let s : State := { s with dict := { s.dict with reqs := s.dict.reqs.erase r, turn := transport r.via } }
          State.serveBad k (s.answer (msgOp r.msg) (msgOf r.via r.msg) (badMsg r.msg) [])

/-- A request that arrives waits for DICTENG, behind those before it (R174). -/
def State.acceptReq (s : State) (via : Via) (l : List Byte) : State :=
  let s : State := { s with dict := { s.dict with reqs := s.dict.reqs ++ [⟨via, l⟩] } }
  s.serveBad s.dict.reqs.length

/-- The received ring requests that wait (R174). -/
def State.ringReqs (s : State) : Nat :=
  (s.dict.reqs.filter fun r => match r.via with
    | .ring _ _ => true
    | .bcast _ => true
    | _ => false).length

/-- A response frame arrives from `src` (R175): the oldest request that was forwarded there with its TID ends with it. -/
def State.dictReturn (s : State) (src : Nat) (l : List Byte) : State :=
  match s.dict.fwd.find? fun f => f.req.m.tid.toNat == field l 1 1 && f.req.m.node.toNat == src with
  | none => s
  | some f => ({ s with dict := { s.dict with fwd := s.dict.fwd.erase f } } : State).sendBack f.req.m.via l

/-- A held request ends with a status and no data. -/
def State.endReq (s : State) (r : HeldReq) (status : Nat) : State := s.answer r.op r.m status []

/-- The barrier in flight ends with a status (R191); its frame, if not yet sent, is not sent. (DEDUCED, log entry 63). -/
def State.endBarrier (s : State) (status : Nat) : State :=
  match s.dict.barrier with
  | none => s
  | some r =>
    ({ s with dict := { s.dict with barrier := none, barrierHold := false, barrierId := 0
                                    out := s.dict.out.filter fun f => f.id != s.dict.barrierId } } : State).endReq r status

/-- A frame of DICTENG's own has ended with a result (R152, R175, R191): what waits for it ends. -/
def State.dictFrameBack (s : State) (f : DictFrame) (res : Nat) : State :=
  if f.id = 0 then s
  else if f.id = s.dict.barrierId then s.endBarrier (if res = 0 then 0 else Abort.noResponse)
  else if res = 0 then s
  else match s.dict.fwd.find? fun x => x.id == f.id with
    | none => s
    | some x => ({ s with dict := { s.dict with fwd := s.dict.fwd.erase x } } : State).endReq x.req Abort.noResponse

/-! ### Publications (R62) -/

/-- A published object updates the node's copy (R62). -/
def State.publishObj (s : State) (src index sub : Nat) (v : List Byte) : State :=
  if index ≠ 0x4010 then s
  else
    let x := leNat v
    let t := { s.tm with calHeld := true, calNode := src }
    match sub with
    | 1 => { s with tm := { t with calMt := x } }
    | 2 => { s with tm := { t with calSec := x } }
    | 3 => { s with tm := { t with calValid := getBit x 0 } }
    | _ => s

/-- A PUBLISH frame from `src`. -/
def State.publishSeen (s : State) (src : Nat) (l : List Byte) : State :=
  s.publishObj src (field l 6 2) (field l 8 1) ((l.drop 12).take (field l 10 2))

/-- A PUBLISH message (R172, R173). (DESIGN CHOICE, log entry 112). -/
def publishMsg (index sub : Nat) (v : List Byte) : List Byte :=
  [0x40, 0, 0, 0, 0, 0] ++ leBytes 2 index ++ [BitVec.ofNat 8 sub, 0] ++ leBytes 2 v.length ++ v

/-- This node publishes an object (R62): a frame of TYPE 0x03 to address 127, and its own copy. -/
def State.publish (s : State) (index sub : Nat) (v : List Byte) : State :=
  (s.sendFrame (s.ownFrameTo 127 none 3 (publishMsg index sub v))).publishObj (s.get RINGCTL.ADDR_ADDR) index sub v

/-- CALENDAR_PUBLISH (R62): the master broadcasts the stamp of its last RTC second boundary, and keeps the copy itself.
(DESIGN CHOICE, log entry 112). -/
def execCalendarPublish (s : State) : Ans :=
  match s.rtc.secMt with
  | none => .next s
  | some t =>
    if s.get MTIME.STATUS_STATE ≠ 4 || !s.domOn .link || !s.rtc.calDue || decide (s.rtc.secTick + 2500000 < s.tick) then .next s
    else
      let s : State := { s with rtc := { s.rtc with calDue := false } }
      let s := (s.publish 0x4010 1 (leBytes 8 t)).publish 0x4010 2 (leBytes 8 s.rtc.secCal)
      .next (s.publish 0x4010 3 (leBytes 1 (b2n (s.on RTC.STAT_VALID))))

/-! ### Write sets (R184) -/

/-- Write set w replaced; STAT.WS_ARMED follows. -/
def State.setWs (s : State) (w : Fin 4) (x : WriteSet) : State :=
  let s : State := { s with dict := { s.dict with ws := s.dict.ws.set w.1 x } }
  s.setBit DICTENG.STAT_WS_ARMED w (x.st == 2)

/-- A write set empties with an outcome. -/
def State.emptyWs (s : State) (w : Fin 4) (outcome : Nat) : State :=
  s.setWs w { s.dict.ws[w] with entries := [], st := 0, outcome := outcome }

/-! ### Snapshots (R185 to R190) -/

/-- 0x1031/0x01 and STAT.SNAP. -/
def State.setSnap (s : State) (st : Nat) : State :=
  ({ s with dict := { s.dict with snap := { s.dict.snap with st := st } } } : State).set DICTENG.STAT_SNAP st

/-- The end or the progress of a collection is shown in 0x1031/0x01, unless a later request is ARMED. -/
def State.showSnap (s : State) (st : Nat) : State := if s.dict.snap.st = 1 then s else s.setSnap st

/-- The phase of the collection. -/
def State.snapPhase (s : State) (k : Nat) : State :=
  { s with dict := { s.dict with snap := { s.dict.snap with phase := k } } }

/-- A collection that ends without every chunk (R189, R190). -/
def State.snapIncomplete (s : State) : State := ((s.snapPhase 3).showSnap 5).set DICTENG.IRQ_STAT_SNAP_INC 1

/-- A collection that has every chunk is DONE (R189, R190). -/
def State.snapFinish (s : State) : State :=
  if s.dict.snap.missing = 0 then ((s.snapPhase 0).showSnap 4).set DICTENG.IRQ_STAT_SNAP_DONE 1 else s

/-- Chunks of a capture of `b` bytes in slots of `n` bytes. -/
def chunks (b n : Nat) : Nat := if n = 0 then 0 else (b + n - 1) / n

/-- The chunk that the node sends in the present cycle (R188, R190), `n` bytes long before padding. -/
def State.snapChunk (s : State) (n : Nat) : Option (List Byte) :=
  match s.dict.snap.cap with
  | none => none
  | some cap =>
    let cyc := s.get RINGCTL.CYCNUM_CYCLE
    let j0 := (cyc + 65536 - s.dict.snap.c0) % 65536
    let at_ (j : Nat) : Option (List Byte) := some ((cap.drop (n * j)).take n)
    if s.get RINGCTL.ADDR_ADDR = 0 then none
    else if s.mt < s.dict.snap.windowEnd ∧ j0 < chunks s.dict.snap.b n then at_ j0
    else match s.dict.snap.re with
      | some (c1, true) =>
        let j1 := (cyc + 65536 - c1) % 65536
        if j1 < chunks s.dict.snap.b n then at_ j1 else none
      | _ => none

/-- The address of chunk bytes in the collection area (R189). -/
def State.collAddr (s : State) (addr off : Nat) : Nat := s.get DICTENG.COLL_BASE_BASE * 32768 + 256 * addr + off

/-- A boundary begins cycle `cyc` (R189, R190): a collector starts collecting at C0, and a re-collection ends.
(DEDUCED, log entry 51; DEDUCED, log entry 62). -/
def State.snapCycle (s : State) (cyc : Nat) : State :=
  let sn := s.dict.snap
  let own := s.get RINGCTL.ADDR_ADDR
  match sn.cap with
  | none => s
  | some cap =>
    if sn.phase = 1 ∧ cyc = sn.c0 then
      if s.on DICTENG.CTRL_COLLECT ∧ own ≠ 0 then
        let roster := (own :: s.ring.srcsPrev).foldl (fun r a => if 1 ≤ a ∧ a ≤ 126 then r ||| 2 ^ a else r) 0
        let s := s.pokes (s.collAddr own 0) cap
        let s : State := { s with dict := { s.dict with snap := { sn with
          roster := roster, missing := Machine.setBit roster own false, got := [], phase := 2 } } }
        (s.showSnap 3).snapFinish
      else s.snapPhase 0
    else match sn.re with
      | some (c1, _) =>
        if (cyc + 65536 - c1) % 65536 = chunks sn.b 8 then
          let s : State := { s with dict := { s.dict with snap := { sn with re := none } } }
          if sn.phase = 2 then s.snapIncomplete else s
        else if cyc = c1 ∧ sn.phase = 3 ∧ s.on DICTENG.CTRL_COLLECT then (s.snapPhase 2).showSnap 3
        else s
      | none => s

/-- A slot with DICT = 1 from `src` (R189, R190): the first copy of its chunk is stored for a node of the roster that is not
complete. -/
def State.snapCollect (s : State) (src : Nat) (data : List Byte) : State :=
  let sn := s.dict.snap
  let n := data.length
  let cyc := s.get RINGCTL.CYCNUM_CYCLE
  let start := match sn.re with
    | some (c1, _) => c1
    | none => sn.c0
  let j := (cyc + 65536 - start) % 65536
  if sn.phase ≠ 2 ∨ !getBit sn.missing src ∨ chunks sn.b n ≤ j ∨ sn.got.contains (src, j) then s
  else
    let s := s.pokes (s.collAddr src (n * j)) (data.take (sn.b - n * j))
    let got := (src, j) :: sn.got
    let all := (List.range (chunks sn.b n)).all fun i => got.contains (src, i)
    let s : State := { s with dict := { s.dict with snap := { sn with
      got := got, missing := if all then Machine.setBit sn.missing src false else sn.missing } } }
    s.snapFinish

/-- A ring reset at DICTENG (R161, R184, R190): MT starts again, so no collection window of the old ring is current any more.
(DEDUCED, log entry 62). -/
def State.dictRingReset (s : State) : State :=
  let s := ((List.finRange 4).foldl (fun s w => s.emptyWs w 6) s).endBarrier Abort.noResponse
  let s : State := { s with dict := { s.dict with snap := { s.dict.snap with
    re := none, windowEnd := 0, phase := if s.dict.snap.phase = 1 then 0 else s.dict.snap.phase } } }
  if s.dict.snap.phase = 2 then s.snapIncomplete else s

end Sys2Proof.Machine
end

