-- ==== Sys2Proof/Machine/Dma.lean ====
section
/-!
DEFINITION. The transfers of the DMA masters in system SRAM: what they reach (R39, R154), the words that show an error (R254), and
those that a march test holds off (R263).
-/
namespace Sys2Proof.Machine

/-- The range lies in system SRAM. -/
def inSram (a n : Nat) : Bool := decide (0x20000000 ≤ a) && decide (a + n ≤ 0x20080000)

/-- The march test that runs holds off accesses to the range (R263). -/
def State.marchHolds (s : State) (a n : Nat) : Bool :=
  s.on MEMCTL.MT_STAT_BUSY && decide ((marchSpan s.march.target).1 < a + n) &&
  decide (a < (marchSpan s.march.target).1 + (marchSpan s.march.target).2)

/-- A read of a word of system SRAM with one bit in error (R254): corrected in the same access. -/
def State.sramSingle (s : State) : State :=
  (s.count MEMCTL.ECC_CORR_COUNT MEMCTL.ECC_CORR_OVF).set MEMCTL.IRQ_STAT_CORR 1

/-- A read of a word of system SRAM with two bits in error (R254). -/
def State.sramDouble (s : State) (a : Nat) : State :=
  let s := ((s.count MEMCTL.ECC_UNCORR_COUNT MEMCTL.ECC_UNCORR_OVF).set MEMCTL.ECC_ADDR_ADDR a).set MEMCTL.IRQ_STAT_UNCORR 1
  s.report ⟨1, 0x01, a, 0, 0, false⟩

/-- `n` undefined bytes. -/
def State.freeBytes (s : State) (n : Nat) : State × List Byte := (s.fresh.2, leBytes n s.fresh.1)

/-- The read of `n` bytes by a DMA master: outside system SRAM it is forbidden (R39); a word with two bits in error ends it with a
bus error (R254), and which word shows one is the free value Config.dmaError. The data of a read that ends so is undefined.
(DESIGN CHOICE, log entry 113). -/
def State.dmaRead (s : State) (m : Master) (a n : Nat) : State × List Byte :=
  if n = 0 then (s, [])
  else if !inSram a n then (s.report ⟨0, 0x02, a, 1, masterNum m, false⟩).freeBytes n
  else match Config.dmaError s.tick a with
    | none => (s, s.bytes a n)
    | some (w, double) =>
      if w / 4 * 4 + 4 ≤ a ∨ a + n ≤ w / 4 * 4 then (s, s.bytes a n)
      else if double then (s.sramDouble (w / 4 * 4)).freeBytes n
      else (s.sramSingle, s.bytes a n)

/-- A write by a DMA master: outside system SRAM it is forbidden and has no effect (R39). -/
def State.dmaWrite (s : State) (m : Master) (a : Nat) (d : List Byte) : State :=
  if d = [] ∨ inSram a d.length then s.pokes a d else s.report ⟨0, 0x02, a, 1, masterNum m, false⟩

/-! ### Descriptors (R154, R155) -/

/-- The address of descriptor `i` of queue q. -/
def State.descAddr (s : State) (q i : Nat) : Nat := s.get (LINKQ.Q_BASE_BASE q) * 16 + i * 16

/-- The queue holds an entry for hardware. -/
def State.queueHas (s : State) (q : Nat) : Bool :=
  s.on (LINKQ.Q_CFG_EN q) && s.get (LINKQ.Q_HEAD_HEAD q) != s.get (LINKQ.Q_TAIL_TAIL q)

/-- The descriptor's word at `a`; one outside system SRAM reads undefined (R39). (DESIGN CHOICE, log entry 113). -/
def State.descWord (s : State) (a : Nat) : Nat :=
  if inSram a 4 then s.mem? a 4 else Config.freeValue s.free % 2 ^ 32

/-- Hardware finishes the entry at QHEAD: DONE, its stamp and word 3, and QHEAD advances. -/
def State.finishEntry (s : State) (q i stamp word3 : Nat) : State :=
  let a := s.descAddr q i
  let s := s.dmaWrite .linkq (a + 8) (wordBytes (stamp % 2 ^ 32) ++ wordBytes (2 ^ 31 + word3))
  s.setBit LINKQ.IRQ_STAT_DONE q true

/-- QHEAD advances by one, modulo QSIZE. -/
def State.advanceHead (s : State) (q : Nat) : State :=
  s.set (LINKQ.Q_HEAD_HEAD q) ((s.get (LINKQ.Q_HEAD_HEAD q) + 1) % s.get (LINKQ.Q_CFG_SIZE q))

/-- The payload is written to the buffer of the entry at QHEAD of an RX queue, and the entry finished (R154). -/
def State.rxWrite (s : State) (q typ src stamp word3 : Nat) (data : List Byte) : State :=
  let i := s.get (LINKQ.Q_HEAD_HEAD q)
  let a := s.descAddr q i
  let s := s.dmaWrite .linkq (s.descWord a) data
  let s := s.dmaWrite .linkq (a + 4) (wordBytes (typ * 2 ^ 24 + src * 2 ^ 16 + data.length))
  (s.finishEntry q i stamp word3).advanceHead q

/-- An RX queue takes a payload, or drops it where no entry is free or its capacity is too small (R155): the new state and whether
it was stored. A march test of the descriptor's or the buffer's bank holds the transfer off (R263).
(DESIGN CHOICE, log entry 113). -/
def State.rxStore (s : State) (q typ src stamp word3 : Nat) (data : List Byte) : State × Bool :=
  let a := s.descAddr q (s.get (LINKQ.Q_HEAD_HEAD q))
  if s.queueHas q && (s.marchHolds a 16 || s.marchHolds (s.descWord a) data.length) then
    ({ s with march := { s.march with waiting := s.march.waiting ++ [.rx q typ src stamp word3 data] } }, true)
  else if s.queueHas q && decide (data.length ≤ s.descWord (a + 4) % 2 ^ 16) then (s.rxWrite q typ src stamp word3 data, true)
  else ((s.count (LINKQ.Q_DROP_COUNT q) (LINKQ.Q_DROP_OVF q)).setBit LINKQ.IRQ_STAT_DROP q true, false)

/-! ### Local requests (LOC_CTRL) -/

/-- DICTENG reads the message at LOC_BUF, which becomes a request of this node's own (R174). -/
def State.locRead (s : State) : State :=
  let a := s.get DICTENG.LOC_BUF_BUF * 4
  let (s, h) := s.dmaRead .dict a 12
  let (s, d) := s.dmaRead .dict (a + 12) (min 500 (field h 10 2))
  let l := h ++ d
  ({ s with dict := { s.dict with loc := some (field l 1 1) } } : State).acceptReq .loc l

/-- The transfers that a march test has held off resume, oldest first (R263). -/
def State.resumeDma (s : State) : State :=
  let l := s.march.waiting
  l.foldl (fun s x => match x with
    | .rx q typ src stamp word3 data => (s.rxStore q typ src stamp word3 data).1
    | .loc => s.locRead) { s with march := {} }

end Sys2Proof.Machine
end

