-- ==== Sys2Proof/Machine/ResetOps.lean ====
section
/-!
DEFINITION. What a block, a power domain or the device loses: the resets of R329, the loss of a domain's power (R29, R30, R193,
R206), and the parts that outlast them.
-/
namespace Sys2Proof.Machine

/-- The registers of every block in a power domain return to their reset values; SVCWIRE.ADDR lies in PD_AON. -/
def State.resetDomRegs (s : State) (d : Dom) : State :=
  s.resetRegs fun a => match blockOf a with
    | some b => b.dom == d && a != SVCWIRE.ADDR
    | none => false

/-- PD_LANE at reset values. -/
def State.resetPdLane (s : State) : State :=
  { s.resetDomRegs .lane with lanes := Vector.replicate 10 {}, engines := Vector.replicate 10 {}
                              sched := Vector.replicate 10 {}, copy := {}, frame := {}, ss := {} }

/-- PD_LINK at reset values; a port without signal has no delay samples (R48). -/
def State.resetPdLink (s : State) : State :=
  let s := (s.dropSamples 0).dropSamples 1
  { s.resetDomRegs .link with ring := {}, dict := {} }

/-- The registers that copy the mode and the regulator's state (R204, PWRCTL.STAT). -/
def State.showMode (s : State) : State :=
  let d := s.on AONCTL.MODE_DOCKED
  (s.setF PWRCTL.STAT_DOCKED d).setF PWRCTL.STAT_REG_LP (!d)

/-- PD_SYS at reset values: MT is 0 and UNLOCKED (R45, R47). -/
def State.resetPdSys (s : State) : State :=
  let s := s.cutErase.resetMarch.resetFlash.resetRec
  let s : State := { s.resetDomRegs .sys with
    tm := {}, mt := 0, err := {}, uart0 := {}, uart1 := {}, flashHeld := false, dl := {} }
  s.showMode.showDisc

/-- PD_MGT at reset values: OTP, the boot record, the Carapace detectors and the log's count outlast it. -/
def State.resetPdMgt (s : State) : State :=
  let s := s.cutChange
  { s.resetDomRegs .mgt with
    sc := { fuse1 := s.sc.fuse1, fuse2 := s.sc.fuse2, fuse3 := s.sc.fuse3, ownerHash := s.sc.ownerHash
            keyBurned := s.sc.keyBurned, tamperEver := s.sc.tamperEver, detArmed := s.sc.detArmed
            pairSeen := s.sc.pairSeen, meshSeen := s.sc.meshSeen
            tamperReports := s.sc.tamperReports, tamperReset := s.sc.tamperReset } }

/-- PD_CRK at reset values; Cricket is held in reset (R224). -/
def State.resetPdCrk (s : State) : State :=
  { s.resetDomRegs .crk with ev := {}, svc := {}, touch := {}, crk := {} }

/-- PD_LANE loses its power: schedule memory and the program store are lost (R30, R130). -/
def State.offLane (s : State) : State :=
  ((s.resetPdLane).lose 0x24000000 0x24040000).lose 0x50100800 0x50101000

/-- PD_LINK loses its power. -/
def State.offLink (s : State) : State := s.resetPdLink

/-- System SRAM banks whose bit in `keep` is 0 lose their contents (R30). -/
def State.loseBanks (s : State) (keep : Nat) : State :=
  (List.range 8).foldl (fun s k =>
    if getBit keep k then s else s.lose (0x20000000 + k * 0x10000) (0x20010000 + k * 0x10000)) s

/-- PD_SYS loses its power; banks in `keep` are retained. -/
def State.offSys (s : State) (keep : Nat) : State :=
  let s := (s.resetPdSys.loseBanks keep).lose 0x40008400 0x40008800
  s.lose 0x40008C00 0x40009000

/-- PD_MGT loses its power: Scarab's SRAM with the log ring is lost (R278), the flushed entries stay in the record store.
(DEDUCED, log entry 88). -/
def State.offMgt (s : State) : State :=
  { s.resetPdMgt with log := { created := s.log.created } }

/-- PD_CRK loses its power: Cricket SRAM and the service-wire buffers are lost (R30, R224). -/
def State.offCrk (s : State) : State :=
  ((s.resetPdCrk).lose 0x30000000 0x30008000).lose 0x40006400 0x40006800

/-- RST_CAUSE shows the source of a reset (R329). -/
def State.rstCause (s : State) (code : Nat) : State :=
  match code with
  | 2 => s.set AONCTL.RST_CAUSE_PIN 1
  | 3 => s.set AONCTL.RST_CAUSE_DICT 1
  | 4 => s.set AONCTL.RST_CAUSE_WDOG 1
  | 5 => s.set AONCTL.RST_CAUSE_BOD 1
  | 11 => s.set AONCTL.RST_CAUSE_SW 1
  | _ => s

/-- The ladder after a reset of the main domain: it starts in Run, with the clocks from the always-on fast oscillator (R333)
and the timebase PLL relocking (R207); while a cold start holds it, it stays in Pupa (R223). -/
def State.startMain (s : State) (code : Nat) : State :=
  let hold := s.pwr.coldHold
  { (s.set AONCTL.STEP_STEP (if hold then 5 else 0)) with
    pwr := { s.pwr with step := if hold then .pupa else .run, req := none, entry := none, held := 0, heldFirst := 0x1F
                        exit := none, saved := none, relockSys := false, relockTb := !hold, lateDock := false, irqHeld := false }
    boot := { s.boot with code := code, released := false } }

/-- A full reset (R329): every register outside PD_AON at its reset value; memory contents stay. -/
def State.fullReset (s : State) (code : Nat) : State :=
  ((((((s.resetPdLane).resetPdLink).resetPdCrk).resetPdMgt).resetPdSys).startMain code).rstCause code

/-- A core brown-out (R206, R329): the four VCORE domains power-cycle; PD_AON and PD_CRK keep running. -/
def State.powerCycleMain (s : State) (code : Nat) : State :=
  ((((s.offLane).offLink).offMgt.offSys 0).startMain code).rstCause code

/-- A power-on reset (R210, R329): everything, PD_AON included; flash, record store and OTP keep what they hold. -/
def State.coldReset (s : State) (docked : Bool) : State :=
  let s := s.cutChange.cutErase.resetMarch.resetFlash.resetRec
  let s' : State := {
    mem := s.mem.filter fun c => (memUnlisted c.1).isSome, tick := s.tick, slow := s.slow, free := s.free
    epoch := s.epoch + 1, bus := s.bus, abort := s.abort, sent := s.sent, pending := s.pending, balls := s.balls
    rs := { torn := s.rs.torn }
    sc := { fuse1 := s.sc.fuse1, fuse2 := s.sc.fuse2, fuse3 := s.sc.fuse3, ownerHash := s.sc.ownerHash
            keyBurned := s.sc.keyBurned } }
  let s' := (s'.setF AONCTL.MODE_DOCKED docked).setF AONCTL.MODE_VIN_NOW docked
  s'.showMode

end Sys2Proof.Machine
end

