-- ==== Sys2Proof/Machine/PowerOps.lean ====
section
/-!
DEFINITION. What other blocks need of the ladder (09_power_ladder.md): the clocks in force (R207, R208, R225), the steps a wake
source wakes from (R200), and a wake source that qualifies (R198, R201).
-/
namespace Sys2Proof.Machine

/-! ### Clocks -/

/-- The system PLL's frequency in MHz for MUL and POST (R28, SYS_CFG). -/
def pllMhz (mul post : Nat) : Nat := 25 * mul / 2 ^ post

/-- The system domain's frequency on the always-on fast oscillator at 32 MHz (R208). -/
def fastMhz (ceil : Nat) : Nat := if 8 ≤ ceil ∧ ceil ≤ 15 then 16 else if 4 ≤ ceil ∧ ceil ≤ 7 then 8 else 32

/-- STAT.SYS_MHZ for the source in force, and the always-on fast oscillator's frequency (R208, R225). -/
def State.showClocks (s : State) : State :=
  let f := match s.get CLKGEN.STAT_SRC with
    | 0 => pllMhz (s.get CLKGEN.SYS_CFG_MUL) (s.get CLKGEN.SYS_CFG_POST)
    | 1 => pllMhz (s.get CLKGEN.SYS_CFG_MUL) (s.get CLKGEN.SYS_CFG_POST) / 2
    | _ => fastMhz (s.get CLKGEN.SYS_CFG_CEIL)
  let s := s.set CLKGEN.STAT_SYS_MHZ f
  let s := s.setF CLKGEN.STAT_RELOCK (s.pwr.relockSys || s.pwr.relockTb)
  let osc := if s.pwr.step = .diapause then 8
    else if s.domOn .sys && s.get CLKGEN.STAT_SRC == 2 then 32
    else 8 * 2 ^ s.get TOUCH.CRK_CTRL_FREQ
  s.set TOUCH.CRK_CTRL_OSC_MHZ osc

/-- The system domain leaves the system PLL for the always-on fast oscillator, and the PLL is off (R193, R204). -/
def State.pllOff (s : State) : State :=
  let s : State := { s with pwr := { s.pwr with relockSys := false } }
  ((s.set CLKGEN.STAT_SYS_LOCK 0).set CLKGEN.STAT_SRC 2).showClocks

/-- The frequency of MUL and POST lies above the ceiling. -/
def State.overCeil (s : State) : Bool :=
  decide (2 * s.get CLKGEN.SYS_CFG_CEIL * 2 ^ s.get CLKGEN.SYS_CFG_POST < 25 * s.get CLKGEN.SYS_CFG_MUL)

/-- The system PLL restarts (R207): from a stored trim with the same MUL on the doubled post-divider, else on the always-on
fast oscillator until lock. A setting above the ceiling keeps it off (R28). (DESIGN CHOICE, log entry 110). -/
def State.relockSys (s : State) (mulChanged : Bool) : State :=
  if s.overCeil then s.pllOff else
  let stored := s.pwr.trimMul == some (s.get CLKGEN.SYS_CFG_MUL) && !mulChanged
  let s : State := { s with pwr := { s.pwr with relockSys := true } }
  ((s.set CLKGEN.STAT_SYS_LOCK 0).set CLKGEN.STAT_SRC (if stored then 1 else 2)).showClocks

/-- The current step in AONCTL.STEP, with DEEPEST. -/
def State.setStep (s : State) (t : PStep) : State :=
  let s : State := { s with pwr := { s.pwr with step := t, lateDock := s.pwr.lateDock && t != .run } }
  let s := s.set AONCTL.STEP_STEP t.code
  s.set AONCTL.STEP_DEEPEST (max (s.get AONCTL.STEP_DEEPEST) t.code)

/-! ### Wake sources (R198 to R201) -/

/-- The sources that wake from a step (R200): SVC 0, PORT 1 (Docked only), ALARM0 2, ALARM1 3, TOUCH 4, TAMPER 5, VIN 6, EVENT 7,
HV_WARN 8, CRICKET 9. -/
def wakeMask (st : PStep) (docked : Bool) : Nat :=
  let port := if docked then 2 else 0
  match st with
  | .run | .hover => 0b0111111101
  | .rest | .torpor => 0b0111111101 + port
  | .diapause => 0b1111111101 + port
  | .pupa => 0b0101101101 + port
  | .cold => 0

/-- The lowest bit of a mask of sources; 0x1F when there is none. -/
def lowestBit (m : Nat) : Nat := ((List.range 10).find? fun i => getBit m i).getD 0x1F

/-- Ring activity among the sources of a wake: the wake pattern is due once PD_LINK is On (R168). -/
def State.portWake (s : State) (srcs : Nat) : State :=
  if getBit srcs 1 then { s with ring := { s.ring with wakeDue := true } } else s

/-- A wake is recorded (R201). (DEDUCED, log entry 71). -/
def State.recordWake (s : State) (first srcs : Nat) (fromStep : PStep) : State :=
  let s := (s.orBits AONCTL.WAKE_CAUSE_CAUSE srcs).set AONCTL.WAKE_CAUSE_FIRST first
  let s := s.portWake srcs
  { s.set AONCTL.WAKE_CAUSE_FROM fromStep.code with pwr := { s.pwr with wakeAt := s.slow } }

/-- Further sources of the slow-clock period in which a wake began (R201): their bits are set, and FIRST names the lowest.
(DEDUCED, log entry 71). -/
def State.joinWake (s : State) (en : Nat) : State :=
  if s.pwr.wakeAt ≠ s.slow then s
  else
    let s := (s.portWake en).orBits AONCTL.WAKE_CAUSE_CAUSE en
    s.set AONCTL.WAKE_CAUSE_FIRST (min (s.get AONCTL.WAKE_CAUSE_FIRST) (lowestBit en))

/-- Wake sources qualify in one slow-clock period (R198, R200, R201, R223): before the commit point they abort a request,
after it they are held, and in a step they start the exit; in Diapause those with WAKE_DEST = 1 only interrupt Cricket, and in Run
and Hover each interrupts the application core. -/
def State.wakeSrc (s : State) (srcs : Nat) : State :=
  let st := match s.pwr.entry with
    | some t => t
    | none => s.pwr.step
  let en := srcs &&& s.get AONCTL.WAKE_EN_EN &&& wakeMask st (s.on AONCTL.MODE_DOCKED)
  if en = 0 ∨ s.pwr.coldHold then s
  else if s.pwr.entry.isSome then
    let first := if s.pwr.held = 0 then lowestBit en
      else if s.pwr.wakeAt = s.slow then min (lowestBit en) s.pwr.heldFirst else s.pwr.heldFirst
    { s with pwr := { s.pwr with held := s.pwr.held ||| en, heldFirst := first
                                 wakeAt := if s.pwr.held = 0 then s.slow else s.pwr.wakeAt } }
  else if s.pwr.req.isSome then
    let s := (s.recordWake (lowestBit en) en .hover).set PWRCTL.STAT_ABORTED 1
    ({ s with pwr := { s.pwr with req := none } } : State).setStep .run
  else if s.pwr.exit.isSome then
    if s.pwr.step = .diapause then
      let t := if en &&& s.get AONCTL.WAKE_DEST_DEST = 0 then s else s.set TOUCH.CRK_IRQ_STAT_WAKE 1
      t.joinWake (en &&& (1023 - s.get AONCTL.WAKE_DEST_DEST))
    else s.joinWake en
  else match s.pwr.step with
    | .run => s.emit (.coreIrq en)
    | .cold => s
    | .diapause =>
      let crk := en &&& s.get AONCTL.WAKE_DEST_DEST
      let main := en &&& (1023 - s.get AONCTL.WAKE_DEST_DEST)
      let s := if crk = 0 then s else s.set TOUCH.CRK_IRQ_STAT_WAKE 1
      if main = 0 then s
      else { s.recordWake (lowestBit main) main .diapause with pwr := { s.pwr with exit := some .diapause } }
    | .hover => { (s.emit (.coreIrq en)).recordWake (lowestBit en) en .hover with pwr := { s.pwr with exit := some .hover } }
    | t => { s.recordWake (lowestBit en) en t with pwr := { s.pwr with exit := some t } }

end Sys2Proof.Machine
end

