-- ==== Sys2Proof/Machine/RecordStore.lean ====
section
/-!
DEFINITION. The record store (13_memories.md, R265 to R277): records as their bytes spell them, the commands of
its two channels, mounting, aborting and the margin scan.
-/
namespace Sys2Proof.Machine

/-! ### Records (R269, R270) -/

/-- A record found in the store (R271): sector, offset in the sector, header fields, and whether its CRC is right. -/
structure Rec where
  sec : Nat
  off : Nat
  sseq : Nat
  key : Nat
  seq : Nat
  len : Nat
  gid : Nat
  crc : Nat
  crcOk : Bool
  deriving DecidableEq, Repr

/-- Bytes a record of LEN bytes occupies (R269). -/
def recSize (len : Nat) : Nat := 16 + 4 * ((len + 3) / 4)

/-- HCHK (R269). -/
def hchk (key seq len gid : Nat) : Nat := (0xFFFF + 4 * 65536 - (key + seq + len + gid)) % 65536

/-- The records of an opened sector from offset `o`, and the append position where the sector is not closed (R273). -/
def State.walk (s : State) (k sseq : Nat) : Nat → Nat → List Rec × Option Nat
  | 0, o => ([], some o)
  | n + 1, o =>
    if 2048 < o + 16 then ([], some o)
    else
      let b := secOff k + o
      let w0 := s.recWord b
      let w1 := s.recWord (b + 4)
      let w2 := s.recWord (b + 8)
      let len := w1 % 2048
      let key := w0 % 65536
      let seq := w0 / 65536
      let gid := w2 % 65536
      if w0 = 0xFFFFFFFF then ([], some o)
      else if w1 / 65536 ≠ hchk key seq len gid ∨ 2048 < o + recSize len then ([], none)
      else
        let z := recSize len
        let crc := s.recWord (b + z - 4)
        let ok := crc == crc32c (s.bytes (recAddr b) (z - 4))
        let (rs, e) := s.walk k sseq n (o + z)
        (⟨k, o, sseq, key, seq, len, gid, crc, ok⟩ :: rs, e)

/-- The records found in a sector and its append position. -/
def State.walkSector (s : State) (k : Nat) : List Rec × Option Nat :=
  match s.secClass k with
  | .opened q => s.walk k q 128 16
  | _ => ([], none)

/-- Every record found in the store (R271). -/
def State.found (s : State) : List Rec := (s.dataSectors.map fun k => (s.walkSector k).1).foldl (· ++ ·) []

/-- A record's data. -/
def State.recData (s : State) (r : Rec) : List Byte := s.bytes (recAddr (secOff r.sec + r.off + 12)) r.len

/-- The members of group `gid` in a sector that lie before offset `o`. -/
def members (rs : List Rec) (sec gid o : Nat) : List Rec :=
  rs.filter fun r => r.sec == sec && r.gid == gid && decide (r.off < o)

/-- A close record that makes its group valid (R269, R270). -/
def State.closes (s : State) (rs : List Rec) (c : Rec) (gid : Nat) : Bool :=
  let d := s.recData c
  let ms := members rs c.sec gid c.off
  c.key == 0xFFF0 && c.crcOk && c.len == 8 && c.gid == 0xFFFF && field d 0 2 == gid && field d 2 2 == ms.length &&
  field d 4 4 == crc32c (ms.map fun r => leBytes 4 r.crc).flatten

/-- The record is valid (R270). -/
def State.recValid (s : State) (rs : List Rec) (r : Rec) : Bool :=
  r.crcOk && (r.gid == 0xFFFF || rs.any fun c => c.sec == r.sec && decide (r.off < c.off) && s.closes rs c r.gid)

/-- `a` wins over `b` among valid records of one key (R270). -/
def Rec.beats (a b : Rec) : Bool :=
  newer 16 a.seq b.seq || (a.seq == b.seq && (newer 16 a.sseq b.sseq || (a.sec == b.sec && decide (b.off < a.off))))

/-- The first of a list under an order. -/
def bestOf (p : Rec → Rec → Bool) : List Rec → Option Rec
  | [] => none
  | r :: t => match bestOf p t with
    | none => some r
    | some x => if p x r then some x else some r

/-- The winning record of a key (R270). -/
def State.winner (s : State) (key : Nat) : Option Rec :=
  let rs := s.found
  bestOf Rec.beats (rs.filter fun r => r.key == key && s.recValid rs r)

/-- The newest of a list of 16-bit numbers, plus one; `first` where there is none. (DEDUCED, log entry 84). -/
def nextOf (first : Nat) (l : List Nat) : Nat :=
  match l with
  | [] => first
  | x :: t => (t.foldl (fun m y => if newer 16 y m then y else m) x + 1) % 65536

/-- The next SEQ of a key and the next GID (R271). -/
def State.nextSeq (s : State) (key : Nat) : Nat := nextOf 1 ((s.found.filter fun r => r.key == key).map (·.seq))
def State.nextGid (s : State) : Nat := nextOf 1 ((s.found.filter fun r => r.gid != 0xFFFF).map (·.gid))

/-- The append sector (R272): the opened DATA sector with the newest SSEQ. -/
def State.appendSector (s : State) : Option Nat :=
  let ops := s.dataSectors.filterMap fun k => match s.secClass k with
    | .opened q => some (k, q)
    | _ => none
  (ops.foldl (fun (o : Option (Nat × Nat)) p => match o with
    | none => some p
    | some x => if newer 16 p.2 x.2 then some p else some x) none).map (·.1)

/-- The SSEQ of the next append sector (R268). -/
def State.nextSseq (s : State) : Nat :=
  nextOf 1 (s.dataSectors.filterMap fun k => match s.secClass k with
    | .opened q => some q
    | _ => none)

/-- The words of a record (R269). -/
def recWords (key seq gid : Nat) (d : List Byte) : List Nat :=
  let len := d.length
  let body := leBytes 4 (seq * 65536 + key) ++ leBytes 4 (hchk key seq len gid * 65536 + 0xF800 + len) ++
    leBytes 4 (0xFFFF0000 + gid) ++ d ++ List.replicate ((4 - len % 4) % 4) 0xFF
  ((List.range (body.length / 4)).map fun i => field body (4 * i) 4) ++ [crc32c body]

/-- The acts that program words from a store offset up. -/
def progActs (o : Nat) (ws : List Nat) : List RecAct := ws.zipIdx.map fun p => .word (o + 4 * p.2) p.1

/-! ### The append sector (R272) -/

/-- Room for `n` bytes (R272): the store offset where they go, the sector, and the acts that open it. -/
structure Room where
  off : Nat
  sec : Nat
  acts : List RecAct
  deriving DecidableEq, Repr

/-- The append position of the append sector, where it can take `n` bytes. -/
def State.appendRoom (s : State) (n : Nat) : Option Room :=
  match s.appendSector with
  | none => none
  | some k =>
    if getBit s.rs.closed k then none
    else match (s.walkSector k).2 with
      | none => none
      | some o => if o + n ≤ 2048 then some ⟨secOff k + o, k, []⟩ else none

/-- Room for `n` bytes in the append sector, else in the lowest-numbered erased DATA sector, which is opened. -/
def State.room (s : State) (n : Nat) : Option Room :=
  match s.appendRoom n with
  | some r => some r
  | none =>
    match s.dataSectors.find? fun k => s.secClass k == .erased with
    | none => none
    | some k => if 2032 < n then none else
      let o := secOff k
      let hdr := if s.recWord o = 0xFFFFFFFF then [.word o 0x53525351] else []
      some ⟨o + 16, k, hdr ++ [.word (o + 8) (0xFFFF0000 + s.nextSseq)]⟩

/-- APPEND_PTR and FREE show the store (R272, R277). -/
def State.showRec (s : State) : State :=
  let er := (s.dataSectors.filter fun k => s.secClass k == .erased).length
  let (k, o, fr) := match s.appendSector with
    | none => (0, 0, 0)
    | some k => match (s.walkSector k).2 with
      | some o => (k, o, if getBit s.rs.closed k then 0 else 2048 - o)
      | none => (k, 0, 0)
  let s := (s.set RECSTORE.APPEND_PTR_SECTOR k).set RECSTORE.APPEND_PTR_OFFSET o
  (s.set RECSTORE.FREE_ERASED er).set RECSTORE.FREE_BYTES (fr + er * 2032)

/-! ### Plans of commands (R266 to R272) -/

/-- A command that ends with a result and does nothing. -/
def recFail (ch : Chan) (op result : Nat) (s : State) : RecCmd :=
  { ch := ch, op := op, acts := [], result := result, group := s.rs.group, closed := s.rs.closed }

/-- A command that carries out acts and ends OK. -/
def recOk (ch : Chan) (op : Nat) (acts : List RecAct) (s : State) : RecCmd :=
  { ch := ch, op := op, acts := acts, result := 0, group := s.rs.group, closed := s.rs.closed }

/-- The channel's register bank and data window. -/
def chanIdx : Chan → Nat
  | .a => 0
  | .s => 1
def chanWindow : Chan → Nat
  | .a => 0x40008400
  | .s => 0x40008C00

/-- Every word an act would program is erased (R267). -/
def State.allErased (s : State) (l : List RecAct) : Bool :=
  l.all fun a => match a with
    | .word o _ => s.recWord o == 0xFFFFFFFF
    | .erase _ => true

/-- PROGRAM (R266, R267, R271). -/
def State.planProgram (s : State) (ch : Chan) : RecCmd :=
  let o := s.get (RECSTORE.C_ADDR_ADDR (chanIdx ch)) * 4
  let n := s.get (RECSTORE.C_LEN_LEN (chanIdx ch))
  let ks := [o / 0x800, (o + n - 1) / 0x800]
  let acts := progActs o ((List.range (n / 4)).map fun i => s.mem? ((chanWindow ch) + 4 * i) 4)
  if n < 4 ∨ 1024 < n ∨ n % 4 ≠ 0 ∨ 0x10000 < o + n then recFail ch 1 0x04 s
  else if ks.any fun k => s.role k == .data || (s.role k == .log && ch == .a) then recFail ch 1 0x05 s
  else if !s.allErased acts then recFail ch 1 0x01 s
  else recOk ch 1 acts s

/-- ERASE (R266, R271). -/
def State.planErase (s : State) (ch : Chan) : RecCmd :=
  let k := s.get (RECSTORE.C_ADDR_ADDR (chanIdx ch)) * 4 / 0x800
  if s.role k = .log ∧ ch = .a then recFail ch 2 0x05 s
  else
    { recOk ch 2 (s.eraseActs k) s with closed := Machine.setBit s.rs.closed k false }

/-- The key is one the channel may write (R269). -/
def keyOk (ch : Chan) (key : Nat) : Bool :=
  (decide (1 ≤ key) && decide (key ≤ 0xEFFF)) || (ch == .s && decide (0xF000 ≤ key) && decide (key ≤ 0xFFEF))

/-- The index has no room for a further key (R273). (DEDUCED, log entry 84). -/
def State.indexFull (s : State) (key : Nat) : Bool :=
  let ks := ((s.found.map (·.key)).filter (· != 0xFFF0)).eraseDups
  decide (1024 ≤ ks.length) && !ks.contains key

/-- The group is another channel's. -/
def State.groupOther (s : State) (ch : Chan) : Bool :=
  match s.rs.group with
  | some g => g.ch != ch
  | none => false

/-- A record written at the next place, outside or inside a group. (DEDUCED, log entry 84). -/
def State.planRecord (s : State) (ch : Chan) (op key seq gid : Nat) (d : List Byte) : RecCmd :=
  match s.room (recSize d.length) with
  | none => recFail ch op 0x02 s
  | some r =>
    let ws := recWords key seq gid d
    let body := progActs r.off ws
    if !s.allErased body then { recFail ch op 0x01 s with closed := Machine.setBit s.rs.closed r.sec true }
    else
      { recOk ch op (r.acts ++ body) s with
        seq := some seq, addr := some r.off
        group := s.rs.group.map fun g =>
          if gid = 0xFFFF then g
          else { g with used := g.used + recSize d.length, crcs := g.crcs ++ [ws.getLastD 0] } }

/-- APPEND (R269, R271, R272). (DEDUCED, log entry 85). -/
def State.planAppend (s : State) (ch : Chan) : RecCmd :=
  let key := s.get (RECSTORE.C_KEY_KEY (chanIdx ch))
  let len := s.get (RECSTORE.C_LEN_LEN (chanIdx ch))
  if !keyOk ch key ∨ 1008 < len then recFail ch 3 0x04 s
  else if s.groupOther ch then recFail ch 3 0x06 s
  else if s.indexFull key then recFail ch 3 0x0A s
  else
    let d := s.bytes (chanWindow ch) len
    match s.rs.group with
    | some g =>
      if g.reserved < g.used + recSize len + 24 then recFail ch 3 0x07 s
      else s.planRecord ch 3 key (s.nextSeq key) g.gid d
    | none => s.planRecord ch 3 key (s.nextSeq key) 0xFFFF d

/-- FIND (R269, R270, R271). (DEDUCED, log entry 84; DEDUCED, log entry 85). -/
def State.planFind (s : State) (ch : Chan) : RecCmd :=
  let key := s.get (RECSTORE.C_KEY_KEY (chanIdx ch))
  if key = 0 ∨ 0xFFF0 < key then recFail ch 4 0x04 s
  else match s.winner key with
  | none => recFail ch 4 0x03 s
  | some r => { recOk ch 4 [] s with seq := some r.seq, len := some r.len, addr := some (secOff r.sec + r.off + 12) }

/-- GROUP_BEGIN (R271, R272). -/
def State.planBegin (s : State) (ch : Chan) : RecCmd :=
  let n := s.get (RECSTORE.C_LEN_LEN (chanIdx ch))
  if n < 24 ∨ 2032 < n then recFail ch 5 0x04 s
  else if s.rs.group.isSome then recFail ch 5 0x06 s
  else match s.room n with
    | none => recFail ch 5 0x02 s
    | some r =>
      let gid := s.nextGid
      { recOk ch 5 r.acts s with gid := some gid, group := some ⟨ch, gid, n, 0, []⟩ }

/-- The data of a close record (R269). -/
def closeData (gid count : Nat) (crcs : List Nat) : List Byte :=
  leBytes 2 gid ++ leBytes 2 count ++ leBytes 4 (crc32c (crcs.map (leBytes 4)).flatten)

/-- GROUP_CLOSE (R271); one that is refused leaves the group open. (DEDUCED, log entry 85). -/
def State.planClose (s : State) (ch : Chan) : RecCmd :=
  match s.rs.group with
  | none => recFail ch 6 0x06 s
  | some g =>
    if g.ch ≠ ch then recFail ch 6 0x06 s
    else
      let p := s.planRecord ch 6 0xFFF0 (s.nextSeq 0xFFF0) 0xFFFF (closeData g.gid g.crcs.length g.crcs)
      if p.result ≠ 0 then p else { p with seq := none, addr := none, group := none, gid := some 0xFFFF }

/-- GROUP_ABORT (R271). -/
def State.planGroupAbort (s : State) (ch : Chan) : RecCmd :=
  match s.rs.group with
  | none => recFail ch 7 0x06 s
  | some g =>
    if g.ch ≠ ch then recFail ch 7 0x06 s else { recOk ch 7 [] s with group := none, gid := some 0xFFFF }

/-- A record placed, in a state in which the acts so far have been carried out: the acts with those added. -/
def placeRecord (key seq gid : Nat) (d : List Byte) (x : State × List RecAct) : Option (State × List RecAct) :=
  let (s, acts) := x
  match s.room (recSize d.length) with
  | none => none
  | some r =>
    let l := r.acts ++ progActs r.off (recWords key seq gid d)
    some (s.recActs l, acts ++ l)

/-- Several records placed in order. -/
def placeAll (l : List (Nat × Nat × Nat × List Byte)) (x : State × List RecAct) : Option (State × List RecAct) :=
  l.foldl (fun o m => o.bind (placeRecord m.1 m.2.1 m.2.2.1 m.2.2.2)) (some x)

/-- A whole group placed in one sector under a new GID: its members and its close record (R271). -/
def placeGroup (ms : List (Nat × Nat × List Byte)) (x : State × List RecAct) : Option (State × List RecAct) :=
  let (s, acts) := x
  let gid := s.nextGid
  let total := (ms.map fun m => recSize m.2.2.length).foldl (· + ·) 24
  match s.room total with
  | none => none
  | some r =>
    let s := s.recActs r.acts
    let crcs := ms.map fun m => (recWords m.1 m.2.1 gid m.2.2).getLastD 0
    placeAll ((ms.map fun m => (m.1, m.2.1, gid, m.2.2)) ++
      [(0xFFF0, s.nextSeq 0xFFF0, 0xFFFF, closeData gid ms.length crcs)]) (s, acts ++ r.acts)

/-- The valid close records of a sector with their groups' GIDs. -/
def State.validGroups (s : State) (rs : List Rec) (k : Nat) : List Nat :=
  ((rs.filter fun r => r.sec == k && r.gid != 0xFFFF && s.recValid rs r).map (·.gid)).eraseDups

/-- What COMPACT copies out of a sector (R271): its winning records outside groups, and its valid groups. -/
def State.compactCopies (s : State) (k : Nat) : Option (State × List RecAct) :=
  let rs := s.found
  let lone := rs.filter fun r => r.sec == k && r.gid == 0xFFFF && r.key != 0xFFF0 && s.winner r.key == some r
  let one := placeAll (lone.map fun r => (r.key, r.seq, 0xFFFF, s.recData r)) (s, [])
  (s.validGroups rs k).foldl (fun o g => o.bind (placeGroup
    ((rs.filter fun r => r.sec == k && r.gid == g).map fun r => (r.key, r.seq, s.recData r)))) one

/-- COMPACT (R271, R272): the victim is erased after its copies. (DEDUCED, log entry 85). -/
def State.planCompact (s : State) (ch : Chan) : RecCmd :=
  let k := s.get (RECSTORE.C_ADDR_ADDR (chanIdx ch)) * 4 / 0x800
  if s.rs.group.isSome then recFail ch 8 0x06 s
  else if s.role k ≠ .data then recFail ch 8 0x05 s
  else if s.appendSector = some k then recFail ch 8 0x04 s
  else match s.compactCopies k with
    | none => recFail ch 8 0x02 s
    | some (_, acts) => recOk ch 8 (acts ++ s.eraseActs k) s

/-- The plan of a command; before mounting every command ends NOT_MOUNTED (R273). (DEDUCED, log entry 83). -/
def State.recPlan (s : State) (ch : Chan) (op : Nat) : RecCmd :=
  if !s.rs.mounted then recFail ch op 0x0B s
  else match op with
    | 1 => s.planProgram ch
    | 2 => s.planErase ch
    | 3 => s.planAppend ch
    | 4 => s.planFind ch
    | 5 => s.planBegin ch
    | 6 => s.planClose ch
    | 7 => s.planGroupAbort ch
    | _ => s.planCompact ch

/-! ### The commands -/

/-- The command in progress began in this clock, so that channel S goes before it (R265). -/
def State.yieldsTo (s : State) (ch : Chan) (c : RecCmd) : Bool :=
  ch == .s && c.ch == .a && s.rs.queued.isNone && s.rs.askedAt == some s.tick

/-- GO with an OP on a channel (R265): ignored while the channel is BUSY; it waits for the other channel's command, but channel S
goes first where both request in one clock. -/
def State.recGo (s : State) (ch : Chan) (op : Nat) : Ans :=
  s.busDo (RECSTORE.C_CMD (chanIdx ch)) fun s =>
    let s := s.set (RECSTORE.C_CMD_OP (chanIdx ch)) op
    if s.on (RECSTORE.C_STATUS_BUSY (chanIdx ch)) then s.set (RECSTORE.C_STATUS_CMD_IGN (chanIdx ch)) 1
    else
      let s := s.set (RECSTORE.C_STATUS_BUSY (chanIdx ch)) 1
      match s.rs.cur with
      | none => { s with rs := { s.rs with cur := some (s.recPlan ch op), askedAt := some s.tick } }
      | some c =>
        if s.yieldsTo ch c then { s with rs := { s.rs with cur := some (s.recPlan ch op), queued := some (.a, c.op) } }
        else { s with rs := { s.rs with queued := some (ch, op) } }

def execProgram (ch : Chan) (s : State) : Ans := s.recGo ch 1
def execErase (ch : Chan) (s : State) : Ans := s.recGo ch 2
def execAppend (ch : Chan) (s : State) : Ans := s.recGo ch 3
def execFind (ch : Chan) (s : State) : Ans := s.recGo ch 4
def execGroupBegin (ch : Chan) (s : State) : Ans := s.recGo ch 5
def execGroupClose (ch : Chan) (s : State) : Ans := s.recGo ch 6
def execGroupAbort (ch : Chan) (s : State) : Ans := s.recGo ch 7
def execCompact (ch : Chan) (s : State) : Ans := s.recGo ch 8

/-- A channel's command ends with a RESULT (R265): BUSY falls, DONE and the interrupt bit are set. -/
def State.recEnd (s : State) (ch : Chan) (result : Nat) : State :=
  let i := chanIdx ch
  let s := ((s.set (RECSTORE.C_STATUS_BUSY i) 0).set (RECSTORE.C_STATUS_DONE i) 1).set (RECSTORE.C_STATUS_RESULT i) result
  let s := match ch with
    | .a => s.set RECSTORE.IRQ_STAT_DONE_A 1
    | .s => s.set RECSTORE.IRQ_STAT_DONE_S 1
  let open_ := match s.rs.group with
    | some g => g.ch == ch
    | none => false
  (s.setF (RECSTORE.C_STATUS_GROUP_OPEN i) open_).showRec

/-- What a command leaves in its channel's registers. -/
def State.recResults (s : State) (c : RecCmd) : State :=
  let i := chanIdx c.ch
  let s := match c.seq with
    | some x => s.set (RECSTORE.C_KEY_SEQ i) x
    | none => s
  let s := match c.addr with
    | some x => s.set (RECSTORE.C_ADDR_ADDR i) (x / 4)
    | none => s
  let s := match c.len with
    | some x => s.set (RECSTORE.C_LEN_LEN i) x
    | none => s
  match c.gid with
    | some x => s.set (RECSTORE.C_GID_GID i) x
    | none => s

/-- Mounting (R273): DIRTY_MASK, the append sector, MOUNTED and its interrupt bit. -/
def State.mountStore (s : State) : State :=
  let dirty := (List.range 32).foldl (fun m k =>
    if s.role k == .data && (s.classify k == .dirty || getBit s.rs.torn k) then m + 2 ^ k else m) 0
  let s := s.set RECSTORE.DIRTY_MASK_DIRTY dirty
  let s : State := { s with rs := { s.rs with mounted := true, closed := 0, group := none } }
  let s := (s.set (RECSTORE.C_STATUS_MOUNTED 0) 1).set (RECSTORE.C_STATUS_MOUNTED 1) 1
  (s.set RECSTORE.IRQ_STAT_MOUNT 1).showRec

/-- One weak record of the margin scan (R275): it, or its whole group, is rewritten. -/
def State.refresh (s : State) (o : Nat) : State :=
  let rs := s.found
  match rs.find? fun r => secOff r.sec + r.off == o && s.recValid rs r with
  | none => s
  | some r =>
    let x := if r.gid = 0xFFFF then placeRecord r.key r.seq 0xFFFF (s.recData r) (s, [])
      else placeGroup ((rs.filter fun m => m.sec == r.sec && m.gid == r.gid).map fun m => (m.key, m.seq, s.recData m)) (s, [])
    match x with
    | some (s', _) => s'.count RECSTORE.REFRESH_CNT_COUNT RECSTORE.REFRESH_CNT_OVF
    | none => s.set RECSTORE.IRQ_STAT_REFRESH_FAIL 1

/-- MARGIN_SCAN (R275): the scan finds these records weak (their store offsets); it yields to commands, waits while a group is
open, and pauses outside Run and Hover. (DEDUCED, log entry 85). -/
def execMarginScan (weak : List Nat) (s : State) : Ans :=
  if !s.on RECSTORE.CFG_SCAN_EN || !s.rs.mounted || s.rs.cur.isSome || s.rs.group.isSome || !s.domOn .sys then .next s
  else .next ((weak.foldl State.refresh s).showRec)

/-! ### The device's own records (R171, R302, R340) -/

/-- A group of the device's own records, written by channel S; none where there is no space or another channel's group is
open. (DEDUCED, log entry 87). -/
def State.writeOwn (s : State) (ms : List (Nat × List Byte)) : Option State :=
  if ms.isEmpty then some s
  else if !s.rs.mounted || s.rs.group.isSome then none
  else (placeGroup (ms.map fun m => (m.1, s.nextSeq m.1, m.2)) (s, [])).map fun x => x.1.showRec

/-- The same, after the command in progress where there is one (R265); one with no space now is not taken.
(DEDUCED, log entry 87). -/
def State.ownGroup (s : State) (ms : List (Nat × List Byte)) : Option State :=
  if s.rs.cur.isSome && !ms.isEmpty then
    (s.writeOwn ms).map fun _ => { s with rs := { s.rs with own := s.rs.own ++ [ms] } }
  else s.writeOwn ms

end Sys2Proof.Machine
end

