-- ==== Sys2Proof/Machine/Rtc.lean ====
section
/-!
DEFINITION. The real-time clock and the moisture clocks (12_rtc.md): the calendar, second boundaries with sets and alarms,
coherent reads, shifts, discipline, and exposure counting.
-/
namespace Sys2Proof.Machine

/-! ### The calendar (R240, R241) -/

/-- A date and time. -/
structure Cal where
  year : Nat
  month : Nat
  day : Nat
  hour : Nat
  min : Nat
  sec : Nat
  deriving DecidableEq, Repr

/-- February has 29 days (R240). -/
def leap (y : Nat) : Bool := y % 4 == 0 && y != 2100

/-- Days of a month. -/
def monthDays (y m : Nat) : Nat :=
  match m with
  | 2 => if leap y then 29 else 28
  | 4 | 6 | 9 | 11 => 30
  | _ => 31

/-- Days from 2000-01-01 to the first day of a year. -/
def daysToYear (y : Nat) : Nat := (y - 2000) * 365 + (y - 2000 + 3) / 4 - (if 2100 < y then 1 else 0)

/-- Days from the first day of a year to the first day of a month. -/
def daysToMonth (y m : Nat) : Nat := ((List.range (m - 1)).map fun i => monthDays y (i + 1)).foldl (· + ·) 0

/-- Days since 2000-01-01. -/
def Cal.days (c : Cal) : Nat := daysToYear c.year + daysToMonth c.year c.month + (c.day - 1)

/-- Calendar seconds (R241). -/
def Cal.secs (c : Cal) : Nat := c.days * 86400 + c.hour * 3600 + c.min * 60 + c.sec

/-- The weekday, 0 Monday: 2000-01-01 is 5 (R240). -/
def Cal.wday (c : Cal) : Nat := (c.days + 5) % 7

/-- A date and time that the calendar has (R244). -/
def Cal.ok (c : Cal) : Bool :=
  decide (2000 ≤ c.year) && decide (c.year ≤ 2199) && decide (1 ≤ c.month) && decide (c.month ≤ 12) && decide (1 ≤ c.day) &&
  decide (c.day ≤ monthDays c.year c.month) && decide (c.hour ≤ 23) && decide (c.min ≤ 59) && decide (c.sec ≤ 59)

/-- The second after (R240); the one after 2199-12-31 23:59:59 is 2000-01-01 00:00:00. -/
def Cal.next (c : Cal) : Cal :=
  if c.sec < 59 then { c with sec := c.sec + 1 }
  else if c.min < 59 then { c with sec := 0, min := c.min + 1 }
  else if c.hour < 23 then { c with sec := 0, min := 0, hour := c.hour + 1 }
  else if c.day < monthDays c.year c.month then { c with sec := 0, min := 0, hour := 0, day := c.day + 1 }
  else if c.month < 12 then { c with sec := 0, min := 0, hour := 0, day := 1, month := c.month + 1 }
  else if c.year < 2199 then { c with sec := 0, min := 0, hour := 0, day := 1, month := 1, year := c.year + 1 }
  else ⟨2000, 1, 1, 0, 0, 0⟩

/-- The year, and the days into it, of a day number. -/
def yearOfDay (d : Nat) : Nat → Nat → Nat × Nat
  | 0, y => (y, d - daysToYear y)
  | n + 1, y => if d < daysToYear (y + 1) then (y, d - daysToYear y) else yearOfDay d n (y + 1)

/-- The month, and the days into it. -/
def monthOfDay (y d : Nat) : Nat → Nat → Nat × Nat
  | 0, m => (m, d)
  | n + 1, m => if d < monthDays y m then (m, d) else monthOfDay y (d - monthDays y m) n (m + 1)

/-- The date and time of calendar seconds. -/
def Cal.ofSecs (x : Nat) : Cal :=
  let (y, dy) := yearOfDay (x / 86400) 199 2000
  let (m, dm) := monthOfDay y dy 11 1
  ⟨y, m, dm + 1, x / 3600 % 24, x / 60 % 60, x % 60⟩

/-- 2199-12-31 23:59:59 in calendar seconds. -/
def lastSecond : Nat := Cal.secs ⟨2199, 12, 31, 23, 59, 59⟩

/-- The time the RTC holds. -/
def State.cal (s : State) : Cal :=
  ⟨s.get RTC.RTC_YEAR_YEAR, s.get RTC.RTC_DATE_MON, s.get RTC.RTC_DATE_DAY, s.get RTC.RTC_TIME_HOUR, s.get RTC.RTC_TIME_MIN,
   s.get RTC.RTC_TIME_SEC⟩

/-- Calendar seconds now. -/
def State.calSecs (s : State) : Nat := s.cal.secs

/-- The RTC takes a time. -/
def State.setCal (s : State) (c : Cal) : State :=
  let s := ((s.set RTC.RTC_YEAR_YEAR c.year).set RTC.RTC_DATE_MON c.month).set RTC.RTC_DATE_DAY c.day
  let s := ((s.set RTC.RTC_DATE_WDAY c.wday).set RTC.RTC_TIME_HOUR c.hour).set RTC.RTC_TIME_MIN c.min
  s.set RTC.RTC_TIME_SEC c.sec

/-- The staged time of SET_TIME, SET_DATE and SET_YEAR. -/
def State.stagedCal (s : State) : Cal :=
  ⟨s.get RTC.SET_YEAR_YEAR, s.get RTC.SET_DATE_MON, s.get RTC.SET_DATE_DAY, s.get RTC.SET_TIME_HOUR, s.get RTC.SET_TIME_MIN,
   s.get RTC.SET_TIME_SEC⟩

/-! ### Second boundaries (R241, R244, R250, R247) -/

/-- An alarm register of address `a` is about to be written: a boundary of this slow-clock period still sees its value (R250). -/
def State.noteAlarm (s : State) (a : Nat) : State :=
  let old := if s.rtc.almAt = s.slow then s.rtc.almOld else []
  { s with rtc := { s.rtc with
    almAt := s.slow, almOld := if old.any (fun x => x.1 == a) then old else (a, s.readReg a) :: old } }

/-- The state as the alarms see it: with the alarm registers as they stood when this slow-clock period began (R250). -/
def State.alarmView (s : State) : State :=
  if s.rtc.almAt = s.slow then s.rtc.almOld.foldl (fun s x => s.writeFields (fun _ => true) x.1 x.2 false) s else s

/-- Alarm a matches the time that starts at the boundary (R250). -/
def State.alarmMatch (s : State) (a : Nat) : Bool :=
  let c := s.cal
  let m (mask val : RF) (x : Nat) : Bool := s.on mask || s.get val == x
  m (RTC.ALM_TIME_MSK_SEC a) (RTC.ALM_TIME_SEC a) c.sec && m (RTC.ALM_TIME_MSK_MIN a) (RTC.ALM_TIME_MIN a) c.min &&
  m (RTC.ALM_TIME_MSK_HOUR a) (RTC.ALM_TIME_HOUR a) c.hour && m (RTC.ALM_DATE_MSK_WDAY a) (RTC.ALM_DATE_WDAY a) c.wday &&
  m (RTC.ALM_DATE_MSK_DAY a) (RTC.ALM_DATE_DAY a) c.day && m (RTC.ALM_DATE_MSK_MON a) (RTC.ALM_DATE_MON a) c.month &&
  m (RTC.ALM_DATE_MSK_YEAR a) (RTC.ALM_DATE_YEAR a) c.year

/-- One slow-clock period in timebase ticks, the length of the RTC producers' pulses (R307). -/
def slowTicks : Nat := 7629

/-- Alarm a is evaluated (R250). -/
def State.alarm (s : State) (a : Nat) (en stat : RF) : State :=
  if s.on en && s.alarmView.alarmMatch a then ((s.set stat 1).pulse (0x69 + a) slowTicks).wakeSrc (2 ^ (2 + a)) else s

/-- The discipline window at a boundary (R247): while discipline is active one starts where none runs or a set has been applied;
else it counts its seconds, and its 16th ends it: the MT elapsed is kept and the next window starts. (DEDUCED, log entry 79). -/
def State.discBoundary (s : State) (set : Bool) : State :=
  let s := s.showDisc
  let b := s.rtc.edgeMt
  if !s.discNow then s
  else match s.rtc.winMt with
    | none => { s with rtc := { s.rtc with winMt := some b, winN := 0 } }
    | some a =>
      if set then { s with rtc := { s.rtc with winMt := some b, winN := 0 } }
      else if s.rtc.winN < 15 then { s with rtc := { s.rtc with winN := s.rtc.winN + 1 } }
      else { s with rtc := { s.rtc with winMt := some b, winN := 0, winDelta := some ((b : Int) - (a : Int)) } }

/-- The pending set landed before the last slow-clock period, so that a boundary of this period applies it (R244). -/
def State.setDue (s : State) : Bool := s.on RTC.STAT_SET_PEND && decide (s.rtc.setAt + 1 < s.slow)

/-- The time goes on at a boundary (R240, R244): a pending set that landed before the last period is checked and applied, else
the seconds advance. The second component: a set was applied. (DEDUCED, log entry 78). -/
def State.boundaryTime (s : State) : State × Bool :=
  let due := s.setDue
  let c := s.stagedCal
  if due && c.ok then
    let s := ((s.setCal c).set RTC.STAT_VALID 1).set RTC.STAT_SET_DONE 1
    let s := ((s.set RTC.SHIFT_REM_REM 0).set RTC.STAT_SHIFT_BUSY 0).set RTC.STAT_SET_PEND 0
    ({ s with rtc := { s.rtc with sub := 0 } }, true)
  else
    let s := if due then (s.set RTC.STAT_SET_ERR 1).set RTC.STAT_SET_PEND 0 else s
    let c := s.cal
    let s := s.setCal c.next
    (if c = ⟨2199, 12, 31, 23, 59, 59⟩ then (s.set RTC.STAT_VALID 0).set RTC.STAT_RANGE_EV 1 else s, false)

/-- RTC_SECOND_BOUNDARY (R241): SUBSEC wraps. (DEDUCED, log entry 78). -/
def execRtcSecondBoundary (s : State) : Ans :=
  if s.rtc.sub < 32768 then .next s
  else
    let s : State := { s with rtc := { s.rtc with sub := s.rtc.sub - 32768 } }
    let (s, set) := s.boundaryTime
    let s := (s.set RTC.STAT_SEC_EV 1).pulse 0x68 slowTicks
    let n := s.rtc.secs + 1
    let s : State := { s with rtc := { s.rtc with
      secMt := some s.rtc.edgeMt, secTick := s.tick, calDue := true, secCal := s.calSecs, secs := n % 60, moistDue := s.rtc.moistDue || n == 60 } }
    let s := if s.on AONCTL.MODE_DOCKED then s else s.count AONCTL.DET_SECS_COUNT AONCTL.DET_SECS_OVF
    let s := s.discBoundary set
    .next ((s.alarm 0 RTC.CTRL_ALM0_EN RTC.STAT_ALM0).alarm 1 RTC.CTRL_ALM1_EN RTC.STAT_ALM1)

/-! ### Coherent reads (R243) -/

/-- A master's shadow, and it replaced. -/
def State.shadow (s : State) (m : RtcMaster) : Option Shadow :=
  match m with
  | .app => s.rtc.shApp
  | .crk => s.rtc.shCrk
  | .dict => s.rtc.shDict
def State.setShadow (s : State) (m : RtcMaster) (x : Option Shadow) : State :=
  match m with
  | .app => { s with rtc := { s.rtc with shApp := x } }
  | .crk => { s with rtc := { s.rtc with shCrk := x } }
  | .dict => { s with rtc := { s.rtc with shDict := x } }

/-- SUBSEC as it reads. -/
def State.subsec (s : State) : Nat := min 32767 s.rtc.sub

/-- The four registers captured in one slow-clock period. -/
def State.capture (s : State) : Shadow :=
  ⟨s.subsec, s.readReg RTC.RTC_TIME, s.readReg RTC.RTC_DATE, s.readReg RTC.RTC_YEAR, s.slow⟩

/-- RTC_SHADOW_READ (R243): a master reads RTC_SUBSEC (0), RTC_TIME (1), RTC_DATE (2) or RTC_YEAR (3). -/
def execRtcShadowRead (m : RtcMaster) (r : Fin 4) (s : State) : Ans :=
  let x := (s.shadow m).getD s.capture
  match r with
  | 0 => .next { s.setShadow m (some x) with bus := .ok x.subsec }
  | 1 => .next { s.setShadow m (some x) with bus := .ok x.time }
  | 2 => .next { s.setShadow m (some x) with bus := .ok x.date }
  | 3 => .next { s.setShadow m none with bus := .ok x.year }

/-- RTC_SHADOW_EXPIRY (R243): 32,768 slow-clock periods after the capture. -/
def execRtcShadowExpiry (m : RtcMaster) (s : State) : Ans :=
  match s.shadow m with
  | none => .next s
  | some x => if x.taken + 32768 ≤ s.slow then .next ((s.setShadow m none).set RTC.STAT_SHADOW_EXP 1) else .next s

/-! ### Setting and shifting (R244 to R246) -/

/-- CTRL.SET (R244). -/
def State.rtcSet (s : State) : State :=
  { s.set RTC.STAT_SET_PEND 1 with rtc := { s.rtc with setAt := s.slow } }

/-- RTC_SET (R244). -/
def execRtcSet (s : State) : Ans := s.busDo RTC.CTRL State.rtcSet

/-- RTC_SET_CANCEL (R244): it withdraws a pending set before the period of the boundary that applies the set. -/
def execRtcSetCancel (s : State) : Ans :=
  s.busDo RTC.CTRL fun s =>
    if s.on RTC.STAT_SET_PEND && (decide (s.rtc.sub < 32768) || !s.setDue) then s.set RTC.STAT_SET_PEND 0 else s.set RTC.STAT_CMD_IGN 1

/-- The amount lies in the range of R246. -/
def shiftOk (x : Int) : Bool := x != 0 && decide (-16384 ≤ x) && decide (x ≤ 16384)

/-- A shift starts (R246), and the discipline window ends unused (R247). (DEDUCED, log entry 64). -/
def State.rtcShift (s : State) (x : Int) : State :=
  if s.get RTC.SHIFT_REM_REM ≠ 0 then s.set RTC.STAT_CMD_IGN 1
  else if shiftOk x then ((s.setI RTC.SHIFT_REM_REM x).set RTC.STAT_SHIFT_BUSY 1).endWindow
  else s

/-- RTC_SHIFT (R246): SHIFT.AMOUNT written. -/
def execRtcShift (v : Word) (s : State) : Ans := s.busDo RTC.SHIFT fun s => s.rtcShift (sgn 16 v.toNat)

/-- SHIFT_COUNT_STEP (R246): every 128th slow-clock period one count is added or withheld, once in the period. -/
def execShiftCountStep (s : State) : Ans :=
  let x := s.getI RTC.SHIFT_REM_REM
  if x = 0 ∨ s.slow % 128 ≠ 0 ∨ s.rtc.shiftAt = some s.slow then .next s
  else
    let s : State := { s with rtc := { s.rtc with shiftAt := some s.slow } }
    let x' := if 0 < x then x - 1 else x + 1
    let s := ((s.setI RTC.SHIFT_REM_REM x').setF RTC.STAT_SHIFT_BUSY (x' != 0)).endWindow
    if 0 < x then .next { s with rtc := { s.rtc with sub := s.rtc.sub + 1 } }
    else .next { s with rtc := { s.rtc with skip := s.rtc.skip + 1 } }

/-! ### Discipline (R247, R248) -/

/-- TRIM after a window in which `delta` ns of MT passed (R247). -/
def newTrim (trim delta : Int) : Int := clampI (trim - (16000000000 - delta) * 2 ^ 32 / 16000000000) (2 ^ 22 - 1)

/-- DISCIPLINE_WINDOW_END (R247): a window of 16 seconds has ended, and TRIM takes what it measured. -/
def execDisciplineWindowEnd (s : State) : Ans :=
  match s.rtc.winDelta with
  | none => .next s
  | some d =>
    let s : State := { s with rtc := { s.rtc with winDelta := none } }
    .next (s.setI RTC.TRIM_TRIM (newTrim (s.getI RTC.TRIM_TRIM) d))

/-- TRIM_WRITE (R248): ignored while discipline is active. -/
def execTrimWrite (v : Word) (s : State) : Ans :=
  s.busDo RTC.TRIM fun s =>
    if s.discNow then s.set RTC.STAT_CMD_IGN 1
    else s.setI RTC.TRIM_TRIM (clampI (sgn 23 v.toNat) 0x3FFFFF)

/-- TRIM_ACCUMULATOR_CARRY (R248): the accumulator has reached ±2^32. -/
def execTrimAccumulatorCarry (s : State) : Ans :=
  if 2 ^ 32 ≤ s.rtc.acc then .next { s with rtc := { s.rtc with acc := s.rtc.acc - 2 ^ 32, sub := s.rtc.sub + 1 } }
  else if s.rtc.acc ≤ -(2 ^ 32) then .next { s with rtc := { s.rtc with acc := s.rtc.acc + 2 ^ 32, skip := s.rtc.skip + 1 } }
  else .next s

/-! ### Moisture clocks (R251, R252) -/

/-- The band of the thermistor ratio (R251). -/
def State.band (s : State) : Nat :=
  let r := s.get HARVEST.NTC_LAST
  if !s.on HARVEST.NTC_NTC_EN || s.on HARVEST.STAT_NTC_OPEN || decide (r ≤ 8) then s.get RTC.MC_CFG_DEF_BAND
  else if s.get RTC.MC_CFG_B1 < r then 0
  else if s.get RTC.MC_CFG_B2 < r then 1
  else if s.get RTC.MC_CFG_B3 < r then 2
  else 3

/-- The weight of a band. -/
def State.weight (s : State) (b : Nat) : Nat :=
  match b with
  | 0 => s.get RTC.MC_WEIGHT_W0
  | 1 => s.get RTC.MC_WEIGHT_W1
  | 2 => s.get RTC.MC_WEIGHT_W2
  | _ => s.get RTC.MC_WEIGHT_W3

/-- COUNT of clock n becomes `x` (R252): expiry when it first reaches LIMIT × 16. -/
def State.setMoisture (s : State) (n x : Nat) : State :=
  let old := s.get (RTC.MC_CNT_COUNT n)
  let lim := s.get (RTC.MC_CTRL_LIMIT n) * 16
  let s := s.set (RTC.MC_CNT_COUNT n) x
  if lim ≠ 0 ∧ old < lim ∧ lim ≤ x then (s.setBit RTC.MC_STAT_EXP n true).set RTC.STAT_MC_EXP_EV 1 else s

/-- COUNT of clock n goes up by `w` and stops at its maximum (R252). -/
def State.mcAdd (s : State) (n w : Nat) : State :=
  let x := s.get (RTC.MC_CNT_COUNT n) + w
  if x < 0x0FFFFFFF then s.setMoisture n x
  else (s.setMoisture n 0x0FFFFFFF).set (RTC.MC_CNT_SAT n) 1

/-- One clock at a moisture tick (R251, R252). -/
def State.moistOne (s : State) (w : Nat) (n : Nat) : State := if s.on (RTC.MC_CTRL_EN n) then s.mcAdd n w else s

/-- MOISTURE_TICK (R251): every 60th second boundary. -/
def execMoistureTick (s : State) : Ans :=
  if !s.rtc.moistDue then .next s
  else
    let b := s.band
    let inc := Vector.ofFn fun n : Fin 10 => if s.on (RTC.MC_CTRL_EN n) then s.weight b else 0
    let s : State := { s.set RTC.MC_STAT_BAND b with rtc := { s.rtc with moistDue := false, mcAt := s.slow, mcInc := inc } }
    .next ((List.range 10).foldl (fun s n => s.moistOne (s.weight b) n) s)

/-- What the moisture tick of this slow-clock period has added to clock n (R252). -/
def State.mcIncNow (s : State) (n : Nat) : Nat := if s.rtc.mcAt = s.slow then s.rtc.mcInc.toList.getD n 0 else 0

/-- COUNT of clock n is written (R252): SAT clears unless the value is the maximum, and an increment of the same slow-clock period
is added to it. -/
def State.mcWrite (s : State) (n x : Nat) : State :=
  let s := s.setMoisture n x
  let s := if x = 0x0FFFFFFF then s else s.set (RTC.MC_CNT_SAT n) 0
  if s.mcIncNow n = 0 then s else s.mcAdd n (s.mcIncNow n)

/-- MC_COUNT_WRITE (R252). -/
def execMcCountWrite (n : Fin 10) (v : Word) (s : State) : Ans :=
  s.busDo (RTC.MC_CNT n) fun s => s.mcWrite n (bits v.toNat 27 0)

end Sys2Proof.Machine
end

