-- ==== Sys2Proof/Machine/Log.lean ====
section
/-!
DEFINITION. The event log (14_management_trust.md, R299 to R303): chip-level reports, lost counters, flushing into the LOG
sectors, and the full resets that flush first (R296, R302).
-/
namespace Sys2Proof.Machine

/-! ### Entries and lost counters (R299 to R301) -/

/-- The class of a source's reports (R300): its region, Security for source 52, Reset and power for SUPPLY and WDOG.
(DEDUCED, log entry 89). -/
def srcClass (src : Nat) : Nat :=
  if src = 52 then 5 else if src = 49 ∨ src = 51 then 6 else srcRegion src

/-- Lost counter `c` goes up by `n` (R16, R300): it stops at 0xFFFF, and OVF is set where it could not count. -/
def State.loseReports (s : State) (c n : Nat) : State :=
  let v := s.log.lost.getD c 0 + n
  { s with log := { s.log with
      lost := s.log.lost.set c (min v 0xFFFF), lostOvf := s.log.lostOvf.set c (s.log.lostOvf.getD c false || decide (0xFFFF < v)) } }

/-- The entry of a report that is made now (R301). -/
def State.logEntry (s : State) (r : Report) (rep : Nat) : LogEntry :=
  { calSec := s.calSecs % 2 ^ 32, subsec := s.subsec, rtcValid := s.on RTC.STAT_VALID, rep := rep, src := r.src, level := r.level
    cls := srcClass r.src, master := r.master, cause := r.cause, detail := r.detail }

/-- A new entry (R299): the oldest of 256 is overwritten, and one that was not flushed is counted. -/
def State.newEntry (s : State) (e : LogEntry) : State :=
  let full := decide (256 ≤ s.log.unflushed)
  let s := if full then s.loseReports 7 1 else s
  { s with log := { s.log with
      entries := (e :: s.log.entries).take 256, unflushed := if full then 256 else s.log.unflushed + 1
      created := min (s.log.created + 1) 0xFFFFFFFF, lastNew := s.tick + 1 } }

/-- REPEAT of the newest entry goes up by `n`; a repeat beyond 0xFFFF is counted as lost (R299). -/
def State.repeatNewest (s : State) (n : Nat) : State :=
  match s.log.entries with
  | [] => s
  | e :: t =>
    let v := e.rep + n
    let s : State := { s with log := { s.log with entries := { e with rep := min v 0xFFFF } :: t } }
    if 0xFFFF < v then s.loseReports e.cls (v - 0xFFFF) else s

/-- The report equals the newest entry, which has not been flushed (R299, case 1). -/
def State.sameAsNewest (s : State) (r : Report) : Bool :=
  match s.log.entries with
  | [] => false
  | e :: _ => decide (0 < s.log.unflushed) && e.src == r.src && e.level == r.level && e.cause == r.cause && e.detail == r.detail

/-- The 16 bytes of an entry (R301). -/
def entryBytes (e : LogEntry) : List Byte :=
  leBytes 4 e.calSec ++ leBytes 2 (e.subsec + 2 ^ 15 * b2n e.rtcValid) ++ leBytes 2 e.rep ++
  leBytes 1 (e.src + 64 * e.level) ++ leBytes 1 (e.cls + 8 * e.master) ++ leBytes 2 e.cause ++ leBytes 4 e.detail

/-! ### Flushing (R302) -/

/-- The LOG sectors, ascending (R266). -/
def State.logSectors (s : State) : List Nat := (List.range 32).filter fun k => s.role k == .log

/-- The sequence of a LOG sector that has its header. -/
def State.logSeq (s : State) (k : Nat) : Option Nat :=
  if s.recWord (secOff k) = 0x474F4C53 then some (s.recWord (secOff k + 4)) else none

/-- The 16-byte slot `i` of a sector is erased. -/
def State.slotBlank (s : State) (k i : Nat) : Bool :=
  [0, 4, 8, 12].all fun j => s.recWord (secOff k + 16 * i + j) == 0xFFFFFFFF

/-- The LOG sector with the newest sequence, its sequence, and its first blank slot where it has one. -/
def State.logHead (s : State) : Option (Nat × Nat × Option Nat) :=
  let l := s.logSectors.filterMap fun k => (s.logSeq k).map fun q => (k, q)
  let best := l.foldl (fun o p => match o with
    | none => some p
    | some x => if newer 32 p.2 x.2 then some p else some x) none
  best.map fun p => (p.1, p.2, ((List.range 127).map (· + 1)).find? fun i => s.slotBlank p.1 i)

/-- The LOG sector after `k`, round-robin. -/
def State.nextLogSector (s : State) (k : Nat) : Nat :=
  match s.logSectors.find? fun j => decide (k < j) with
  | some j => j
  | none => s.logSectors.headD k

/-- A LOG sector starts with a header, erased before where it is not blank. -/
def State.openLog (s : State) (k seq : Nat) : State :=
  let blank := (List.range 128).all fun i => s.slotBlank k i
  let s := if blank then s else s.eraseRange (recAddr (secOff k)) 2048
  (s.pokeWord (recAddr (secOff k)) 0x474F4C53).pokeWord (recAddr (secOff k + 4)) (seq % 2 ^ 32)

/-- One entry written into the LOG sectors; the first sector sequence of all is 1. (DEDUCED, log entry 88). -/
def State.putEntry (s : State) (e : LogEntry) : State :=
  match s.logHead with
  | some (k, _, some i) => s.pokes (recAddr (secOff k + 16 * i)) (entryBytes e)
  | some (k, q, none) =>
    let j := s.nextLogSector k
    (s.openLog j (q + 1)).pokes (recAddr (secOff j + 16)) (entryBytes e)
  | none =>
    let j := s.logSectors.headD 0
    (s.openLog j 1).pokes (recAddr (secOff j + 16)) (entryBytes e)

/-- The unflushed entries go into the LOG sectors, oldest first, by PROGRAM on channel S (R302); where the store is not
mounted or has no LOG sector they stay unflushed (R273). A flush waits for the command in progress (R265).
(DEDUCED, log entry 88). -/
def State.flushLog (s : State) : State :=
  if !s.rs.mounted || s.logSectors.isEmpty || s.log.unflushed == 0 then s
  else if s.rs.cur.isSome then { s with rs := { s.rs with flushDue := true } }
  else
    let s := (s.log.entries.take s.log.unflushed).reverse.foldl State.putEntry s
    let s : State := { s with log := { s.log with unflushed := 0 } }
    if s.on (RECSTORE.C_STATUS_BUSY 1) then s else (s.set (RECSTORE.C_CMD_OP 1) 1).recEnd .s 0

/-- The chip-level report that is handled next: of the pending sources the lowest (R22). (DEDUCED, log entry 89). -/
def State.nextChip (s : State) : Option ChipPend :=
  s.err.chip.foldl (fun o c => match o with
    | none => some c
    | some x => if c.rep.src < x.rep.src then some c else some x) none

/-- A pending chip-level report enters the log (R299): a repeat of the newest entry, or an entry; the further reports counted for
its source go to REPEAT and to the lost counter. -/
def State.logPend (s : State) (c : ChipPend) : State :=
  let s : State := { s with err := { s.err with chip := s.err.chip.erase c } }
  let k := srcClass c.rep.src
  if s.sameAsNewest c.rep then (s.repeatNewest (1 + c.same)).loseReports k c.others
  else (s.newEntry (s.logEntry c.rep (min c.same 0xFFFF))).loseReports k (c.others + (c.same - 0xFFFF))

/-- Every pending chip-level report enters the log, the lowest source first. -/
def State.drainChip (s : State) : State :=
  s.err.chip.foldl (fun s _ => match s.nextChip with
    | some c => s.logPend c
    | none => s) s

/-- A full reset that Scarab causes: pending reports are logged and the log is flushed before (R302); Scarab's SRAM keeps the
entries (R278). The reset follows a flush that waits for the store. (DEDUCED, log entry 88; DEDUCED, log entry 92). -/
def State.scarabReset (s : State) (code : Nat) : State :=
  let s := s.drainChip.flushLog
  if s.rs.flushDue then { s with rs := { s.rs with resetDue := some code } } else s.fullReset code

/-! ### The record store's commands end -/

/-- The store is free (R265): the device's own groups that waited are written, the log is flushed where that is due, and a full
reset that waited for the flush is made (R302). -/
def State.recFreed (s : State) : State :=
  let s := s.rs.own.foldl (fun s ms => (s.writeOwn ms).getD s) ({ s with rs := { s.rs with cur := none, askedAt := none, own := [] } } : State)
  let due := s.rs.resetDue
  let s := if s.rs.flushDue then ({ s with rs := { s.rs with flushDue := false, resetDue := none } } : State).flushLog else s
  match due with
  | some code => s.fullReset code
  | none => s

/-- The command in progress has ended, and the queued command starts (R265). -/
def State.recNext (s : State) : State :=
  let s := s.recFreed
  match s.rs.queued with
  | none => s
  | some (ch, op) =>
    let s : State := { s with rs := { s.rs with queued := none } }
    { s with rs := { s.rs with cur := some (s.recPlan ch op) } }

/-- RECSTORE_COMMAND_DONE (R265, R297): the command in progress completes; `bad`: the programmed word whose read-back mismatched,
at which it stopped with VERIFY_FAIL. (DEDUCED, log entry 83). -/
def execRecstoreCommandDone (bad : Option Nat) (s : State) : Ans :=
  match s.rs.cur with
  | none => .next s
  | some c =>
    match bad with
    | some k =>
      match c.acts[k]? with
      | some (.word o _) =>
        let s := ((s.recActs (c.acts.take k)).badWord (recAddr o)).recEnd c.ch 0x09
        .next ((s.report ⟨3, 0x11, recAddr o, 1, 0, false⟩).recNext)
      | _ => .next s
    | none =>
      let s := s.recActs c.acts
      let s : State := { s with rs := { s.rs with group := c.group, closed := c.closed } }
      .next (((s.recResults c).recEnd c.ch c.result).recNext)

/-- The open group ends as GROUP_ABORT ends it (R272). (DEDUCED, log entry 85). -/
def State.dropGroup (s : State) (ch : Chan) : State :=
  { s.set (RECSTORE.C_GID_GID (chanIdx ch)) 0xFFFF with rs := { s.rs with group := none } }

/-- RECSTORE_ABORT (R274): `done` acts have been carried out; the command ends ABORTED, or, with nothing in progress, TOO_LATE; a
group whose member or close record is cut off is never valid (R273), and ends.
(DEDUCED, log entry 83; DEDUCED, log entry 85). -/
def State.recAbort (s : State) (ch : Chan) (done : Nat) : State :=
  match s.rs.cur with
  | some c =>
    if c.ch = ch then
      let s := s.stopRec c done
      let s := match c.acts[done]? with
        | some (.erase k) => s.halfErased k
        | _ => s
      let s := if c.op = 6 ∨ (c.op = 3 ∧ s.rs.group.isSome) then s.dropGroup ch else s
      (s.recEnd ch 0x08).recNext
    else s.set (RECSTORE.C_STATUS_TOO_LATE (chanIdx ch)) 1
  | none => s.set (RECSTORE.C_STATUS_TOO_LATE (chanIdx ch)) 1

def execRecstoreAbort (ch : Chan) (done : Nat) (s : State) : Ans :=
  s.busDo (RECSTORE.C_CMD (chanIdx ch)) fun s => s.recAbort ch done

/-! ### The commands -/

/-- CHIP_POL after a report has been logged (R296): RESET flushes and makes a full reset; a report forwarded as information
has no policy applied (R21). -/
def State.chipPolicy (s : State) (r : Report) : State :=
  if s.get ERRAGG.CTRL_CHIP_POL = 2 && !r.info then s.scarabReset 8 else s

/-- LOG_REPORT (R299): the pending chip-level report becomes an entry, a repeat of the newest entry, or stays pending. -/
def execLogReport (s : State) : Ans :=
  if !s.domOn .mgt then .next s
  else match s.nextChip with
  | none => .next s
  | some c =>
    if s.sameAsNewest c.rep || s.log.lastNew == 0 || decide (s.log.lastNew + 500 ≤ s.tick + 1) then
      .next ((s.logPend c).chipPolicy c.rep)
    else .next s

/-- LOG_PERIODIC_FLUSH (R302): 10 s have passed since the last one that came of the time, or 64 entries are unflushed.
(DEDUCED, log entry 88). -/
def execLogPeriodicFlush (s : State) : Ans :=
  let late := decide (s.log.flushedAt + 2500000000 ≤ s.tick)
  if !s.domOn .mgt || !(late || decide (64 ≤ s.log.unflushed)) then .next s
  else
    let s : State := if late then { s with log := { s.log with flushedAt := s.tick } } else s
    .next s.flushLog

/-- Every lost counter clears with its OVF (R16). -/
def State.clearLost (s : State) : State :=
  { s with log := { s.log with lost := List.replicate 8 0, lostOvf := List.replicate 8 false } }

/-! ### The Scarab mailbox (R281) -/

/-- A mailbox operation started by CMD with GO = 1, ignored while BUSY; `k`: what it does before its results are left. -/
def State.mboxGo (s : State) (op : Nat) (k : State → State) : Ans :=
  s.busDo MBOX.CMD fun s =>
    let s := s.set MBOX.CMD_OP op
    if s.on MBOX.STAT_BUSY then s
    else k { s.set MBOX.STAT_BUSY 1 with sc := { s.sc with op := some op } }

/-- ATTEST through the mailbox (R281): Scarab begins to sign; MAILBOX_OPERATION_DONE ends it. -/
def execAttest (s : State) : Ans := s.mboxGo 1 id

/-- LOG_FLUSH through the mailbox (R281, R302). -/
def execLogFlush (s : State) : Ans := s.mboxGo 2 State.flushLog

/-- LOG_READ through the mailbox (R281). -/
def execLogRead (s : State) : Ans := s.mboxGo 3 id

/-- A fresh 16-byte challenge, which replaces the one before (R290). (DEDUCED, log entry 98). -/
def State.newChallenge (s : State) : State × List Byte :=
  let (v, s) := s.fresh
  let c := leBytes 16 v
  ({ s with sc := { s.sc with challenge := some c } }, c)

/-- CHALLENGE through the mailbox (R281, R290): the challenge is made when the operation ends. -/
def execChallenge (s : State) : Ans := s.mboxGo 4 id

end Sys2Proof.Machine
end

