-- ==== Sys2Proof/Machine/Persist.lean ====
section
/-!
DEFINITION. The persisted objects (R171): their values in force and their defaults, storing and erasing them as one group of
records, taking them at start-up (R340), and mounting the record store (R273).
-/
namespace Sys2Proof.Machine

/-- A persisted object: index, subindex, size in bytes and default. -/
structure PObj where
  index : Nat
  sub : Nat
  size : Nat
  dflt : Nat
  deriving DecidableEq, Repr

/-- The persisted objects of the spec (R179, R195, the tables of 11_cricket_touch.md and 12_rtc.md). -/
def persisted : List PObj :=
  [⟨0x1001, 1, 1, 0⟩, ⟨0x1001, 2, 1, 0x80⟩, ⟨0x3001, 2, 2, 0x063⟩, ⟨0x4000, 5, 1, 1⟩] ++
  (List.range 10).map (fun n => ⟨0x4020 + n, 2, 4, 0⟩) ++
  [⟨0x6000, 2, 8, 0⟩, ⟨0x6000, 3, 4, 0x04003002⟩, ⟨0x6000, 4, 1, 20⟩]

/-- The value in force of a persisted object. -/
def State.persistedValue (s : State) (p : PObj) : Nat :=
  match p.index, p.sub with
  | 0x1001, 1 => s.get RINGCTL.ADDR_ADDR
  | 0x1001, _ => s.get RINGCTL.CTRL_PRIO
  | 0x3001, _ => s.get AONCTL.WAKE_EN_EN
  | 0x4000, _ => s.get RTC.CTRL_DISC_EN
  | 0x6000, 2 => s.get64 TOUCH.KEYMASK_HI_MASK TOUCH.KEYMASK_LO_MASK
  | 0x6000, 3 => s.readReg TOUCH.THRESH
  | 0x6000, _ => s.get TOUCH.TRACK_HOLD_LIM
  | i, _ => s.readReg (RTC.MC_CTRL (i - 0x4020))

/-- A persisted object takes a value. -/
def State.setPersisted (s : State) (p : PObj) (v : Nat) : State :=
  match p.index, p.sub with
  | 0x1001, 1 => s.set RINGCTL.ADDR_ADDR v
  | 0x1001, _ => s.set RINGCTL.CTRL_PRIO v
  | 0x3001, _ => s.set AONCTL.WAKE_EN_EN v
  | 0x4000, _ => (s.set RTC.CTRL_DISC_EN v).showDisc
  | 0x6000, 2 => (s.set TOUCH.KEYMASK_LO_MASK (v % 2 ^ 32)).set TOUCH.KEYMASK_HI_MASK (v / 2 ^ 32)
  | 0x6000, 3 => s.writeFields (fun _ => true) TOUCH.THRESH v false
  | 0x6000, _ => s.set TOUCH.TRACK_HOLD_LIM v
  | i, _ => s.writeFields (fun _ => true) (RTC.MC_CTRL (i - 0x4020)) v false

/-- The record key of a persisted object. -/
def PObj.key (p : PObj) : Nat := Config.persistKey p.index p.sub

/-- The stored value of an object; a record of LEN 0 leaves it with none (R340). -/
def State.storedValue (s : State) (p : PObj) : Option Nat :=
  match s.winner p.key with
  | some r => if r.len = p.size then some (leNat (s.recData r)) else none
  | none => none

/-- The settings range of an index (R332). -/
def settingsRange (index : Nat) : Nat := if 0x8000 ≤ index ∧ index < 0xC000 then 7 else index / 0x1000 - 1

/-- The settings format of range r in a slot's header (R332). -/
def State.setFmt (s : State) (slot r : Nat) : Nat := s.mem? (slotBase slot + 16 + 2 * r) 2

/-- The settings format stored for range r under key 0xFE00 + r, where there is one (R340). -/
def State.storedFmt (s : State) (r : Nat) : Option Nat :=
  (s.winner (0xFE00 + r)).bind fun x => if x.len = 2 then some (leNat (s.recData x)) else none

/-- The range's format in the slot's image differs from the stored one (R340). -/
def State.fmtDiffers (s : State) (slot r : Nat) : Bool := s.storedFmt r != some (s.setFmt slot r)

/-- The value a persisted object takes at start-up (R171, R340): its stored value, or its default where there is none, or in a
trial whose image has another settings format. -/
def State.startValue (s : State) (p : PObj) : Nat :=
  if s.onTrial && s.fmtDiffers s.boot.slot (settingsRange p.index) then p.dflt else (s.storedValue p).getD p.dflt

/-- The persisted objects take their values at start-up; those of a domain that is not On are not reached,
and recovery mode keeps its own ring settings (R341). -/
def State.loadPersisted (s : State) : State :=
  let s := persisted.foldl (fun s p =>
    if p.index = 0x1001 ∧ (!s.domOn .link ∨ s.boot.recovery) then s else s.setPersisted p (s.startValue p)) s
  { s with boot := { s.boot with loadPend := false } }

/-- The start-up values are taken: at once where the store has mounted, else at its MOUNT (R171, R273). -/
def State.startPersisted (s : State) : State :=
  if s.rs.mounted then s.loadPersisted else { s with boot := { s.boot with loadPend := true } }

/-- 0x1010/0x02 := 0x5A17 (R171): every persisted object whose value in force differs from what it would take at start-up is
stored, as one group; none where the group cannot be written. (DEDUCED, log entry 87). -/
def State.storePersisted (s : State) : Option State :=
  s.ownGroup ((persisted.filter fun p => s.persistedValue p != (s.storedValue p).getD p.dflt).map fun p =>
    (p.key, leBytes p.size (s.persistedValue p)))

/-- 0x1010/0x03 := 0xD0F0 (R171): the stored copies are erased by records of LEN 0. -/
def State.eraseStored (s : State) : Option State :=
  s.ownGroup ((persisted.filter fun p => (s.storedValue p).isSome).map fun p => (p.key, []))

/-- MOUNT (R273): after PD_SYS has powered up; at start-up the persisted objects then take their values.
(DEDUCED, log entry 87). -/
def execMount (s : State) : Ans :=
  if s.rs.mounted || !s.domOn .sys then .next s
  else
    let s := s.mountStore
    .next (if s.boot.loadPend then s.loadPersisted else s)

end Sys2Proof.Machine
end

