-- ==== Sys2Proof/Machine/Ring.lean ====
section
/-!
DEFINITION. The Gnourlink ring (07_gnourlink.md): ports, delay frames, the cycle, slots, the token and acyclic frames, the
hardware queues, forming and re-forming the ring, breaks and healing, and ring sleep.
-/
namespace Sys2Proof.Machine

/-! ### Ports and paths (R142 to R145) -/

/-- The other port. -/
def other (p : Fin 2) : Fin 2 := if p = 0 then 1 else 0

/-- The port is LOST. -/
def State.lost (s : State) (p : Fin 2) : Bool := s.on (PORT.STAT_LOST p)

/-- The transmitter by which the node forwards what it receives on `p` (R143, R144). -/
def State.outPort (s : State) (p : Fin 2) : Fin 2 := if s.lost (other p) then p else other p

/-- The master's transmitter: port B, or port A while port B is LOST (R145). -/
def State.masterPort (s : State) : Fin 2 := if s.lost 1 then 0 else 1

/-- The master's return port: port A, or port B while port A is LOST (R145). (DEDUCED, log entry 53). -/
def State.returnPort (s : State) : Fin 2 := if s.lost 0 then 1 else 0

/-- The node is looped (R144). -/
def State.looped (s : State) : Bool := s.lost 0 != s.lost 1

/-- Both ports are LOST: the node hears its own stream alone (R144). -/
def State.isolated (s : State) : Bool := s.lost 0 && s.lost 1

/-- The node processes what the port receives: a LOST port's stream is heard only as the loop of an isolated node (R144). -/
def State.hears (s : State) (p : Fin 2) : Bool := !s.lost p || s.isolated

/-- What the port receives comes back to the master, which removes its own Cycle Start, the slots and its own frames (R145). -/
def State.isReturn (s : State) (p : Fin 2) : Bool := p == s.returnPort || s.isolated

/-- The ring runs at the node: PD_LINK is On and RSTATE neither DOWN nor SLEEP. -/
def State.ringUp (s : State) : Bool :=
  s.domOn .link && s.get RINGCTL.STAT_RSTATE != 0 && s.get RINGCTL.STAT_RSTATE != 5

/-- A Cycle Start or a CLM is received, or LISTEN entered: the silence of R158 counts from the present tick. -/
def State.hear (s : State) : State := { s with ring := { s.ring with quietAt := s.tick } }

/-- RSTATE changes; IRQ_STAT.STATE_CHG; in LISTEN the silence of R158 begins. -/
def State.setRstate (s : State) (st : Nat) : State :=
  let s := if s.get RINGCTL.STAT_RSTATE = st then s
    else (s.set RINGCTL.STAT_RSTATE st).set RINGCTL.IRQ_STAT_STATE_CHG 1
  if st = 1 then s.hear else if st = 2 then { s with ring := { s.ring with clmAt := none } } else s

/-- LOOP_A and LOOP_B follow the LOST ports (R144). -/
def State.setLoops (s : State) : State :=
  (s.setF RINGCTL.STAT_LOOP_A (s.lost 0)).setF RINGCTL.STAT_LOOP_B (s.lost 1)

/-- BYPASS_HOLD is driven exactly while EN and INSERT are 1 and PD_LINK is On (R157). -/
def State.setBypass (s : State) : State :=
  s.setF RINGCTL.STAT_BYPASS (s.on RINGCTL.CTRL_EN && s.on RINGCTL.CTRL_INSERT && s.domOn .link)

/-- The transmitter by which the node forwards the stream of `p` ends its frame with ABT (R162), where `p` is what it hears. -/
def State.cutStream (s : State) (p : Fin 2) : State := if s.hears p then s.emit (.abt (s.outPort p)) else s

/-- A port becomes LOST, or loses what would have healed it (R142, R162). -/
def State.losePort (s : State) (p : Fin 2) : State :=
  let r := s.get RINGCTL.STAT_RSTATE
  if s.lost p then s.set (PORT.STAT_HEAL_PEND p) 0
  else
    let t := (((if r = 3 ∨ r = 4 then s.cutStream p else s).set (PORT.STAT_LOST p) 1).set (PORT.STAT_HEAL_PEND p) 0).setLoops
    if r = 3 ∨ r = 4 then (t.count RINGCTL.BREAK_CNT_COUNT RINGCTL.BREAK_CNT_OVF).set RINGCTL.IRQ_STAT_BREAK 1 else t

/-- A port loses its signal (R48, R142). -/
def State.loseSignal (s : State) (p : Fin 2) : State :=
  let s := ((s.set (PORT.STAT_SIG p) 0).set (PORT.STAT_ALIGNED p) 0).dropSamples p
  s.count (PORT.LOS_CNT_COUNT p) (PORT.LOS_CNT_OVF p)

/-- Four code or disparity errors (R142). -/
def State.codeErrors (s : State) (p : Fin 2) : State :=
  (List.range 4).foldl (fun s _ => s.count (PORT.CODE_ERR_COUNT p) (PORT.CODE_ERR_OVF p)) s

/-- Why a port becomes LOST (R142): no valid symbol for 200 ns, four errors in 16 symbols, FLT in 4 consecutive symbols,
no signal 100 µs after EN. -/
def execPortLost (p : Fin 2) (why : LostCause) (s : State) : Ans :=
  if !s.domOn .link then .next s
  else match why with
  | .fltReceived => .next ((s.set (PORT.STAT_FLT_RX p) 1).losePort p)
  | .neverSignal =>
    if s.on (PORT.STAT_SIG p) || !s.on RINGCTL.CTRL_EN || decide (s.tick < s.ring.enAt + 25000) then .next s
    else .next (s.losePort p)
  | .noSymbol => .next ((s.loseSignal p).losePort p)
  | .codeErrors => .next (((s.loseSignal p).codeErrors p).losePort p)

/-- PORT_SIGNAL_GAINED (R48, R142): the port detects signal and comma alignment. -/
def execPortSignalGained (p : Fin 2) (s : State) : Ans :=
  if !s.domOn .link || !s.on (PORT.CTRL_EN p) then .next s
  else .next (((s.set (PORT.STAT_SIG p) 1).set (PORT.STAT_ALIGNED p) 1).set (PORT.STAT_FLT_RX p) 0)

/-- A port sets READY in its delay frames (R153). -/
def State.portReady (s : State) (p : Fin 2) : Bool :=
  s.on (PORT.STAT_SIG p) && s.on (PORT.STAT_ALIGNED p) && s.linkValid p && !s.on (PORT.STAT_MISWIRED p) &&
  s.on (PORT.CTRL_EN p) && !s.on (PORT.CTRL_FORCE_FLT p)

/-- A delay frame of the port (R153). -/
def State.dlyFrame (s : State) (p : Fin 2) (resp : Bool) (seq turn : Nat) : DlyFrame :=
  { resp := resp, senderB := p == 1, ready := s.portReady p, seq := seq, turn := turn, addr := s.get RINGCTL.ADDR_ADDR
    heal := if s.on (PORT.STAT_HEAL_PEND p) then some (s.get (PORT.STAT_HEAL_CYC p)) else none }

/-- A master's or follower's path delay in ns, rounded (R146). -/
def State.pathNs (s : State) : Nat :=
  if s.get RINGCTL.STAT_RSTATE = 4 then 0 else (s.get MTIME.PATH_DELAY_D_PATH + 8) / 16

/-- MT at which position `pos` of the present cycle leaves the node (R146). -/
def State.positionAt (s : State) (pos : Nat) : Nat :=
  match s.ring.bLast with
  | some b => b.1 + s.pathNs + 64 + 20 * pos
  | none => s.mt

/-- A delay request may leave now (R153): in a running cycle only in those whose CYCLE is a multiple of 16, from position
50·Tc − 60; before the first Cycle Start and on a LOST port at any time. -/
def State.requestDue (s : State) (p : Fin 2) : Bool :=
  let r := s.get RINGCTL.STAT_RSTATE
  (r != 3 && r != 4) || s.lost p || s.ring.bLast.isNone ||
    (s.get RINGCTL.CYCNUM_CYCLE % 16 == 0 && s.due (s.positionAt (50 * s.get RINGCTL.CYCLE_CUR_TC - 60)))

/-- DELAY_REQUEST_SEND (R48, R153): the port sends a delay request that departs at `t1`. -/
def execDelayRequestSend (p : Fin 2) (t1 : Nat) (s : State) : Ans :=
  if !s.domOn .link || !s.on (PORT.STAT_SIG p) || !s.requestDue p then .next s
  else
    let s := if p = 0 then { s with tm := { s.tm with t1A := some t1 } } else { s with tm := { s.tm with t1B := some t1 } }
    .next (s.emit (.dly p (s.dlyFrame p false 0 0)))

/-- The departure time of the delay request that is out. -/
def State.t1 (s : State) (p : Fin 2) : Option Nat := if p = 0 then s.tm.t1A else s.tm.t1B

/-- DLY_FRAME_RECEIVED (R48, R140, R153): a delay frame, and, of a request, the departure `t3` of the
answer; one whose CRC is wrong is discarded. A neighbour that sends delay frames does not send FLT. -/
def execDlyFrameReceived (p : Fin 2) (f : DlyFrame) (r : Arrival) (t3 : Nat) (s : State) : Ans :=
  if !s.domOn .link then .next s
  else if !r.crcOk then .next (s.count (PORT.CRC_ERR_COUNT p) (PORT.CRC_ERR_OVF p))
  else
    let s := s.set (PORT.STAT_FLT_RX p) 0
    let s := (s.set (PORT.STAT_NBR_ADDR p) f.addr).setF (PORT.STAT_NBR_READY p) f.ready
    let mis := f.senderB == (p == 1)
    let s := if mis then (s.set (PORT.STAT_MISWIRED p) 1).losePort p else s.set (PORT.STAT_MISWIRED p) 0
    -- the port A side of a link adopts HEAL_CYC (R163)
    let s := match f.heal with
      | some h => if p = 0 && s.lost 0 then (s.set (PORT.STAT_HEAL_CYC 0) h).set (PORT.STAT_HEAL_PEND 0) 1 else s
      | none => s
    if f.resp then
      match s.t1 p with
      | some t1 => .next (s.addSample p (16 * ((r.stamp : Int) - (t1 : Int)) - (f.turn : Nat)))
      | none => .next s
    else .next (s.emit (.dly p (s.dlyFrame p true f.seq (16 * (t3 - r.stamp)))))

/-- The loop at a port is removed (R163). -/
def State.healPort (s : State) (p : Fin 2) : State :=
  (((s.set (PORT.STAT_LOST p) 0).set (PORT.STAT_HEAL_PEND p) 0).set RINGCTL.IRQ_STAT_HEAL 1).setLoops

/-- LINK_USABLE (R163): a LOST port has signal, a valid delay, right wiring, and a READY neighbour. The port B side sets
HEAL_CYC; with no cycle running the link heals at once. -/
def execLinkUsable (p : Fin 2) (s : State) : Ans :=
  if !s.domOn .link || !s.lost p || !s.portReady p || !s.on (PORT.STAT_NBR_READY p) then .next s
  else
    let r := s.get RINGCTL.STAT_RSTATE
    if r ≠ 3 ∧ r ≠ 4 then .next (s.healPort p)
    else if p = 1 then
      let c := (s.get RINGCTL.CYCNUM_CYCLE + 3 + 3) / 4 * 4 % 65536
      .next ((s.set (PORT.STAT_HEAL_CYC p) c).set (PORT.STAT_HEAL_PEND p) 1)
    else .next s

/-- The boundary of HEAL_CYC has come, or no cycle runs (R163). -/
def State.healDue (s : State) (p : Fin 2) : Bool :=
  let r := s.get RINGCTL.STAT_RSTATE
  match s.ring.bLast with
  | none => true
  | some (b, cyc) =>
    let h := s.get (PORT.STAT_HEAL_CYC p)
    (r != 3 && r != 4) || !newer 16 h cyc || s.due (b + (h + 65536 - cyc) % 65536 * 1000 * s.get RINGCTL.CYCLE_CUR_TC)

/-- LINK_HEAL (R163): the boundary of HEAL_CYC, with the port still usable. -/
def execLinkHeal (p : Fin 2) (s : State) : Ans :=
  if s.domOn .link && s.on (PORT.STAT_HEAL_PEND p) && s.portReady p && s.on (PORT.STAT_NBR_READY p) && s.healDue p
  then .next (s.healPort p) else .next s

/-! ### The queues (R154) -/

/-- QUEUE_TAIL_WRITE (R154): software hands entries over. -/
def execQueueTailWrite (q : Fin 8) (v : Word) (s : State) : Ans :=
  s.busDo (LINKQ.Q_TAIL q) fun s => s.set (LINKQ.Q_TAIL_TAIL q) (bits v.toNat 7 0)

/-! ### The cycle (R146 to R149) -/

/-- What every boundary does at a node (R148, R149, R155, R189): slot settings take effect, and the cycle's lists begin anew. -/
def State.newCycle (s : State) (b cyc : Nat) : State :=
  let s := s.set RINGCTL.CYCNUM_CYCLE cyc
  let s : State := { s with ring := { s.ring with
    bLast := some (b, cyc), bestKey := none, slotEn := s.on RINGCTL.SLOT_EN, slotLen := s.get RINGCTL.SLOT_LEN
    slotIdx := s.get RINGCTL.SLOT_IDX, slotPos := s.get RINGCTL.SLOT_POS, slotDone := false, tokSent := false
    stored := [], srcsPrev := s.ring.srcs, srcs := [] } }
  let s : State := { s with dict := { s.dict with barrierHold := false } }
  (s.snapCycle cyc).pulse 0x78 1

/-- Slot mute by an accepted Cycle Start's phase error (R164). -/
def State.slotMute (s : State) (e : Int) : State :=
  if 320 < e.natAbs then
    let s := s.set RINGCTL.STAT_GOOD 0
    if s.on RINGCTL.STAT_MUTED then s
    else ((s.set RINGCTL.STAT_MUTED 1).set RINGCTL.IRQ_STAT_MUTE 1).count RINGCTL.MUTE_CNT_COUNT RINGCTL.MUTE_CNT_OVF
  else if !s.on RINGCTL.STAT_MUTED then s
  else if e.natAbs < 80 then
    let g := s.get RINGCTL.STAT_GOOD + 1
    if 16 ≤ g then (s.set RINGCTL.STAT_GOOD 16).set RINGCTL.STAT_MUTED 0 else s.set RINGCTL.STAT_GOOD g
  else s.set RINGCTL.STAT_GOOD 0

/-- What a follower reads from a Cycle Start about ring sleep (R165, R166). -/
def State.seeSleep (s : State) (f : CycleStart) : State :=
  if getBit f.flags 0 then
    { (s.set RINGCTL.SLEEP_CYC_T f.sleepCyc).set RINGCTL.SLEEP_PEND 1 with ring := { s.ring with sleepT := some f.sleepCyc } }
  else { s.set RINGCTL.SLEEP_PEND 0 with ring := { s.ring with sleepT := none } }

/-- A master that another node's election ends becomes a follower in HOLDOVER (R51). -/
def State.unseated (s : State) : State :=
  if s.get MTIME.STATUS_STATE = 4 then
    let s := (s.set MTIME.SERVO_INT_I (s.get MTIME.MASTER_TRIM_TRIM)).freqHold
    { s.setSync 3 with tm := { s.tm with hoEntry := s.mt, hoExpired := false } }
  else s

/-- The wake reasons clear at an accepted Cycle Start (R168); while it still announces the sleep they stay, for a veto or for the
wake after the sleep (R166, R167). (DEDUCED, log entry 52). -/
def State.clearReasons (s : State) (f : CycleStart) : State :=
  if getBit f.flags 0 then s else (s.set RINGCTL.WAKE_REQ 0).set RINGCTL.STAT_HELD 0

/-- A follower accepts a Cycle Start (R148, R49, R50, R164, R168); a node that was master before a ring sleep is unseated by it
(R51). (DEDUCED, log entry 52). -/
def State.acceptCs (s : State) (p : Fin 2) (t : Nat) (f : CycleStart) : State :=
  let s := (s.unseated.set RINGCTL.CYCLE_CUR_TC f.tc).set RINGCTL.ACYC_CUR_POS f.acycPos
  let d := f.corr + s.linkDly p
  let e := phaseError f.tm d t
  let s := s.servoAccept f.tm d t
  let s := (s.set RINGCTL.MASTER_ADDR f.master).setF RINGCTL.STAT_WRAP (getBit f.flags 2)
  let s := s.clearReasons f
  let s : State := { s with ring := { s.ring with lastCyc := some f.cyc, slotBy := s.outPort p } }
  let s := ((s.seeSleep f).slotMute e).newCycle f.tm f.cyc
  if s.get RINGCTL.STAT_RSTATE = 1 then s.setRstate 3 else s

/-- The copy of a Cycle Start that the node forwards (R143). -/
def State.forwardCs (s : State) (p : Fin 2) (f : CycleStart) : State :=
  let fl := if s.looped then f.flags ||| 4 else f.flags
  s.emit (.cs (s.outPort p) { f with corr := f.corr + s.linkDly p + 1024, flags := fl })

/-- A frame whose CRC is wrong (R143): counted, and ended with ABT where the node forwards it. -/
def State.badFrame (s : State) (p : Fin 2) (forwarded : Bool) : State :=
  let s := s.count (PORT.CRC_ERR_COUNT p) (PORT.CRC_ERR_OVF p)
  if forwarded then s.emit (.abt (s.outPort p)) else s

/-- Two copies of one Cycle Start, which differ at most in CORR and WRAP (R143). -/
def sameCs (f g : CycleStart) : Bool := { f with corr := 0, flags := f.flags &&& 3 } == { g with corr := 0, flags := g.flags &&& 3 }

/-- CYCLE_START_RECEIVED (R148): a Cycle Start arrives on port `p` at stamp `t`; `crcOk`: its CRC is right.
(DEDUCED, log entry 53). -/
def execCycleStartReceived (p : Fin 2) (t : Nat) (f : CycleStart) (crcOk : Bool) (s : State) : Ans :=
  let r := s.get RINGCTL.STAT_RSTATE
  if !s.ringUp || !s.hears p then .next s
  else if !crcOk then .next (s.badFrame p (r != 4 || !s.isReturn p))
  else if r = 4 then
    if s.ring.sent4.any (sameCs f) then
      .next (if s.isReturn p then s.setF RINGCTL.STAT_WRAP (getBit f.flags 2) else s.forwardCs p f)
    else .next ((s.setRstate 2).forwardCs p f)
  else
    let s := s.hear
    if r = 2 || !s.linkValid p || s.ring.lastCyc == some f.cyc then .next (s.forwardCs p f)
    else .next ((s.forwardCs p f).acceptCs p t f)

/-- A wake reason that R166 lets veto the sleep. (DEDUCED, log entry 52). -/
def State.wakeReason (s : State) : Bool := s.on RINGCTL.WAKE_REQ || s.on RINGCTL.STAT_HELD

/-- The master cancels an announced sleep (R166), unless the Cycle Start of cycle T − 1 has been sent. -/
def State.sleepCancel (s : State) : State :=
  match s.ring.sleepT with
  | none => s
  | some t =>
    if s.get RINGCTL.STAT_RSTATE ≠ 4 || s.get RINGCTL.CYCNUM_CYCLE == (t + 65535) % 65536 then s
    else
      { (s.set RINGCTL.SLEEP_PEND 0).set RINGCTL.IRQ_STAT_CANCELLED 1 with
        ring := { s.ring with sleepT := none, cancelLeft := 4 } }

/-- CYCLE_START_SEND (R145 to R147, R160, R165, R166): the master's next boundary, but not the boundary of the sleep cycle.
(DEDUCED, log entry 52). -/
def execCycleStartSend (s : State) : Ans :=
  match s.ring.nextB with
  | none => .next s
  | some (b, cyc) =>
    if s.get RINGCTL.STAT_RSTATE ≠ 4 || !s.domOn .link || !s.due b || s.ring.sleepT == some cyc then .next s
    else
      let s := (s.setSync 4).timeRise
      let s := if s.wakeReason then s.sleepCancel else s
      let s := (s.set RINGCTL.CYCLE_CUR_TC (s.get RINGCTL.CYCLE_TC_US)).set RINGCTL.ACYC_CUR_POS (s.get RINGCTL.ACYC_POS)
      let tc := s.get RINGCTL.CYCLE_CUR_TC
      let cancel := decide (0 < s.ring.cancelLeft)
      let f : CycleStart := {
        tm := b, corr := 1024, cyc := cyc, tc := tc, acycPos := s.get RINGCTL.ACYC_CUR_POS
        master := s.get RINGCTL.ADDR_ADDR, flags := b2n s.ring.sleepT.isSome + 2 * b2n cancel
        sleepCyc := s.ring.sleepT.getD 0 }
      let s : State := { s with ring := { s.ring with
        nextB := some (b + tc * 1000, (cyc + 1) % 65536), sent4 := (f :: s.ring.sent4).take 4, slotBy := s.masterPort
        cancelLeft := s.ring.cancelLeft - 1 } }
      .next ((s.newCycle b cyc).emit (.cs s.masterPort f))

/-- The instant at which the node's slot leaves it (R149). -/
def State.slotInstant (s : State) : Option Nat :=
  s.ring.bLast.map fun b => b.1 + s.pathNs + 64 + 20 * s.ring.slotPos

/-- The cycle whose slot comes next, and its instant and bytes (R149, R155): the present cycle's, or, once that has been sent or has
passed, the next one's, for which the settings in the registers take effect at the boundary. -/
def State.nextSlot (s : State) : Option (Nat × Nat × Nat) :=
  s.ring.bLast.map fun b =>
    let t := b.1 + s.pathNs + 64 + 20 * s.ring.slotPos
    if s.ring.slotDone || decide (t + 4 ≤ s.mt) then
      ((b.2 + 1) % 65536, b.1 + 1000 * s.get RINGCTL.CYCLE_CUR_TC + s.pathNs + 64 + 20 * s.get RINGCTL.SLOT_POS, 8 * s.get RINGCTL.SLOT_LEN)
    else (b.2, t, 8 * s.ring.slotLen)

/-- The conditions of R149 for sending a slot. -/
def State.slotAllowed (s : State) : Bool :=
  let r := s.get RINGCTL.STAT_RSTATE
  let st := s.get MTIME.STATUS_STATE
  s.domOn .link && s.ring.slotEn && !s.ring.slotDone && (r == 3 || r == 4) && (st == 2 || st == 4) && !s.on RINGCTL.STAT_MUTED &&
  decide (27 ≤ s.ring.slotPos) && decide (s.ring.slotPos + 8 * s.ring.slotLen + 9 ≤ s.get RINGCTL.ACYC_CUR_POS)

/-- The cyclic TX queue of a port (R155). -/
def State.cyclicQ (s : State) (p : Fin 2) : Nat := if s.on LINKQ.CTRL_TX_COMMON || p = 0 then 0 else 4

/-- A payload of exactly 8·L bytes. -/
def padTo (n : Nat) (l : List Byte) : List Byte := (l ++ List.replicate n 0).take n

/-- A payload of `n` bytes with its STALE and DICT, and the queue it came from. -/
abbrev SlotPay := List Byte × Bool × Bool × Option Nat

/-- The last payload again, or zeros, as STALE (R155). -/
def State.stalePay (s : State) (n : Nat) : SlotPay :=
  (padTo n ((if s.ring.slotBy = 0 then s.ring.lastPayA else s.ring.lastPayB).getD []), true, false, none)

/-- The payload of `n` bytes for the slot (R155, R188): a snapshot chunk, the entry at QHEAD, or the last payload; an entry that a
march test holds off is not there (R263). (DEDUCED, log entry 55). -/
def State.takePayload (s : State) (n : Nat) : State × SlotPay :=
  let q := s.cyclicQ s.ring.slotBy
  match s.snapChunk n with
  | some d => (s, padTo n d, false, true, none)
  | none =>
    let a := s.descAddr q (s.get (LINKQ.Q_HEAD_HEAD q))
    let b := s.descWord a
    let len := min n (s.descWord (a + 4) % 2 ^ 16)
    if s.queueHas q && !s.marchHolds a 16 && !s.marchHolds b len then
      let (s, d) := s.dmaRead .linkq b len
      (s, padTo n d, false, false, some q)
    else (s, s.stalePay n)

/-- SLOT_PAYLOAD_FETCH (R155, R188): 2 µs before the slot instant the payload is fetched. (DEDUCED, log entry 55). -/
def execSlotPayloadFetch (s : State) : Ans :=
  match s.nextSlot with
  | none => .next s
  | some (cyc, t, n) =>
    if !s.ringUp || !s.due (t - 2000) then .next s
    else
      let (s, x) := s.takePayload n
      .next { s with ring := { s.ring with fetched := some x, fetchCyc := cyc } }

/-- The payload that a slot of `n` bytes sends: the one fetched for its cycle, else what is there now (R155). -/
def State.slotPayload (s : State) (n : Nat) : State × SlotPay :=
  match s.ring.fetched with
  | some x => if s.ring.fetchCyc = s.get RINGCTL.CYCNUM_CYCLE then (s, x) else s.takePayload n
  | none => s.takePayload n

/-- The slot leaves the node at MT `t` with a payload (R149, R155, R166). -/
def State.sendSlot (s : State) (t : Nat) (x : SlotPay) : State :=
  let p := s.ring.slotBy
  let (d, stale, dict, q) := x
  let veto := s.ring.sleepT.isSome && s.wakeReason
  let s := match q with
    | some q => (s.finishEntry q (s.get (LINKQ.Q_HEAD_HEAD q)) t 0).advanceHead q
    | none => s
  let s : State := { s with ring := { s.ring with
    fetched := none
    lastPayA := if p = 0 && !dict then some d else s.ring.lastPayA
    lastPayB := if p = 1 && !dict then some d else s.ring.lastPayB } }
  s.emit (.slot p s.ring.slotIdx (s.get RINGCTL.ADDR_ADDR) (b2n veto + 2 * b2n stale + 4 * b2n dict) (padTo (8 * s.ring.slotLen) d))

/-- SLOT_SEND (R149, R166): the slot instant; `busy`: the forwarded stream is not IDLE. (DEDUCED, log entry 55). -/
def execSlotSend (busy : Bool) (s : State) : Ans :=
  match s.slotInstant with
  | none => .next s
  | some t =>
    if !s.slotAllowed || !s.due t then .next s
    else
      let s : State := { s with ring := { s.ring with slotDone := true } }
      if busy then .next (s.count RINGCTL.SLOT_COLL_COUNT RINGCTL.SLOT_COLL_OVF)
      else
        let (s, x) := s.slotPayload (8 * s.ring.slotLen)
        .next (s.sendSlot t x)

/-- A slot index that SUB0 to SUB3 select (R155). -/
def State.subscribed (s : State) (i : Nat) : Bool :=
  match i / 32 with
  | 0 => s.bit (LINKQ.SUB_SUB 0) (i % 32)
  | 1 => s.bit (LINKQ.SUB_SUB 1) (i % 32)
  | 2 => s.bit (LINKQ.SUB_SUB 2) (i % 32)
  | _ => s.bit (LINKQ.SUB_SUB 3) (i % 32)

/-- SLOT_RECEIVED (R155, R166, R189): a slot arrives on port `p`. (DEDUCED, log entry 53). -/
def execSlotReceived (p : Fin 2) (f : SlotFrame) (r : Arrival) (s : State) : Ans :=
  let removed := s.get RINGCTL.STAT_RSTATE == 4 && s.isReturn p
  if !s.ringUp || !s.hears p then .next s
  else if !r.crcOk then .next (s.badFrame p !removed)
  else
    let s := if removed then s else s.emit (.slot (s.outPort p) f.idx f.src f.flags f.data)
    let s : State := { s with ring := { s.ring with srcs := f.src :: s.ring.srcs.filter (· ≠ f.src) } }
    let s := if getBit f.flags 0 then s.sleepCancel else s
    let s := if getBit f.flags 2 then s.snapCollect f.src f.data else s
    if !s.subscribed f.idx || s.ring.stored.contains f.idx then .next s
    else
      let s : State := { s with ring := { s.ring with stored := f.idx :: s.ring.stored } }
      .next (s.rxStore (if p = 0 then 2 else 6) 0 f.src r.stamp (f.flags * 2 ^ 16 + f.idx * 2 ^ 8) f.data).1

/-! ### Token and acyclic frames (R150 to R152) -/

/-- Positions an acyclic frame occupies (R151). -/
def acyclicPositions (f : AcyclicFrame) : Nat :=
  11 + f.payload.length + (if f.duid.isSome then 8 else 0) + (if f.suid.isSome then 8 else 0)

/-- The last position of the acyclic window (R150). -/
def State.acycEnd (s : State) : Nat := 50 * s.get RINGCTL.CYCLE_CUR_TC - 63

/-- The acyclic TX queue of a port. -/
def acyclicQ (p : Fin 2) : Nat := if p = 0 then 1 else 5

/-- The node's own UID. -/
def ownUid : Nat := Config.uniqueId.toNat

/-- The frame of entry `i` of an acyclic TX queue (R151, R154, R156): at most 512 payload bytes, after the 8 of a DUID. -/
def State.txFrame (s : State) (q i : Nat) : State × AcyclicFrame :=
  let a := s.descAddr q i
  let w1 := s.descWord (a + 4)
  let dest := bits w1 23 16
  let (s, d) := s.dmaRead .linkq (s.descWord a) (min (bits w1 15 0) (if dest = 0 then 520 else 512))
  (s, s.ownFrameTo dest (some (field d 0 8)) (bits w1 31 24) (if dest = 0 then d.drop 8 else d))

/-- The first entry of an acyclic TX queue that has not been sent (R150): the one after those that are on the ring.
(DEDUCED, log entry 50). -/
def State.txPending (s : State) (q : Nat) : Option Nat :=
  let out := (s.ring.txOut.filter fun x => x.1 == q).length
  let size := s.get (LINKQ.Q_CFG_SIZE q)
  let h := s.get (LINKQ.Q_HEAD_HEAD q)
  let wait := (s.get (LINKQ.Q_TAIL_TAIL q) + size - h) % size
  if s.on (LINKQ.Q_CFG_EN q) && decide (out < wait) then some ((h + out) % size) else none

/-- DICTENG's own first frame and the others; a barrier waits for the cycle after its request (R191). -/
def State.ownFrame (s : State) : Option (DictFrame × List DictFrame) :=
  match s.dict.out with
  | f :: t => if s.dict.barrierHold && f.id == s.dict.barrierId then none else some (f, t)
  | [] => none

/-- The node sends one acyclic frame in the place of a token at position `pos`: DICTENG's own first frame, else the entry of the
queue. (DEDUCED, log entry 50). -/
def State.sendAcyclic (s : State) (p : Fin 2) (pos : Nat) : Option State :=
  let room := s.acycEnd - pos
  match s.ownFrame with
  | some (f, t) =>
    if acyclicPositions f.frame + 1 ≤ room then
      some (({ s with dict := { s.dict with out := t, onRing := s.dict.onRing ++ [(f, s.positionAt pos)] } } : State).emit
        (.acyc p f.frame))
    else none
  | none =>
    let q := acyclicQ p
    match s.txPending q with
    | none => none
    | some i =>
      let (s, f) := s.txFrame q i
      if acyclicPositions f + 1 ≤ room then
        let s : State := { s with ring := { s.ring with txOut := s.ring.txOut ++ [(q, i, s.positionAt pos)] } }
        some (s.emit (.acyc p f))
      else none

/-- TOK_SEND (R150): the master sends the token at ACYC_POS. -/
def execTokSend (s : State) : Ans :=
  match s.ring.bLast with
  | none => .next s
  | some (b, _) =>
    if s.get RINGCTL.STAT_RSTATE ≠ 4 || !s.domOn .link || s.ring.tokSent ||
        !s.due (b + 64 + 20 * s.get RINGCTL.ACYC_CUR_POS) then .next s
    else .next (({ s with ring := { s.ring with tokSent := true } } : State).emit (.tok s.masterPort))

/-- TOK_RECEIVED (R150): a token arrives on port `p` at position `pos`; the node sends one frame and then the token, or
forwards it; one that arrives too late is removed. An entry that a march test holds off is not pending (R263). -/
def execTokReceived (p : Fin 2) (pos : Nat) (s : State) : Ans :=
  if !s.ringUp || !s.hears p then .next s
  else if s.acycEnd < pos then .next s
  else
    let o := s.outPort p
    match s.sendAcyclic o pos with
    | some s' => .next (s'.emit (.tok o))
    | none => .next (s.emit (.tok o))

/-- The node is the frame's source (R152). -/
def State.isSource (s : State) (f : AcyclicFrame) : Bool :=
  let a := s.get RINGCTL.ADDR_ADDR
  (f.src != 0 && f.src == a) || (f.src == 0 && f.suid == some ownUid)

/-- The node is a destination of the frame (R152). -/
def State.isDest (s : State) (f : AcyclicFrame) : Bool :=
  let a := s.get RINGCTL.ADDR_ADDR
  (f.dest != 0 && f.dest == a) || (f.dest == 0 && f.duid == some ownUid) || f.dest == 127

/-- The result of a frame that returned to its source (R152). -/
def ackResult (f : AcyclicFrame) (crcOk : Bool) : Nat :=
  if !crcOk then 5
  else if getBit f.ack 2 then 3
  else if getBit f.ack 1 then 2
  else if getBit f.ack 0 || f.dest == 127 then 0
  else 1

/-- The oldest outstanding TX entry completes with a result (R152, R154). (DEDUCED, log entry 50). -/
def State.completeTx (s : State) (ack res : Nat) : State :=
  match s.ring.txOut with
  | [] => s
  | (q, i, t) :: rest =>
    (({ s with ring := { s.ring with txOut := rest } } : State).finishEntry q i t (ack * 2 ^ 16 + res)).advanceHead q

/-- A destination stores a frame whose SOF came at MT `t` (R152, R174): the new state and the ACK bits it sets. -/
def State.storeFrame (s : State) (p : Fin 2) (t : Nat) (f : AcyclicFrame) : State × Nat :=
  if f.typ = 1 then
    if !s.on DICTENG.CTRL_EN_RING || 4 ≤ s.ringReqs then (s, 2)
    else (s.acceptReq (if f.dest = 127 then .bcast f.src else .ring f.src f.suid) f.payload, 1)
  else if f.typ = 2 then (s.dictReturn f.src f.payload, 1)
  else if f.typ = 3 then (s.publishSeen f.src f.payload, 1)
  else if 0x40 ≤ f.typ ∧ f.typ ≤ 0x7F then
    let (s, ok) := s.rxStore (if p = 0 then 3 else 7) f.typ f.src t (f.hops * 2 ^ 8) f.payload
    (s, if ok then 1 else 2)
  else (s, 4)

/-- The oldest frame of this node on the ring is one of DICTENG's (R152): frames come back in the order in which they were sent.
(DEDUCED, log entry 50). -/
def State.dictOlder (s : State) : Bool :=
  match s.dict.onRing, s.ring.txOut with
  | [], _ => false
  | _ :: _, [] => true
  | (_, t) :: _, (_, _, u) :: _ => decide (t ≤ u)

/-- The oldest frame of this node on the ring ends with an ACK byte and a result (R152). (DEDUCED, log entry 50). -/
def State.frameBack (s : State) (ack res : Nat) : State :=
  if !s.dictOlder then s.completeTx ack res
  else match s.dict.onRing with
    | [] => s
    | (f, _) :: l => ({ s with dict := { s.dict with onRing := l } } : State).dictFrameBack f res

/-- At most `k` entries of a queue that were not sent end with result LOST; their STAMP stays as it is.
(DEDUCED, log entry 49). -/
def State.dropQueue (q : Nat) : Nat → State → State
  | 0, s => s
  | k + 1, s =>
    if s.queueHas q then
      let i := s.get (LINKQ.Q_HEAD_HEAD q)
      State.dropQueue q k ((s.finishEntry q i (s.mem? (s.descAddr q i + 8) 4) 4).advanceHead q)
    else s

/-- Every pending acyclic TX entry ends with result LOST (R161), on the ring or not. (DEDUCED, log entry 49). -/
def State.dropTx (s : State) : State :=
  let s := (List.range (s.dict.onRing.length + s.ring.txOut.length)).foldl (fun s _ => s.frameBack 0 4) s
  State.dropQueue 5 256 (State.dropQueue 1 256 s)

/-- ACYCLIC_FRAME_RECEIVED (R151, R152): a frame arrives on port `p`. -/
def execAcyclicFrameReceived (p : Fin 2) (f : AcyclicFrame) (r : Arrival) (s : State) : Ans :=
  if !s.ringUp || !s.hears p then .next s
  else
    let o := s.outPort p
    if s.isSource f then
      let s := s.frameBack f.ack (ackResult f r.crcOk)
      .next (if r.crcOk then s.emit (.abt o) else s.badFrame p true)
    else if !r.crcOk then .next (s.badFrame p true)
    else if 255 ≤ f.hops then .next ((s.count RINGCTL.ORPHAN_COUNT RINGCTL.ORPHAN_OVF).emit (.abt o))
    else if s.isDest f then
      let (s, bit) := s.storeFrame p r.stamp f
      .next (s.emit (.acyc o { f with hops := f.hops + 1, ack := f.ack ||| bit }))
    else .next (s.emit (.acyc o { f with hops := f.hops + 1 }))

/-- Two periods have passed since the MT `t` (R152). -/
def State.txLate (s : State) (t : Nat) : Bool := s.due (t + 2 * s.get RINGCTL.CYCLE_CUR_TC * 1000)

/-- The MT at which the oldest frame of this node on the ring was sent. -/
def State.oldestSent (s : State) : Option Nat :=
  if s.dictOlder then s.dict.onRing.head?.map (·.2) else s.ring.txOut.head?.map (·.2.2)

/-- ACYCLIC_TX_LOST (R152, R175, R191): the oldest frame has not returned two periods after it was sent. -/
def execAcyclicTxLost (s : State) : Ans :=
  match s.oldestSent with
  | none => .next s
  | some t => .next (if s.domOn .link && s.txLate t then s.frameBack 0 4 else s)

/-! ### Forming the ring (R158 to R161) -/

/-- CTRL.EN has become 1: the 100 µs of R142 begin. -/
def State.noteEn (s : State) (was : Bool) : State :=
  if was then s else { s with ring := { s.ring with enAt := s.tick } }

/-- RING_ENABLE (R158): RINGCTL.CTRL written with EN = 1. -/
def execRingEnable (v : Word) (s : State) : Ans :=
  s.busDo RINGCTL.CTRL fun s =>
    let en := s.on RINGCTL.CTRL_EN
    let s := (s.writeFields (fun f => !f.row) RINGCTL.CTRL v.toNat false).set RINGCTL.CTRL_EN 1
    let s := s.setBypass.noteEn en
    if s.get RINGCTL.STAT_RSTATE = 0 && s.on AONCTL.MODE_DOCKED && s.domOn .link then s.setRstate 1 else s

/-- RING_DISABLE (R158): RINGCTL.CTRL written with EN = 0. -/
def execRingDisable (v : Word) (s : State) : Ans :=
  s.busDo RINGCTL.CTRL fun s =>
    let s := (s.writeFields (fun f => !f.row) RINGCTL.CTRL v.toNat false).set RINGCTL.CTRL_EN 0
    s.setBypass.setRstate 0

/-- LISTEN_TIMEOUT (R158): 100 µs in LISTEN with neither a Cycle Start nor a CLM received. -/
def execListenTimeout (s : State) : Ans :=
  if s.get RINGCTL.STAT_RSTATE = 1 && s.domOn .link && decide (s.ring.quietAt + 25000 ≤ s.tick) && s.on RINGCTL.CTRL_INSERT &&
      (s.on RINGCTL.CTRL_MASTER_CAP || (s.lost 0 && s.lost 1)) then .next (s.setRstate 2)
  else .next s

/-- FOLLOWER_TIMEOUT (R158): MT has advanced 8 × CUR_TC since the last accepted Cycle Start. -/
def execFollowerTimeout (s : State) : Ans :=
  match s.tm.tLast with
  | none => .next s
  | some t =>
    if s.get RINGCTL.STAT_RSTATE = 3 && s.domOn .link && s.on RINGCTL.CTRL_MASTER_CAP &&
        s.due (t + 8000 * s.get RINGCTL.CYCLE_CUR_TC) then .next (s.setRstate 2)
    else .next s

/-- CLM_SEND (R159): a claimant sends its CLM on both ports. -/
def execClmSend (s : State) : Ans :=
  if s.get RINGCTL.STAT_RSTATE ≠ 2 || !s.domOn .link || s.ring.clmAt.any (fun t => decide (s.tick < t + 2000)) then .next s
  else
    let s : State := { s with ring := { s.ring with clmAt := some s.tick } }
    let run := s.get MTIME.STATUS_STATE != 0
    let pr := s.get RINGCTL.CTRL_PRIO
    .next ((s.emit (.clm 0 Config.uniqueId pr run)).emit (.clm 1 Config.uniqueId pr run))

/-- The first boundary of a new master and its CYCLE (R160). -/
def State.firstBoundary (s : State) : Nat × Nat :=
  let tc := s.get RINGCTL.CYCLE_CUR_TC * 1000
  let least := s.mt + 8000
  if s.get MTIME.STATUS_STATE = 0 then (0, 0)
  else match s.ring.bLast with
    | some (b, cyc) =>
      let k := if least ≤ b then 0 else (least - b + tc - 1) / tc
      (b + k * tc, (cyc + k) % 65536)
    | none =>
      let k := (least + tc - 1) / tc
      (k * tc, k % 65536)

/-- The winner of an election, as far as the node knows it (R159). -/
def State.setWinner (s : State) (prio uid : Nat) : State :=
  ((s.set RINGCTL.MASTER_PRIO prio).set RINGCTL.MASTER_UID_LO_UID (uid % 2 ^ 32)).set RINGCTL.MASTER_UID_HI_UID (uid / 2 ^ 32)

/-- The servo of a node that is elected (R51): a follower's I becomes MASTER_TRIM, and the timebase runs at it. A master elected
again keeps its trim (R160). -/
def State.trimElected (s : State) : State :=
  if s.get MTIME.STATUS_STATE = 4 then s
  else
    let s := (s.set MTIME.MASTER_TRIM_TRIM (s.get MTIME.SERVO_INT_I)).set MTIME.SERVO_FREQ_F (s.get MTIME.SERVO_INT_I)
    { s with tm := { s.tm with fNext := none, stepNext := none, syncinLast := none, syncinGood := 0 } }

/-- The node is elected (R51, R160). -/
def State.elected (s : State) : State :=
  let s := ((s.setRstate 4).set RINGCTL.IRQ_STAT_ELECTED 1).trimElected
  let b := s.firstBoundary
  let s : State := { s with ring := { s.ring with nextB := some b, sent4 := [], sleepT := none, cancelLeft := 0 } }
  let s := (s.set RINGCTL.MASTER_ADDR (s.get RINGCTL.ADDR_ADDR)).setWinner (s.get RINGCTL.CTRL_PRIO) ownUid
  let s := s.set RINGCTL.STAT_MUTED 0
  if s.get MTIME.STATUS_STATE = 0 then s else s.setSync 4

/-- A claim passes the node: the lowest key since the last Cycle Start is the winner's, as far as the node knows (R159). -/
def State.noteClaim (s : State) (prio uid : Nat) : State :=
  let key := prio * 2 ^ 64 + uid
  if s.ring.bestKey.any fun k => decide (k ≤ key) then s
  else { s.setWinner prio uid with ring := { s.ring with bestKey := some key } }

/-- CLM_RECEIVED (R159, R160): a claim of `uid` with priority `prio` arrives on port `p`. -/
def execClmReceived (p : Fin 2) (uid : BitVec 64) (prio : BitVec 8) (run : Bool) (crcOk : Bool) (s : State) : Ans :=
  let o := s.outPort p
  if !s.ringUp || !s.hears p then .next s
  else if !crcOk then .next (s.badFrame p true)
  else
    let s := s.hear
    let key := prio.toNat * 2 ^ 64 + uid.toNat
    let own := s.get RINGCTL.CTRL_PRIO * 2 ^ 64 + ownUid
    if s.get RINGCTL.STAT_RSTATE ≠ 2 then .next ((s.noteClaim prio.toNat uid.toNat).emit (.clm o uid prio.toNat run))
    else if key = own then .next (s.elected.emit (.abt o))
    else if key < own then
      .next ((((s.noteClaim prio.toNat uid.toNat).unseated).setRstate 1).emit (.clm o uid prio.toNat run))
    else .next (s.emit (.abt o))

/-- A ring reset at this node (R47, R161, R184, R190). (DEDUCED, log entry 49). -/
def State.ringReset (s : State) : State :=
  let s := (s.setRstate 1).set RINGCTL.IRQ_STAT_RESET 1
  let s := if s.get MTIME.STATUS_STATE = 4 then s.set MTIME.SERVO_INT_I (s.get MTIME.MASTER_TRIM_TRIM) else s
  let s := ((s.freqHold.set MTIME.STATUS_GOOD_CNT 0).set MTIME.SERVO_ERR_E 0).timeFall
  let s := (s.setSync 0).set ADCSEQ.STAT_ALIGNED 0
  let s := s.forLanes fun n s => s.timeHold n
  let s : State := { s with mt := 0, tm := { s.tm with tLast := none, missed := false, stepNext := none, frozenAt := s.tick },
                            ring := { s.ring with lastCyc := none, bLast := none, nextB := none, sent4 := [], sleepT := none
                                                  bestKey := none } }
  ((s.syncoutFrom 0).dropTx.set RINGCTL.SLEEP_PEND 0).dictRingReset

/-- RING_RESET_WRITE (R161): CTRL.RST written 1; ignored while DOWN. -/
def execRingResetWrite (s : State) : Ans :=
  s.busDo RINGCTL.CTRL fun s =>
    if s.get RINGCTL.STAT_RSTATE = 0 || !s.domOn .link then s
    else
      let s := (s.ringReset.emit (.rst 0)).emit (.rst 1)
      { s with ring := { s.ring with rstTick := s.tick + 1 } }

/-- RST_RECEIVED (R161): 2 consecutive RST on port `p`; the node sends RST on its other port unless it did so in the last
10 µs. -/
def execRstReceived (p : Fin 2) (s : State) : Ans :=
  if s.get RINGCTL.STAT_RSTATE = 0 || !s.domOn .link then .next s
  else
    let recent := decide (s.ring.rstTick ≠ 0) && decide (s.tick + 1 ≤ s.ring.rstTick + 2500)
    let s := s.ringReset
    if recent then .next s
    else .next { s.emit (.rst (other p)) with ring := { s.ring with rstTick := s.tick + 1 } }

/-! ### Ring sleep (R165 to R168) -/

/-- SLEEP_GO (R165): the master announces sleep AHEAD cycles on. -/
def execSleepGo (v : Word) (s : State) : Ans :=
  s.busDo RINGCTL.SLEEP fun s =>
    let s := s.writeFields (fun f => !f.row) RINGCTL.SLEEP v.toNat false
    if s.get RINGCTL.STAT_RSTATE ≠ 4 || s.ring.sleepT.isSome then s
    else
      let t := (s.get RINGCTL.CYCNUM_CYCLE + s.get RINGCTL.SLEEP_AHEAD) % 65536
      { (s.set RINGCTL.SLEEP_PEND 1).set RINGCTL.SLEEP_CYC_T t with ring := { s.ring with sleepT := some t } }

/-- SLEEP_CANCEL (R166). -/
def execSleepCancel (s : State) : Ans := s.busDo RINGCTL.SLEEP State.sleepCancel

/-- RING_SLEEP (R166, R167): the boundary of the sleep cycle; a wake reason that could not veto stays held. -/
def execRingSleep (s : State) : Ans :=
  match s.ring.sleepT with
  | none => .next s
  | some t =>
    let r := s.get RINGCTL.STAT_RSTATE
    if !s.domOn .link || (r ≠ 3 && r ≠ 4) || s.get RINGCTL.CYCNUM_CYCLE ≠ (t + 65535) % 65536 then .next s
    else
      let s := ((s.setRstate 5).set RINGCTL.IRQ_STAT_SLEPT 1).set RINGCTL.SLEEP_PEND 0
      let s := if s.on RINGCTL.WAKE_REQ then s.set RINGCTL.STAT_HELD 1 else s
      .next { s with ring := { s.ring with sleepT := none, nextB := none } }

/-- PD_LINK leaves On for Rest or Torpor (R157, R158): BYPASS_HOLD is released and RSTATE is DOWN; whether the node slept is kept
with the domain's registers (R203). (DEDUCED, log entry 52). -/
def State.ringPark (s : State) : State :=
  { (s.put RINGCTL.STAT_RSTATE 0).put RINGCTL.STAT_BYPASS 0 with ring := { s.ring with parked := s.get RINGCTL.STAT_RSTATE == 5 } }

/-- The wake pattern on both ports, and LISTEN (R168). -/
def State.ringWake (s : State) : State := ((s.emit (.wake 0)).emit (.wake 1)).setRstate 1

/-- The node sleeps: RSTATE is SLEEP, or was when PD_LINK left On (R158). -/
def State.asleep (s : State) : Bool := s.get RINGCTL.STAT_RSTATE == 5 || s.ring.parked

/-- HELD_WAKE (R167): both receivers have been quiet for 20 µs after the sleep cycle. In a deeper step than Run the exit begins, and
the wake pattern follows once PD_LINK is On. (DEDUCED, log entry 52). -/
def execHeldWake (s : State) : Ans :=
  if !(s.asleep && s.on RINGCTL.STAT_HELD) || s.pwr.entry.isSome then .next s
  else
    let s := if s.domOn .link then s.ringWake else { s with ring := { s.ring with wakeDue := true } }
    match s.pwr.step with
    | .hover | .rest | .torpor =>
      if s.pwr.exit.isSome then .next s
      else .next { s with pwr := { s.pwr with exit := some s.pwr.step, req := none } }
    | _ => .next s

/-- A wake reason arises (R167, R168): WAKE.REQ shows it; a node that cannot veto an announced sleep holds it. -/
def State.wakeRing (s : State) : State :=
  let s := s.set RINGCTL.WAKE_REQ 1
  let s := if s.ring.sleepT.isSome && (s.on RINGCTL.STAT_MUTED || !s.ring.slotEn) then s.set RINGCTL.STAT_HELD 1 else s
  if s.get RINGCTL.STAT_RSTATE = 5 then s.ringWake else s

/-- PD_LINK is On again after Rest or Torpor (R168, R203): RSTATE holds its value from entry, and a wake by the ring, a held reason
that is due, or a pulse that came meanwhile sends the wake pattern. (DEDUCED, log entry 52). -/
def State.ringUnpark (s : State) : State :=
  let r := s.ring
  let s : State := { s with ring := { s.ring with parked := false, wakeDue := false, evtDue := false } }
  let s := (if r.parked then s.put RINGCTL.STAT_RSTATE 5 else s).setBypass
  let s := if r.evtDue then s.wakeRing else s
  if r.wakeDue && s.get RINGCTL.STAT_RSTATE == 5 then s.ringWake else s

/-- A pulse of event channel `k` (R168): a wake reason where WAKE selects it, also while PD_LINK has no clock: no reason is lost. -/
def State.wakeByEvent (s : State) (k : Nat) : State :=
  if !(s.on RINGCTL.WAKE_EVT_EN && s.get RINGCTL.WAKE_EVT == k) then s
  else if s.domOn .link then s.wakeRing
  else { s with ring := { s.ring with evtDue := true } }

/-- WAKE_REQ (R167, R168): WAKE.REQ written 1. -/
def execWakeReq (v : Word) (s : State) : Ans :=
  s.busDo RINGCTL.WAKE fun s => (s.writeFields (fun _ => true) RINGCTL.WAKE v.toNat false).wakeRing

/-- RING_ACTIVITY_WAKE (R168): a node in SLEEP sees activity on a port. -/
def execRingActivityWake (p : Fin 2) (s : State) : Ans :=
  if s.get RINGCTL.STAT_RSTATE = 5 && s.domOn .link && s.on (PORT.CTRL_EN p) then .next s.ringWake else .next s

end Sys2Proof.Machine
end

