-- ==== Sys2Proof/Machine/Boot.lean ====
section
/-!
DEFINITION. Reset, start-up and firmware update (16_reset_startup_update.md): the boot configuration, image headers, slot
selection and measurement, reset sources, download, activation, trial and FLASHCTL.
-/
namespace Sys2Proof.Machine

/-! ### The boot configuration (R330, R331) -/

/-- A boot configuration copy. -/
structure BootCfg where
  seq : Nat
  active : Nat
  pend : Nat
  wdogMs : Nat
  march : Nat
  keyHash : List Byte
  deriving DecidableEq, Repr

/-- The configuration with no valid copy. -/
def bootDefault : BootCfg := ⟨0, 0, 0xFF, 0, 0, List.replicate 32 0xFF⟩

/-- The address of copy c. -/
def bootAddr (c : Nat) : Nat := 0x08200000 + c * 0x8000

/-- Copy c, where it is valid. -/
def State.bootCopy (s : State) (c : Nat) : Option BootCfg :=
  let b := s.bytes (bootAddr c) 64
  if field b 0 4 = 0x47464353 ∧ field b 60 4 = crc32c (b.take 60) then
    some ⟨field b 4 2, field b 6 1, field b 7 1, field b 8 2, field b 10 1, (b.drop 12).take 32⟩
  else none

/-- The copy in force and its number. -/
def State.bootInForce (s : State) : Option (Nat × BootCfg) :=
  match s.bootCopy 0, s.bootCopy 1 with
  | some a, some b => if newer 16 b.seq a.seq then some (1, b) else some (0, a)
  | some a, none => some (0, a)
  | none, some b => some (1, b)
  | none, none => none

/-- The boot configuration in force. -/
def State.bootCfg (s : State) : BootCfg := (s.bootInForce.map (·.2)).getD bootDefault

/-- The first 60 bytes of a copy. (DEDUCED, log entry 66). -/
def BootCfg.body (b : BootCfg) : List Byte :=
  leBytes 4 0x47464353 ++ leBytes 2 b.seq ++ leBytes 1 b.active ++ leBytes 1 b.pend ++ leBytes 2 b.wdogMs ++ leBytes 1 b.march ++
  [0xFF] ++ padTo 32 b.keyHash ++ List.replicate 16 0xFF

/-- Scarab writes the boot configuration (R331): the copy not in force is erased and programmed with SEQ one newer.
(DEDUCED, log entry 90). -/
def State.writeBoot (s : State) (b : BootCfg) : State :=
  let (c, q) := match s.bootInForce with
    | some (k, x) => (1 - k, (x.seq + 1) % 65536)
    | none => (0, 1)
  let body := ({ b with seq := q } : BootCfg).body
  ((s.eraseRange (bootAddr c) 0x8000).pokes (bootAddr c) (body ++ leBytes 4 (crc32c body))).dropMcache

/-- The core regulator is in normal mode (R204). -/
def State.regNormal (s : State) : Bool := s.on AONCTL.MODE_DOCKED && (s.dom .sys == .on || s.dom .sys == .gated)

/-! ### Images (R332) -/

/-- A digest is 32 bytes. -/
def digest (l : List Byte) : List Byte := padTo 32 (Config.sha256 l)

/-- A slot's header. -/
def State.header (s : State) (slot : Nat) : List Byte := s.bytes (slotBase slot) 192

/-- LENGTH of a header. -/
def hdrLength (h : List Byte) : Nat := field h 8 4

/-- The image key passes (R332). -/
def State.keyPasses (s : State) (key : List Byte) : Bool :=
  let kh := s.bootCfg.keyHash
  if kh.all (· == 0xFF) then s.lifeCycle == 1 else digest key == kh

/-- The first reason for which a header fails, in the order of R332 and without SIG; 0 where it passes. -/
def State.headerReason (s : State) (h : List Byte) : Nat :=
  let len := hdrLength h
  let entry := field h 32 4
  if field h 0 4 ≠ 0x4D495453 then 0x01
  else if field h 4 2 ≠ 0x1040 then 0x02
  else if 0x42 < field h 6 1 then 0x03
  else if field h 7 1 ≠ 1 then 0x04
  else if len < 4096 ∨ 1048576 < len ∨ len % 4 ≠ 0 then 0x05
  else if entry % 4 ≠ 0 ∨ entry < 192 ∨ len ≤ entry then 0x07
  else if !((h.drop 36).take 28).all (· == 0) then 0x07
  else if !s.keyPasses ((h.drop 64).take 64) then 0x06
  else 0

/-- The slot's header passes. -/
def State.headerOk (s : State) (slot : Nat) : Bool := s.headerReason (s.header slot) == 0

/-- The slot's signature verifies (R332). -/
def State.sigOk (s : State) (slot : Nat) : Bool :=
  let h := s.header slot
  Config.ecdsaVerify ((h.drop 64).take 64) (h.take 128 ++ s.bytes (slotBase slot + 192) (hdrLength h - 192)) ((h.drop 128).take 64)

/-- M_IMG of a slot (R282). -/
def State.measureImage (s : State) (slot : Nat) : List Byte :=
  if s.headerOk slot then digest (s.bytes (slotBase slot) (hdrLength (s.header slot))) else List.replicate 32 0

/-- The full measurement (R282): it is written to the measurement cache of R258. -/
def State.measureFull (s : State) : State :=
  let cfg := digest (s.bytes 0x08200000 0x10000)
  let img := s.measureImage s.boot.slot
  let s := (s.pokes 0x28003FC0 (cfg ++ img)).set VAULTCTL.STAT_MCACHE_VALID 1
  { s with sc := { s.sc with mCfg := cfg, mImg := img, cached := false } }

/-- The measurement at an exit from Diapause or Pupa (R203, R283): from the cache where it is valid, else in full. -/
def State.measureExit (s : State) : State :=
  if s.on VAULTCTL.STAT_MCACHE_VALID then
    { s with sc := { s.sc with mCfg := s.bytes 0x28003FC0 32, mImg := s.bytes 0x28003FE0 32, cached := true } }
  else s.measureFull

/-! ### Start-up (R333) -/

/-- The boot record and the last reset's code in RSTCTL (R329, R333, R339). -/
def State.showBoot (s : State) : State :=
  let b := s.boot
  let s := ((s.setF RSTCTL.CAUSE_BOOT_REC b.strap).setF RSTCTL.CAUSE_RECOVERY b.recovery).setF RSTCTL.CAUSE_TRIAL s.onTrial
  let s := (s.setF RSTCTL.CAUSE_ROLLED_BACK b.rolledBack).set RSTCTL.CAUSE_BOOTFAIL b.bootFail
  (s.set RSTCTL.CAUSE_CODE b.code).set RSTCTL.HEALTH_REMAIN (if s.onTrial then 2000 else 0)

/-- WDOG_CTRL from the boot configuration at release (R304, R330). -/
def State.startWdog (s : State) : State :=
  let w := s.bootCfg.wdogMs
  if w = 0 then s
  else
    let s := (s.set MBOX.WDOG_CTRL_PERIOD w).set MBOX.WDOG_CTRL_EN 1
    { s.set MBOX.WDOG_STAT_REMAIN w with sc := { s.sc with wdPeriod := w, wdLast := none, wdHalf := false } }

/-- The start-up march tests (R264, R330, R333): a bank that passes holds zeros, one that fails undefined values; failures are
reported at chip level. -/
def State.startMarch (s : State) (fails : Nat) : State :=
  let m := s.bootCfg.march
  let s := (s.set MEMCTL.START_RES_TESTED m).set MEMCTL.START_RES_FAILED (m &&& fails)
  (List.range 8).foldl (fun s k =>
    if !getBit m k then s
    else if getBit fails k then
      (s.lose (0x20000000 + k * 0x10000) (0x20010000 + k * 0x10000)).chipReport ⟨1, 0x10, k, 3, 0, false⟩
    else s.fill (0x20000000 + k * 0x10000) 0x10000 0) s

/-- The slot that R333 selects: the slot, recovery entry (0 none), and the boot record's TRIAL and TRIAL_FAIL, ROLLED_BACK. -/
structure Selection where
  slot : Nat
  entry : Nat
  trial : Bool
  trialFail : Bool
  rolledBack : Bool
  deriving DecidableEq, Repr

/-- Rules 4 to 7 of R333. -/
def State.selectImage (s : State) (trialFail rolledBack : Bool) : Selection :=
  let c := s.bootCfg
  if c.pend ≠ 0xFF ∧ c.pend ≠ c.active ∧ trialFail = false ∧ s.headerOk c.pend = true then
    ⟨c.pend, 0, true, trialFail, rolledBack⟩
  else if s.headerOk c.active then ⟨c.active, 0, false, trialFail, rolledBack⟩
  else if s.headerOk (1 - c.active) then ⟨1 - c.active, 0, false, trialFail, rolledBack⟩
  else ⟨c.active, 2, false, trialFail, rolledBack⟩

/-- The selection of R333: the first rule that applies decides. -/
def State.select (s : State) : Selection :=
  let b := s.boot
  if b.strap then ⟨s.bootCfg.active, 1, b.trial, b.trialFail, false⟩
  else if 3 ≤ b.bootFail then ⟨s.bootCfg.active, 3, b.trial, b.trialFail, false⟩
  else if b.trial then s.selectImage true true
  else s.selectImage b.trialFail false

/-- The boot ROM's recovery code (R341): dictionary over the service wire, UART0 and, while Docked, the ring. -/
def State.recoverySetup (s : State) : State :=
  let s := ((s.set (UART.CTRL_EN 0) 1).set (UART.CTRL_RX_EN 0) 1).set (UART.CTRL_TX_EN 0) 1
  let s := ((s.set (UART.CTRL_DICT 0) 1).set (UART.BAUD_DIV 0) 2222).set (UART.CTRL_PAR 0) 0
  if s.on AONCTL.MODE_DOCKED then
    let s := ((s.set RINGCTL.CTRL_EN 1).set RINGCTL.CTRL_INSERT 1).set RINGCTL.CTRL_MASTER_CAP 1
    ((s.set RINGCTL.CTRL_PRIO 0xFF).set RINGCTL.ADDR_ADDR 0).setBypass.setRstate 1
  else s

/-- The slot that downloads in recovery go to (R341): the one other than ACTIVE, or ACTIVE's where its header fails. It stays as it
is while an image is placed. (DEDUCED, log entry 90). -/
def State.aimDownload (s : State) : State :=
  let a := s.bootCfg.active
  { s with boot := { s.boot with dlSlot := if s.headerOk a then 1 - a else a } }

/-- The selection put into the boot record and RSTCTL; BOOTFAIL goes up and the core is released, but not in Scrapped. -/
def State.applySelection (s : State) (x : Selection) : State :=
  let rec_ := x.entry != 0
  let s : State := { s with boot := { s.boot with
    slot := x.slot, recovery := rec_ && s.lifeCycle != 4, trial := x.trial, trialFail := x.trialFail, rolledBack := x.rolledBack
    withdraw := s.boot.withdraw || x.rolledBack
    bootFail := min 15 (s.boot.bootFail + 1), released := s.lifeCycle != 4, releasedAt := s.tick
    pmp := Vector.replicate 16 {}
    startPc := if rec_ then 0 else slotBase x.slot + field (s.header x.slot) 32 4 } }
  let s := (s.measureFull.showBoot.set RSTCTL.CAUSE_ENTRY x.entry).startWdog.aimDownload
  if s.boot.released && rec_ then s.recoverySetup else s

/-- A pending fuse copy is completed (R288), with the private key of Scrapped; MESH_EN reads 1 in Production and Returned (R294).
(DEDUCED, log entry 95). -/
def State.completeFuses (s : State) : State :=
  let c := s.lifeCycle
  let s := s.burnFuses c 3 (c == 4)
  if c = 2 ∨ c = 3 then s.set VAULTCTL.TMP_CFG_MESH_EN 1 else s

/-- Carapace reports that waited for PD_MGT (R293): SECURITY, cause TAMPER. -/
def State.tamperReport (s : State) : State :=
  let s := s.sc.tamperReports.foldl (fun s d => s.report ⟨52, 0x0A, d, 3, 0, false⟩) s
  { s with sc := { s.sc with tamperReports := [] } }

/-- START_UP (R333): a reset has ended; `strap`: BOOT_REC; `marchFail`: banks whose start-up test fails. -/
def execStartUp (strap : Bool) (marchFail : Byte) (s : State) : Ans :=
  if s.boot.released || s.boot.resetHeld || s.pwr.coldHold || !s.domOn .sys then .next s
  else
    let s : State := { s with boot := { s.boot with strap := strap } }
    let s := (s.completeFuses.fill 0x20000000 0x10000 0).startMarch marchFail.toNat
    .next ((s.applySelection s.select).startPersisted.tamperReport)

/-! ### Reset sources (R329) -/

/-- POWER_ON_RESET (R210, R329): VAON rises or Cold ends; `vin`: VIN is present. -/
def execPowerOnReset (vin : Bool) (s : State) : Ans := .next (s.coldReset vin)

/-- PIN_RESET (R329): RESET_N low for 1 µs or more, or high again. -/
def execPinReset (low : Bool) (s : State) : Ans :=
  if low then
    let s := if s.pwr.step = .cold then s else s.fullReset 2
    .next { s with boot := { s.boot with resetHeld := true } }
  else .next { s with boot := { s.boot with resetHeld := false } }

/-- SWRST (R329): only 0x0A5C by the application core in machine mode has an effect. -/
def execSwrst (m : Master) (mach : Bool) (v : Word) (s : State) : Ans :=
  s.busBy m true RSTCTL.SWRST fun s =>
    if m = .app ∧ mach = true ∧ bits v.toNat 15 0 = 0x0A5C then s.fullReset 11 else s

/-- DICT_FULL_RESET (R179): 100 µs after the response to 0x1010/0x01. -/
def execDictFullReset (s : State) : Ans :=
  if s.dict.resetPend && decide (s.dict.resetAt + 25000 ≤ s.tick) then .next (s.fullReset 3) else .next s

/-! ### Download (R335, R336) -/

/-- STATE and REASON of the download. -/
def State.dlTo (s : State) (st : Nat) : State := { s with dl := { s.dl with st := st } }
def State.dlRefuse (s : State) (reason : Nat) : State := { s with dl := { s.dl with st := 6, reason := reason } }

/-- BEGIN (R336): a status and the state. -/
def State.dlBegin (s : State) : Nat × State :=
  if s.dl.st = 0 ∨ s.dl.st = 5 ∨ s.dl.st = 6 then
    if s.regNormal then (0, { s.dropMcache.aimDownload with dl := { s.dl with st := 1, offset := 0, held := 0 } })
    else (0, s.dlRefuse 0x0A)
  else (Abort.state, s)

/-- DOWNLOAD_SLOT_ERASED (R336). -/
def execDownloadSlotErased (s : State) : Ans :=
  if s.dl.st = 1 then .next ((s.eraseRange (slotBase s.inactive) 0x100000).dlTo 2) else .next s

/-- Bytes received are programmed and counted. -/
def State.dlProgram (s : State) (d : List Byte) : State :=
  let s := (s.pokes (slotBase s.inactive + s.dl.held) d).dropMcache
  { s with dl := { s.dl with held := s.dl.held + d.length, offset := s.dl.offset + d.length } }

/-- DATA in HEADER, of bytes that fit: the body waits for the checks of the header. -/
def State.dlHeader (s : State) (d : List Byte) : State :=
  let s := s.dlProgram (d.take (192 - s.dl.held))
  if s.dl.held < 192 then s
  else
    let r := s.headerReason (s.header s.inactive)
    if r = 0 then s.dlTo 3 else s.dlRefuse r

/-- DATA (R335, R336): `ok`: the programmed words read back right. (DEDUCED, log entry 94). -/
def State.dlData (s : State) (d : List Byte) (ok : Bool) : Nat × State :=
  let n := d.length
  if s.dl.st ≠ 2 ∧ s.dl.st ≠ 3 then (Abort.state, s)
  else if n < 4 ∨ 256 < n ∨ n % 4 ≠ 0 then (Abort.badLength, s)
  else if !s.regNormal then (0, s.dlRefuse 0x0A)
  else if s.dl.offset ≠ s.dl.held then (0, s.dlRefuse 0x09)
  else if !ok then (0, (s.garble (slotBase s.inactive + s.dl.held) n).dlRefuse 0x0B)
  else if s.dl.st = 3 then
    if hdrLength (s.header s.inactive) < s.dl.held + n then (Abort.range, s) else (0, s.dlProgram d)
  else
    let first := 192 - s.dl.held
    let s := s.dlHeader d
    if s.dl.st = 3 then (0, s.dlProgram (d.drop first)) else (0, s)

/-- FINISH (R336). -/
def State.dlFinish (s : State) : Nat × State :=
  if s.dl.st = 0 ∨ (s.dl.st = 3 ∧ s.dl.offset = hdrLength (s.header s.inactive)) then (0, s.dlTo 4) else (Abort.state, s)

/-- DOWNLOAD_VERIFIED (R336): the checks of R332, SIG included. -/
def execDownloadVerified (s : State) : Ans :=
  if s.dl.st ≠ 4 then .next s
  else
    let r := s.headerReason (s.header s.inactive)
    if r ≠ 0 then .next (s.dlRefuse r)
    else if s.sigOk s.inactive then .next (s.dlTo 5)
    else .next (s.dlRefuse 0x08)

/-- PEND written (R331); a withdrawal that waited has nothing left to withdraw. (DEDUCED, log entry 91). -/
def State.setPend (s : State) (p : Nat) : State :=
  let s' := s.writeBoot { s.bootCfg with pend := p }
  { s' with boot := { s'.boot with withdraw := false } }

/-- ACTIVATE (R336, R341): refused in low-power mode (R331). (DEDUCED, log entry 90). -/
def State.dlActivate (s : State) : Nat × State :=
  if s.dl.st ≠ 5 ∨ !s.regNormal then (Abort.state, s)
  else
    let t := s.inactive
    let direct := s.boot.recovery && (t == s.bootCfg.active || !s.headerOk s.bootCfg.active)
    let s' := if direct then s.writeBoot { s.bootCfg with active := t } else s.setPend t
    let s' := if s.boot.recovery then ({ s' with boot := { s'.boot with bootFail := 0 } } : State).set RSTCTL.CAUSE_BOOTFAIL 0
      else s'
    (0, { s' with dl := { s'.dl with st := 7, armedAt := none } })

/-- ABORT (R336, R338). -/
def State.dlAbort (s : State) : Nat × State :=
  if s.dl.st ≠ 7 then
    let s := s.cutErase
    (0, { s with dl := { s.dl with st := 0, reason := 0x0D, armedAt := none } })
  else if !s.regNormal then (Abort.state, s)
  else if (s.dl.armedAt.map s.due).getD false then (Abort.state, s)
  else
    let s := s.setPend 0xFF
    (0, { s with dl := { s.dl with st := 5, reason := 0x0D, armedAt := none } })

/-- The check of an ACTIVATE_AT entry at the commit (R338). -/
def State.activateCheck (s : State) (v : Nat) : Nat :=
  let (t, past) := s.stamp40 (v % 2 ^ 40)
  if s.dl.st ≠ 5 ∨ !s.regNormal then Abort.state
  else if past ∨ t < s.mt + 100000000 then Abort.range
  else 0

/-- A committed ACTIVATE_AT (R338): Scarab writes PEND, and STATE becomes ARMED. -/
def State.activateAt (s : State) (v : Nat) : State :=
  let x := v % 2 ^ 40
  let s' := s.setPend s.inactive
  { s' with dl := { s'.dl with st := 7, activateAt := x, armedAt := some (s.stamp40 x).1 } }

/-- PEND is withdrawn, now or when the regulator is next in normal mode (R331). (DEDUCED, log entry 91). -/
def State.withdrawPend (s : State) : State :=
  if s.regNormal then s.setPend 0xFF else { s with boot := { s.boot with withdraw := true } }

/-- ACTIVATION_INSTANT (R338): the tick that contains the committed instant, in which the full reset starts.
(DEDUCED, log entry 92). -/
def execActivationInstant (s : State) : Ans :=
  match s.dl.armedAt with
  | none => .next s
  | some t =>
    if s.dl.st ≠ 7 || !s.due t then .next s
    else if s.timeValid then .next (s.drainChip.flushLog.fullReset 9)
    else
      let s := s.withdrawPend
      .next { s with dl := { s.dl with st := 5, reason := 0x0C, armedAt := none } }

/-! ### Trial and rollback (R339, R340) -/

/-- The records of a promotion (R340): for each differing range its format and, but for range 7, records of LEN 0 for every
stored key. -/
def State.promoteRecords (s : State) (slot : Nat) : List (Nat × List Byte) :=
  ((List.range 8).filter fun r => s.fmtDiffers slot r).foldl (fun l r =>
    l ++ [(0xFE00 + r, leBytes 2 (s.setFmt slot r))] ++
    (if r = 7 then []
     else (persisted.filter fun p => settingsRange p.index == r && (s.storedValue p).isSome).map fun p => (p.key, []))) []

/-- The trial image is promoted (R339, R340). -/
def State.promote (s : State) : State :=
  let slot := s.bootCfg.pend
  let mask := (List.range 8).foldl (fun m r => if s.fmtDiffers slot r then m + 2 ^ r else m) 0
  let s := match s.ownGroup (s.promoteRecords slot) with
    | some s' => { s' with boot := { s'.boot with promoted := mask } }
    | none => s
  s.writeBoot { s.bootCfg with active := slot, pend := 0xFF }

/-- A health confirmation (R339). -/
def State.confirm (s : State) : State :=
  let t := s.onTrial
  let s : State := { s with boot := { s.boot with bootFail := 0, trial := s.boot.trial && !t } }
  let s := ((s.set RSTCTL.CAUSE_BOOTFAIL 0).set RSTCTL.CAUSE_TRIAL 0).set RSTCTL.HEALTH_REMAIN 0
  if !t then s
  else if s.regNormal then s.promote
  else { s with boot := { s.boot with promotePend := true } }

/-- HEALTH_CONFIRM (R339): RSTCTL.HEALTH.CONFIRM written 1. -/
def execHealthConfirm (s : State) : Ans := s.busDo RSTCTL.HEALTH State.confirm

/-- TRIAL_TIMEOUT (R339): 2,000 ms after the release on trial. (DEDUCED, log entry 92). -/
def execTrialTimeout (s : State) : Ans :=
  if s.onTrial && s.boot.released && decide (s.boot.releasedAt + 500000000 ≤ s.tick) then .next (s.scarabReset 10) else .next s

/-- PROMOTE_PENDING_WRITE (R339): the regulator is in normal mode; a deferred promotion, or the withdrawal of PEND after a
failed trial. (DEDUCED, log entry 91). -/
def execPromotePendingWrite (s : State) : Ans :=
  if !s.regNormal || !s.domOn .mgt then .next s
  else if s.boot.promotePend then
    let s := s.promote
    .next { s with boot := { s.boot with promotePend := false } }
  else if s.boot.withdraw && s.bootCfg.pend != 0xFF then .next (s.setPend 0xFF)
  else .next s

/-! ### FLASHCTL (R204, R283, the register tables of 16_reset_startup_update.md) -/

/-- A FLASHCTL command that ends at once with a RESULT. -/
def State.flashEnd (s : State) (result : Nat) : State :=
  ((s.set FLASHCTL.STATUS_BUSY 0).set FLASHCTL.STATUS_DONE 1).set FLASHCTL.STATUS_RESULT result

/-- GO with an OP: refused without effect in low-power mode, during a download, outside the inactive slot, or on words that are
not erased; an accepted command clears MCACHE_VALID and returns the download to IDLE. (DEDUCED, log entry 93). -/
def State.flashGo (s : State) (op : Nat) : Ans :=
  s.busDo FLASHCTL.CMD fun s =>
    let s := s.set FLASHCTL.CMD_OP op
    let addr := s.get FLASHCTL.ADDR_ADDR * 4
    let src := s.get FLASHCTL.SRC_SRC * 4
    let len := s.get FLASHCTL.LEN_LEN
    let (lo, n) := flashSpan op addr len
    let base := slotBase s.inactive
    if s.on FLASHCTL.STATUS_BUSY then s
    else if !s.regNormal then s.flashEnd 0x01
    else if s.dl.st ≠ 0 ∧ s.dl.st ≠ 5 ∧ s.dl.st ≠ 6 then s.flashEnd 0x05
    else if s.flashHeld ∨ lo < base ∨ base + 0x100000 < lo + n then s.flashEnd 0x02
    else if op = 1 ∧ !(s.bytes lo n).all (· == 0xFF) then s.flashEnd 0x03
    else { s.dropMcache.set FLASHCTL.STATUS_BUSY 1 with flash := some ⟨op, addr, src, len⟩, dl := { s.dl with st := 0 } }

/-- A write of CMD with the row's OP: GO starts it, else only OP is set. -/
def State.flashWrite (s : State) (op : Nat) (v : Word) : Ans :=
  if getBit v.toNat 31 then s.flashGo op else s.busDo FLASHCTL.CMD fun s => s.set FLASHCTL.CMD_OP op

/-- FLASH_PROGRAM, FLASH_ERASE_SECTOR and FLASH_ERASE_SLOT (R204, R283). -/
def execFlashProgram (v : Word) (s : State) : Ans := s.flashWrite 1 v
def execFlashEraseSector (v : Word) (s : State) : Ans := s.flashWrite 2 v
def execFlashEraseSlot (v : Word) (s : State) : Ans := s.flashWrite 3 v

/-- FLASH_COMMAND_DONE: the command in progress completes; `bad`: the programmed word whose read-back failed, at which it stopped
with VERIFY_FAIL and a report (R295, R297). (DEDUCED, log entry 93). -/
def execFlashCommandDone (bad : Option Nat) (s : State) : Ans :=
  match s.flash with
  | none => .next s
  | some f =>
    let s : State := { s with flash := none }
    let (lo, n) := flashSpan f.op f.addr f.len
    match bad with
    | none =>
      let s := if f.op = 1 then s.pokes lo (s.bytes f.src n) else s.eraseRange lo n
      .next (s.flashEnd 0)
    | some k =>
      let s := if f.op = 1 then (s.pokes lo (s.bytes f.src (min n (4 * k)))).badWord (lo + 4 * k)
        else s.garble lo n
      let s : State := s.flashEnd 0x04
      .next (s.report ⟨2, 0x11, lo + (if f.op = 1 then 4 * k else 0), 1, 0, false⟩)

end Sys2Proof.Machine
end

