-- ==== Sys2Proof/Machine/EventRoute.lean ====
section
/-!
DEFINITION. Event routing (15_events_serial.md, R306 to R315): software pulses, edges of the channels, and the rights over the
channels' configuration.
-/
namespace Sys2Proof.Machine

/-! ### Rights (R313, R314) -/

/-- Lock mode is locked: the selections and enables hold their values (R314). -/
def State.evHeld (s : State) : Bool := s.on EVROUTE.GCTL_MODE && s.on EVROUTE.GCTL_LOCK

/-- The master has the owner's rights over channel k (R313), or Lock mode gives them to both processors (R314). -/
def State.evOwner (s : State) (m : Master) (mach : Bool) (k : Nat) : Bool :=
  if s.on EVROUTE.GCTL_MODE then m == .app || m == .cricket
  else match s.get (EVROUTE.CH_CFG_OWN k) with
    | 0 => m == .app && (mach || !s.on (EVROUTE.CH_CFG_SEC k))
    | 1 => m == .cricket
    | _ => m == .scarab

/-- The master may write the selection fields of channel k. -/
def State.evSelect (s : State) (m : Master) (mach : Bool) (k : Nat) : Bool := s.evOwner m mach k && !s.evHeld

/-- The master may write MODE, OWN and SEC (R313). -/
def State.evAdmin (s : State) (m : Master) (mach : Bool) : Bool := m == .app && mach && !s.on EVROUTE.GCTL_LOCK

/-- DENIED goes up once where a refused field would have changed (R313, R314). -/
def State.deny (s : State) (b : Bool) : State := if b then s.count EVROUTE.DENIED_COUNT EVROUTE.DENIED_OVF else s

/-! ### FIRE (R309) -/

/-- FIRE_k: nothing on a channel whose gate is 0. -/
def State.fireChan (s : State) (k : Nat) : State :=
  if !s.gateOf k then s
  else
    let s' : State := { s with ev := { s.ev with fire := (k, s.tick + s.fastTicks 2) :: s.ev.fire } }
    if s'.chanLevel k && !s.chanLevel k then { s' with ev := { s'.ev with
      caught := Machine.setBit s'.ev.caught k true, rose := Machine.setBit s'.ev.rose k true } } else s'

/-- A write of FIRE by a master. (DEDUCED, log entry 100). -/
def State.fireMask (s : State) (m : Master) (mach : Bool) (v : Nat) : State :=
  let ks := (List.range 32).filter fun k => getBit v k
  let ok := ks.filter fun k => s.evOwner m mach k
  (ok.foldl State.fireChan s).deny (decide (ok.length < ks.length))

/-- FIRE (R309, R313): Scarab fires its channels through its private port. -/
def execFire (m : Master) (mach : Bool) (v : Word) (s : State) : Ans :=
  if m = .scarab then .next (if s.domOn .crk then s.fireMask m mach v.toNat else s)
  else s.busBy m true EVROUTE.FIRE fun s => s.fireMask m mach v.toNat

/-! ### Edges (R310, R312) -/

/-- What a rising edge of channel k does: IRQ_STAT, the wake source EVENT, and RINGCTL's wake reason. -/
def State.chanEdge (s : State) (k : Nat) : State :=
  let s := s.setBit EVROUTE.IRQ_STAT_EDGE k true
  let s := s.wakeByEvent k
  if s.bit AONCTL.EVWAKE_MASK k then s.wakeSrc (2 ^ 7) else s

/-- CHANNEL_EDGE (R306, R310, R312): channel k has risen, now or in a pulse that its catchers hold. -/
def execChannelEdge (k : Fin 32) (s : State) : Ans :=
  let up := s.chanLevel k
  if s.domOn .crk && ((up && !getBit s.ev.seen k) || getBit s.ev.caught k) then
    let s : State := { s with ev := { s.ev with
      caught := Machine.setBit s.ev.caught k false, seen := Machine.setBit s.ev.seen k up } }
    .next (s.chanEdge k)
  else .next s

/-! ### Configuration (R311, R313, R314) -/

/-- The output is held at 0 for the fast-clock period in which the write lands (R311). (DEDUCED, log entry 100). -/
def State.blankChan (s : State) (k : Nat) : State :=
  { s with ev := { s.ev with blank := (k, s.tick + s.fastTicks 1) :: s.ev.blank, seen := Machine.setBit s.ev.seen k false } }

/-- A field of EVROUTE written with a value, when allowed. -/
def State.evField (s : State) (ok : Bool) (f : RF) (v : Nat) : State := if ok then s.set f v else s

/-- A write of CHk_SEL by a master. -/
def State.writeSel (s : State) (m : Master) (mach : Bool) (k v : Nat) : State :=
  if s.evSelect m mach k then (s.writeFields (fun _ => true) (EVROUTE.CH_SEL k) v false).blankChan k
  else s.deny (s.readReg (EVROUTE.CH_SEL k) != v)

/-- A write of CHk_CFG by a master: OWN and SEC, GATE and GATE_INV field by field. -/
def State.writeChCfg (s : State) (m : Master) (mach : Bool) (k v : Nat) : State :=
  let sel := s.evSelect m mach k
  let adm := s.evAdmin m mach
  let own := if bits v 31 30 = 3 then s.get (EVROUTE.CH_CFG_OWN k) else bits v 31 30
  let gate := bits v 6 0 != s.get (EVROUTE.CH_CFG_GATE k) || bits v 7 7 != s.get (EVROUTE.CH_CFG_GATE_INV k)
  let prot := own != s.get (EVROUTE.CH_CFG_OWN k) || bits v 29 29 != s.get (EVROUTE.CH_CFG_SEC k)
  let s := (s.evField sel (EVROUTE.CH_CFG_GATE k) (bits v 6 0)).evField sel (EVROUTE.CH_CFG_GATE_INV k) (bits v 7 7)
  let s := (s.evField adm (EVROUTE.CH_CFG_OWN k) own).evField adm (EVROUTE.CH_CFG_SEC k) (bits v 29 29)
  let s := if sel then s.blankChan k else s
  s.deny ((!sel && gate) || (!adm && prot))

/-- CHANNEL_CONFIG_WRITE (R311, R313, R314): CHk_SEL, or CHk_CFG. -/
def execChannelConfigWrite (m : Master) (mach : Bool) (k : Fin 32) (cfg : Bool) (v : Word) (s : State) : Ans :=
  if cfg then s.busBy m true (EVROUTE.CH_CFG k) fun s => s.writeChCfg m mach k v.toNat
  else s.busBy m true (EVROUTE.CH_SEL k) fun s => s.writeSel m mach k v.toNat

/-- A write of GCTL: MODE as R313 allows, LOCK by writing 1. (DEDUCED, log entry 100). -/
def State.writeGctl (s : State) (m : Master) (mach : Bool) (v : Nat) : State :=
  let adm := s.evAdmin m mach
  let change := bits v 0 0 != s.get EVROUTE.GCTL_MODE
  let s := s.evField adm EVROUTE.GCTL_MODE (bits v 0 0)
  let s := if getBit v 31 then s.set EVROUTE.GCTL_LOCK 1 else s
  s.deny (!adm && change)

/-- GCTL_WRITE (R313, R314). -/
def execGctlWrite (m : Master) (mach : Bool) (v : Word) (s : State) : Ans :=
  s.busBy m true EVROUTE.GCTL fun s => s.writeGctl m mach v.toNat

/-- A write of IRQ_STAT (R312, R313): bits of channels over which the master has rights are cleared.
(DEDUCED, log entry 100). -/
def State.writeEvStat (s : State) (m : Master) (mach : Bool) (v : Nat) : State :=
  let ok := (List.range 32).foldl (fun x k => if getBit v k && s.evOwner m mach k then x + 2 ^ k else x) 0
  let old := s.get EVROUTE.IRQ_STAT_EDGE
  (s.clearBits EVROUTE.IRQ_STAT_EDGE ok).deny ((old &&& v) != (old &&& ok))

/-- A write of IRQ_EN_APP or IRQ_EN_CRK: held in locked Lock mode (R314). -/
def State.writeEvEn (s : State) (f : RF) (v : Nat) : State :=
  if s.evHeld then s.deny (s.get f != v) else s.set f v

end Sys2Proof.Machine
end

