-- ==== Sys2Proof/Machine/Harvest.lean ====
section
/-!
DEFINITION. Energy harvesting and storage (10_harvester.md): Voc samples and the boost, charging, warning and cut-off, the cell
switch, and the cold start.
-/
namespace Sys2Proof.Machine

/-! ### Shared operations -/

/-- STAT.BOOST: 0 IDLE, 1 RUN, 2 SAMPLING, 3 DARK. -/
def State.boost (s : State) : Nat := s.get HARVEST.STAT_BOOST

/-- STAT.CELL: 0 OPEN, 1 CHARGE_ONLY, 2 CONNECTED (R212). -/
def State.cell (s : State) : Nat := s.get HARVEST.STAT_CELL

/-- TARGET_MV from VOC_MV and FRAC (R213). -/
def State.setTarget (s : State) : State :=
  s.set HARVEST.VOC_TARGET_MV (s.get HARVEST.VOC_VOC_MV * s.get HARVEST.MPPT_FRAC / 100)

/-- The device goes Cold (R210, R220, R221): nothing runs, PD_AON is lost, the boost is stopped. (DEDUCED, log entry 67). -/
def State.goCold (s : State) : State :=
  let s := s.coldReset false
  { (s.set HARVEST.STAT_CELL 0) with pwr := { s.pwr with step := .cold, relockTb := false } }

/-- The harvester's sample and boost state outlast the power-on reset of a cold start (VOC.VALID, R222). -/
def State.keepVoc (s old : State) : State :=
  let s := (s.set HARVEST.VOC_VOC_MV (old.get HARVEST.VOC_VOC_MV)).set HARVEST.VOC_TARGET_MV (old.get HARVEST.VOC_TARGET_MV)
  let s := (s.set HARVEST.VOC_VALID (old.get HARVEST.VOC_VALID)).set HARVEST.STAT_BOOST old.boost
  { s with hv := { s.hv with sampleAt := old.hv.sampleAt, sampleEnd := old.hv.sampleEnd, interval := old.hv.interval } }

/-! ### Maximum power point (R213 to R215) -/

/-- A sample begins: the boost stops (R213). -/
def State.startSample (s : State) : State := { s.set HARVEST.STAT_BOOST 2 with hv := { s.hv with sampleAt := s.tick } }

/-- VOC_SAMPLE_START (R213, R214): Voc is not valid, or the interval has passed. -/
def execVocSampleStart (s : State) : Ans :=
  let due := !s.on HARVEST.VOC_VALID || decide (s.hv.sampleEnd + s.hv.interval * 32768 ≤ s.slow)
  if s.on HARVEST.CTRL_BOOST_EN && s.boost != 2 && due && (s.pwr.step != .cold || s.hv.stage == .boost) then
    .next s.startSample
  else .next s

/-- VOC_SAMPLE_END (R213, R215): after 8 ms; PV_IN in mV. -/
def execVocSampleEnd (pvMv : BitVec 12) (s : State) : Ans :=
  if s.boost ≠ 2 ∨ s.tick < s.hv.sampleAt + 2000000 then .next s
  else
    let s := ((s.set HARVEST.VOC_VOC_MV pvMv.toNat).set HARVEST.VOC_VALID 1).setTarget
    let s := s.set HARVEST.STAT_BOOST (if s.get HARVEST.VOC_TARGET_MV < 250 then 3 else 1)
    let i := s.get HARVEST.MPPT_INTERVAL
    .next { s with hv := { s.hv with sampleEnd := s.slow, interval := if i = 0 then 256 else i } }

/-- HARVEST_SAMPLE_CMD (R215): CTRL.SAMPLE written 1. -/
def execHarvestSampleCmd (s : State) : Ans :=
  s.busDo HARVEST.CTRL fun s =>
    if s.boost = 2 then s.set HARVEST.STAT_CMD_IGN 1
    else if s.on HARVEST.CTRL_BOOST_EN then s.startSample
    else s

/-- FRAC_WRITE (R215): MPPT written; while the boost runs TARGET_MV is recomputed. -/
def execFracWrite (v : Word) (s : State) : Ans :=
  s.busDo HARVEST.MPPT fun s =>
    let s := s.writeFields (fun _ => true) HARVEST.MPPT v.toNat false
    if s.boost = 1 then s.setTarget else s

/-! ### Comparisons and charging (R217 to R221) -/

/-- VCHG and WARN in mV. -/
def State.vchgMv (s : State) : Nat := 3900 + 10 * s.get HARVEST.CHG_VCHG
def State.warnMv (s : State) : Nat := 3000 + 20 * s.get HARVEST.WARN_WARN_V

/-- The VIN charger is on offer. -/
def State.vinCharger (s : State) : Bool := s.on AONCTL.MODE_DOCKED && s.on HARVEST.CTRL_VINCHG_EN

/-- The warning comparator (R219). -/
def State.warn (s : State) (bat : Nat) : State :=
  if bat ≤ s.warnMv then
    if s.on HARVEST.STAT_LOW then s
    else ((s.set HARVEST.STAT_LOW 1).set HARVEST.STAT_LOW_EV 1).wakeSrc (2 ^ 8)
  else if s.warnMv + 100 ≤ bat then s.set HARVEST.STAT_LOW 0
  else s

/-- What the charger does after a comparison (R217, R218). While Docked a cell whose switch a cut-off has opened is charged in
CHARGE_ONLY also from above 3.00 V, and closes at 3.20 V (R220). (DEDUCED, log entry 73). -/
def State.chargeNow (s : State) (bat : Nat) : State :=
  let src := s.boost == 1 || s.vinCharger
  let hold := s.on HARVEST.STAT_TEMP_HOLD
  let latched := s.on HARVEST.STAT_SC_LATCH || s.hv.scWait
  if s.get HARVEST.STAT_CHARGE = 3 ∧ s.vchgMv < bat + 50 then s
  else if hold || !src then s.set HARVEST.STAT_CHARGE 0
  else if s.vchgMv ≤ bat && s.cell != 0 then (s.set HARVEST.STAT_CHARGE 3).set HARVEST.STAT_FULL_EV 1
  else if s.vinCharger && decide (bat < 3000) && !latched then (s.set HARVEST.STAT_CHARGE 1).set HARVEST.STAT_CELL 1
  else if s.vinCharger && s.cell == 0 && !latched then
    (s.set HARVEST.STAT_CHARGE 2).set HARVEST.STAT_CELL (if 3200 ≤ bat then 2 else 1)
  else if s.cell = 0 then s.set HARVEST.STAT_CHARGE 0
  else
    let s := s.set HARVEST.STAT_CHARGE 2
    if s.cell = 1 ∧ s.on AONCTL.MODE_DOCKED ∧ 3200 ≤ bat then s.set HARVEST.STAT_CELL 2 else s

/-- The cell switch during a cold start (R222): CHARGE_ONLY from a VSTORE of 3.3 V. -/
def State.coldCell (s : State) (vstore : Nat) : State :=
  if s.pwr.coldHold && s.cell == 0 && decide (3300 ≤ vstore) then s.set HARVEST.STAT_CELL 1 else s

/-- BAT_COMPARISON (R217, R219, R220): BAT and VSTORE in mV. (DEDUCED, log entry 73). -/
def execBatComparison (batMv vstoreMv : BitVec 12) (s : State) : Ans :=
  if s.pwr.step = .cold then .next s
  else
    let bat := batMv.toNat
    let s := (s.set HARVEST.LEVELS_BAT_MV bat).set HARVEST.LEVELS_VSTORE_MV vstoreMv.toNat
    let s := s.warn bat
    let low := if bat ≤ 3000 then s.hv.low + 1 else 0
    let s : State := { s with hv := { s.hv with low := min low 2, scRun := if s.cell = 0 then s.hv.scRun else 0 } }
    let cut := decide (2 ≤ low) && (s.cell == 2 || s.cell == 1 && !s.on AONCTL.MODE_DOCKED && !s.pwr.coldHold)
    if cut && !s.on AONCTL.MODE_DOCKED then .next s.goCold
    else
      let s := if cut then s.set HARVEST.STAT_CELL 0 else s
      .next ((s.coldCell vstoreMv.toNat).chargeNow bat)

/-- NTC_MEASURE (R218): the thermistor ratio in 1/256. -/
def execNtcMeasure (r : Byte) (s : State) : Ans :=
  if s.pwr.step = .cold then .next s
  else if !s.on HARVEST.NTC_NTC_EN then .next (s.set HARVEST.STAT_TEMP_HOLD 0)
  else
    let x := r.toNat
    let out := decide (x < s.get HARVEST.NTC_T_HOT) || decide (s.get HARVEST.NTC_T_COLD < x) || decide (x ≤ 0x08) || decide (0xF8 ≤ x)
    let was := s.on HARVEST.STAT_TEMP_HOLD
    let s := ((s.set HARVEST.NTC_LAST x).setF HARVEST.STAT_NTC_OPEN (decide (0xF8 ≤ x))).setF HARVEST.STAT_TEMP_HOLD out
    let charge := if s.get HARVEST.STAT_CHARGE = 3 then 3 else 0
    if out && !was then .next ((s.set HARVEST.STAT_TEMP_EV 1).set HARVEST.STAT_CHARGE charge)
    else if out then .next (s.set HARVEST.STAT_CHARGE charge)
    else .next s

/-- CELL_SHORT_CIRCUIT (R221): more than 60 mA for 20 µs. (DEDUCED, log entry 73). -/
def execCellShortCircuit (s : State) : Ans :=
  if s.cell = 0 ∨ s.pwr.step = .cold then .next s
  else
    let prev := s.cell
    let s := ((s.set HARVEST.STAT_CELL 0).set HARVEST.STAT_SC_EV 1).count HARVEST.SC_CNT_COUNT HARVEST.SC_CNT_OVF
    if !s.on AONCTL.MODE_DOCKED then .next s.goCold
    else
      let n := s.hv.scRun + 1
      let s : State := { s with hv := { s.hv with scPrev := prev, scWait := decide (n < 3), scRun := min n 3, scAt := s.tick } }
      .next (if 3 ≤ n then s.set HARVEST.STAT_SC_LATCH 1 else s)

/-- SC_RECOVERY (R221): 1 s after a trip while Docked. -/
def execScRecovery (s : State) : Ans :=
  if s.hv.scWait && s.on AONCTL.MODE_DOCKED && !s.on HARVEST.STAT_SC_LATCH && decide (s.hv.scAt + 250000000 ≤ s.tick) then
    .next { s.set HARVEST.STAT_CELL s.hv.scPrev with hv := { s.hv with scWait := false } }
  else .next s

/-- SC_LATCH ends when VIN becomes present (R221): the switch returns to its previous state. -/
def State.endScLatch (s : State) : State :=
  if s.on HARVEST.STAT_SC_LATCH then
    { (s.set HARVEST.STAT_SC_LATCH 0).set HARVEST.STAT_CELL s.hv.scPrev with hv := { s.hv with scRun := 0, scWait := false } }
  else s

/-! ### Cold start (R222, R223) -/

/-- STARTER_HANDOVER (R222): VSTORE reaches 1.8 V; the boost takes over with a sample. (DESIGN CHOICE, log entry 74). -/
def execStarterHandover (s : State) : Ans :=
  if s.pwr.step = .cold ∧ s.hv.stage ≠ .boost then
    .next { s.startSample with hv := { s.startSample.hv with stage := .boost } }
  else .next s

/-- BOOST_DROPOUT (R222): VSTORE falls below 1.6 V. -/
def execBoostDropout (s : State) : Ans :=
  if s.hv.stage = .boost then .next { s.set HARVEST.STAT_BOOST 0 with hv := { s.hv with stage := .starter } } else .next s

/-- COLD_START_RESET_RELEASE (R222, R223): VSTORE has been at or above 3.1 V for 1 ms; the main domain is held in Pupa.
(DESIGN CHOICE, log entry 74). -/
def execColdStartResetRelease (s : State) : Ans :=
  if s.hv.stage ≠ .boost then .next s
  else
    let s' := (s.coldReset false).keepVoc s
    let s' := ((s'.set HARVEST.STAT_COLD_START 1).set HARVEST.STAT_CELL 0).set AONCTL.STEP_STEP 5
    .next { s' with pwr := { s'.pwr with step := .pupa, coldHold := true, relockTb := false }
                    hv := { s'.hv with stage := .released } }

/-- COLD_START_POR_REASSERT (R222): VSTORE falls below 2.9 V before the cell is connected. -/
def execColdStartPorReassert (s : State) : Ans :=
  if s.hv.stage = .released ∧ s.pwr.coldHold = true then
    let s' := s.goCold.keepVoc s
    .next { s' with hv := { s'.hv with stage := .boost } }
  else .next s

/-- The main domain starts with the cold-start sequence (R223, R333). -/
def State.coldMain (s : State) : State :=
  let s : State := { s with pwr := { s.pwr with coldHold := false }, hv := { s.hv with stage := .none } }
  (s.startMain 1).showMode

/-- CELL_CONNECT (R222, R223): BAT reaches 3.20 V; the switch closes, and a main domain held in Pupa starts.
(DESIGN CHOICE, log entry 74). -/
def execCellConnect (s : State) : Ans :=
  if s.cell ≠ 1 then .next s
  else
    let s := s.set HARVEST.STAT_CELL 2
    .next (if s.pwr.coldHold then s.coldMain else s)

end Sys2Proof.Machine
end

