-- ==== Sys2Proof/Machine/Pwm.lean ====
section
/-!
DEFINITION. The PWM outputs of a lane (04_lanes.md): the voltages of the current loop, the pulse widths, when they take effect, and
the level of an output in time (R83, R97, R98, R111).
-/
namespace Sys2Proof.Machine

/-- The lane's centre after the frame's start, in ns (R83). (DEDUCED, log entry 38). -/
def State.centre (s : State) (n : Nat) : Nat := if n % 2 = 0 then s.frame.period / 4 else 3 * s.frame.period / 4

/-! ### Voltages (R97, R111) -/

/-- v_A, v_B, v_C after the common-mode offset and the final clamp (R97). -/
def commonMode (svm : Bool) (a b c : Int) : Int × Int × Int :=
  let m := if svm then asr (max a (max b c) + min a (min b c)) 1 else 0
  (clampI (a - m) 32767, clampI (b - m) 32767, clampI (c - m) 32767)

/-- The three voltages of a tick from v of phases A and B as the current PI gives them: R97, or, while HOLD_SAFE lasts, the table of
R111 for the open phase `ph` (3: none). -/
def State.voltages (s : State) (n : Nat) (hold : Bool) (ph : Nat) (a b : Int) : Int × Int × Int :=
  if s.get (LANE.CTRL_DRIVE n) = 3 then
    match (if hold then ph else 3) with
    | 0 => commonMode false 0 b (-b)
    | 1 => commonMode false a 0 (-a)
    | 2 => commonMode false a (-a) 0
    | _ => commonMode (s.on (LANE.CTRL_SVM n) && !hold) a b (-(a + b))
  else (clampI a 32767, clampI b 32767, 0)

/-! ### Pulse widths (R98) -/

/-- MINON and MINOFF applied to a width. -/
def limitWidth (w p minon minoff : Nat) : Nat := if w < minon then 0 else if p - minoff < w then p - minoff else w

/-- W of a two-phase bridge and of a three-phase output. -/
def width2 (v : Int) (p : Nat) : Nat := v.natAbs * p / 32768
def width3 (v : Int) (p : Nat) : Nat := ((32768 + v).toNat * p) / 65536

/-- What the two outputs of a bridge are high for: a pulse W, an inverted pulse P − W, high P, low 0. -/
def bridge (v : Int) (w p : Nat) (decay : Bool) : Nat × Nat :=
  if 0 ≤ v then (if decay then (p, p - w) else (w, 0)) else (if decay then (p - w, p) else (0, w))

/-- The widths that take effect at c + P/2 for voltages v (R98); `off`: the open bridge of R111 that stays at (0,0). -/
def State.setWidths (s : State) (n : Fin 10) (vA vB vC : Int) (off : Nat) : State :=
  let p := s.frame.period
  let lim (w : Nat) : Nat := limitWidth w p (s.get (LANE.PWMLIM_MINON n)) (s.get (LANE.PWMLIM_MINOFF n))
  if s.get (LANE.CTRL_DRIVE n) = 3 then
    let a := lim (width3 vA p)
    let b := lim (width3 vB p)
    s.lane n fun l => { l with
      pwNextA := a, pwNextB := b, pwNextC := lim (width3 vC p), pwNextD := p, wA := a, wB := b }
  else
    let decay := s.on (LANE.CTRL_DECAY n)
    let wa := if off = 0 then 0 else lim (width2 vA p)
    let wb := if off = 1 then 0 else lim (width2 vB p)
    let a := if off = 0 then (0, 0) else bridge vA wa p decay
    let b := if off = 1 then (0, 0) else bridge vB wb p decay
    s.lane n fun l => { l with pwNextA := a.1, pwNextB := a.2, pwNextC := b.1, pwNextD := b.2, wA := wa, wB := wb }

/-- The widths of a HOLD_SAFE that takes effect in the present tick, from v of the same tick (R106, R111). -/
def State.holdWidths (s : State) (n : Fin 10) : State :=
  let l := s.lanes[n]
  let v := s.voltages n true l.holdPhase l.piA l.piB
  s.setWidths n v.1 v.2.1 v.2.2 (if s.get (LANE.CTRL_DRIVE n) = 3 then 3 else l.holdPhase)

/-- The widths computed at the last tick come into force, at c + P/2 (R83). -/
def State.widthsInForce (s : State) (n : Fin 10) : State :=
  let l := s.lanes[n]
  let s := ((s.set (LANE.PW_A_W n) l.pwNextA).set (LANE.PW_B_W n) l.pwNextB).set (LANE.PW_C_W n) l.pwNextC
  (s.set (LANE.PW_D_W n) l.pwNextD).lane n fun l => { l with widthAt := none }

/-- The widths that are due come into force (R83). -/
def State.widthsDue (s : State) (n : Fin 10) : State :=
  match s.lanes[n].widthAt with
  | some t => if t ≤ s.tick then s.widthsInForce n else s
  | none => s

/-! ### The outputs in time (R98) -/

/-- The width in force of output `k`: 0 PWM_A to 3 PWM_D. -/
def State.pwmWidth (s : State) (n k : Nat) : Nat :=
  match k with
  | 0 => s.get (LANE.PW_A_W n)
  | 1 => s.get (LANE.PW_B_W n)
  | 2 => s.get (LANE.PW_C_W n)
  | _ => s.get (LANE.PW_D_W n)

/-- A pulse of width `w` centred in a period `p` is high `d` ns after the period's start: from p/2 − floor(w/2) for `w` ns. -/
def pulseHigh (p w d : Nat) : Bool := decide (p / 2 - w / 2 ≤ d) && decide (d < p / 2 - w / 2 + w)

/-- How far the instant `k` ns into the present timebase tick lies in the lane's PWM period, which runs from c − P/2 to c + P/2
(R83). -/
def State.pwmPhase (s : State) (n k : Nat) : Nat :=
  let p := s.frame.period
  (4 * (s.tick - s.frame.frameTick) + k + p + p / 2 - s.centre n) % p

/-- The level of output `out` of lane n, `k` ns into the present timebase tick (R98): a pulse, or with DECAY = 1 on two-phase
bridges an inverted one, centred on the lane's centre. -/
def State.pwmLevel (s : State) (n out k : Nat) : Bool :=
  let p := s.frame.period
  let w := s.pwmWidth n out
  if s.get (LANE.CTRL_DRIVE n) ≠ 3 ∧ s.on (LANE.CTRL_DECAY n) = true then !pulseHigh p (p - w) (s.pwmPhase n k)
  else pulseHigh p w (s.pwmPhase n k)

end Sys2Proof.Machine
end

