-- ==== Sys2Proof/Machine/LaneFault.lean ====
section
/-!
DEFINITION. Lane faults and drive protection (05_lane_faults.md): detection and its policy, lane groups, the end of
HOLD_SAFE, and resumption.
-/
namespace Sys2Proof.Machine

/-- The centre of the lane's last tick, in ns of the timebase. -/
def State.lastCentre (s : State) (n : Nat) : Nat :=
  4 * s.frame.frameTick + s.centre n - (if getBit s.frame.done n then 0 else s.frame.period)

/-! ### Fault policies (R110 to R114) -/

/-- All four outputs low at once. -/
def State.outputsLow (s : State) (n : Fin 10) : State :=
  let s := ((s.set (LANE.PW_A_W n) 0).set (LANE.PW_B_W n) 0).set (LANE.PW_C_W n) 0
  (s.set (LANE.PW_D_W n) 0).lane n fun l => { l with
    pwNextA := 0, pwNextB := 0, pwNextC := 0, pwNextD := 0, wA := 0, wB := 0 }

/-- The outputs under an action (R110, R111): low under COAST, and BRAKE's pattern; both hold the integrators at 0. After a
trip of a fast comparator the outputs stay low until its policy applies (R108). (DEDUCED, log entry 36). -/
def State.actionOutputs (s : State) (n : Fin 10) (act : Nat) : State :=
  let p := s.frame.period
  let brake := act == 3 && !s.lanes[n].ocPend
  let two := s.get (LANE.CTRL_DRIVE n) != 3
  let ab := if brake && two then p else 0
  let d := if brake then p else 0
  if act = 2 ∨ act = 3 then
    let s := ((s.set (LANE.PW_A_W n) ab).set (LANE.PW_B_W n) ab).set (LANE.PW_C_W n) ab
    (s.set (LANE.PW_D_W n) d).lane n fun l => { l with
      iacc := 0, iiA := 0, iiB := 0, pwNextA := ab, pwNextB := ab, pwNextC := ab, pwNextD := d, wA := 0, wB := 0 }
  else s

/-- The lane's group partners that are ACTIVE take their PARTNER_POL and suspend (R114). (DEDUCED, log entry 37). -/
def State.stopPartners (s : State) (n : Fin 10) : State :=
  let g := s.get (LANE.GROUP_GRP n)
  if g = 0 then s
  else s.forLanes fun m s =>
    if m ≠ n ∧ s.get (LANE.GROUP_GRP m) = g ∧ s.get (LANE.STAT_LSTATE m) = 3 then
      let act := match s.get (LANE.GROUP_PARTNER_POL m) with
        | 1 => 4
        | 2 => 3
        | _ => 2
      let s := s.lane m fun l => { l with groupAt := some (s.tick, s.get (LANE.FLT_STAT_GROUP m)) }
      (((s.suspend m 6 act n).set (LANE.FLT_STAT_GROUP m) 1).set (LANE.FLT_STAT_PHASE m) 3).actionOutputs m act
    else s

/-- A policy takes effect on the lane as a new suspension (R113, R114). (DEDUCED, log entry 36). -/
def State.faultSuspend (s : State) (n : Fin 10) (c : FaultClass) (phase : Nat) : State :=
  let pol := s.get (c.polField n)
  let act := polAction pol
  let s := (s.suspend n c.code act n).set (LANE.FLT_STAT_PHASE n) phase
  let s := s.count (LANE.FLT_CNT_COUNT n) (LANE.FLT_CNT_OVF n)
  let s := s.lane n fun l => { l with
    holdA := l.irA, holdB := l.irB, holdPhase := if c = .openPhase then phase else 3
    holdEnd := s.lastCentre n + s.get (LANE.HOLD_CFG2_HOLD_TIME n) * 1000000 }
  let s := if act = 1 then s.holdWidths n else s.actionOutputs n act
  let s := s.pulse (0x08 + n) 1
  let s := s.report { src := 16 + n, cause := 0x06, detail := s.readReg (LANE.FLT_STAT n), level := 1 }
  s.stopPartners n

/-- The first class, in the order of R112, of the classes detected in one tick. -/
def firstClass (cs : List (FaultClass × Nat)) : Option (FaultClass × Nat) :=
  [FaultClass.sense, .oc, .drv, .openPhase, .fe].findSome? fun c => cs.find? fun x => x.1 == c

/-- The action of a SUSPENDED lane after the classes detected in one tick (R112): a hold takes the policy of the first class; a
brake coasts where OC or DRV is among them. -/
def State.laterActions (s : State) (n : Nat) (act : Nat) (c : FaultClass) (cs : List (FaultClass × Nat)) : Nat :=
  if act = 3 then (if cs.any fun x => x.1 == .oc || x.1 == .drv then 2 else 3)
  else laterAction act c (s.get (c.polField n))

/-- A fault in the tick of RES_AT prevails over the resume, whichever of the two came first (R116): OUTCOME is FAULT, and a lane
that has resumed in this tick is SUSPENDED again. -/
def State.faultAtResume (s : State) (n : Fin 10) : State :=
  let outcome (s : State) : State :=
    ((s.set (LANE.RES_STAT_PENDING n) 0).set (LANE.RES_STAT_OUTCOME n) 0x16).set (LANE.FLT_IRQ_STAT_RES_DONE n) 1
  match s.lanes[n].resNow.filter fun r => r.tick == s.tick with
  | some r =>
    match r.act with
    | some a =>
      ((outcome s).set (LANE.STAT_LSTATE n) 4).lane n fun l => { l with act := a, resNow := some { r with act := none } }
    | none => outcome s
  | none =>
    if s.get (LANE.STAT_LSTATE n) = 4 && s.on (LANE.RES_STAT_PENDING n) && s.due s.lanes[n].resAt then
      (outcome s).lane n fun l => { l with
        resNow := some ⟨s.tick, s.get (LANE.RES_STAT_OUTCOME n), s.get (LANE.FLT_IRQ_STAT_RES_DONE n), none⟩ }
    else s

/-- Two lanes of a group that fault in one tick each apply their own policy (R114): a partner stopped in this tick is as it was
before the stop. -/
def State.ungroup (s : State) (n : Fin 10) : State :=
  match s.lanes[n].groupAt with
  | some (t, g) =>
    if t = s.tick && s.get (LANE.STAT_LSTATE n) == 4 then
      ((s.set (LANE.STAT_LSTATE n) 3).put (LANE.FLT_STAT_GROUP n) g).lane n fun l => { l with groupAt := none }
    else s
  | none => s

/-- What a detection does to a lane (R107, R112, R113): all classes detected in the tick latch. In ACTIVE the first class's
policy takes effect; SUSPENDED with an action in force it may change ACTION only; in a suspension under R53 it is a new
suspension; in CAL and READY it latches and reports. (DEDUCED, log entry 36). -/
def State.detect (s : State) (n : Fin 10) (cs : List (FaultClass × Nat)) : State :=
  let s := cs.foldl (fun s c => s.set (c.1.latch n) 1) s
  match firstClass cs with
  | none => s
  | some (c, phase) =>
    let s := (s.faultAtResume n).ungroup n
    let st := s.get (LANE.STAT_LSTATE n)
    let act := s.lanes[n].act
    if st = 3 ∨ (st = 4 ∧ act = 0) then s.faultSuspend n c phase
    else if st = 4 then
      let a := s.laterActions n act c cs
      if a = act then s else (s.setAction n a).actionOutputs n a
    else if st = 1 ∨ st = 2 then
      s.report { src := 16 + n, cause := 0x06, detail := s.readReg (LANE.FLT_STAT n), level := 1 }
    else s

/-! ### The conditions of R106 that the lane's ticks count -/

/-- OPEN: 8 consecutive ticks on a phase; the phase, the first of A, B and W where several have counted out.
(DESIGN CHOICE, log entry 33). -/
def State.openSeen (s : State) (n : Fin 10) : Option Nat :=
  let l := s.lanes[n]
  if !s.on (LANE.FLT_CFG_OPEN_EN n) then none
  else if 8 ≤ l.openA then some 0 else if 8 ≤ l.openB then some 1 else if 8 ≤ l.openW then some 2 else none

/-- SENSE, stuck: 64 consecutive conversions with one code; the phase, A before B. (DESIGN CHOICE, log entry 33). -/
def State.stuckSeen (s : State) (n : Fin 10) : Option Nat :=
  let l := s.lanes[n]
  if 64 ≤ l.stuckA then some 0 else if 64 ≤ l.stuckB then some 1 else none

/-- SENSE, plausibility: 2 consecutive conversions; the phase. -/
def State.plausSeen (s : State) (n : Fin 10) : Option Nat :=
  let l := s.lanes[n]
  if 2 ≤ l.plausA then some 0 else if 2 ≤ l.plausB then some 1 else none

/-- SENSE, phase sum: 8 consecutive ticks. -/
def State.sumSeen (s : State) (n : Fin 10) : Bool := decide (8 ≤ s.lanes[n].sumN)

/-- FE: FE_CNT consecutive ticks. -/
def State.feSeen (s : State) (n : Fin 10) : Bool :=
  s.on (LANE.FLT_CFG_FE_EN n) && decide (s.get (LANE.FE_CFG_FE_CNT n) ≤ s.lanes[n].feN)

/-- Every class whose condition the ticks have counted out, with its phase (R106, R112); of several SENSE kinds stuck stands before
plausibility and that before the sum. (DESIGN CHOICE, log entry 33). -/
def State.detected (s : State) (n : Fin 10) : List (FaultClass × Nat) :=
  (match s.stuckSeen n with
    | some p => [(FaultClass.sense, p)]
    | none => []) ++
  (match s.plausSeen n with
    | some p => [(FaultClass.sense, p)]
    | none => []) ++
  (if s.sumSeen n then [(FaultClass.sense, 3)] else []) ++
  (match s.openSeen n with
    | some p => [(FaultClass.openPhase, p)]
    | none => []) ++
  (if s.feSeen n then [(FaultClass.fe, 3)] else [])

/-- The SUB bits of a SENSE detection (FLT_STAT bits 2 to 0). -/
def State.setSubs (s : State) (n : Fin 10) : State :=
  let s := if (s.stuckSeen n).isSome then s.set (LANE.FLT_STAT_SUB_STUCK n) 1 else s
  let s := if (s.plausSeen n).isSome then s.set (LANE.FLT_STAT_SUB_PLAUS n) 1 else s
  if s.sumSeen n then s.set (LANE.FLT_STAT_SUB_SUM n) 1 else s

/-- The counts begin again in a tick in which the loops do not run (R106). -/
def LaneSt.restartCounts (l : LaneSt) : LaneSt :=
  { l with openA := 0, openB := 0, openW := 0, stuckA := 0, stuckB := 0, plausA := 0, plausB := 0, sumN := 0, feN := 0 }

/-- The count of a condition that has counted out and is detected begins again; the others go on (R106). -/
def LaneSt.restartSeen (l : LaneSt) (oe fe : Bool) : LaneSt :=
  let past (on : Bool) (k x : Nat) : Nat := if on && decide (k ≤ x) then 0 else x
  { l with
    openA := past oe 8 l.openA, openB := past oe 8 l.openB, openW := past oe 8 l.openW
    stuckA := past true 64 l.stuckA, stuckB := past true 64 l.stuckB, plausA := past true 2 l.plausA, plausB := past true 2 l.plausB
    sumN := past true 8 l.sumN, feN := if fe then 0 else l.feN }

/-- Every fault detected in the present tick takes effect together (R112). (DESIGN CHOICE, log entry 33). -/
def State.detectTick (s : State) (n : Fin 10) (also : List (FaultClass × Nat)) : State :=
  let cs := also ++ s.detected n
  ((s.setSubs n).lane n fun l => l.restartSeen (s.on (LANE.FLT_CFG_OPEN_EN n)) (s.feSeen n)).detect n cs

/-- The command of one detection: it comes about where its condition holds on a lane that is not OFF.
(DESIGN CHOICE, log entry 33). -/
def State.detectIf (s : State) (n : Fin 10) (p : Bool) : Ans :=
  if p && s.get (LANE.STAT_LSTATE n) != 0 then .next (s.detectTick n []) else .next s

/-! ### The commands -/

/-- OC_TRIP (R106 to R108): a fast comparator of a sense input trips. In ACTIVE and SUSPENDED the outputs go low and the OC
policy applies from the next lane tick; in CAL and READY it latches and reports. FLT_STAT.PHASE names the phase of OPEN or
SENSE only: 3 for any other class. (DEDUCED, log entry 36). -/
def execOcTrip (n : Fin 10) (s : State) : Ans :=
  let st := s.get (LANE.STAT_LSTATE n)
  if st = 0 || !s.domOn .lane then .next s
  else
    let s := s.set (LANE.FLT_STAT_LIVE_OC n) 1
    if st < 3 then .next (s.detectTick n [(.oc, 3)])
    else
      let s := s.faultAtResume n
      .next (((s.set (LANE.FLT_STAT_OC n) 1).outputsLow n).lane n fun l => { l with ocPend := true })

/-- DRV_FAULT (R106, R107): LANEn_FLT_N has been low for DRV_FILT × 4 ns. (DEDUCED, log entry 36). -/
def execDrvFault (n : Fin 10) (s : State) : Ans :=
  if !s.domOn .lane then .next s
  else
    let s := (s.set (LANE.FLT_STAT_LIVE_DRV n) 1).lane n fun l => { l with drvQual := true }
    if s.get (LANE.STAT_LSTATE n) = 0 || !s.on (LANE.FLT_CFG_DRV_EN n) then .next s
    else .next (s.detectTick n [(.drv, 3)])

/-- OPEN_DETECT (R106). -/
def execOpenDetect (n : Fin 10) (s : State) : Ans := s.detectIf n (s.openSeen n).isSome

/-- SENSE_STUCK_DETECT (R106). -/
def execSenseStuckDetect (n : Fin 10) (s : State) : Ans := s.detectIf n (s.stuckSeen n).isSome

/-- SENSE_PLAUS_DETECT (R106). -/
def execSensePlausDetect (n : Fin 10) (s : State) : Ans := s.detectIf n (s.plausSeen n).isSome

/-- SENSE_SUM_DETECT (R106). -/
def execSenseSumDetect (n : Fin 10) (s : State) : Ans := s.detectIf n (s.sumSeen n)

/-- FE_DETECT (R106). -/
def execFeDetect (n : Fin 10) (s : State) : Ans := s.detectIf n (s.feSeen n)

/-- HOLD_SAFE_END (R111): the first tick whose centre is at or after the end of the hold; from it the lane coasts.
(DEDUCED, log entry 38). -/
def execHoldSafeEnd (n : Fin 10) (s : State) : Ans :=
  let c := 4 * s.frame.frameTick + s.centre n
  if s.get (LANE.STAT_LSTATE n) = 4 && s.lanes[n].act == 1 && decide (s.lanes[n].holdEnd ≤ c) && decide (c < 4 * s.tick + 4) then
    let s := (s.setAction n 2).set (LANE.FLT_IRQ_STAT_HOLD_END n) 1
    .next (s.actionOutputs n 2)
  else .next s

/-! ### Resumption (R115, R116) -/

/-- A final OUTCOME of a resume (R115). -/
def State.resDone (s : State) (n : Nat) (code : Nat) : State :=
  ((s.set (LANE.RES_STAT_PENDING n) 0).set (LANE.RES_STAT_OUTCOME n) code).set (LANE.FLT_IRQ_STAT_RES_DONE n) 1

/-- A RESUME command lands (R115, R116). -/
def State.resume (s : State) (n : Fin 10) : State :=
  if s.get (LANE.STAT_LSTATE n) ≠ 4 then s.resDone n 0x10
  else
    let (full, past) := s.stamp40 (s.get (LANE.RESUME_RES_AT_HI n) * 2 ^ 32 + s.get (LANE.RES_AT_LO_RES_AT_LO n))
    if past || full == s.mt then s.resDone n 0x14
    else (s.set (LANE.RES_STAT_PENDING n) 1).lane n fun l => { l with resAt := full }

/-- The first record with START after `t`, from record `i` of the front bank on (R115). -/
def State.recordAfter (s : State) (n : Fin 10) (t : Nat) : Nat → Option (Nat × Nat) → Option (Nat × Nat)
  | _, none => none
  | 0, some _ => none
  | k + 1, some (i, full) =>
    if t < full then some (i, full)
    else
      let r := s.seg n (s.frontPhys n) i
      if r.kind = 4 ∨ 383 ≤ i then none
      else s.recordAfter n t k (some (i + 1, full + ((s.seg n (s.frontPhys n) (i + 1)).start + 2 ^ 40 - r.start % 2 ^ 40) % 2 ^ 40))

/-- The code of the first check of R115 that fails; none when all pass. -/
def State.resumeRefusal (s : State) (n : Fin 10) (nxt : Option (Nat × Nat)) : Option Nat :=
  let meas := s.get (LANE.POS_MEAS_P n)
  let far := match nxt with
    | some (i, _) =>
      let r := s.seg n (s.frontPhys n) i
      r.cont && decide (s.get (SCHEDLD.L_CONTTOL_CONTTOL n) < (sgn 32 (wrap 32 (r.c0 - (meas : Int)))).natAbs)
    | none => false
  if !s.timeValid then some 0x13
  else if s.lanes[n].act = 1 then some 0x11
  else if s.on (LANE.FLT_STAT_LIVE_OC n) || s.on (LANE.FLT_STAT_LIVE_DRV n) ||
      s.on (LANE.FLT_STAT_OPEN n) || s.on (LANE.FLT_STAT_SENSE n) then some 0x12
  else if far then some 0x15
  else none

/-- RESUME (R115): the RESUME register written with CMD = 1. -/
def execResume (n : Fin 10) (v : Word) (s : State) : Ans :=
  s.busDo (LANE.RESUME n) fun s => (s.set (LANE.RESUME_RES_AT_HI n) (bits v.toNat 7 0)).resume n

/-- RESUME_AT (R115, R116): the tick that contains the instant of a pending resume. -/
def execResumeAt (n : Fin 10) (s : State) : Ans :=
  if !(s.on (LANE.RES_STAT_PENDING n) && s.due s.lanes[n].resAt) then .next s
  else
    let s := (s.set (LANE.RES_STAT_PENDING n) 0).lane n fun l => { l with
      resNow := some ⟨s.tick, s.get (LANE.RES_STAT_OUTCOME n), s.get (LANE.FLT_IRQ_STAT_RES_DONE n), none⟩ }
    let nxt := s.recordAfter n s.lanes[n].resAt 384 s.lanes[n].nxt
    match s.resumeRefusal n nxt with
    | some c => .next (s.resDone n c)
    | none =>
      let s := (s.setLstate n 3).resDone n 0x02
      let p := s.get (LANE.POS_MEAS_P n)
      let s := if nxt.isNone then s.set (LANE.STAT_ENDED n) 1 else s
      .next ((s.set (LANE.POS_CMD_P n) p).lane n fun l => { l with
        held := p, holding := true, coasting := false, nxt := nxt, iacc := 0, iiA := 0, iiB := 0, entered := true
        resNow := l.resNow.map fun r => { r with act := some l.act } })

end Sys2Proof.Machine
end

