-- ==== Sys2Proof/Machine/Schedule.lean ====
section
/-!
DEFINITION. Schedules and epoch switching (03_schedules.md): the copy channel, verification, arming, cancelling, the switch
itself, LOAD_DATA, and the actions of played records.
-/
namespace Sys2Proof.Machine

/-! ### Verification (R72, R73) -/

/-- The code of the first check that fails, and the index of the failing record (R72, R74). -/
structure Verdict where
  reason : Nat
  index : Nat
  deriving DecidableEq, Repr

/-- C0 + C1·u + C2·u² + C3·u³ at u = k/16, times 4,096 (R72 h). -/
def Seg.pos16 (r : Seg) (k : Int) : Int := r.c0 * 4096 + r.c1 * k * 256 + r.c2 * k ^ 2 * 16 + r.c3 * k ^ 3

/-- The coefficients and flags that R71 and R72 c require of a record by itself. -/
def Seg.formatOk (r : Seg) : Bool :=
  r.reserved == 0 && (!r.rel || r.c0 == 0) && !(r.cont && r.rel) &&
  match r.kind with
  | 0 => true
  | 1 | 2 => r.c1 == 0 && r.c2 == 0 && r.c3 == 0
  | 3 => r.c0 == 0 && r.c1 == 0 && r.c2 == 0 && r.c3 == 0 && !r.rel && !r.cont
  | _ => r.c0 == 0 && r.c1 == 0 && r.c2 == 0 && r.c3 == 0

/-- The range of DURATION (R71). -/
def Seg.durationOk (r : Seg) : Bool :=
  match r.kind with
  | 0 | 1 | 3 => decide (10000 ≤ r.dur) && decide (r.dur ≤ 4000000000)
  | 2 => decide (r.dur ≤ 4000000000)
  | _ => r.dur == 0

/-- The velocity bound of R73, exact. -/
def Seg.velOk (r : Seg) (velmax : Int) : Bool :=
  let d : Int := (r.dur : Nat)
  decide (absI r.c1 * 1000 ≤ velmax * d) && decide (absI (r.c1 + 2 * r.c2 + 3 * r.c3) * 1000 ≤ velmax * d) &&
  (r.c3 == 0 ||
    -- u* = −C2 / (3·C3) strictly between 0 and 1
    !(if 0 < r.c3 then decide (0 < -r.c2) && decide (-r.c2 < 3 * r.c3) else decide (-r.c2 < 0) && decide (3 * r.c3 < -r.c2)) ||
    decide (absI (3 * r.c3 * r.c1 - r.c2 ^ 2) * 1000 ≤ velmax * d * absI (3 * r.c3)))

/-- The acceleration bound of R73, exact. -/
def Seg.accOk (r : Seg) (accmax : Int) : Bool :=
  let d : Int := (r.dur : Nat)
  decide (absI (2 * r.c2) * 10 ^ 12 ≤ accmax * d ^ 2) && decide (absI (2 * r.c2 + 6 * r.c3) * 10 ^ 12 ≤ accmax * d ^ 2)

/-- The position bound of R72 h. -/
def Seg.posOk (r : Seg) (lo hi : Int) : Bool :=
  r.rel || decide (3 ≤ r.kind) ||
  (List.range 17).all fun k => decide (lo * 4096 ≤ r.pos16 k) && decide (r.pos16 k ≤ hi * 4096)

/-- The checks a to j of one record, in order; 0 when all pass (R72). `prev` is the record before it, `start0` START of
record 0. -/
def recordReason (q : SchedSt) (start0 : Nat) (prev : Option Seg) (last : Bool) (bytes : List Byte) : Nat :=
  let r := Seg.ofBytes bytes
  if crc16 (bytes.take 30) ≠ r.crc then 0x03
  else if 5 ≤ r.kind then 0x04
  else if !r.formatOk || (match prev with | some p => r.cont && (p.rel || decide (3 ≤ p.kind)) | none => false) then 0x05
  else if !r.durationOk then 0x06
  else if (match prev with
      | some p =>
        let d := (r.start + 2 ^ 40 - p.start) % 2 ^ 40
        !(decide (p.dur ≤ d) && decide (d < 2 ^ 39)) || (p.kind == 1 && d != p.dur)
      | none => false) then 0x07
  else if 2 ^ 39 ≤ (r.start + r.dur + 2 ^ 40 - start0) % 2 ^ 40 then 0x08
  else if (match prev with
      | some p => r.cont && wrap 32 r.c0 != p.endPos (wrap 32 p.c0)
      | none => false) then 0x09
  else if !r.posOk (sgn 32 q.vPosMin) (sgn 32 q.vPosMax) then 0x0A
  else if r.kind == 0 && !r.velOk (q.vVel : Nat) then 0x0B
  else if r.kind == 0 && !r.accOk (q.vAcc : Nat) then 0x0C
  else if (r.kind == 4) != last then 0x0D
  else 0

/-- The records from index `i` on, `n` of them. -/
def recordsReason (q : SchedSt) (start0 : Nat) : Option Seg → Nat → Nat → List Byte → Verdict
  | _, _, 0, _ => ⟨0, 0⟩
  | prev, i, n + 1, bytes =>
    let c := recordReason q start0 prev (n == 0) (bytes.take 32)
    if c ≠ 0 then ⟨c, i⟩ else recordsReason q start0 (some (Seg.ofBytes (bytes.take 32))) (i + 1) n (bytes.drop 32)

/-- The whole verification (R72) of a bank's bytes. -/
def verdict (q : SchedSt) (bytes : List Byte) : Verdict :=
  if q.vCount = 0 ∨ 384 < q.vCount then ⟨0x01, 0⟩
  else
    let bytes := bytes.take (q.vCount * 32)
    if crc32c bytes ≠ q.vCrc then ⟨0x02, 0⟩
    else recordsReason q (field bytes 0 5) none 0 q.vCount bytes

/-! ### Back-bank states (R75) -/

/-- The back bank's state; BACK_GEN reads 0 unless it is READY or ARMED (R77). -/
def State.setBack (s : State) (n : Fin 10) (st : Nat) : State :=
  let s := s.set (SCHEDLD.L_BSTAT_BACK_STATE n) st
  if st = 3 ∨ st = 5 then s else s.set (SCHEDLD.L_GEN_BACK_GEN n) 0

/-- A final OUTCOME of a switch attempt: SW_DONE in the same tick (R78, R79, R80). -/
def State.swDone (s : State) (n : Fin 10) (code : Nat) : State :=
  ((s.set (SCHEDLD.L_SWSTAT_OUTCOME n) code).set (SCHEDLD.L_SWSTAT_ARMED n) 0).setBit SCHEDLD.IRQ_STAT_SW_DONE n true

/-- A command ignored under R76. -/
def State.cmdIgn (s : State) (n : Fin 10) : State := s.set (SCHEDLD.L_SWSTAT_CMD_IGN n) 1

/-- The code of the first check of R79 that fails at the switch instant; none when all pass. (DEDUCED, log entry 29). -/
def State.switchRefusal (s : State) (n : Fin 10) : Option Nat :=
  let st := s.get (LANE.STAT_LSTATE n)
  let r0 := s.seg n (s.backPhys n) 0
  if !s.timeValid then some 0x14
  else if st = 0 ∨ st = 1 then some 0x15
  else if st = 4 then some 0x16
  else if s.inTraj n then some 0x17
  else if r0.cont && decide (s.get (SCHEDLD.L_CONTTOL_CONTTOL n) <
      (sgn 32 (wrap 32 (r0.c0 - (s.get (LANE.POS_CMD_P n) : Nat)))).natAbs) then some 0x18
  else none

/-- The switch itself (R79, R88): the banks exchange roles and the lane holds its commanded position until record 0 starts. -/
def State.switchBanks (s : State) (n : Fin 10) : State :=
  let ready := s.get (LANE.STAT_LSTATE n) == 2
  let s := s.set (SCHEDLD.L_GEN_FRONT_GEN n) (s.get (SCHEDLD.L_GEN_BACK_GEN n))
  let s := (s.set (SCHEDLD.L_BSTAT_FRONT_PHYS n) (s.backPhys n)).set (SCHEDLD.L_BSTAT_FRONT_VALID n) 1
  let s := (s.setBack n 0).swDone n 2
  let s := (s.set (LANE.STAT_ENDED n) 0).set (LANE.STAT_IN_SEG n) 0
  let s := s.lane n fun l => { l with
    playing := true, started := false, holding := true, coasting := false, acts := []
    held := s.get (LANE.POS_CMD_P n), nxt := some (0, (s.stamp40 (s.seg n (s.frontPhys n) 0).start).1)
    iacc := if ready then 0 else l.iacc, iiA := if ready then 0 else l.iiA, iiB := if ready then 0 else l.iiB }
  if ready then s.setLstate n 3 else s

/-- In the tick that contains S of an armed switch, the checks of R79 and the switch or its refusal; in any other, nothing.
(DEDUCED, log entry 29; DEDUCED, log entry 32). -/
def State.switchAt (s : State) (n : Fin 10) : State :=
  if !(s.on (SCHEDLD.L_SWSTAT_ARMED n) && s.due s.sched[n].armS && s.domOn .lane) then s
  else
    let s := s.advance n s.sched[n].armS
    match s.switchRefusal n with
    | some c => (s.setBack n 3).swDone n c
    | none => s.switchBanks n

/-! ### The loader's commands (R75 to R78, R80) -/

/-- VERIFY (R72, R75, R76): every input is taken in the tick in which it lands. (DEDUCED, log entry 30). -/
def State.verify (s : State) (n : Fin 10) : State :=
  let b := s.get (SCHEDLD.L_BSTAT_BACK_STATE n)
  if b = 2 ∨ b = 5 then s.cmdIgn n
  else
    let s := s.setBack n 2
    s.schedOf n fun q => { q with
      vCount := s.get (SCHEDLD.L_LOADCFG_COUNT n), vGen := s.get (SCHEDLD.L_LOADCFG_GEN n)
      vCrc := s.get (SCHEDLD.L_BANKCRC_CRC n), vPosMin := s.get (SCHEDLD.L_POSMIN_POSMIN n)
      vPosMax := s.get (SCHEDLD.L_POSMAX_POSMAX n), vVel := s.get (SCHEDLD.L_VELMAX_VELMAX n)
      vAcc := s.get (SCHEDLD.L_ACCMAX_ACCMAX n) }

/-- INVALIDATE (R75, R76). -/
def State.invalidate (s : State) (n : Fin 10) : State :=
  let b := s.get (SCHEDLD.L_BSTAT_BACK_STATE n)
  if b = 2 ∨ b = 5 then s.cmdIgn n else s.setBack n 0

/-- ARM with the switch instant of SWT (R78); an ARM while ARMED is ignored (R76). -/
def State.arm (s : State) (n : Fin 10) : State :=
  let b := s.get (SCHEDLD.L_BSTAT_BACK_STATE n)
  if b = 5 then s.cmdIgn n
  else
    let s40 := s.get (SCHEDLD.L_SWT_HI_S_HI n) * 2 ^ 32 + s.get (SCHEDLD.L_SWT_LO_S_LO n)
    let p := s.stamp40 s40
    if !s.timeValid then s.swDone n 0x14
    else if b ≠ 3 then s.swDone n 0x10
    else if s.on (SCHEDLD.L_BSTAT_FRONT_VALID n) &&
        !newer 16 (s.get (SCHEDLD.L_GEN_BACK_GEN n)) (s.get (SCHEDLD.L_GEN_FRONT_GEN n)) then s.swDone n 0x11
    else if p.2 || s.due p.1 then s.swDone n 0x12
    else if 2 ^ 39 ≤ ((s.seg n (s.backPhys n) 0).start + 2 ^ 40 - s40) % 2 ^ 40 then s.swDone n 0x13
    else
      let s := (s.setBack n 5).set (SCHEDLD.L_SWSTAT_OUTCOME n) 1
      (s.set (SCHEDLD.L_SWSTAT_ARMED n) 1).schedOf n fun q => { q with armS := p.1 }

/-- CANCEL (R80): in a tick before the tick of S it cancels; otherwise TOO_LATE. -/
def State.cancel (s : State) (n : Fin 10) : State :=
  if s.on (SCHEDLD.L_SWSTAT_ARMED n) && !s.due s.sched[n].armS then (s.setBack n 3).swDone n 3
  else s.set (SCHEDLD.L_SWSTAT_TOO_LATE n) 1

/-- What the loader's commands of a lane write. -/
def State.swRegs (s : State) (n : Fin 10) : SwRegs where
  back := s.get (SCHEDLD.L_BSTAT_BACK_STATE n)
  gen := s.get (SCHEDLD.L_GEN_BACK_GEN n)
  outcome := s.get (SCHEDLD.L_SWSTAT_OUTCOME n)
  armed := s.get (SCHEDLD.L_SWSTAT_ARMED n)
  tooLate := s.get (SCHEDLD.L_SWSTAT_TOO_LATE n)
  ign := s.get (SCHEDLD.L_SWSTAT_CMD_IGN n)
  done := s.bit SCHEDLD.IRQ_STAT_SW_DONE n

/-- The same put back. -/
def State.putSwRegs (s : State) (n : Fin 10) (r : SwRegs) : State :=
  let s := ((s.put (SCHEDLD.L_BSTAT_BACK_STATE n) r.back).put (SCHEDLD.L_GEN_BACK_GEN n) r.gen).put (SCHEDLD.L_SWSTAT_OUTCOME n) r.outcome
  let s := ((s.put (SCHEDLD.L_SWSTAT_ARMED n) r.armed).put (SCHEDLD.L_SWSTAT_TOO_LATE n) r.tooLate).put (SCHEDLD.L_SWSTAT_CMD_IGN n) r.ign
  s.setBit SCHEDLD.IRQ_STAT_SW_DONE n r.done

/-- One command by itself. -/
def State.loaderDo (s : State) (n : Fin 10) : SwCmd → State
  | .arm => s.arm n
  | .cancel => s.cancel n
  | .verify => s.verify n
  | .invalidate => s.invalidate n

/-- The order in which the loader takes the commands of one tick (R80): ARM, CANCEL, then VERIFY and INVALIDATE, those of write sets
before those of the register. -/
def loaderOrder (l : List (SwCmd × Bool)) : List (SwCmd × Bool) :=
  l.filter (fun c => c.1 == .arm) ++ l.filter (fun c => c.1 == .cancel) ++
  l.filter (fun c => (c.1 == .verify || c.1 == .invalidate) && c.2) ++ l.filter (fun c => (c.1 == .verify || c.1 == .invalidate) && !c.2)

/-- A command of a lane's loader lands (R80): after the switch due in the tick, and together with the lane's other commands of the
tick in the loader's order, whichever came first. -/
def State.loader (s : State) (n : Fin 10) (c : SwCmd) (set : Bool) : State :=
  let s := s.switchAt n
  match s.sched[n].landed.filter fun l => l.tick == s.tick && l.after == s.swRegs n with
  | some l =>
    let cmds := l.cmds ++ [(c, set)]
    let s := (loaderOrder cmds).foldl (fun s c => s.loaderDo n c.1) (s.putSwRegs n l.before)
    s.schedOf n fun q => { q with landed := some ⟨s.tick, l.before, s.swRegs n, cmds⟩ }
  | none =>
    let before := s.swRegs n
    let s := s.loaderDo n c
    s.schedOf n fun q => { q with landed := some ⟨s.tick, before, s.swRegs n, [(c, set)]⟩ }

/-! ### The commands -/

/-- COPY_START (R75, R76): COPY_CTRL written with START = 1, its other fields applied first; COUNT 0 copies nothing, and takes the bank
to LOADING all the same. (DESIGN CHOICE, log entry 109). -/
def execCopyStart (v : Word) (s : State) : Ans :=
  s.busDo SCHEDLD.COPY_CTRL fun s =>
    let s := s.writeFields (fun f => f.acc != .w1c && f.acc != .wo) SCHEDLD.COPY_CTRL v.toNat false
    let s := s.writeFields (fun f => f.acc == .w1c) SCHEDLD.COPY_CTRL v.toNat false
    if s.on SCHEDLD.COPY_CTRL_BUSY then s
    else
      let src := s.get SCHEDLD.COPY_SRC_SRC * 32
      let cnt := s.get SCHEDLD.COPY_CTRL_COUNT
      let ln := s.get SCHEDLD.COPY_CTRL_LANE
      let b := s.get (SCHEDLD.L_BSTAT_BACK_STATE ln)
      if b = 2 ∨ b = 5 ∨ !inSram src (cnt * 32) then s.set SCHEDLD.COPY_CTRL_ERR 1
      else
        let s := s.set SCHEDLD.COPY_CTRL_BUSY 1
        let s := if h : ln < 10 then s.setBack ⟨ln, h⟩ 1 else s
        { s with copy := ⟨src, cnt, ln, s.on SCHEDLD.COPY_CTRL_AUTO_VERIFY⟩ }

/-- COPY_DONE: the copy ends; with AUTO_VERIFY, VERIFY is issued. A bank that has become VERIFYING or ARMED meanwhile
refuses the copy (R76); while a march test holds its source it cannot end (R263); the channel's clock runs while its domain is On (R38).
(DEDUCED, log entry 30). -/
def execCopyDone (s : State) : Ans :=
  if !s.on SCHEDLD.COPY_CTRL_BUSY || !s.domOn .lane || s.marchHolds s.copy.src (s.copy.count * 32) then .next s
  else
    let s := (s.set SCHEDLD.COPY_CTRL_BUSY 0).set SCHEDLD.COPY_CTRL_DONE 1
    if h : s.copy.lane < 10 then
      let n : Fin 10 := ⟨s.copy.lane, h⟩
      let b := s.get (SCHEDLD.L_BSTAT_BACK_STATE n)
      if b = 2 ∨ b = 5 then .next (s.set SCHEDLD.COPY_CTRL_ERR 1)
      else
        let (s, d) := s.dmaRead .copy s.copy.src (s.copy.count * 32)
        let s := (s.pokes (bankBase n (s.backPhys n)) d).setBack n 1
        .next (if s.copy.auto then s.loader n .verify false else s)
    else .next s

/-- VERIFY (R72): Ln_CMD written 1. -/
def execVerify (n : Fin 10) (s : State) : Ans := s.busDo (SCHEDLD.L_CMD n) fun s => s.loader n .verify false

/-- VERIFY_DONE (R74): the checks end; the bank is READY with the generation taken at VERIFY, or REJECTED.
(DEDUCED, log entry 30). -/
def execVerifyDone (n : Fin 10) (s : State) : Ans :=
  if s.get (SCHEDLD.L_BSTAT_BACK_STATE n) ≠ 2 || !s.domOn .lane then .next s
  else
    let r := verdict s.sched[n] (s.bytes (bankBase n (s.backPhys n)) 12288)
    let s := (s.set (SCHEDLD.L_BSTAT_REASON n) r.reason).set (SCHEDLD.L_BSTAT_REC_INDEX n) r.index
    let s := s.setBit SCHEDLD.IRQ_STAT_VER_DONE n true
    if r.reason = 0 then .next ((s.setBack n 3).set (SCHEDLD.L_GEN_BACK_GEN n) s.sched[n].vGen)
    else .next (s.setBack n 4)

/-- ARM (R78): Ln_CMD written 2. -/
def execArm (n : Fin 10) (s : State) : Ans := s.busDo (SCHEDLD.L_CMD n) fun s => s.loader n .arm false

/-- CANCEL (R80): Ln_CMD written 3. -/
def execCancel (n : Fin 10) (s : State) : Ans := s.busDo (SCHEDLD.L_CMD n) fun s => s.loader n .cancel false

/-- INVALIDATE (R75): Ln_CMD written 4. -/
def execInvalidate (n : Fin 10) (s : State) : Ans := s.busDo (SCHEDLD.L_CMD n) fun s => s.loader n .invalidate false

/-- EPOCH_SWITCH (R79): the tick that contains S of an armed switch. -/
def execEpochSwitch (n : Fin 10) (s : State) : Ans := .next (s.switchAt n)

/-- LOAD_DATA (R81): records written through the dictionary to the back bank at LOAD_OFFSET; the abort code is held in
the bus answer's place by the dictionary's WRITE, of which this is the effect. -/
def State.loadData (s : State) (n : Fin 10) (d : List Byte) : State :=
  let o := s.sched[n].loadOffset
  let s := (s.pokes (bankBase n (s.backPhys n) + o * 32) d).setBack n 1
  s.schedOf n fun q => { q with loadOffset := o + d.length / 32 }

/-- The abort code of a LOAD_DATA (R76, R81): 0 when it is accepted. (DEDUCED, log entry 31). -/
def State.loadAbort (s : State) (n : Fin 10) (d : List Byte) : Nat :=
  let b := s.get (SCHEDLD.L_BSTAT_BACK_STATE n)
  if d.length = 0 ∨ d.length % 32 ≠ 0 ∨ 256 < d.length then Abort.badLength
  else if 384 < s.sched[n].loadOffset + d.length / 32 then Abort.range
  else if b = 2 ∨ b = 5 then Abort.state
  else 0

/-- LOAD_DATA (R81). (DEDUCED, log entry 31). -/
def execLoadData (n : Fin 10) (d : List Byte) (s : State) : Ans :=
  if !s.domOn .lane then .next { s with abort := Abort.domainOff }
  else if s.loadAbort n d ≠ 0 then .next { s with abort := s.loadAbort n d }
  else .next { s.loadData n d with abort := 0 }

/-- SEGMENT_ACTIONS_FIRE (R71): in the tick of their instant, the actions of records that have played fire, unless the lane
is suspended. -/
def execSegmentActionsFire (n : Fin 10) (s : State) : Ans :=
  let s := (s.switchAt n).advance n (s.mt + 3)
  let now := s.lanes[n].acts.filter fun a => s.due a.inst
  let s := s.lane n fun l => { l with acts := l.acts.filter fun a => !s.due a.inst }
  if s.get (LANE.STAT_LSTATE n) = 4 then .next s
  else .next (now.foldl (fun s a => s.fireActs n a) s)

end Sys2Proof.Machine
end

