-- ==== Sys2Proof/Machine/Lane.lean ====
section
/-!
DEFINITION. Lanes (04_lanes.md): one lane tick from the samples to the pulse widths, calibration, enabling and disabling, the
register writes that take effect at the tick, the quadrature counter, and the frame sequencer's commands.
-/
namespace Sys2Proof.Machine

/-! ### Register writes (R100) -/

/-- The fields and registers that accept a write only while LSTATE is OFF (R100): offset, high bit, low bit. -/
def offOnly : List (Nat × Nat × Nat) :=
  [(0x000, 2, 0), (0x000, 8, 8), (0x000, 16, 16), (0x000, 17, 17), (0x000, 18, 18), (0x000, 19, 19), (0x000, 20, 20),
   (0x02C, 31, 0), (0x030, 31, 0), (0x034, 15, 0)]

/-- The field is one of those. -/
def isOffOnly (off : Nat) (f : Fld) : Bool := offOnly.any fun x => x.1 == off && x.2.1 == f.hi && x.2.2 == f.lo

/-- CTRL.EN, the RESUME command bit and QCNT have commands of their own. -/
def laneOwnRow (off : Nat) (f : Fld) : Bool := (off == 0x000 && f.lo == 31) || (off == 0x124 && f.lo == 31) || off == 0x014

/-- A LANEn register write takes effect (R100): every field but EN; the guarded ones only while LSTATE is OFF, and WR_IGN is
set when a refused one would have changed. -/
def State.laneApply (s : State) (n : Fin 10) (off v : Nat) : State :=
  let a := 0x50000000 + n * 0x1000 + off
  let fs := (fieldsAt a).filter fun f => !laneOwnRow off f && f.acc != .w1c
  let isOff := s.get (LANE.STAT_LSTATE n) == 0
  let refused := fs.any fun f => isOffOnly off f && !isOff && f.legal.ok (bits v f.hi f.lo) &&
    bits v f.hi f.lo != s.get ⟨a, f.hi, f.lo⟩
  let s := (fs.filter fun f => isOff || !isOffOnly off f).foldl (fun s f => s.writeField a v false f) s
  let s := if refused then s.set (LANE.STAT_WR_IGN n) 1 else s
  if off = 0x018 then s.showConflict else s

/-- The registers whose writes take effect in the tick in which they land, beside W1C bits (R100): RES_AT_LO and RESUME. -/
def laneImmediate (off : Nat) : Bool := off == 0x124 || off == 0x128

/-- The W1C bits of a write, cleared at once (R100); clearing FLT_STAT.SENSE clears its SUB bits. -/
def State.laneW1c (s : State) (n : Fin 10) (off v : Nat) : State :=
  let a := 0x50000000 + n * 0x1000 + off
  let isClear (f : Fld) : Bool := match f.acc with
    | .w1c => true
    | .ovf _ _ => true
    | _ => false
  let s := s.writeFields isClear a v false
  if off = 0x104 && getBit v 31 && !s.on (LANE.FLT_STAT_SENSE n) then
    (((s.set (LANE.FLT_STAT_SUB_OFFS n) 0).set (LANE.FLT_STAT_SUB_SUM n) 0).set (LANE.FLT_STAT_SUB_PLAUS n) 0).set
      (LANE.FLT_STAT_SUB_STUCK n) 0
  else s

/-- Feedback is enabled: PE_POS, or the quadrature counter (R89, R355). -/
def State.fbOn (s : State) (n : Nat) : Bool := s.on (LANE.CTRL_FB_SRC n) || s.on (LANE.QCFG_EN n)

/-- The write of CTRL.EN returns FIRST, ACTION, PHASE and SRC_LANE to their reset values (FLT_STAT). -/
def State.clearFirst (s : State) (n : Nat) : State :=
  ((((s.set (LANE.FLT_STAT_FIRST n) 0).set (LANE.FLT_STAT_ACTION n) 0).set (LANE.FLT_STAT_PHASE n) 3).set
    (LANE.FLT_STAT_SRC_LANE n) 0)

/-- A write of EN := 1 takes effect (R100, R101): the lane leaves OFF for CAL, or CFG_ERR is set. (DEDUCED, log entry 34). -/
def State.enableLane (s : State) (n : Fin 10) : State :=
  let s := s.set (LANE.CTRL_EN n) 1
  if s.get (LANE.STAT_LSTATE n) ≠ 0 then s.clearFirst n
  else
    let s := s.clearFirst n
    let dr := s.get (LANE.CTRL_DRIVE n)
    let en := s.get ADCSEQ.CTRL_SLOT_EN
    if dr ≠ 0 && getBit en (2 * n) && getBit en (2 * n + 1) && (dr == 1 || s.fbOn n) then
      (s.setLstate n 1).lane n fun l => { l with
        calNew := s.on ADCSEQ.CTRL_RUN, calN := 0, calNB := 0, calA := 0, calB := 0 }
    else (s.set (LANE.CTRL_EN n) 0).set (LANE.STAT_CFG_ERR n) 1

/-- The waiting writes that `p` selects by their landing tick take effect, oldest first (R100); EN := 1 is judged after them, on
the values in force (R101). -/
def State.laneStaged (s : State) (n : Fin 10) (p : Nat → Bool) : State :=
  let now := s.lanes[n].stage.filter fun w => p w.1
  let en := s.lanes[n].enAt.any p
  let s := s.lane n fun l => { l with stage := l.stage.filter fun w => !p w.1, enAt := l.enAt.filter fun t => !p t }
  let s := now.foldl (fun s w => s.laneApply n w.2.1 w.2.2.toNat) s
  if en then s.enableLane n else s

/-- A LANEn register write lands (R100): it waits for the lane tick, but for the immediate fields, and while RUN is 0, when no
lane tick comes. (DEDUCED, log entry 34). -/
def State.laneLand (s : State) (n : Fin 10) (off : Nat) (v : Word) : State :=
  if laneImmediate off || !s.on ADCSEQ.CTRL_RUN then s.laneApply n off v.toNat
  else s.lane n fun l => { l with stage := l.stage ++ [(s.tick, off, v)] }

/-- A write of EN := 1 lands (R100, R101). (DEDUCED, log entry 34). -/
def State.landEnable (s : State) (n : Fin 10) : State :=
  if s.on ADCSEQ.CTRL_RUN then s.lane n fun l => { l with enAt := some (l.enAt.getD s.tick) } else s.enableLane n

/-- LANE_REGISTER_WRITE (R100): a LANEn register write lands; all but the immediate fields wait for the lane tick. -/
def execLaneRegisterWrite (n : Fin 10) (off : Nat) (v : Word) (s : State) : Ans :=
  let a := 0x50000000 + n * 0x1000 + off
  if off % 4 ≠ 0 ∨ 0x1000 ≤ off then .next { s with bus := .error }
  else s.busDo a fun s => (s.laneW1c n off v.toNat).laneLand n off v

/-! ### Feedback (R89, R355) -/

/-- The feedback count latched at c (R89): PE_POS as it stands at the start of the tick that contains c (R134). -/
def State.fbCount (s : State) (n : Fin 10) : Nat :=
  let e := s.engines[n]
  if !s.on (LANE.CTRL_FB_SRC n) then s.get (LANE.QCNT_COUNT n)
  else if s.frame.frameTick + s.centre n / 4 ≤ e.posTick then e.posPrev
  else s.get (LANE.PE_POS_PE_POS n)

/-- The accumulator Pm and p_meas with a new count (R89, R355): `hold`: in OFF and CAL Pm is set, not accumulated. -/
def State.measure (s : State) (n : Fin 10) (hold : Bool) : State :=
  let q := s.fbCount n
  let sc : Int := (s.get (LANE.FBSCALE_FBSCALE n) : Nat)
  let l := s.lanes[n]
  let dq := sgn 32 (q + 2 ^ 32 - l.fbPrev)
  let pm := if hold then wrap 40 ((q : Int) * sc) else wrap 40 ((l.pm : Int) + dq * sc)
  let s := s.lane n fun l => { l with pm := if s.on (LANE.CTRL_UNIT n) then l.pm else pm, fbPrev := q }
  let free := s.get (LANE.CTRL_DRIVE n) == 1 && !s.fbOn n
  if free then s
  else if !s.fbOn n && s.get (LANE.CTRL_DRIVE n) == 0 then s
  else s.set (LANE.POS_MEAS_P n) (if s.on (LANE.CTRL_UNIT n) then q * 256 % 2 ^ 32 else pm / 256)

/-- Signed ep, POS_ERR (R93). -/
def State.posErr (s : State) (n : Nat) : Int :=
  sgn 32 (s.get (LANE.POS_CMD_P n) + 2 ^ 32 - s.get (LANE.POS_MEAS_P n))

/-! ### The loops (R93 to R97) -/

/-- iq of the position loop (R93), with the new Iacc. -/
def State.posLoop (s : State) (n : Fin 10) (ep dp dm : Int) : Int × Int :=
  let g (f : RF) : Int := (s.get f : Nat)
  let iqmax := g (LANE.IQCFG_IQMAX n)
  let iacc := clampI (s.lanes[n].iacc + g (LANE.KPOS_KIP n) * ep) (iqmax * 2 ^ 24)
  let iq := clampI (asr (g (LANE.KPOS_KPP n) * ep) 16 + asr iacc 24 + asr (g (LANE.KVEL_KDP n) * (dp - dm)) 12
    + asr (g (LANE.KVEL_KFF n) * dp) 12 + s.getI (LANE.IQCFG_IQ_BIAS n)) iqmax
  (iq, iacc)

/-- The references of R96 from id, iq and θ. -/
def phaseRefs (three : Bool) (id iq : Int) (theta : Nat) : Int × Int :=
  let k := theta / 16 % 4096
  let sn := sinTable k
  let co := sinTable (k + 1024)
  let ia := asr (id * co - iq * sn) 15
  let ib := asr (id * sn + iq * co) 15
  if three then (ia, asr (-16384 * ia + 28378 * ib) 15) else (ia, ib)

/-- One phase of the current PI (R97): the new Ii and v. -/
def currentPi (kpc kic vlim ii e : Int) : Int × Int :=
  let ii := clampI (ii + kic * e) (vlim * 2 ^ 8)
  (ii, clampI (asr (kpc * e + ii) 8) vlim)

/-- The measured current of a phase (R97). -/
def State.phaseCur (s : State) (n : Nat) (b : Bool) (code : Nat) : Int :=
  let off : Int := (s.get (if b then LANE.OFFS_OFFS_B n else LANE.OFFS_OFFS_A n) : Nat)
  let i := (code : Int) - off
  if s.on (if b then LANE.CTRL_INV_B n else LANE.CTRL_INV_A n) then -i else i

/-! ### The checks of R106 in a tick with the loops running -/

/-- One step of a consecutive-tick counter. -/
def streak (c : Bool) (k : Nat) : Nat := if c then k + 1 else 0

/-- The condition of OPEN for one phase (R106). -/
def openCond (v i ir : Int) : Bool := decide (26214 ≤ v.natAbs) && decide (4 * i.natAbs < ir.natAbs)

/-- Which phases' checks continue (R106, R111): A/U, B/V, W, and the sense inputs A and B. -/
structure Watch where
  openA : Bool
  openB : Bool
  openW : Bool
  inA : Bool
  inB : Bool
  sum : Bool
  fe : Bool

/-- The checks that are monitored (R106), reduced during HOLD_SAFE as R111 lists. -/
def State.watch (s : State) (n : Fin 10) : Watch :=
  let three := s.get (LANE.CTRL_DRIVE n) == 3
  let hold := s.get (LANE.STAT_LSTATE n) == 4 && s.lanes[n].act == 1
  let active := s.get (LANE.STAT_LSTATE n) == 3
  if !hold then ⟨true, true, three, true, true, three, active && s.fbOn n⟩
  else match s.lanes[n].holdPhase with
    | 0 => ⟨false, true, false, false, true, false, false⟩
    | 1 => ⟨true, false, false, true, false, false, false⟩
    | 2 => ⟨true, false, false, true, true, true, false⟩
    | _ => ⟨true, true, three, true, true, three, false⟩

/-- The counters after a tick with the loops running (R106): voltages, currents, references and codes of the tick. The stuck
count pauses by the width W that the same tick computes. (DEDUCED, log entry 107). -/
def State.countFaults (s : State) (n : Fin 10) (v : Int × Int × Int) (i r : Int × Int) (codeA codeB : Nat) : State :=
  let w := s.watch n
  let oe := s.on (LANE.FLT_CFG_OPEN_EN n)
  let plaus (c : Nat) : Bool :=
    decide (c < s.get (LANE.SENSE_CFG_PLAUS_LO n)) || decide (s.get (LANE.SENSE_CFG_PLAUS_HI n) < c)
  let ep := s.posErr n
  let stuck (on : Bool) (pw : Nat) (last : Option Nat) (c k : Nat) : Nat :=
    if !on then 0 else if pw = 0 then k else if last = some c then k + 1 else 1
  s.lane n fun l => { l with
    openA := streak (oe && w.openA && openCond v.1 i.1 r.1) l.openA
    openB := streak (oe && w.openB && openCond v.2.1 i.2 r.2) l.openB
    openW := streak (oe && w.openW && openCond v.2.2 (-(i.1 + i.2)) (-(r.1 + r.2))) l.openW
    stuckA := stuck w.inA l.wA l.codeA codeA l.stuckA, stuckB := stuck w.inB l.wB l.codeB codeB l.stuckB
    codeA := if !w.inA then none else if l.wA = 0 then l.codeA else some codeA
    codeB := if !w.inB then none else if l.wB = 0 then l.codeB else some codeB
    plausA := streak (w.inA && plaus codeA) l.plausA, plausB := streak (w.inB && plaus codeB) l.plausB
    sumN := streak (w.sum && decide (s.get (LANE.SUMLIM_SUMLIM n) < (i.1 + i.2).natAbs)) l.sumN
    feN := streak (w.fe && s.on (LANE.FLT_CFG_FE_EN n) && decide (s.get (LANE.FE_CFG_FE_LIM n) < ep.natAbs)) l.feN }

/-! ### One tick -/

/-- What a tick shows in the registers of the loops. -/
def State.showLoops (s : State) (n : Fin 10) (v : Int × Int) (i r : Int × Int) (id iq : Int) : State :=
  let s := (s.setI (LANE.CUR_MEAS_A n) i.1).setI (LANE.CUR_MEAS_B n) i.2
  let s := (s.setI (LANE.CUR_REF_A n) r.1).setI (LANE.CUR_REF_B n) r.2
  let s := (s.setI (LANE.VOLT_A n) v.1).setI (LANE.VOLT_B n) v.2
  (s.setI (LANE.IDQ_ID n) id).setI (LANE.IDQ_IQ n) iq

/-- The current loops on references `r` (R97, R111), the pulse widths, the registers and the fault counters. -/
def State.runLoops (s : State) (n : Fin 10) (r : Int × Int) (id iq : Int) (codeA codeB : Nat) : State :=
  let g (f : RF) : Int := (s.get f : Nat)
  let three := s.get (LANE.CTRL_DRIVE n) == 3
  let hold := s.get (LANE.STAT_LSTATE n) == 4 && s.lanes[n].act == 1
  let i := (s.phaseCur n false codeA, s.phaseCur n true codeB)
  let l := s.lanes[n]
  let pa := currentPi (g (LANE.KCUR_KPC n)) (g (LANE.KCUR_KIC n)) (g (LANE.VLIM_VLIM n)) l.iiA (r.1 - i.1)
  let pb := currentPi (g (LANE.KCUR_KPC n)) (g (LANE.KCUR_KIC n)) (g (LANE.VLIM_VLIM n)) l.iiB (r.2 - i.2)
  let ph := if hold then l.holdPhase else 3
  let v := s.voltages n hold ph pa.2 pb.2
  let runA := !(ph == 0)
  let runB := !(ph == 1) && !(three && ph == 2)
  let s := s.lane n fun l => { l with
    iiA := if runA then pa.1 else l.iiA, iiB := if runB then pb.1 else l.iiB, irA := r.1, irB := r.2, piA := pa.2, piB := pb.2 }
  let s := (s.setWidths n v.1 v.2.1 v.2.2 (if three then 3 else ph)).showLoops n (v.1, v.2.1) i r id iq
  s.countFaults n v i r codeA codeB

/-- A tick in which the loops do not run (R106): the counters begin again; the integrators are held at 0. -/
def State.noLoops (s : State) (n : Fin 10) : State :=
  s.lane n fun l => { l.restartCounts with iacc := 0, iiA := 0, iiB := 0, codeA := none, codeB := none }

/-- Θ and θ of a tick (R95) for the position p. -/
def State.turn (s : State) (n : Fin 10) : State :=
  let p := if s.get (LANE.CTRL_DRIVE n) = 1 then s.get (LANE.POS_CMD_P n) else s.get (LANE.POS_MEAS_P n)
  let l := s.lanes[n]
  let th := wrap 40 ((l.theta : Int) + sgn 32 (p + 2 ^ 32 - l.angPrev) * (s.get (LANE.ESCALE_ESCALE n) : Nat))
  let s := s.lane n fun l => { l with theta := th, angPrev := p }
  s.set (LANE.ANGLE_THETA n) ((th / 2 ^ 24 + s.get (LANE.ANGLE_EOFFS n)) % 65536)

/-- A tick in OFF, CAL or READY (R102, R355). (DEDUCED, log entry 35). -/
def State.restTick (s : State) (n : Fin 10) (codeA codeB : Nat) : State :=
  let st := s.get (LANE.STAT_LSTATE n)
  let s := s.measure n (st != 2)
  let s := if s.fbOn n then s.set (LANE.POS_CMD_P n) (s.get (LANE.POS_MEAS_P n))
    else if s.get (LANE.CTRL_DRIVE n) = 1 then s.set (LANE.POS_MEAS_P n) (s.get (LANE.POS_CMD_P n)) else s
  let s := (s.setI (LANE.POS_ERR_P n) (s.posErr n)).noLoops n
  let s := if st = 2 then s.turn n else s
  if st = 1 then s.lane n fun l =>
    -- at c the lane entered CAL after ISA was sampled and before ISB was (R83, R102)
    let l := if l.calNew || 256 ≤ l.calN then l else { l with calN := l.calN + 1, calA := l.calA + codeA }
    let l := if 256 ≤ l.calNB then l else { l with calNB := l.calNB + 1, calB := l.calB + codeB }
    { l with calNew := false }
  else s

/-- The commanded position of a tick in ACTIVE or SUSPENDED (R86, R87, R110, R114); a lane suspended by the loss of time plays
its segment to the end (R53). (DEDUCED, log entry 106). -/
def State.command (s : State) (n : Fin 10) (c : Nat) : State :=
  let st := s.get (LANE.STAT_LSTATE n)
  let act := s.lanes[n].act
  if st = 3 ∨ act = 0 then
    if s.lanes[n].coasting then s.set (LANE.POS_CMD_P n) (s.get (LANE.POS_MEAS_P n))
    else s.set (LANE.POS_CMD_P n) (s.cmdPos n c)
  else if act = 2 ∨ act = 3 then s.set (LANE.POS_CMD_P n) (s.get (LANE.POS_MEAS_P n))
  else s

/-- A tick in ACTIVE or SUSPENDED at centre `c` (R86 to R98, R110, R111). Where the loops do not run, CUR_MEAS, CUR_REF, VOLT and IDQ
keep the values of the last tick in which they ran: the model's choice.
(DEDUCED, log entry 106; DESIGN CHOICE, log entry 111). -/
def State.driveTick (s : State) (n : Fin 10) (c codeA codeB : Nat) : State :=
  let cmdPrev := s.get (LANE.POS_CMD_P n)
  let measPrev := s.get (LANE.POS_MEAS_P n)
  let s := (s.measure n false).advance n c
  let free := s.get (LANE.CTRL_DRIVE n) == 1 && !s.fbOn n
  let s := s.command n c
  let s := if free then s.set (LANE.POS_MEAS_P n) (s.get (LANE.POS_CMD_P n)) else s
  let s := s.setF (LANE.STAT_IN_SEG n) (s.inSeg n c)
  let ep := s.posErr n
  let s := s.setI (LANE.POS_ERR_P n) ep
  let s := s.turn n
  let dp := sgn 32 (s.get (LANE.POS_CMD_P n) + 2 ^ 32 - cmdPrev)
  let dm := sgn 32 (s.get (LANE.POS_MEAS_P n) + 2 ^ 32 - measPrev)
  let s := s.lane n fun l => { l with still := if dp = 0 then min 65535 (l.still + 1) else 0 }
  let st := s.get (LANE.STAT_LSTATE n)
  let act := s.lanes[n].act
  if (st = 3 ∨ act = 0) ∧ s.lanes[n].coasting then (s.outputsLow n).noLoops n
  else if st = 4 ∧ (act = 2 ∨ act = 3) then (s.noLoops n).actionOutputs n act
  else if st = 4 ∧ act = 1 then
    let l := s.lanes[n]
    s.runLoops n (l.holdA, l.holdB) (s.getI (LANE.IDQ_ID n)) (s.getI (LANE.IDQ_IQ n)) codeA codeB
  else
    let ol := s.get (LANE.CTRL_DRIVE n) == 1
    let pl := s.posLoop n ep dp dm
    let iq := if ol then 0 else pl.1
    let moving := decide (s.lanes[n].still < s.get (LANE.HOLDCFG_HOLDDLY n))
    let id : Int := if ol then (s.get (if moving then LANE.STEPCUR_IRUN n else LANE.STEPCUR_IHOLD n) : Nat)
      else s.getI (LANE.HOLDCFG_ID_CMD n)
    let s := if ol then s else s.lane n fun l => { l with iacc := pl.2 }
    let r := phaseRefs (s.get (LANE.CTRL_DRIVE n) == 3) id iq (s.get (LANE.ANGLE_THETA n))
    s.runLoops n r id iq codeA codeB

/-- The converter slots of the lane in this frame (R84): an input whose SLOT_EN bit is 0 is not converted. -/
def State.convert (s : State) (n : Fin 10) (codeA codeB : Nat) : State :=
  let en := s.get ADCSEQ.CTRL_SLOT_EN
  let s := if getBit en (2 * n) then s.set (ADCSEQ.RES_ISA n) codeA else s
  if getBit en (2 * n + 1) then s.set (ADCSEQ.RES_ISB n) codeB else s

/-- The lane's tick of the present frame has come and is not done. -/
def State.laneTickDue (s : State) (n : Nat) : Bool :=
  s.domOn .lane && s.frame.running && !getBit s.frame.done n && decide (s.centre n < 4 * (s.tick - s.frame.frameTick) + 4)

/-- The registers behind objects 0x2n00/0x01 to 0x0C (R105). (DEDUCED, log entry 39). -/
def State.laneObjs (s : State) (n : Nat) : List Nat :=
  [LANE.STAT n, LANE.POS_CMD n, LANE.POS_MEAS n, LANE.POS_ERR n, LANE.QCNT n, LANE.CUR_MEAS n, LANE.CUR_REF n, LANE.VOLT n,
    LANE.IDQ n, LANE.ANGLE n, ADCSEQ.RES n, LANE.QERR n].map s.readReg

/-- What the registers "at the last tick" read as, to be shown until the present tick completes (R105). -/
def State.lastTick (s : State) (n : Nat) : List Nat :=
  [LANE.POS_CMD n, LANE.POS_MEAS n, LANE.POS_ERR n, LANE.CUR_MEAS n, LANE.CUR_REF n, LANE.VOLT n, LANE.IDQ n].map s.rawReg ++
    [s.get (LANE.ANGLE_THETA n), s.get (LANE.STAT_IN_SEG n)]

/-- The lane's tick completes (R105): its registers show it, and the objects copy them. -/
def State.completeTick (s : State) (n : Fin 10) : State :=
  let s := s.lane n fun l => { l with doneAt := none, shown := [] }
  s.lane n fun l => { l with objs := s.laneObjs n }

/-- A tick that is due to complete does (R105). -/
def State.completeDue (s : State) (n : Fin 10) : State :=
  match s.lanes[n].doneAt with
  | some t => if t ≤ s.tick then s.completeTick n else s
  | none => s

/-- What a lane's tick leaves to be done later in its period: its completion at c + 1,000 ns (R105), and its widths at c + P/2
(R83). -/
def State.laneLater (s : State) (n : Fin 10) (ct : Nat) (shown : List Nat) : State :=
  let s := s.lane n fun l => { l with
    doneAt := some ((ct + 1000 + 3) / 4), shown := shown, widthAt := some ((ct + s.frame.period / 2) / 4) }
  (s.completeDue n).widthsDue n

/-- One whole lane tick (R83): `isa` and `isb` are the codes the converter gives at the slot instants, `oc` and `flt` say
whether a fast comparator is tripped and LANEn_FLT_N is low. (DESIGN CHOICE, log entry 33). -/
def State.laneTick (s : State) (n : Fin 10) (isa isb : Nat) (oc flt : Bool) : State :=
  let s : State := { s with frame := { s.frame with done := Machine.setBit s.frame.done n true } }
  let off := s.centre n
  let c := s.mt + off - 4 * (s.tick - s.frame.frameTick)
  let ct := 4 * s.frame.frameTick + off
  let shown := s.lastTick n
  let s := s.laneStaged n fun t => decide (4 * (t + 1) + 125 ≤ ct)
  let s := s.convert n isa isb
  let s := (s.setF (LANE.FLT_STAT_LIVE_OC n) oc).setF (LANE.FLT_STAT_LIVE_DRV n) flt
  let s := if flt then s else s.lane n fun l => { l with drvQual := false }
  let a := s.get (ADCSEQ.RES_ISA n)
  let b := s.get (ADCSEQ.RES_ISB n)
  let st := s.get (LANE.STAT_LSTATE n)
  if st = 3 ∨ st = 4 then
    let s := s.driveTick n c a b
    -- a condition still present in the first ACTIVE tick is detected again (R107); the policy of a trip since the last tick (R108)
    let first := s.lanes[n].entered && s.get (LANE.STAT_LSTATE n) == 3
    let also : List (FaultClass × Nat) :=
      (if s.lanes[n].ocPend || (first && oc) then [(FaultClass.oc, 3)] else []) ++
      (if first && s.lanes[n].drvQual && s.on (LANE.FLT_CFG_DRV_EN n) then [(FaultClass.drv, 3)] else [])
    let s := s.lane n fun l => { l with entered := false, ocPend := false }
    (if also = [] then s else s.detectTick n also).laneLater n ct shown
  else (s.restTick n a b).laneLater n ct shown

/-! ### The commands -/

/-- LANE_TICK (R83). (DESIGN CHOICE, log entry 33). -/
def execLaneTick (n : Fin 10) (isa isb : BitVec 12) (oc flt : Bool) (s : State) : Ans :=
  if s.laneTickDue n then .next (s.laneTick n isa.toNat isb.toNat oc flt) else .next s

/-- Every lane is OFF. -/
def State.lanesOff (s : State) : Bool := (List.finRange 10).all fun n => s.get (LANE.STAT_LSTATE n) == 0

/-- The SLOT_EN field of a CTRL write (R85): a change to a bit of a lane that is not OFF is ignored and sets CFG_IGN. -/
def State.writeSlotEn (s : State) (v : Nat) : State :=
  let old := s.get ADCSEQ.CTRL_SLOT_EN
  let want := bits v 19 0
  let (new, ign) := (List.range 20).foldl (fun (x : Nat × Bool) i =>
    if getBit want i = getBit old i then x
    else if s.get (LANE.STAT_LSTATE (i / 2)) = 0 then (Machine.setBit x.1 i (getBit want i), x.2)
    else (x.1, true)) (old, false)
  let s := s.set ADCSEQ.CTRL_SLOT_EN new
  if ign then s.set ADCSEQ.STAT_CFG_IGN 1 else s

/-- A frame starts (R83). -/
def State.startFrame (s : State) : State :=
  { (s.set ADCSEQ.STAT_RUNNING 1).set ADCSEQ.FRAME_CNT_COUNT ((s.get ADCSEQ.FRAME_CNT_COUNT + 1) % 2 ^ 32) with
    frame := { s.frame with running := true, startAt := none, frameTick := s.tick, done := 0 } }

/-- The frame sequencer at a timebase tick (R83, R85): a pending first frame starts in the first tick whose MT is a multiple of P, or
not aligned where MT has been frozen meanwhile; the next frame follows P ns after the last. (DEDUCED, log entry 38). -/
def State.tickFrames (s : State) : State :=
  match s.frame.startAt with
  | some _ =>
    if s.get MTIME.STATUS_STATE = 0 then s.startFrame
    else if s.mt % s.frame.period = 0 then (s.startFrame).set ADCSEQ.STAT_ALIGNED 1
    else s
  | none => if s.frame.running && decide (s.frame.frameTick + s.frame.period / 4 ≤ s.tick) then s.startFrame else s

/-- What the lanes do at a timebase tick by themselves: ticks complete, and widths come into force (R83, R105). -/
def State.tickLanes (s : State) : State :=
  if s.frame.running then s.forLanes fun n s => (s.completeDue n).widthsDue n else s

/-- A timebase tick in which the clock of PD_LANE stands (R29): the sequencer keeps its place, and is not aligned to MT any more.
(DEDUCED, log entry 38). -/
def State.holdFrames (s : State) : State :=
  if s.frame.running then { s.set ADCSEQ.STAT_ALIGNED 0 with frame := { s.frame with frameTick := s.frame.frameTick + 1 } } else s

/-- ADCSEQ_RUN_START (R83, R85): CTRL written with RUN = 1. While MT counts the first frame starts in the next tick whose MT is a
multiple of P; while MT is frozen, at once and not aligned. -/
def execAdcseqRunStart (v : Word) (s : State) : Ans :=
  s.busDo ADCSEQ.CTRL fun s =>
    let s := s.writeSlotEn v.toNat
    if s.on ADCSEQ.CTRL_RUN then s
    else
      let p := s.get ADCSEQ.PERIOD_P
      let s := s.set ADCSEQ.CTRL_RUN 1
      let s : State := { s with frame := { running := false, startAt := some s.tick, period := p, frameTick := s.tick, done := 0 } }
      if s.get MTIME.STATUS_STATE = 0 then s.startFrame else s

/-- ADCSEQ_RUN_STOP (R85): CTRL written with RUN = 0; refused while any lane is not OFF. Writes that wait for a lane tick take
effect. (DEDUCED, log entry 34). -/
def execAdcseqRunStop (v : Word) (s : State) : Ans :=
  s.busDo ADCSEQ.CTRL fun s =>
    let s := s.writeSlotEn v.toNat
    if !s.on ADCSEQ.CTRL_RUN then s
    else if !s.lanesOff then s.set ADCSEQ.STAT_CFG_IGN 1
    else
      let s := ((s.set ADCSEQ.CTRL_RUN 0).set ADCSEQ.STAT_RUNNING 0).set ADCSEQ.STAT_ALIGNED 0
      let s : State := { s with frame := { s.frame with running := false, startAt := none } }
      s.forLanes fun n s => s.laneStaged n fun _ => true

/-- ADCSEQ_PERIOD_WRITE (R85): ignored while RUN is 1 and any lane is not OFF. -/
def execAdcseqPeriodWrite (v : Word) (s : State) : Ans :=
  s.busDo ADCSEQ.PERIOD fun s =>
    if s.on ADCSEQ.CTRL_RUN && !s.lanesOff then s.set ADCSEQ.STAT_CFG_IGN 1
    else s.setLegal ADCSEQ.PERIOD_P (.rangeMul 10000 100000 4) (bits v.toNat 16 0)

/-- The counts of QCNT in the present tick (R92). -/
def LaneSt.countsNow (l : LaneSt) (tick : Nat) : Int := if l.qdTick = tick then l.qd else 0

/-- QCNT takes a value; an index capture of the same tick records it (R91, R92). -/
def State.setQcnt (s : State) (n : Fin 10) (v : Nat) : State :=
  let s := s.set (LANE.QCNT_COUNT n) v
  if s.lanes[n].idxTick = some s.tick then s.set (LANE.QIDX_CAPT n) v else s

/-- The quadrature counter counts by `d` (R90). -/
def State.countQuad (s : State) (n : Fin 10) (d : Int) : State :=
  let s := s.lane n fun l => { l with qd := l.countsNow s.tick + d, qdTick := s.tick }
  s.setQcnt n (wrap 32 ((s.get (LANE.QCNT_COUNT n) : Int) + d))

/-- The first tick after the present one in which a changed input can be accepted again: FILT + 1 samples of its new level (R90). -/
def State.nextAccept (s : State) (n : Nat) : Nat := s.tick + s.get (LANE.QCFG_FILT n) + 1

/-- QUAD_EDGE_ACCEPTED (R90): the levels of A and B accepted in this tick; an input that changed less than FILT + 1 ticks ago keeps
its accepted level. The levels compared with first are those last accepted. (DESIGN CHOICE, log entry 111). -/
def execQuadEdgeAccepted (n : Fin 10) (a b : Bool) (s : State) : Ans :=
  if !s.on (LANE.QCFG_EN n) || !s.domOn .lane then .next s
  else
    let l := s.lanes[n]
    let ca := a != l.qa && decide (l.qaNext ≤ s.tick)
    let cb := b != l.qb && decide (l.qbNext ≤ s.tick)
    let s := s.lane n fun l => { l with
      qa := if ca then a else l.qa, qaNext := if ca then s.nextAccept n else l.qaNext
      qb := if cb then b else l.qb, qbNext := if cb then s.nextAccept n else l.qbNext }
    if ca && cb then .next (s.count (LANE.QERR_COUNT n) (LANE.QERR_OVF n))
    else if !ca && !cb then .next s
    else
      -- A leads B: 00 → 10 → 11 → 01; the new A differs from B after an A edge, equals it after a B edge
      let e := s.lanes[n]
      let up := (if ca then e.qa != e.qb else e.qa == e.qb) != s.on (LANE.QCFG_DIR n)
      .next (s.countQuad n (if up then 1 else -1))

/-- INDEX_EDGE (R91): an accepted rising edge of the index input; it needs FILT + 1 samples low and as many high after the last. -/
def execIndexEdge (n : Fin 10) (s : State) : Ans :=
  let m := s.get (LANE.QCFG_IDXMODE n)
  if !s.on (LANE.QCFG_EN n) || m == 0 || !s.domOn .lane || decide (s.tick < s.lanes[n].qiNext) then .next s
  else
    let s := (s.set (LANE.QIDX_CAPT n) (s.get (LANE.QCNT_COUNT n))).set (LANE.QIDX_MT_CAPT n) (s.mt % 2 ^ 32)
    let s := s.lane n fun l => { l with idxTick := some s.tick, qiNext := s.nextAccept n + s.get (LANE.QCFG_FILT n) + 1 }
    let s := s.set (LANE.IRQ_STAT_IDX n) 1
    .next (if m = 2 then s.set (LANE.QCFG_IDXMODE n) 0 else s)

/-- QCNT_WRITE (R92): takes effect in OFF, CAL and READY; the edges accepted in the same tick are counted on top of it. -/
def execQcntWrite (n : Fin 10) (v : Word) (s : State) : Ans :=
  s.busDo (LANE.QCNT n) fun s =>
    if s.get (LANE.STAT_LSTATE n) < 3 then
      s.setQcnt n (wrap 32 ((v.toNat : Int) + s.lanes[n].countsNow s.tick))
    else s.set (LANE.STAT_WR_IGN n) 1

/-- LANE_ENABLE (R101): CTRL written with EN = 1 lands, and takes effect as R100 says. (DEDUCED, log entry 34). -/
def execLaneEnable (n : Fin 10) (v : Word) (s : State) : Ans :=
  s.busDo (LANE.CTRL n) fun s => (s.laneLand n 0 v).landEnable n

/-- A disable in the tick of RES_AT prevails over the resume (R116): OUTCOME and RES_DONE are as before it. -/
def State.resumeUndone (s : State) (n : Fin 10) : State :=
  match s.lanes[n].resNow.filter fun r => r.tick == s.tick with
  | some r => (s.set (LANE.RES_STAT_OUTCOME n) r.outcome).put (LANE.FLT_IRQ_STAT_RES_DONE n) r.done
  | none => s

/-- EN := 0 (R103): the outputs go low, the integrators clear, the front bank's schedule is finished. A disable that lands in
the tick of a switch instant takes effect after the switch. (DEDUCED, log entry 32). -/
def State.disableLane (s : State) (n : Fin 10) : State :=
  let s := ((s.switchAt n).resumeUndone n).lane n fun l => { l with enAt := none }
  let s := (s.set (LANE.CTRL_EN n) 0).clearFirst n
  if s.get (LANE.STAT_LSTATE n) = 0 then s
  else
    let s := (((s.setLstate n 0).outputsLow n).noLoops n).set (LANE.RES_STAT_PENDING n) 0
    let s := s.set (LANE.STAT_IN_SEG n) 0
    s.lane n fun l => { l with
      playing := false, started := false, holding := true, held := s.get (LANE.POS_CMD_P n)
      nxt := none, acts := [], coasting := false, ocPend := false }

/-- LANE_DISABLE (R103): CTRL written with EN = 0, at once; the other fields of the write wait for the lane tick.
(DEDUCED, log entry 34). -/
def execLaneDisable (n : Fin 10) (v : Word) (s : State) : Ans :=
  s.busDo (LANE.CTRL n) fun s =>
    (s.disableLane n).laneLand n 0 v

/-- CAL_END (R101, R102): 256 codes of each sense input have been summed. The motion count of HOLDDLY
(R94) starts at rest: changes of p_cmd in READY do not count, the model's choice.
(DEDUCED, log entry 35; DESIGN CHOICE, log entry 111). -/
def execCalEnd (n : Fin 10) (s : State) : Ans :=
  let l := s.lanes[n]
  if s.get (LANE.STAT_LSTATE n) ≠ 1 || l.calN ≠ 256 || l.calNB ≠ 256 then .next s
  else
    let oa := (l.calA + 128) / 256
    let ob := (l.calB + 128) / 256
    let win := s.get (LANE.OFFS_WIN_WIN n)
    let ok (o : Nat) : Bool := decide (2048 ≤ o + win) && decide (o ≤ 2048 + win)
    let s := (s.set (LANE.OFFS_OFFS_A n) oa).set (LANE.OFFS_OFFS_B n) ob
    if ok oa && ok ob then
      let s := (s.setLstate n 2).set (LANE.IRQ_STAT_CAL_DONE n) 1
      let p := if s.get (LANE.CTRL_DRIVE n) = 1 then s.get (LANE.POS_CMD_P n) else s.get (LANE.POS_MEAS_P n)
      .next (s.lane n fun l => { l with
        theta := wrap 40 ((p : Int) * (s.get (LANE.ESCALE_ESCALE n) : Nat)), angPrev := p, entered := true, still := 65535 })
    else
      let s := ((s.setLstate n 0).set (LANE.CTRL_EN n) 0).set (LANE.STAT_OFFS_BAD n) 1
      let s := (s.set (LANE.FLT_STAT_SENSE n) 1).set (LANE.FLT_STAT_SUB_OFFS n) 1
      let s := (s.set (LANE.FLT_STAT_PHASE n) (if ok oa then 1 else 0)).set (LANE.FLT_STAT_FIRST n) 1
      let s := s.set (LANE.FLT_STAT_ACTION n) 0
      .next (s.report { src := 16 + n, cause := 0x06, detail := s.readReg (LANE.FLT_STAT n), level := 1 })

end Sys2Proof.Machine
end

