-- ==== Sys2Proof/Machine/Memories.lean ====
section
/-!
DEFINITION. The march test engine (R260 to R264) and the vault's wipe (R259) of 13_memories.md.
-/
namespace Sys2Proof.Machine

/-! ### March test engine -/

/-- The power domain of a target (R29, R30). -/
def marchDom (t : Nat) : Dom := if t < 8 then .sys else if t = 8 then .lane else if t = 9 then .aon else .crk

/-- The conditions of R263: schedule memory needs every lane OFF, every engine STOPPED and no copy; Cricket SRAM, but in
PRESERVE, needs Cricket stopped; the target's domain is On. (DEDUCED, log entry 81). -/
def State.marchOk (s : State) (t mode : Nat) : Bool :=
  s.domOn (marchDom t) &&
  (t != 8 || ((List.range 10).all (fun n => s.get (LANE.STAT_LSTATE n) == 0 && s.get (PINENG.E_STAT_ESTATE n) == 0) &&
    !s.on SCHEDLD.COPY_CTRL_BUSY)) &&
  (t != 10 || mode == 1 || !s.on TOUCH.CRK_CTRL_RUN)

/-- GO (R263, R264): refused while BUSY or where a condition is not met. -/
def State.marchStart (s : State) : State :=
  let t := s.get MEMCTL.MT_CTRL_TARGET
  let mode := s.get MEMCTL.MT_CTRL_MODE
  if s.on MEMCTL.MT_STAT_BUSY || !s.marchOk t mode then s.set MEMCTL.MT_STAT_REFUSED 1
  else { s.set MEMCTL.MT_STAT_BUSY 1 with march := { target := t, mode := mode } }

/-- The test has ended: BUSY 0, DONE, IRQ_STAT.MT_DONE; the transfers held off resume (R263). -/
def State.marchEnd (s : State) : State :=
  (((s.set MEMCTL.MT_STAT_BUSY 0).set MEMCTL.MT_STAT_DONE 1).set MEMCTL.IRQ_STAT_MT_DONE 1).resumeDma

/-- An abort (R264): at once in DESTRUCTIVE and INIT mode, at the end of E2, E4 or E5 in PRESERVE mode. -/
def State.marchAbort (s : State) : State :=
  if !s.on MEMCTL.MT_STAT_BUSY then s
  else if s.march.mode = 1 then { s with march := { s.march with aborting := true } }
  else (s.marchLoss.set MEMCTL.MT_STAT_ABORTED 1).marchEnd

/-- MARCH_GO (R260, R263, R264): MT_CTRL written with GO = 1; `v` gives MODE and TARGET. -/
def execMarchGo (v : Word) (s : State) : Ans :=
  s.busDo MEMCTL.MT_CTRL fun s => (s.writeFields (fun f => f.acc == .rw) MEMCTL.MT_CTRL v.toNat false).marchStart

/-- MARCH_ABORT (R264): MT_CTRL written with ABORT = 1, MODE and TARGET as they are. (DEDUCED, log entry 81). -/
def execMarchAbort (s : State) : Ans := s.busDo MEMCTL.MT_CTRL State.marchAbort

/-- Data that an element of a DESTRUCTIVE test expects to read (R260). -/
def marchExp (e : Nat) : Word := if e = 2 ∨ e = 4 then 0xFFFFFFFF else 0

/-- The check bits of a word in a target; schedule memory and Cricket SRAM carry none (R256). -/
def checkIn (t : Nat) (v : Word) : Nat := if t = 8 ∨ t = 10 then 0 else (Config.checkBits v).toNat

/-- The check bits that a read of the target returned. -/
def faultChk (t : Nat) (f : MarchFault) : Nat := if t = 8 ∨ t = 10 then 0 else f.chk

/-- Where the read stands in the test's order: E3 and E4 run downwards (R260). -/
def faultPlace (n : Nat) (f : MarchFault) : Nat := f.elem * 2 ^ 17 + if f.elem = 3 ∨ f.elem = 4 then n - 1 - f.w else f.w

/-- The earliest read of a list (R261, R262). -/
def earliest (n : Nat) (r : List MarchFault) : Option MarchFault :=
  r.foldl (fun o f => match o with
    | none => some f
    | some g => if faultPlace n f < faultPlace n g then some f else some g) none

/-- A read of a DESTRUCTIVE test mismatches in a data or check bit (R261). -/
def faultShows (t : Nat) (f : MarchFault) : Bool :=
  decide (1 ≤ f.elem) && (f.read != marchExp f.elem || faultChk t f != checkIn t (marchExp f.elem))

/-- The first mismatch of a DESTRUCTIVE test stops it (R261). -/
def marchFirst (t n : Nat) (r : List MarchFault) : Option MarchFault := earliest n (r.filter (faultShows t))

/-- The registers of the mismatch that stopped a DESTRUCTIVE test (R261). -/
def State.marchFail (s : State) (t : Nat) (f : MarchFault) : State :=
  let s := (s.set MEMCTL.MT_STAT_FAIL 1).set MEMCTL.MT_STAT_ELEMENT f.elem
  let s := s.set MEMCTL.MT_FAIL_ADDR_ADDR ((marchSpan t).1 + 4 * f.w)
  let s := (s.set MEMCTL.MT_FAIL_READ_READ f.read.toNat).set MEMCTL.MT_FAIL_EXP_EXP (marchExp f.elem).toNat
  (s.set MEMCTL.MT_FAIL_CHK_CHK_EXP (checkIn t (marchExp f.elem))).set MEMCTL.MT_FAIL_CHK_CHK_READ (faultChk t f)

/-- What the six elements of a PRESERVE test read at word `w` that holds `d`: each writes the complement of what it has just read,
but E0 and E5 write nothing (R260). -/
def readsAt (r : List MarchFault) (w : Nat) (d : Word) : List Word :=
  ((List.range 6).foldl (fun (x : Word × List Word) e =>
    let v := ((r.find? fun f => f.elem == e && f.w == w).map MarchFault.read).getD x.1
    (if 1 ≤ e ∧ e ≤ 4 then ~~~v else x.1, x.2 ++ [v])) (d, [])).2

/-- The part of element e's signature that the words of a list give (R262). -/
def sigPart (vs : List (Nat × List Word)) (e : Nat) : Word :=
  vs.foldl (fun a x => a + ((x.2.getD e 0) ^^^ (BitVec.ofNat 32 x.1 * 0x9E3779B9))) 0

/-- Element e's signature mismatches (R262): the words that every element reads as the last one wrote them agree with S0 by
themselves, so the words with a fault decide. -/
def sigBad (vs : List (Nat × List Word)) (e : Nat) : Bool :=
  if e = 2 ∨ e = 4 then sigPart vs e != -(BitVec.ofNat 32 vs.length) - sigPart vs 0 else sigPart vs e != sigPart vs 0

/-- The words of a PRESERVE test's faults with what its elements read there. -/
def State.faultReads (s : State) (t : Nat) (r : List MarchFault) : List (Nat × List Word) :=
  ((r.map MarchFault.w).eraseDups).map fun w => (w, readsAt r w (BitVec.ofNat 32 (s.mem? ((marchSpan t).1 + 4 * w) 4)))

/-- The first signature mismatch of a PRESERVE test. -/
def firstSig (vs : List (Nat × List Word)) : Option Nat := [1, 2, 3, 4, 5].find? (sigBad vs)

/-- A read of a PRESERVE test whose check bits do not match its data (R262). -/
def checkFails (t : Nat) (f : MarchFault) : Bool := faultChk t f != checkIn t f.read

/-- The registers after a PRESERVE test (R262): the first signature mismatch gives ELEMENT and FAIL_ADDR 0xFFFFFFFF; else the first
read that failed its check gives its address. (DEDUCED, log entry 81). -/
def State.preserveFail (s : State) (t n : Nat) (r : List MarchFault) : State :=
  match firstSig (s.faultReads t r), earliest n (r.filter (checkFails t)) with
  | some e, _ => ((s.set MEMCTL.MT_STAT_FAIL 1).set MEMCTL.MT_STAT_ELEMENT e).set MEMCTL.MT_FAIL_ADDR_ADDR 0xFFFFFFFF
  | none, some f => (s.set MEMCTL.MT_STAT_FAIL 1).set MEMCTL.MT_FAIL_ADDR_ADDR ((marchSpan t).1 + 4 * f.w)
  | none, none => s

/-- What a PRESERVE test leaves: the words that a read found wrong are undefined (R262). (DEDUCED, log entry 81). -/
def State.marchDoubt (s : State) (t : Nat) (r : List MarchFault) : State :=
  r.foldl (fun s f => s.garble ((marchSpan t).1 + 4 * f.w) 4) s

/-- MARCH_COMPLETE (R260 to R262): the test ends; `r`: its reads that did not return what was last written. INIT mode reads
nothing. (DEDUCED, log entry 81). -/
def execMarchComplete (r : List MarchFault) (s : State) : Ans :=
  if !s.on MEMCTL.MT_STAT_BUSY then .next s
  else
    let t := s.march.target
    let (lo, len) := marchSpan t
    let n := len / 4
    let r := r.filter fun f => decide (f.w < n) && decide (f.elem < 6)
    let s := if s.march.aborting then s.set MEMCTL.MT_STAT_ABORTED 1 else s
    if s.march.mode = 1 then .next ((s.preserveFail t n r).marchDoubt t r).marchEnd
    else if s.march.mode = 2 then .next (s.fill lo len 0).marchEnd
    else match marchFirst t n r with
      | none => .next (s.fill lo len 0).marchEnd
      | some f => .next (s.marchFail t f).marchLoss.marchEnd

/-! ### The wipe (R259) -/

/-- A wipe starts, or its 2 µs start again (R259); nothing happens while the device is Cold. (DEDUCED, log entry 82). -/
def State.startWipe (s : State) (cause : RF) : State :=
  if s.pwr.step = .cold then s
  else ((s.set cause 1).set VAULTCTL.STAT_WIPING 1).set VAULTCTL.STAT_WIPE_EV 1

/-- VAULT_WIPE_CMD (R259): CTRL.WIPE written 1; only the application core in machine mode wipes. -/
def execVaultWipeCmd (m : Master) (mach : Bool) (s : State) : Ans :=
  s.busBy m true VAULTCTL.CTRL fun s => if m = .app ∧ mach = true then s.startWipe VAULTCTL.STAT_CAUSE_SW else s

/-- The full reset of a tamper with TMP_CFG.RESET = 1 (R293). -/
def State.tamperFullReset (s : State) : State :=
  let s : State := { s with sc := { s.sc with tamperReset := false } }
  if s.domOn .mgt then s.scarabReset 7 else s.fullReset 7

/-- VAULT_WIPE_COMPLETE (R259, R293): the secure part holds zeros and no measurement. (DEDUCED, log entry 82). -/
def execVaultWipeComplete (s : State) : Ans :=
  if !s.on VAULTCTL.STAT_WIPING then .next s
  else
    let s := (s.fill 0x28003800 0x800 0).set VAULTCTL.STAT_MCACHE_VALID 0
    let s := ((s.set VAULTCTL.STAT_WIPING 0).set VAULTCTL.STAT_WIPE_EV 1).count VAULTCTL.WIPE_CNT_COUNT VAULTCTL.WIPE_CNT_OVF
    .next (if s.sc.tamperReset then s.tamperFullReset else s)

end Sys2Proof.Machine
end

