-- ==== Sys2Proof/Machine/Scarab.lean ====
section
/-!
DEFINITION. Scarab (14_management_trust.md): attestation, the life cycle, debug unlock, the sensors, Carapace, the watchdog, the
mailbox's results and the TAP.
-/
namespace Sys2Proof.Machine

/-! ### Attestation (R281 to R285) -/

/-- VERSION of the running image (0x1000/0x05); 0 where the slot's header fails. -/
def State.imageVersion (s : State) (slot : Nat) : Nat := if s.headerOk slot then field (s.header slot) 12 4 else 0

/-- Bytes 0 to 115 of a report (R285). -/
def State.reportBody (s : State) (nonce : List Byte) : List Byte :=
  leBytes 2 1 ++ leBytes 1 s.lifeCycle ++ leBytes 1 0x42 ++ leBytes 8 Config.uniqueId.toNat ++
  leBytes 4 (s.imageVersion s.boot.slot) ++ leBytes 1 s.boot.slot ++
  leBytes 1 (b2n s.sc.debugEver + 2 * b2n s.sc.tamperEver + 4 * b2n s.sc.cached) ++ leBytes 2 0 ++
  padTo 32 s.sc.mCfg ++ padTo 32 s.sc.mImg ++ padTo 32 nonce

/-- The signed report (R285). -/
def State.attestReport (s : State) (nonce : List Byte) : List Byte :=
  let b := s.reportBody nonce
  b ++ padTo 64 (Config.ecdsaSign b)

/-- A write of the nonce (R284): a status and the state. -/
def State.nonceOp (s : State) (d : List Byte) : Nat × State :=
  if d.length ≠ 32 then (Abort.range, s)
  else if s.sc.attStatus = 1 then (Abort.state, s)
  else (0, { s with sc := { s.sc with attStatus := 1, attNonce := d, attReport := [] } })

/-- ATTESTATION_SIGNED (R284, R285). -/
def execAttestationSigned (s : State) : Ans :=
  if s.sc.attStatus ≠ 1 ∨ !s.domOn .mgt then .next s
  else .next { s with sc := { s.sc with attStatus := 2, attReport := s.attestReport s.sc.attNonce } }

/-! ### Sensors and supplies (R280) -/

/-- A report of source 48 to 52, at chip level (R295). -/
def State.mgtReport (s : State) (src cause detail : Nat) : State := s.report ⟨src, cause, detail, 3, 0, false⟩

/-- The first sensor at or above a temperature, with its reading. (DEDUCED, log entry 96). -/
def hotSensor (l : List Int) (t : Int) : Option (Nat × Int) :=
  (l.zipIdx.find? fun p => decide (t ≤ p.1)).map fun p => (p.2, p.1)

/-- A TEMP report: the sensor and its reading. -/
def State.tempReport (s : State) (h : Option (Nat × Int)) : State :=
  match h with
  | some (i, t) => s.mgtReport 48 0x08 (Config.packDetail i (wrap 10 t) % 2 ^ 32)
  | none => s

/-- TEMP_SAMPLE (R280): three signed readings in °C; TEMP, the report with its re-arming, and the lanes off at 135 °C.
(DEDUCED, log entry 96). -/
def execTempSample (s0 s1 s2 : BitVec 10) (s : State) : Ans :=
  if !s.domOn .mgt then .next s
  else
    let l := [s0, s1, s2].map fun x => sgn 10 x.toNat
    let s := ((s.set MBOX.TEMP_S0 s0.toNat).set MBOX.TEMP_S1 s1.toNat).set MBOX.TEMP_S2 s2.toNat
    let hot := l.any fun t => decide (135 ≤ t)
    let warm := l.any fun t => decide (120 ≤ t)
    let s := if hot then s.tempReport (hotSensor l 135)
      else if warm && s.sc.tempArmed then s.tempReport (hotSensor l 120) else s
    let armed := if warm then false else s.sc.tempArmed || l.all fun t => decide (t ≤ 115)
    let s : State := { s with sc := { s.sc with tempArmed := armed } }
    .next (if hot && s.domOn .lane then s.forLanes fun n s => s.disableLane n else s)

/-- SUPPLY_LOW (R280): VDDIO, or VAON, below its minimum for 10 µs. -/
def execSupplyLow (vaon : Bool) (s : State) : Ans :=
  if s.domOn .mgt then .next (s.mgtReport 49 0x09 (b2n vaon)) else .next s

/-! ### Life cycle and debug (R286 to R290) -/

/-- R286 permits the change. -/
def lcPermits (a b : Nat) : Bool :=
  match a with
  | 0 => b == 1
  | 1 => b == 2 || b == 4
  | 2 => b == 3 || b == 4
  | 3 => b == 4
  | _ => false

/-- The key hash that an unlock is checked against (R290). -/
def State.unlockHash (s : State) : Option (List Byte) :=
  match s.lifeCycle with
  | 2 => s.sc.ownerHash
  | 3 => some (padTo 32 Config.returnHash)
  | _ => none

/-- The scopes an unlock may open (R286). -/
def State.unlockScopes (s : State) : Nat :=
  match s.lifeCycle with
  | 2 => 3
  | 3 => 7
  | _ => 0

/-- The signature form of R290 verifies: mask, public key, r ‖ s, over challenge ‖ unique ID ‖ mask. -/
def State.unlockVerifies (s : State) (d : List Byte) : Bool :=
  match s.sc.challenge, s.unlockHash with
  | some c, some h =>
    let key := (d.drop 1).take 64
    digest key == h && Config.ecdsaVerify key (c ++ leBytes 8 Config.uniqueId.toNat ++ d.take 1) ((d.drop 65).take 64)
  | _, _ => false

/-- A life-cycle change is requested (R287): a status, none while the response waits for the fuses. (DEDUCED, log entry 95). -/
def State.lifeCycleOp (s : State) (via : Via) (tid : Nat) (d : List Byte) : Option Nat × State :=
  let t := field d 0 1
  if s.sc.lcTarget.isSome then (some Abort.state, s)
  else if !lcPermits s.lifeCycle t ∨ field d 1 4 ≠ Config.uniqueId.toNat % 2 ^ 32 then (some Abort.range, s)
  else if t = 3 ∧ s.regNormal = false then (some Abort.state, s)
  else
    let bad := t == 3 && !s.unlockVerifies (d.drop 5)
    let s : State := if t = 3 then { s with sc := { s.sc with challenge := none } } else s
    if bad then (some Abort.access, s)
    else
      let s : State := { s with sc := { s.sc with lcTarget := some t, lcReq := some (via, tid) } }
      (none, s.startWipe VAULTCTL.STAT_CAUSE_LC)

/-- The request 0x7020/0x02 that began a change, for its response. -/
def lcMsg (via : Via) (tid : Nat) : DictMsg :=
  { via := via, tid := BitVec.ofNat 8 tid, node := 0, rsv := false, aux := 0, index := 0x7020, sub := 2, data := [] }

/-- LIFE_CYCLE_FUSES_BURNED (R286 to R288): once the wipe has ended; Returned erases flash and the record store, Scrapped burns
the private key; MESH_EN reads 1 in Production and Returned (R294); the response, the report and the full reset follow.
(DEDUCED, log entry 95). -/
def execLifeCycleFusesBurned (s : State) : Ans :=
  match s.sc.lcTarget with
  | none => .next s
  | some t =>
    if s.on VAULTCTL.STAT_WIPING then .next s
    else
      let old := s.lifeCycle
      let req := s.sc.lcReq
      let s := (if t = 3 then s.eraseForReturn else s).burnFuses t 3 (t == 4)
      let s : State := { s with sc := { s.sc with lcTarget := none, lcReq := none } }
      let s := if t = 2 ∨ t = 3 then s.set VAULTCTL.TMP_CFG_MESH_EN 1 else s
      let s := match req with
        | some (via, tid) => s.answer 2 (lcMsg via tid) 0 []
        | none => s
      .next ((s.mgtReport 52 0x0D (Config.packDetail old t % 2 ^ 32)).scarabReset 6)

/-- The owner debug key hash (R279, R288): Development only, once. -/
def State.ownerHashOp (s : State) (d : List Byte) : Nat × State :=
  if s.sc.lcTarget.isSome then (Abort.state, s)
  else if s.lifeCycle ≠ 1 ∨ s.sc.ownerHash.isSome then (Abort.access, s)
  else (0, { s with sc := { s.sc with ownerHash := some d } })

/-- An unlock attempt (R290): a status and the state. -/
def State.unlockOp (s : State) (d : List Byte) : Nat × State :=
  if s.sc.lcTarget.isSome then (Abort.state, s)
  else if s.sc.lockout then (Abort.access, s)
  else
    let mask := field d 0 1
    let ok := s.unlockVerifies d && (mask &&& (255 - s.unlockScopes)) == 0
    let s : State := { s with sc := { s.sc with challenge := none } }
    if ok then
      let s : State := { s with sc := { s.sc with scopes := s.sc.scopes ||| mask, failRun := 0, debugEver := s.sc.debugEver || mask != 0 } }
      (0, s.mgtReport 52 0x0B mask)
    else
      let s : State := { s with sc := { s.sc with
        fails := s.sc.fails + 1, failRun := s.sc.failRun + 1, lockout := decide (3 ≤ s.sc.failRun + 1) } }
      (Abort.access, s.mgtReport 52 0x0C s.sc.fails)

/-! ### Carapace (R292 to R294) -/

/-- MESH_EN in force (R294). -/
def State.meshEn (s : State) : Bool := s.on VAULTCTL.TMP_CFG_MESH_EN || s.lifeCycle == 2 || s.lifeCycle == 3

/-- A tamper by detector `d` (R293): the wipe, TMP_STAT and TMP_CNT, the wake source, the report, and a full reset to follow. -/
def State.tamper (s : State) (d : Nat) : State :=
  let s := s.startWipe VAULTCTL.STAT_CAUSE_TAMPER
  let s := (s.setBit VAULTCTL.TMP_STAT_EV d true).count VAULTCTL.TMP_CNT_COUNT VAULTCTL.TMP_CNT_OVF
  let s := s.wakeSrc (2 ^ 5)
  let s := if s.domOn .mgt then s.mgtReport 52 0x0A d
    else { s with sc := { s.sc with tamperReports := s.sc.tamperReports ++ [d] } }
  { s with sc := { s.sc with tamperEver := true, tamperReset := s.sc.tamperReset || s.on VAULTCTL.TMP_CFG_RESET } }

/-- STATIC_TAMPER (R292, R293): TAMPERk has had a level for 4 consecutive slow-clock periods; the expected level re-arms the
detector. (DEDUCED, log entry 97). -/
def execStaticTamper (k : Fin 2) (level : Bool) (s : State) : Ans :=
  let mode := if k = 0 then s.on VAULTCTL.TMP_CFG_MODE0 else s.on VAULTCTL.TMP_CFG_MODE1
  let lvl := if k = 0 then s.on VAULTCTL.TMP_CFG_LVL0 else s.on VAULTCTL.TMP_CFG_LVL1
  let arm (b : Bool) (s : State) : State := { s with sc := { s.sc with detArmed := Machine.setBit s.sc.detArmed k b } }
  if s.pwr.step = .cold ∨ !mode ∨ s.on VAULTCTL.TMP_CFG_PAIR then .next s
  else if level = lvl then .next (arm true s)
  else if getBit s.sc.detArmed k then .next ((arm false s).tamper k)
  else .next s

/-- A detector that has fired fires again only after its condition has been absent for 4 slow-clock periods (R293): `seen` is the
period in which it was present last, and `stands` how many periods a finding lasts. (DEDUCED, log entry 97). -/
def State.absentSince (s : State) (seen : Option Nat) (stands : Nat) : Bool :=
  match seen with
  | some p => decide (p + stands + 4 < s.slow)
  | none => true

/-- PAIR_TAMPER (R292, R293): two consecutive mismatches of the active pair, which stand until the next bit's sample, 32 periods
on. (DEDUCED, log entry 97). -/
def execPairTamper (s : State) : Ans :=
  if s.pwr.step = .cold ∨ !s.on VAULTCTL.TMP_CFG_PAIR then .next s
  else
    let t : State := { s with sc := { s.sc with pairSeen := some s.slow } }
    .next (if s.absentSince s.sc.pairSeen 31 then t.tamper 2 else t)

/-- MESH_TAMPER (R292, R293): an open or short in the die mesh. (DEDUCED, log entry 97). -/
def execMeshTamper (s : State) : Ans :=
  if s.pwr.step = .cold ∨ !s.meshEn then .next s
  else
    let t : State := { s with sc := { s.sc with meshSeen := some s.slow } }
    .next (if s.absentSince s.sc.meshSeen 0 then t.tamper 3 else t)

/-! ### Watchdog (R304, R305) -/

/-- The watchdog expires (R305): the report with the core's pc, channel A's command aborted, the flush, and the full reset. -/
def State.wdogExpire (s : State) (pc : Nat) : State :=
  let (done, s) := s.fresh
  let s := (s.set MBOX.WDOG_STAT_REMAIN 0).mgtReport 51 0x0E pc
  (s.recAbort .a done).scarabReset 4

/-- Expiry where the command gives no pc: it is an undefined value. -/
def State.wdogExpireNow (s : State) : State :=
  let (pc, s) := s.fresh
  s.wdogExpire (pc % 2 ^ 32)

/-- A kick completed within WIN ms of the previous one (R304). (DESIGN CHOICE, log entry 16). -/
def State.kickEarly (s : State) : Bool :=
  let w := s.get MBOX.WDOG_CTRL_WIN
  w != 0 && (s.sc.wdLast.map fun t => decide (s.tick < t + 2 ^ (w - 1) * 250000)).getD false

/-- A write of WDOG_KICK while the watchdog runs. -/
def State.wdogKick (s : State) (v : Nat) : State :=
  if v = 0xA5A5 then { s with sc := { s.sc with wdHalf := true } }
  else if v ≠ 0x5A5A then s.wdogExpireNow
  else if !s.sc.wdHalf then s
  else if s.kickEarly then s.wdogExpireNow
  else
    let p := s.get MBOX.WDOG_CTRL_PERIOD
    { s.set MBOX.WDOG_STAT_REMAIN p with sc := { s.sc with wdHalf := false, wdLast := some s.tick, wdPeriod := p } }

/-- WDOG_KICK (R304): it does nothing while the watchdog does not run. (DESIGN CHOICE, log entry 16). -/
def execWdogKick (v : Word) (s : State) : Ans :=
  s.busDo MBOX.WDOG_KICK fun s => if s.on MBOX.WDOG_CTRL_EN then s.wdogKick v.toNat else s

/-- WDOG_WARN (R304): WARN_MS ms remain. -/
def execWdogWarn (s : State) : Ans :=
  if s.on MBOX.WDOG_CTRL_EN && s.domOn .mgt && decide (s.get MBOX.WDOG_STAT_REMAIN ≤ s.get MBOX.WDOG_CTRL_WARN_MS) then
    .next (s.set MBOX.WDOG_STAT_WARN 1)
  else .next s

/-- WDOG_EXPIRY (R304, R305): the count has reached 0; the core's pc. -/
def execWdogExpiry (pc : Word) (s : State) : Ans :=
  if s.on MBOX.WDOG_CTRL_EN && s.domOn .mgt && s.get MBOX.WDOG_STAT_REMAIN == 0 then .next (s.wdogExpire pc.toNat) else .next s

/-! ### Mailbox results (R281) -/

/-- Bytes put into ARG0 onwards, four per word. -/
def State.setArgs (s : State) (l : List Byte) : State :=
  (List.range ((l.length + 3) / 4)).foldl (fun s i => s.set (MBOX.ARG_ARG i) (field l (4 * i) 4)) s

/-- What an operation leaves (R281): its RESULT and the state. (DEDUCED, log entry 98). -/
def State.mboxResult (s : State) (op : Nat) : Nat × State :=
  match op with
  | 1 =>
    let a := s.get (MBOX.ARG_ARG 8)
    if s.lifeCycle = 0 ∨ s.lifeCycle = 4 then (3, s)
    else if s.sc.attStatus = 1 then (4, s)
    else if a < 0x20000000 ∨ 0x20080000 < a + 180 then (2, s)
    else (0, s.pokes a (s.attestReport ((List.range 8).flatMap fun i => leBytes 4 (s.get (MBOX.ARG_ARG i)))))
  | 2 => (0, s)
  | 3 =>
    match s.log.entries[s.get (MBOX.ARG_ARG 0)]? with
    | some e => (0, s.setArgs (entryBytes e))
    | none => (2, s)
  | 4 =>
    let (s, c) := s.newChallenge
    (0, s.setArgs c)
  | _ => (1, s)

/-- An operation cannot end yet: its report's place lies in a memory under march (R263), or the log's flush waits for the record
store (R302). (DEDUCED, log entry 98). -/
def State.mboxHeld (s : State) (op : Nat) : Bool :=
  (op == 1 && s.marchHolds (s.get (MBOX.ARG_ARG 8)) 180) || (op == 2 && s.rs.flushDue)

/-- MAILBOX_OPERATION_DONE (R281): results in ARG, RESULT, DONE, and BUSY falls. -/
def execMailboxOperationDone (s : State) : Ans :=
  match s.sc.op with
  | none => .next s
  | some op =>
    if !s.domOn .mgt ∨ s.mboxHeld op then .next s
    else
      let (r, s) := s.mboxResult op
      let s := ((s.set MBOX.STAT_RESULT r).set MBOX.STAT_DONE 1).set MBOX.STAT_BUSY 0
      .next { s with sc := { s.sc with op := none } }

/-! ### TAP (R289, R290, R353) -/

/-- TAP_ACCESS (R289, R290): what the data register shifts out, least significant bit first. A debug instruction aimed at an
open scope is refused, since the spec does not say what it does there. (PRESUMED, log entry 99). -/
def execTapAccess (a : TapAccess) (s : State) : Ans :=
  let ir (k : Nat) (s : State) : State := { s with sc := { s.sc with tapIr := k } }
  match a with
  | .bypass tdi => .next ((ir 15 s).emit (.tdo (2 * b2n tdi)))
  | .idcode => .next ((ir 1 s).emit (.tdo 0x21040C6B))
  | .samplePreload =>
    let (v, s) := s.fresh
    .next ((ir 2 s).emit (.tdo v))
  | .extest =>
    let (v, s) := s.fresh
    .next ((ir 0 s).emit (.tdo v))
  | .unlockRead =>
    if !s.domOn .mgt then .next s
    else
      let (s, c) := s.newChallenge
      .next ((ir 3 s).emit (.tdo (leNat c)))
  | .unlockWrite d => if !s.domOn .mgt then .next s else .next (ir 3 (s.unlockOp d).2)
  | .debug k => if getBit s.openScopes k then .refused .debugInstruction else .next ((ir 4 s).emit (.tdo 0))

end Sys2Proof.Machine
end

