-- ==== Sys2Proof/Machine/Touch.lean ====
section
/-!
DEFINITION. The touch matrix (11_cricket_touch.md, R231 to R238): scans, decoding, baselines and key states, acquisition,
recalibration and the scan rate.
-/
namespace Sys2Proof.Machine

/-! ### Keys -/

/-- The enabled keys that KEYMASK selects: bit k. -/
def State.keyMask (s : State) : Nat := s.get64 TOUCH.KEYMASK_HI_MASK TOUCH.KEYMASK_LO_MASK

/-- T_k (KEYS_LO, KEYS_HI). -/
def State.touched (s : State) (k : Nat) : Bool :=
  if k < 32 then s.bit TOUCH.KEYS_LO_KEYS k else s.bit TOUCH.KEYS_HI_KEYS (k - 32)

/-- T_k set. -/
def State.setTouched (s : State) (k : Nat) (b : Bool) : State :=
  if k < 32 then s.setBit TOUCH.KEYS_LO_KEYS k b else s.setBit TOUCH.KEYS_HI_KEYS (k - 32) b

/-- "report k" (R233): CHG, KEY_EV, the event producer, and idle time begins anew. -/
def State.reportKey (s : State) (k : Nat) : State :=
  let s := if k < 32 then s.setBit TOUCH.CHG_LO_CHG k true else s.setBit TOUCH.CHG_HI_CHG (k - 32) true
  let s := (s.set TOUCH.STAT_KEY_EV 1).pulse 0x75 (s.fastTicks 1)
  { s with touch := { s.touch with idleFrom := s.slow } }

/-- A key's state replaced. -/
def State.key (s : State) (k : Fin 64) (f : KeySt → KeySt) : State :=
  { s with touch := { s.touch with keys := s.touch.keys.set k.1 (f s.touch.keys[k]) } }

/-- RECAL_CNT + 1. -/
def State.countRecal (s : State) : State := s.count TOUCH.RECAL_CNT_COUNT TOUCH.RECAL_CNT_OVF

/-- The key acquires, or its acquisition starts with the next scan. -/
def State.acquiring (s : State) (k : Fin 64) : Bool := s.touch.keys[k].acq.isSome || getBit s.touch.acqNext k

/-- STAT.ACQ. -/
def State.showAcq (s : State) : State := s.setF TOUCH.STAT_ACQ ((List.finRange 64).any s.acquiring)

/-- The keys of `m` acquire from the next scan: T_k is 0 and they report nothing. -/
def State.acquire (s : State) (m : Nat) : State :=
  let s := (List.finRange 64).foldl (fun s (k : Fin 64) =>
    if getBit m k then (s.setTouched k false).key k fun x => { x with on := 0, off := 0, acq := none } else s) s
  ({ s with touch := { s.touch with acqNext := s.touch.acqNext ||| m } } : State).showAcq

/-- A key whose KEYMASK bit is cleared keeps no state (R234). -/
def State.dropKeys (s : State) (m : Nat) : State :=
  let s := (List.finRange 64).foldl (fun s (k : Fin 64) => if getBit m k then (s.setTouched k false).key k fun _ => {} else s) s
  let a := (List.range 64).foldl (fun a k => Machine.setBit a k (getBit a k && !getBit m k)) s.touch.acqNext
  { s with touch := { s.touch with acqNext := a } }

/-- The settings in the registers. -/
def State.touchCfg (s : State) : TouchCfg :=
  { mask := s.keyMask, thOn := s.get TOUCH.THRESH_TH_ON, thOff := s.get TOUCH.THRESH_TH_OFF, deb := s.get TOUCH.THRESH_DEB
    idle1 := s.get TOUCH.IDLE_IDLE1, idle2 := s.get TOUCH.IDLE_IDLE2, idle3 := s.get TOUCH.IDLE_IDLE3
    rate0 := s.get TOUCH.RATE01_RATE0, rate1 := s.get TOUCH.RATE01_RATE1, rate2 := s.get TOUCH.RATE23_RATE2
    rate3 := s.get TOUCH.RATE23_RATE3, burst := s.get TOUCH.CFG_BURST, pulse := s.get TOUCH.CFG_PULSE
    diap := s.get TOUCH.CFG_DIAP_STAGE }

/-- The settings of the registers come into force (R234, R238): newly enabled keys acquire, disabled keys keep no state. -/
def State.takeTouchCfg (s : State) : State :=
  let old := s.touch.cfg.mask
  let new := s.keyMask
  let gone := (List.range 64).foldl (fun a k => if getBit old k && !getBit new k then a + 2 ^ k else a) 0
  let born := (List.range 64).foldl (fun a k => if getBit new k && !getBit old k then a + 2 ^ k else a) 0
  let s := (s.dropKeys gone).acquire born
  { s with touch := { s.touch with cfg := s.touchCfg } }

/-! ### Scan rate (R236, R237) -/

/-- A key is touched, acquires, or has a touch pending. -/
def State.touchBusy (s : State) : Bool :=
  (List.finRange 64).any fun k => s.touched k || s.acquiring k || decide (0 < s.touch.keys[k].on)

/-- The stage of R236. -/
def State.stage (s : State) : Nat :=
  let idle := s.slow - s.touch.idleFrom
  let c := s.touch.cfg
  if s.touchBusy ∨ idle = 0 ∨ idle < c.idle1 * 32768 then 0
  else if idle < c.idle2 * 32768 then 1
  else if idle < c.idle3 * 32768 then 2
  else 3

/-- The stage in force (R237): in Diapause not faster than DIAP_STAGE. -/
def State.stageNow (s : State) : Nat := if s.pwr.step = .diapause then max s.stage s.touch.cfg.diap else s.stage

/-- The period of a stage; acquisition runs at RATE0 whatever the stage (R234). -/
def State.ratePeriod (s : State) (st : Nat) : Nat :=
  let c := s.touch.cfg
  if (List.finRange 64).any s.acquiring then c.rate0
  else match st with
    | 0 => c.rate0
    | 1 => c.rate1
    | 2 => c.rate2
    | _ => c.rate3

/-- The next start is `st`'s period after the start of the previous scan; where that instant has passed, the next slow-clock edge
(R236, R237). -/
def State.scanAfter (s : State) (st : Nat) : State :=
  let t := s.touch.lastStart + s.ratePeriod st
  { s with touch := { s.touch with nextStart := if t ≤ s.slow then s.slow + 1 else t } }

/-- The stage in force is `st`, and the next start follows from it. -/
def State.nextScan (s : State) (st : Nat) : State :=
  let s := s.set TOUCH.STAT_STAGE st
  ({ s with touch := { s.touch with endStage := st } } : State).scanAfter st

/-- A scan's length in ns (R231). -/
def scanNs (c : TouchCfg) : Nat := 16 * c.burst * c.pulse * 125

/-- A period of `n` slow-clock periods is shorter than the scan (R236). -/
def tooShort (c : TouchCfg) (n : Nat) : Bool := decide (n * 1000000000 < scanNs c * 32768)

/-! ### The commands -/

/-- TOUCH_SCAN_START (R236, R238): the slow-clock edge of the next start; settings written during the scan wait for the next. -/
def execTouchScanStart (s : State) : Ans :=
  if !s.domOn .crk || !s.on TOUCH.CTRL_EN || s.on TOUCH.STAT_SCANNING || decide (s.slow < s.touch.nextStart) then .next s
  else
    let s := s.takeTouchCfg
    let a := s.touch.acqNext
    let s := (List.finRange 64).foldl (fun s (k : Fin 64) => if getBit a k then s.key k fun x => { x with acq := some (0, 0) } else s) s
    .next { s.set TOUCH.STAT_SCANNING 1 with touch := { s.touch with
      acqNext := 0, lastStart := s.slow, scanTick := s.tick, recal := s.touch.recalNext, recalNext := 0 } }

/-- H[r][k] is −1 (R231). -/
def hadamardNeg (r k : Nat) : Bool := ((List.range 3).filter fun i => getBit (r &&& k) i).length % 2 == 1

/-- m[r][c] of the counts q_c[k], which are listed column by column (R232). -/
def decodeKey (q : List Int) (r c : Nat) : Nat :=
  let sum := (List.range 8).foldl (fun a k => let x := q.getD (8 * c + k) 0; if hadamardNeg r k then a - x else a + x) 0
  (limitI 0 65535 (asr sum 3)).toNat

/-- One key that is not acquiring at the end of a scan (R233). -/
def State.processKey (s : State) (k : Fin 64) (m : Nat) : State :=
  let c := s.touch.cfg
  let x := s.touch.keys[k]
  let d : Int := (x.base / 256 : Nat) - (m : Nat)
  let neg : Int := (s.get TOUCH.TRACK_TH_NEG : Nat)
  let lim := s.get TOUCH.TRACK_HOLD_LIM
  if !s.touched k then
    let on := if (c.thOn : Int) ≤ d then x.on + 1 else 0
    let s := s.key k fun x => { x with m := m, on := on }
    if on = c.deb then
      ((s.setTouched k true).key k fun x => { x with on := 0, since := s.slow }).reportKey k
    else if d ≤ -neg then (s.key k fun x => { x with base := m * 256 }).countRecal
    else if absI d < (c.thOff : Int) then
      s.key k fun x => { x with base := ((x.base : Int) + asr ((m * 256 : Nat) - (x.base : Int)) (s.get TOUCH.TRACK_SHIFT)).toNat }
    else s
  else
    let off := if d < (c.thOff : Int) then x.off + 1 else 0
    let s := s.key k fun x => { x with m := m, off := off }
    if off = c.deb then ((s.setTouched k false).key k fun x => { x with off := 0 }).reportKey k
    else if lim ≠ 0 ∧ lim * 32768 ≤ s.slow - x.since then
      let s := ((s.setTouched k false).key k fun x => { x with base := m * 256 }).reportKey k
      ((s.set TOUCH.STAT_RECAL_EV 1).set TOUCH.STAT_RECAL_KEY k).countRecal
    else s

/-- One acquiring key at the end of a scan (R234). -/
def State.acquireKey (s : State) (k : Fin 64) (m n sum : Nat) : State :=
  if n + 1 = 16 then s.key k fun x => { x with m := m, base := (sum + m) * 16, acq := none }
  else s.key k fun x => { x with m := m, acq := some (n + 1, sum + m) }

/-- A commanded recalibration at the end of a scan (R235). -/
def State.recalKey (s : State) (k : Fin 64) (m : Nat) : State :=
  let was := s.touched k
  let s := ((s.setTouched k false).key k fun x => { x with m := m, base := m * 256, on := 0, off := 0 }).countRecal
  if was then s.reportKey k else s

/-- The keys in ascending order at the end of a scan (R233 to R235). -/
def State.processKeys (s : State) (q : List Int) : State :=
  (List.finRange 64).foldl (fun s (k : Fin 64) =>
    if !getBit s.touch.cfg.mask k then s
    else
      let m := decodeKey q (k / 8) (k % 8)
      match s.touch.keys[k].acq with
      | some (n, sum) => s.acquireKey k m n sum
      | none =>
        if getBit s.touch.acqNext k then s.key k fun x => { x with m := m }
        else if getBit s.touch.recal k then s.recalKey k m
        else s.processKey k m) s

/-- The last chip of the scan in progress has ended (R231). -/
def State.scanDone (s : State) : Bool := decide (scanNs s.touch.cfg ≤ 4 * (s.tick - s.touch.scanTick))

/-- TOUCH_SCAN_END (R232 to R236): after the last chip; the counts q_c[k], column by column, eight chips each. -/
def execTouchScanEnd (q : List Int) (s : State) : Ans :=
  if !s.on TOUCH.STAT_SCANNING || !s.scanDone then .next s
  else
    let old := s
    let s := s.processKeys q
    let s : State := { s.set TOUCH.STAT_SCANNING 0 with touch := { s.touch with recal := 0 } }
    let acq := (List.finRange 64).any fun k => old.touch.keys[k].acq.isSome
    let left := (List.finRange 64).any s.acquiring
    let s := if acq && !left then s.set TOUCH.STAT_ACQ_EV 1 else s
    let s := s.showAcq
    let st := s.stageNow
    let s := if tooShort s.touch.cfg (s.ratePeriod st) then s.set TOUCH.STAT_OVERRUN 1 else s
    let s := s.nextScan st
    let new := (List.finRange 64).any fun k => s.touched k && !old.touched k
    .next (if new then s.wakeSrc (2 ^ 4) else s)

/-- RECAL of key KEY (R235). (DEDUCED, log entry 77). -/
def State.recalCmd (s : State) (k : Nat) : State :=
  if !s.on TOUCH.CTRL_EN || !getBit s.keyMask k ||
      (List.finRange 64).any (fun j => j.1 == k && (s.acquiring j || !getBit s.touch.cfg.mask k)) then
    s.set TOUCH.STAT_CMD_IGN 1
  else { s with touch := { s.touch with recalNext := Machine.setBit s.touch.recalNext k true } }

/-- RECAL_ALL (R234): every enabled key acquires again. -/
def State.recalAll (s : State) : State :=
  if !s.on TOUCH.CTRL_EN then s
  else
    let s := s.acquire s.keyMask
    if s.on TOUCH.STAT_SCANNING then s else s.nextScan 0

/-- EN goes from 0 to 1 (R234): scanning starts, and every enabled key acquires. (DEDUCED, log entry 77). -/
def State.touchOn (s : State) : State :=
  if s.on TOUCH.CTRL_EN then s
  else
    let s : State := { s.set TOUCH.CTRL_EN 1 with touch := { s.touch with
      cfg := s.touchCfg, nextStart := s.slow + 1, lastStart := s.slow, idleFrom := s.slow, recal := 0, recalNext := 0 } }
    (s.acquire s.keyMask).set TOUCH.STAT_STAGE 0

/-- EN written 0 (R238): the scan is aborted and every T_k clears without a report. -/
def State.touchOff (s : State) : State :=
  let s := ((s.set TOUCH.CTRL_EN 0).set TOUCH.STAT_SCANNING 0).set TOUCH.STAT_ACQ 0
  let s := (s.set TOUCH.KEYS_LO_KEYS 0).set TOUCH.KEYS_HI_KEYS 0
  { s with touch := { s.touch with keys := Vector.replicate 64 {}, acqNext := 0, recal := 0, recalNext := 0 } }

/-- A write of CTRL (R234, R235, R238). -/
def State.touchCtrl (s : State) (v : Nat) : State :=
  let s := s.set TOUCH.CTRL_KEY (bits v 5 0)
  let s := if getBit v 31 then s.touchOn else s.touchOff
  let s := if getBit v 30 then s.recalAll else s
  if getBit v 29 then s.recalCmd (bits v 5 0) else s

/-- TOUCH_ENABLE, TOUCH_DISABLE, RECAL_ALL, RECAL (R234, R235, R238): CTRL written with the row's bit. -/
def execTouchEnable (v : Word) (s : State) : Ans := s.busDo TOUCH.CTRL fun s => s.touchCtrl (setBit v.toNat 31 true)
def execTouchDisable (v : Word) (s : State) : Ans := s.busDo TOUCH.CTRL fun s => s.touchCtrl (setBit v.toNat 31 false)
def execRecalAll (v : Word) (s : State) : Ans := s.busDo TOUCH.CTRL fun s => s.touchCtrl (setBit v.toNat 30 true)
def execRecal (v : Word) (s : State) : Ans := s.busDo TOUCH.CTRL fun s => s.touchCtrl (setBit v.toNat 29 true)

/-- A setting written outside a scan comes into force at once; during a scan it waits for the next (R238), and
the stage stays that of the last scan's end (R236). (DEDUCED, log entry 77). -/
def State.touchSetting (s : State) : State :=
  if !s.on TOUCH.CTRL_EN || s.on TOUCH.STAT_SCANNING then s
  else
    let s := s.takeTouchCfg
    s.scanAfter s.touch.endStage

/-- KEYMASK_WRITE (R234, R238). -/
def execKeymaskWrite (hi : Bool) (v : Word) (s : State) : Ans :=
  if hi then s.busDo TOUCH.KEYMASK_HI fun s => (s.set TOUCH.KEYMASK_HI_MASK v.toNat).touchSetting
  else s.busDo TOUCH.KEYMASK_LO fun s => (s.set TOUCH.KEYMASK_LO_MASK v.toNat).touchSetting

/-- The main domain enters Diapause (R237): the stage in force is at least DIAP_STAGE. -/
def State.touchEnter (s : State) : State :=
  if s.on TOUCH.CTRL_EN then s.set TOUCH.STAT_STAGE (max (s.get TOUCH.STAT_STAGE) s.touch.cfg.diap) else s

/-- The main domain leaves Diapause (R237): the next start is recomputed from the stage of R236 alone. -/
def State.touchExit (s : State) : State :=
  if !s.on TOUCH.CTRL_EN then s
  else if s.on TOUCH.STAT_SCANNING then s.set TOUCH.STAT_STAGE s.stage
  else s.nextScan s.stage

/-! ### The rows (R230, R231) -/

/-- Row r has an enabled key. -/
def TouchCfg.rowUsed (c : TouchCfg) (r : Nat) : Bool := (List.range 8).any fun k => getBit c.mask (8 * r + k)

/-- The level of row r, `t` ns after the start of a scan (R231): in pulse j of chip k the row makes its edge at mid-period, and in
the first half of a pulse it returns to its starting level, at an instant the spec leaves open.
(DESIGN CHOICE, log entry 114). -/
def TouchCfg.rowAt (c : TouchCfg) (r t : Nat) : Bool :=
  let half := 125 * c.pulse
  let j := t / (2 * half)
  let u := t % (2 * half)
  let neg (j : Nat) : Bool := hadamardNeg r (j / c.burst)
  let start := neg j
  if t < scanNs c ∧ c.rowUsed r = true then
    if half ≤ u then !start
    else if u < Config.rowReturn r j % half then (if j = 0 then false else !neg (j - 1))
    else start
  else false

/-- The level that TCH_D r is driven to in the tick's nanosecond `ns` (R230, R231): low outside a scan. -/
def State.rowLevel (s : State) (r ns : Nat) : Bool :=
  s.on TOUCH.CTRL_EN && s.on TOUCH.STAT_SCANNING && s.touch.cfg.rowAt r (4 * (s.tick - s.touch.scanTick) + ns)

end Sys2Proof.Machine
end

