-- ==== Sys2Proof/Machine/Objects.lean ====
section
/-!
DEFINITION. The object dictionary (08_dictionary.md, R169 to R185, and the object tables of the other chapters): the objects
with their types and access rights, the value of each in force, the checks of a value written or staged, and what a write does.
-/
namespace Sys2Proof.Machine

/-! ### Types (R169) and the objects -/

/-- Object types. -/
inductive OType where
  | u8 | u16 | u32 | u64 | i32 | mt64
  | str (n : Nat)
  | blob (n : Nat)
  deriving DecidableEq, Repr

/-- The type's code. -/
def OType.code : OType → Nat
  | .u8 => 1
  | .u16 => 2
  | .u32 => 3
  | .u64 => 4
  | .i32 => 5
  | .mt64 => 6
  | .str _ => 7
  | .blob _ => 8

/-- The type's size in bytes, the largest of a string or blob. -/
def OType.size : OType → Nat
  | .u8 => 1
  | .u16 => 2
  | .u32 | .i32 => 4
  | .u64 | .mt64 => 8
  | .str n => n
  | .blob n => n

/-- A scalar type. -/
def OType.scalar : OType → Bool
  | .str _ | .blob _ => false
  | _ => true

/-- Access rights (R170) in DESCRIBE's code. -/
inductive OAcc where
  | ro | rw | wo | rwc
  deriving DecidableEq, Repr

/-- The code of an access right (R173). -/
def OAcc.code : OAcc → Nat
  | .ro => 0
  | .rw => 1
  | .wo => 2
  | .rwc => 3

/-- An object's type and access right. -/
structure Obj where
  typ : OType
  acc : OAcc
  deriving DecidableEq, Repr

/-- Consecutive subindices with one type and right. -/
def subs (first n : Nat) (t : OType) (a : OAcc) : List (Nat × Obj) := (List.range n).map fun k => (first + k, ⟨t, a⟩)

/-- The objects of lane group `g` = index mod 0x100 (R81, R105, R117). -/
def laneObjects (g : Nat) : List (Nat × Obj) :=
  match g with
  | 0x00 => subs 1 1 .u32 .ro ++ subs 2 3 .i32 .ro ++ subs 5 8 .u32 .ro
  | 0x01 => [(1, ⟨.u8, .rw⟩)]
  | 0x40 => [(1, ⟨.u16, .rw⟩), (2, ⟨.blob 256, .wo⟩), (3, ⟨.u16, .rw⟩), (4, ⟨.u16, .rw⟩), (5, ⟨.u32, .rw⟩), (6, ⟨.u8, .wo⟩),
      (7, ⟨.u32, .ro⟩)]
  | 0x41 => [(1, ⟨.mt64, .rwc⟩), (2, ⟨.u8, .rwc⟩), (3, ⟨.u32, .ro⟩), (4, ⟨.u32, .ro⟩)]
  | 0x50 => [(1, ⟨.u32, .ro⟩), (2, ⟨.mt64, .rwc⟩), (3, ⟨.u8, .rwc⟩), (4, ⟨.u32, .ro⟩)]
  | _ => []

/-- The object table (R177, R179, R184, R185 and the tables of the owning chapters): the subindices of an index; none where the
index is not defined. -/
def objectsAt (i : Nat) : List (Nat × Obj) :=
  if 0x2000 ≤ i ∧ i < 0x2A00 then laneObjects (i % 0x100)
  else if 0x1020 ≤ i ∧ i < 0x1024 then
    [(1, ⟨.u8, .ro⟩), (2, ⟨.u8, .ro⟩), (3, ⟨.mt64, .ro⟩), (4, ⟨.u8, .ro⟩), (5, ⟨.u8, .ro⟩), (6, ⟨.u8, .ro⟩), (7, ⟨.u8, .ro⟩),
      (8, ⟨.u8, .rw⟩), (9, ⟨.blob 12, .ro⟩), (0xA, ⟨.mt64, .ro⟩)]
  else if 0x4020 ≤ i ∧ i < 0x402A then [(1, ⟨.u32, .rw⟩), (2, ⟨.u32, .rw⟩), (3, ⟨.u8, .ro⟩)]
  else match i with
  | 0x1000 => [(1, ⟨.u16, .ro⟩), (2, ⟨.str 8, .ro⟩), (3, ⟨.u8, .ro⟩), (4, ⟨.u64, .ro⟩), (5, ⟨.u32, .ro⟩)]
  | 0x1001 => [(1, ⟨.u8, .rw⟩), (2, ⟨.u8, .rw⟩), (3, ⟨.u32, .rwc⟩), (4, ⟨.u16, .rwc⟩), (5, ⟨.u16, .rwc⟩)]
  | 0x1010 => subs 1 3 .u16 .wo
  | 0x1030 => (1, ⟨.u8, .rw⟩) :: subs 2 32 .u32 .rw
  | 0x1031 => [(1, ⟨.u8, .ro⟩), (2, ⟨.u8, .ro⟩), (3, ⟨.mt64, .ro⟩), (4, ⟨.u16, .ro⟩), (5, ⟨.blob 16, .ro⟩), (6, ⟨.blob 16, .ro⟩),
      (7, ⟨.blob 256, .ro⟩), (8, ⟨.u8, .rw⟩), (9, ⟨.blob 256, .ro⟩)]
  | 0x3000 => [(1, ⟨.u8, .ro⟩), (2, ⟨.u32, .ro⟩), (3, ⟨.u32, .ro⟩), (4, ⟨.u64, .ro⟩), (5, ⟨.u64, .ro⟩), (6, ⟨.u32, .ro⟩),
      (7, ⟨.u8, .ro⟩), (8, ⟨.u32, .ro⟩)]
  | 0x3001 => [(1, ⟨.u32, .ro⟩), (2, ⟨.u16, .rw⟩)]
  | 0x4000 => [(1, ⟨.u64, .ro⟩), (2, ⟨.u64, .wo⟩), (3, ⟨.u8, .ro⟩), (4, ⟨.i32, .wo⟩), (5, ⟨.u8, .rw⟩)]
  | 0x4010 => [(1, ⟨.mt64, .ro⟩), (2, ⟨.u64, .ro⟩), (3, ⟨.u8, .ro⟩), (4, ⟨.u8, .ro⟩)]
  | 0x5000 => subs 1 4 .u32 .ro
  | 0x5001 => [(1, ⟨.u16, .rw⟩), (2, ⟨.u16, .ro⟩), (3, ⟨.blob 500, .ro⟩)]
  | 0x6000 => [(1, ⟨.u64, .ro⟩), (2, ⟨.u64, .rw⟩), (3, ⟨.u32, .rw⟩), (4, ⟨.u8, .rw⟩), (5, ⟨.u8, .wo⟩), (6, ⟨.u16, .ro⟩)]
  | 0x7010 => [(1, ⟨.blob 32, .wo⟩), (2, ⟨.blob 180, .ro⟩), (3, ⟨.u8, .ro⟩)]
  | 0x7011 => subs 1 2 (.blob 64) .ro
  | 0x7020 => [(1, ⟨.u8, .ro⟩), (2, ⟨.blob 134, .wo⟩), (3, ⟨.blob 32, .wo⟩)]
  | 0x7030 => [(1, ⟨.blob 16, .ro⟩), (2, ⟨.blob 129, .wo⟩), (3, ⟨.u8, .ro⟩)]
  | 0x7040 => [(1, ⟨.u32, .ro⟩), (2, ⟨.u8, .rw⟩), (3, ⟨.blob 16, .ro⟩), (4, ⟨.blob 16, .ro⟩), (5, ⟨.u8, .wo⟩)]
  | 0x7050 => [(1, ⟨.u8, .wo⟩), (2, ⟨.u32, .rw⟩), (3, ⟨.blob 256, .wo⟩), (4, ⟨.u8, .ro⟩), (5, ⟨.u8, .ro⟩), (6, ⟨.mt64, .rwc⟩),
      (7, ⟨.u8, .wo⟩), (8, ⟨.u32, .ro⟩), (9, ⟨.u8, .ro⟩), (0xA, ⟨.u8, .ro⟩)]
  | 0x7051 => [(1, ⟨.u16, .rw⟩), (2, ⟨.u8, .rw⟩), (3, ⟨.blob 32, .rw⟩)]
  | _ => []

/-- The object of an index and subindex. -/
def objAt (i sub : Nat) : Option Obj := ((objectsAt i).find? fun x => x.1 == sub).map (·.2)

/-- An application-defined index (R177, R178). -/
def isApp (i : Nat) : Bool := decide (0x8000 ≤ i) && decide (i < 0xC000)

/-- The object is persisted (R171). -/
def isPersisted (i sub : Nat) : Bool := persisted.any fun p => p.index == i && p.sub == sub

/-- The object may stand in a write set (R180). -/
def Obj.stageable (o : Obj) : Bool := (o.acc == .rw || o.acc == .rwc) && decide (o.typ.size ≤ 8)

/-- The object may stand in a snapshot list (R185): a scalar of the lane region, the link region or MTIME that can be read. -/
def snappable (i sub : Nat) : Bool :=
  match objAt i sub with
  | none => false
  | some o => o.typ.scalar && o.acc != .wo &&
      (decide (0x2000 ≤ i ∧ i < 0x2A00) || i == 0x1001 || decide (0x1020 ≤ i ∧ i < 0x1024) || i == 0x1030 || i == 0x1031 || i == 0x4010)

/-- The power domain of the block that owns an object. -/
def objDom (i : Nat) : Dom :=
  if i < 0x2000 then .link
  else if i < 0x3000 then .lane
  else if i < 0x4000 then .aon
  else if i = 0x4010 then .sys
  else if i < 0x5000 then .aon
  else if i < 0x6000 then .sys
  else if i < 0x7000 then .crk
  else .mgt

/-- Only bits 39:0 of the object's MT64 count (R81, R117, R338). -/
def low40 (i sub : Nat) : Bool :=
  (decide (0x2000 ≤ i ∧ i < 0x2A00) && ((i % 0x100 == 0x41 && sub == 1) || (i % 0x100 == 0x50 && sub == 2))) ||
  (i == 0x7050 && sub == 6)

/-- The lane of an index of 0x2n00 to 0x2nFF. -/
def laneOf (i : Nat) : Fin 10 := ⟨(i - 0x2000) / 0x100 % 10, by omega⟩

/-! ### Which objects answer (R286, R341) -/

/-- Recovery mode serves the object (R341). -/
def recoveryServes (i sub : Nat) : Bool :=
  i == 0x1000 || (i == 0x1010 && sub == 1) || i == 0x7010 || i == 0x7011 || (i == 0x7020 && sub == 1) || i == 0x7050 || i == 0x7051

/-- The object that a request names, or its abort code (R176, R177, R284, R286, R341). -/
def State.lookup (s : State) (i sub : Nat) : Except Nat Obj :=
  if s.boot.recovery && !recoveryServes i sub then .error (if i = 0x1010 ∨ i = 0x7020 then Abort.noSub else Abort.noObject)
  else if s.lifeCycle = 4 ∧ i ≠ 0x1000 ∧ !(i == 0x7020 && sub == 1) then .error Abort.access
  else if objectsAt i = [] then .error Abort.noObject
  else match objAt i sub with
    | none => .error Abort.noSub
    | some o => if i = 0x7010 ∧ (s.lifeCycle = 0 ∨ s.lifeCycle = 4) then .error Abort.access else .ok o

/-- The owning block's domain is Retained or Off (R176). -/
def State.domainOff (s : State) (i : Nat) : Bool :=
  let d := s.dom (if i < 0x2000 && s.boot.recovery then .sys else objDom i)
  d == .retained || d == .off

/-! ### Values in force -/

/-- The bytes of a register's value. -/
def State.reg4 (s : State) (a : Nat) : List Byte := leBytes 4 (s.readReg a)

/-- Values of lane objects (R81, R105, R117); a command object has no value in force and reads 0. -/
def State.laneVal (s : State) (n : Fin 10) (g sub : Nat) : List Byte :=
  match g, sub with
  | 0x00, k => leBytes 4 ((if s.lanes[n].objs = [] then s.laneObjs n else s.lanes[n].objs).getD (k - 1) 0)
  | 0x01, _ => leBytes 1 (s.get (LANE.CTRL_EN n))
  | 0x40, 1 => leBytes 2 s.sched[n].loadOffset
  | 0x40, 3 => leBytes 2 (s.get (SCHEDLD.L_LOADCFG_COUNT n))
  | 0x40, 4 => leBytes 2 (s.get (SCHEDLD.L_LOADCFG_GEN n))
  | 0x40, 5 => leBytes 4 (s.get (SCHEDLD.L_BANKCRC_CRC n))
  | 0x40, 7 => s.reg4 (SCHEDLD.L_BSTAT n)
  | 0x41, 1 => leBytes 8 (s.get (SCHEDLD.L_SWT_HI_S_HI n) * 2 ^ 32 + s.get (SCHEDLD.L_SWT_LO_S_LO n))
  | 0x41, 3 => s.reg4 (SCHEDLD.L_SWSTAT n)
  | 0x41, 4 => s.reg4 (SCHEDLD.L_GEN n)
  | 0x50, 1 => s.reg4 (LANE.FLT_STAT n)
  | 0x50, 2 => leBytes 8 (s.get (LANE.RESUME_RES_AT_HI n) * 2 ^ 32 + s.get (LANE.RES_AT_LO_RES_AT_LO n))
  | 0x50, 4 => s.reg4 (LANE.RES_STAT n)
  | _, _ => [0]

/-- Entry SEL of a write set: index, subindex, length, value; zeros where there is none (R184). -/
def wsEntryBytes (x : WriteSet) : List Byte :=
  match x.entries[x.sel]? with
  | some e => leBytes 2 e.index ++ leBytes 1 e.sub ++ leBytes 1 e.value.length ++ padTo 8 e.value
  | none => List.replicate 12 0

/-- Values of the objects of a write set (R184). -/
def wsVal (x : WriteSet) (sub : Nat) : List Byte :=
  match sub with
  | 1 => leBytes 1 x.st
  | 2 => leBytes 1 x.entries.length
  | 3 => leBytes 8 x.stamp
  | 4 => leBytes 1 x.outcome
  | 5 => leBytes 1 x.failPos
  | 6 => leBytes 1 x.failCode
  | 7 => leBytes 1 (b2n x.tooLate)
  | 8 => leBytes 1 x.sel
  | 9 => wsEntryBytes x
  | _ => leBytes 8 x.commitMt

/-- Values of the objects at 0x1031 (R190). -/
def State.snapVal (s : State) (sub : Nat) : List Byte :=
  let sn := s.dict.snap
  match sub with
  | 1 => leBytes 1 sn.st
  | 2 => leBytes 1 (if sn.st = 1 then sn.armId else sn.id)
  | 3 => leBytes 8 (if sn.st = 1 then sn.inst % 2 ^ 40 else sn.stamp)
  | 4 => leBytes 2 sn.c0
  | 5 => leBytes 16 sn.roster
  | 6 => leBytes 16 sn.missing
  | 7 => sn.cap.getD []
  | 8 => leBytes 1 sn.sel
  | _ => s.bytes (s.collAddr sn.sel 0) sn.b

/-- The known ERASES of DATA sectors, the highest (R277). -/
def State.maxErases (s : State) : Nat :=
  s.dataSectors.foldl (fun m k =>
    let e := s.recWord (secOff k + 4) % 2 ^ 24
    if s.secClass k ≠ .dirty ∧ s.recWord (secOff k) = 0x53525351 ∧ e ≠ 0xFFFFFF then max m e else m) 0

/-- The record that the key selector selects (R277). -/
def State.selRecord (s : State) : Option Rec := s.winner s.dict.keySel

/-- A lost counter as 0x7040/0x04 shows it: OVF in bit 15, above a count of which 0x7FFF is the greatest shown.
(DESIGN CHOICE, log entry 118). -/
def lostShown (n : Nat) (ovf : Bool) : Nat := min n 0x7FFF + 2 ^ 15 * b2n ovf

/-- Values of the system objects, by index and subindex; a command object has none and reads 0. -/
def State.sysVal (s : State) (i sub : Nat) : List Byte :=
  match i, sub with
  | 0x1000, 1 => leBytes 2 0x4D4C
  | 0x1000, 2 => [0x53, 0x54, 0x51, 0x31, 0x30, 0x34, 0x30]
  | 0x1000, 3 => [0x42]
  | 0x1000, 4 => leBytes 8 Config.uniqueId.toNat
  | 0x1000, 5 => leBytes 4 (s.imageVersion s.boot.slot)
  | 0x1001, 1 => leBytes 1 (s.get RINGCTL.ADDR_ADDR)
  | 0x1001, 2 => leBytes 1 (s.get RINGCTL.CTRL_PRIO)
  | 0x1001, 3 => s.reg4 RINGCTL.SLOT
  | 0x1001, 4 => leBytes 2 (s.get RINGCTL.CYCLE_TC_US)
  | 0x1001, 5 => leBytes 2 (s.get RINGCTL.ACYC_POS)
  | 0x1030, 1 => leBytes 1 s.dict.snap.count
  | 0x1030, k => leBytes 4 (s.dict.snap.list.getD (k - 2) 0)
  | 0x1031, k => s.snapVal k
  | 0x3000, 1 => leBytes 1 (1 - s.get AONCTL.MODE_DOCKED)
  | 0x3000, 2 => s.reg4 AONCTL.DETACH_CNT
  | 0x3000, 3 => s.reg4 AONCTL.DOCK_CNT
  | 0x3000, 4 => leBytes 8 (s.get AONCTL.AT_HI_DETACH_HI * 2 ^ 32 + s.get AONCTL.DETACH_AT_LO_SECS)
  | 0x3000, 5 => leBytes 8 (s.get AONCTL.AT_HI_DOCK_HI * 2 ^ 32 + s.get AONCTL.DOCK_AT_LO_SECS)
  | 0x3000, 6 => s.reg4 AONCTL.DET_SECS
  | 0x3000, 7 => leBytes 1 (s.get AONCTL.STEP_DEEPEST)
  | 0x3000, _ => s.reg4 AONCTL.BOD_CNT
  | 0x3001, 1 => s.reg4 AONCTL.WAKE_CAUSE
  | 0x3001, _ => leBytes 2 (s.get AONCTL.WAKE_EN_EN)
  | 0x4000, 1 => leBytes 8 s.calSecs
  | 0x4000, 3 => leBytes 1 (s.get RTC.STAT_VALID)
  | 0x4000, 5 => leBytes 1 (s.get RTC.CTRL_DISC_EN)
  | 0x4010, 1 => leBytes 8 s.tm.calMt
  | 0x4010, 2 => leBytes 8 s.tm.calSec
  | 0x4010, 3 => leBytes 1 (b2n s.tm.calValid + 2 * b2n s.tm.calHeld)
  | 0x4010, _ => leBytes 1 s.tm.calNode
  | 0x5000, 1 => s.reg4 RECSTORE.FREE
  | 0x5000, 2 => leBytes 4 s.maxErases
  | 0x5000, 3 => s.reg4 RECSTORE.REFRESH_CNT
  | 0x5000, _ => s.reg4 RECSTORE.DIRTY_MASK
  | 0x5001, 1 => leBytes 2 s.dict.keySel
  | 0x5001, 2 => leBytes 2 ((s.selRecord.map (·.seq)).getD 0)
  | 0x5001, _ => ((s.selRecord.map s.recData).getD []).take 500
  | 0x6000, 1 => leBytes 8 (s.get64 TOUCH.KEYS_HI_KEYS TOUCH.KEYS_LO_KEYS)
  | 0x6000, 2 => leBytes 8 s.keyMask
  | 0x6000, 3 => s.reg4 TOUCH.THRESH
  | 0x6000, 4 => leBytes 1 (s.get TOUCH.TRACK_HOLD_LIM)
  | 0x6000, 6 => leBytes 2 (s.get TOUCH.RECAL_CNT_COUNT + 2 ^ 15 * s.get TOUCH.RECAL_CNT_OVF)
  | 0x7010, 2 => s.sc.attReport
  | 0x7010, 3 => leBytes 1 s.sc.attStatus
  | 0x7011, 1 => padTo 64 Config.devicePublicKey
  | 0x7011, _ => padTo 64 Config.endorsement
  | 0x7020, 1 => leBytes 1 s.lifeCycle
  | 0x7030, 1 => s.sc.challenge.getD []
  | 0x7030, 3 => leBytes 1 (s.openScopes + 16 * min 3 s.sc.fails + 128 * b2n s.sc.lockout)
  | 0x7040, 1 => leBytes 4 s.log.created
  | 0x7040, 2 => leBytes 1 s.log.sel
  | 0x7040, 3 => (s.log.entries[s.log.sel]?.map entryBytes).getD []
  | 0x7040, 4 => (s.log.lost.zip s.log.lostOvf).foldl (fun l p => l ++ leBytes 2 (lostShown p.1 p.2)) []
  | 0x7050, 2 => leBytes 4 s.dl.offset
  | 0x7050, 4 => leBytes 1 s.dl.st
  | 0x7050, 5 => leBytes 1 s.dl.reason
  | 0x7050, 6 => leBytes 8 s.dl.activateAt
  | 0x7050, 8 => leBytes 4 (s.imageVersion s.inactive)
  | 0x7050, 9 => leBytes 1 (b2n s.onTrial + 2 * b2n s.boot.rolledBack + 4 * b2n s.boot.recovery + 8 * b2n s.boot.promotePend)
  | 0x7050, 0xA => leBytes 1 s.boot.promoted
  | 0x7051, 1 => leBytes 2 s.bootCfg.wdogMs
  | 0x7051, 2 => leBytes 1 s.bootCfg.march
  | 0x7051, _ => s.bootCfg.keyHash
  | _, _ => [0]

/-- The value of an object (R169, R170). -/
def State.objVal (s : State) (i sub : Nat) : List Byte :=
  if 0x2000 ≤ i ∧ i < 0x2A00 then s.laneVal (laneOf i) (i % 0x100) sub
  else if 0x1020 ≤ i ∧ i < 0x1024 then wsVal (s.dict.ws.toList.getD (i - 0x1020) {}) sub
  else if 0x4020 ≤ i ∧ i < 0x402A then
    match sub with
    | 1 => s.reg4 (RTC.MC_CNT (i - 0x4020))
    | 2 => s.reg4 (RTC.MC_CTRL (i - 0x4020))
    | _ => leBytes 1 (b2n (s.bit RTC.MC_STAT_EXP (i - 0x4020)))
  else s.sysVal i sub

/-- A read of an object: its status, its value, and the state (a challenge is fresh at each read, R290). -/
def State.objRead (s : State) (i sub : Nat) : Nat × List Byte × State :=
  if i = 0x7030 ∧ sub = 1 then
    let (s, c) := s.newChallenge
    (0, c, s)
  else if (i = 0x7010 ∧ sub = 2 ∧ s.sc.attStatus ≠ 2) ∨ (i = 0x5001 ∧ sub ≠ 1 ∧ s.selRecord = none) ∨
      (i = 0x7040 ∧ sub = 3 ∧ s.log.entries.length ≤ s.log.sel) then (Abort.state, [], s)
  else (0, s.objVal i sub, s)

/-! ### Checks of a value (R176, R180, R182) -/

/-- The value puts no field of a register outside its legal values (R15). -/
def legalAt (a v : Nat) : Bool :=
  (fieldsAt a).all fun f => (f.acc != .rw && f.acc != .rwl) || f.legal.ok (bits v f.hi f.lo)

/-- The object's own range; a list entry names a snappable object (R185). -/
def rangeAbort (i sub x : Nat) : Nat :=
  let need (b : Bool) : Nat := if b then 0 else Abort.range
  if 0x2000 ≤ i ∧ i < 0x2A00 then
    match i % 0x100, sub with
    | 0x01, _ => need (decide (x ≤ 1))
    | 0x40, 1 => need (decide (x ≤ 383))
    | 0x40, 3 => need (decide (x ≤ 0x1FF))
    | 0x40, 6 => need (x == 1 || x == 4)
    | 0x41, 2 => need (x == 2 || x == 3)
    | 0x50, 3 => need (x == 1)
    | _, _ => 0
  else if 0x1020 ≤ i ∧ i < 0x1024 then need (sub != 8 || decide (x ≤ 63))
  else if 0x4020 ≤ i ∧ i < 0x402A then need (sub != 2 || legalAt (RTC.MC_CTRL (i - 0x4020)) x)
  else match i, sub with
  | 0x1001, 1 => need (decide (x ≤ 126))
  | 0x1001, 3 => need (legalAt RINGCTL.SLOT x)
  | 0x1001, 4 => need (decide (25 ≤ x ∧ x ≤ 1000))
  | 0x1001, 5 => need (legalAt RINGCTL.ACYC x)
  | 0x1010, 1 => need (x == 0x0A5C)
  | 0x1010, 2 => need (x == 0x5A17)
  | 0x1010, 3 => need (x == 0xD0F0)
  | 0x1030, 1 => need (decide (x ≤ 32))
  | 0x1030, _ => if snappable (bits x 31 16) (bits x 15 8) then 0 else Abort.notSnappable
  | 0x1031, 8 => need (decide (1 ≤ x ∧ x ≤ 126))
  | 0x4000, 2 => need (decide (x ≤ lastSecond))
  | 0x4000, 4 => need (shiftOk (sgn 32 x))
  | 0x4000, 5 => need (decide (x ≤ 1))
  | 0x6000, 3 => need (legalAt TOUCH.THRESH x)
  | 0x6000, 5 => need (decide (x ≤ 63) || x == 0xFF)
  | 0x7040, 5 => need (x == 1 || x == 2)
  | 0x7050, 1 => need (decide (1 ≤ x ∧ x ≤ 4))
  | 0x7050, 7 => need (x == 1)
  | _, _ => 0

/-- Type, length and range of a value (R169, R176, R180). -/
def valueAbort (o : Obj) (i sub : Nat) (d : List Byte) : Nat :=
  if o.typ.scalar then if d.length = o.typ.size then rangeAbort i sub (leNat d) else Abort.badLength
  else if i = 0x7010 ∧ sub = 1 ∧ d.length ≠ 32 then Abort.range
  else if o.typ.size < d.length then Abort.badLength
  else 0

/-- The state rules of an object's owner (R182, R331, R338 and the table under R331). -/
def State.stateAbort (s : State) (i sub : Nat) (d : List Byte) : Nat :=
  if i = 0x7051 then
    if sub = 3 ∧ s.lifeCycle ≠ 1 ∧ !(s.bootCfg.keyHash.all (· == 0xFF)) then Abort.access
    else if !s.regNormal then Abort.state
    else 0
  else if i = 0x7050 ∧ sub = 6 then s.activateCheck (leNat d)
  else 0

/-! ### Writes -/

/-- RTC.CTRL.DISC_EN written (R247). -/
def State.writeDiscEn (s : State) (v : Nat) : State := (s.set RTC.CTRL_DISC_EN v).showDisc

/-- An object of a lane takes a value (R81, R105, R117). -/
def State.setLaneObj (s : State) (n : Fin 10) (g sub x : Nat) : State :=
  match g, sub with
  | 0x01, _ => if x = 1 then s.landEnable n else s.disableLane n
  | 0x40, 1 => s.schedOf n fun q => { q with loadOffset := x }
  | 0x40, 3 => s.set (SCHEDLD.L_LOADCFG_COUNT n) x
  | 0x40, 4 => s.set (SCHEDLD.L_LOADCFG_GEN n) x
  | 0x40, 5 => s.set (SCHEDLD.L_BANKCRC_CRC n) x
  | 0x40, 6 => s.loader n (if x = 1 then .verify else .invalidate) true
  | 0x41, 1 => (s.set (SCHEDLD.L_SWT_LO_S_LO n) (x % 2 ^ 32)).set (SCHEDLD.L_SWT_HI_S_HI n) (x / 2 ^ 32 % 2 ^ 8)
  | 0x41, 2 => s.loader n (if x = 2 then .arm else .cancel) true
  | 0x50, 2 => (s.set (LANE.RES_AT_LO_RES_AT_LO n) (x % 2 ^ 32)).set (LANE.RESUME_RES_AT_HI n) (x / 2 ^ 32 % 2 ^ 8)
  | 0x50, 3 => s.resume n
  | _, _ => s

/-- FLAGS (W1C) and SEL of a write set (R184). -/
def State.setWsObj (s : State) (w : Fin 4) (sub x : Nat) : State :=
  if sub = 8 then s.setWs w { s.dict.ws[w] with sel := x }
  else s.setWs w { s.dict.ws[w] with tooLate := s.dict.ws[w].tooLate && !getBit x 0 }

/-- The calendar is staged and SET is given (R244). -/
def State.setCalendar (s : State) (x : Nat) : State :=
  let c := Cal.ofSecs x
  let s := ((s.set RTC.SET_TIME_HOUR c.hour).set RTC.SET_TIME_MIN c.min).set RTC.SET_TIME_SEC c.sec
  let s := ((s.set RTC.SET_DATE_MON c.month).set RTC.SET_DATE_DAY c.day).set RTC.SET_YEAR_YEAR c.year
  s.rtcSet

/-- A scalar object outside lanes, write sets and moisture clocks takes a value. (DEDUCED, log entry 64). -/
def State.setSysObj (s : State) (i sub x : Nat) : State :=
  match i, sub with
  | 0x1001, 1 => s.set RINGCTL.ADDR_ADDR x
  | 0x1001, 2 => s.set RINGCTL.CTRL_PRIO x
  | 0x1001, 3 => s.writeFields (fun _ => true) RINGCTL.SLOT x false
  | 0x1001, 4 => s.set RINGCTL.CYCLE_TC_US x
  | 0x1001, 5 => s.set RINGCTL.ACYC_POS x
  | 0x1010, 1 => { s with dict := { s.dict with resetPend := true, resetAt := s.tick } }
  | 0x1030, 1 => { s with dict := { s.dict with snap := { s.dict.snap with count := x } } }
  | 0x1030, k => { s with dict := { s.dict with snap := { s.dict.snap with list := s.dict.snap.list.set (k - 2) (x / 256 * 256) } } }
  | 0x1031, 8 => { s with dict := { s.dict with snap := { s.dict.snap with sel := x } } }
  | 0x3001, 2 => s.set AONCTL.WAKE_EN_EN (x % 2 ^ 10)
  | 0x4000, 2 => s.setCalendar x
  | 0x4000, 4 => s.rtcShift (sgn 32 x)
  | 0x4000, 5 => s.writeDiscEn x
  | 0x5001, 1 => { s with dict := { s.dict with keySel := x } }
  | 0x6000, 2 => ((s.set TOUCH.KEYMASK_LO_MASK (x % 2 ^ 32)).set TOUCH.KEYMASK_HI_MASK (x / 2 ^ 32)).touchSetting
  | 0x6000, 3 => (s.writeFields (fun _ => true) TOUCH.THRESH x false).touchSetting
  | 0x6000, 4 => s.set TOUCH.TRACK_HOLD_LIM x
  | 0x6000, 5 => if x = 0xFF then s.recalAll else s.recalCmd x
  | 0x7040, 2 => { s with log := { s.log with sel := x } }
  | 0x7040, 5 => if x = 1 then s.flushLog else s.clearLost
  | 0x7050, 2 => { s with dl := { s.dl with offset := x } }
  | 0x7050, 6 => s.activateAt x
  | 0x7050, 7 => s.confirm
  | 0x7051, 1 => s.writeBoot { s.bootCfg with wdogMs := x }
  | 0x7051, 2 => s.writeBoot { s.bootCfg with march := x }
  | _, _ => s

/-- A scalar object takes a value. -/
def State.setObj (s : State) (i sub x : Nat) : State :=
  if 0x2000 ≤ i ∧ i < 0x2A00 then s.setLaneObj (laneOf i) (i % 0x100) sub x
  else if 0x1020 ≤ i ∧ i < 0x1024 then s.setWsObj ⟨(i - 0x1020) % 4, by omega⟩ sub x
  else if 0x4020 ≤ i ∧ i < 0x402A then
    if sub = 1 then s.mcWrite (i - 0x4020) (bits x 27 0) else s.writeFields (fun _ => true) (RTC.MC_CTRL (i - 0x4020)) x false
  else s.setSysObj i sub x

/-- What a WRITE of a value that has passed its checks does: the request's status, none where its response waits (R287), and the
state; on trial nothing is stored (R340). `ok`: bytes programmed to flash read back right (R336). -/
def State.objWrite (s : State) (via : Via) (tid i sub : Nat) (d : List Byte) (ok : Bool) : Option Nat × State :=
  let wrap (x : Nat × State) : Option Nat × State := (some x.1, x.2)
  match i, sub with
  | 0x1010, 2 => if s.onTrial then (some Abort.state, s) else match s.storePersisted with
    | some s => (some 0, s)
    | none => (some Abort.state, s)
  | 0x1010, 3 => match s.eraseStored with
    | some s => (some 0, s)
    | none => (some Abort.state, s)
  | 0x7010, 1 => wrap (s.nonceOp d)
  | 0x7020, 2 => s.lifeCycleOp via tid d
  | 0x7020, 3 => wrap (s.ownerHashOp d)
  | 0x7030, 2 => wrap (s.unlockOp d)
  | 0x7050, 1 => match leNat d with
    | 1 => wrap s.dlBegin
    | 2 => wrap s.dlFinish
    | 3 => wrap s.dlActivate
    | _ => wrap s.dlAbort
  | 0x7050, 3 => wrap (s.dlData d ok)
  | 0x7051, 3 => (some 0, s.writeBoot { s.bootCfg with keyHash := d })
  | _, _ =>
    if 0x2000 ≤ i ∧ i < 0x2A00 ∧ i % 0x100 = 0x40 ∧ sub = 2 then
      let n := laneOf i
      if s.loadAbort n d ≠ 0 then (some (s.loadAbort n d), s) else (some 0, s.loadData n d)
    else (some 0, s.setObj i sub (if low40 i sub then leNat d % 2 ^ 40 else leNat d))

end Sys2Proof.Machine
end

