-- ==== Sys2Proof/Machine/PinEngine.lean ====
section
/-!
DEFINITION. The pin engines' commands (06_pin_engines.md): the ten instructions, waiting and completion, start and stop, the
program store, injection, the FIFOs and the synchronous start.
-/
namespace Sys2Proof.Machine

/-! ### When an instruction acts -/

/-- The tick the current instruction acts in has come (R122, R124, R125). -/
def State.peTime (s : State) (n : Fin 10) (w : Nat) : Bool :=
  match peTmode w with
  | 0 | 3 => s.atBoundary n && !s.byOver n w
  | _ => match s.engines[n].inst with
    | some t => s.due t
    | none => true

/-- What timing does when an AT, AT_KEEP or NOW instruction acts (R124 to R126): LATE where it was past or a step has carried
MT past its instant, and BASE := A after AT. -/
def State.peTimed (s : State) (n : Fin 10) (w : Nat) : State :=
  match peTmode w with
  | 0 | 3 => s
  | tm =>
    let e := s.engines[n]
    let passed := match e.inst with
      | some t => decide (t + 4 ≤ s.mt)
      | none => false
    let s := if e.late || passed then s.peLate n else s
    if tm = 1 && !e.stale then s.setBase n (s.peInstant n w) else s

/-- What the board drives on the 60 lane balls, as the command gives it: their levels in bits 59:0, and which of them it drives in bits
119:60. (DESIGN CHOICE, log entry 48). -/
def State.withBalls (s : State) (balls : Nat) : State :=
  { s with balls := balls % 2 ^ 60, drives := { s.drives with board := balls / 2 ^ 60 % 2 ^ 60 } }

/-! ### What the instructions do (R128) -/

/-- How far into the present tick the instant of an action lies: 0 where it has none or is late (R124, R125). -/
def State.edgeOf (s : State) (inst : Option Nat) : Nat :=
  match inst with
  | some t => if t < s.mt + 4 then t - s.mt else 0
  | none => 0

/-- ACT: each pin of MASK that is an output and drives its ball takes its level of VAL, `ns` ns into the tick (R124, R128). -/
def State.act (s : State) (n : Fin 10) (w ns : Nat) : State :=
  let set := (List.range 6).filter fun j => getBit (peMask w) j && s.pinDrives n j
  s.eng n fun e =>
    let first := e.edgeTick != some s.tick
    { e with
      stored := set.foldl (fun v j => Machine.setBit v j (getBit (peVal w) j)) e.stored
      edgeTick := some s.tick, edgeOld := if first then e.stored else e.edgeOld
      edgeNs := (List.range 6).map fun j => if set.contains j then ns else if first then 0 else e.edgeNs.getD j 0 }

/-- The six pin levels L. -/
def State.pins (s : State) (n : Fin 10) : Nat :=
  (List.range 6).foldl (fun v j => v + b2n (s.pinLevel n j) * 2 ^ j) 0

/-- SAMPLE: C says whether the masked levels equal EXP, and the levels go into CAPW. -/
def State.sample (s : State) (n : Fin 10) (w : Nat) : State :=
  let l := s.pins n
  (s.setF (PINENG.E_STAT_C n) (((l ^^^ peVal w) &&& peMask w) == 0)).eng n fun e =>
    { e with capw := (e.capw * 64 + l) % 2 ^ 32 }

/-- EVT: the producers of MASK pulse for one tick; IRQ sets IRQ_STAT.EVT. -/
def State.evt (s : State) (n : Fin 10) (w : Nat) : State :=
  let s := (List.range 4).foldl (fun s j => if getBit (peEvtMask w) j then s.pulse (0x40 + 4 * n + j) 1 else s) s
  if peIrq w then s.setBit PINENG.IRQ_STAT_EVT n true else s

/-- The word PUSH takes from SRC. -/
def State.pushWord (s : State) (n : Fin 10) (w : Nat) : Nat :=
  match peSrc w with
  | 0 => s.engines[n].capw
  | 1 => s.get (PINENG.E_X_X n)
  | 2 => s.get (PINENG.E_Y_Y n)
  | _ => s.get (PINENG.E_BASE_BASE n)

/-- A PUSH to LANEn.PE_POS: the lane sees it from the next tick on (R134). -/
def State.putPos (s : State) (n : Fin 10) (x : Nat) : State :=
  let old := s.get (LANE.PE_POS_PE_POS n)
  (s.set (LANE.PE_POS_PE_POS n) x).eng n fun e =>
    { e with posTick := s.tick, posPrev := if e.posTick = s.tick then e.posPrev else old }

/-- PUSH as it completes: into the RX FIFO, into LANEn.PE_POS, or both; CAPW is emptied. (DEDUCED, log entry 42). -/
def State.push (s : State) (n : Fin 10) (w : Nat) : State :=
  let x := s.pushWord n w
  let s := if peDest w = 1 ∨ peDest w = 2 then s.putPos n x else s
  let s := if peSrc w = 0 then s.eng n fun e => { e with capw := 0 } else s
  if peDest w = 1 then s.set (PINENG.E_STAT_C n) 1 else s.pushRx n x

/-- The word PULL takes from SRC: none where no word is available. -/
def State.pullWord (s : State) (n : Fin 10) (w : Nat) : Option Nat :=
  let e := s.engines[n]
  match peSrc w with
  | 0 => s.txHead n
  | 1 => match e.slot with
    | some k => if e.slotLeft = 0 then none else some (s.mem? (slotAddr n k + 4 * e.slotNext) 4)
    | none => none
  | _ => some (s.mem? (0x2403FC00 + 4 * (s.get (PINENG.E_Y_Y n) % 256)) 4)

/-- PULL as it completes: DEST takes the word and C := 1; with no word DEST is unchanged and C := 0. -/
def State.pull (s : State) (n : Fin 10) (w : Nat) : State :=
  match s.pullWord n w with
  | none => s.set (PINENG.E_STAT_C n) 0
  | some x =>
    let s := match peSrc w with
      | 0 => ((s.eng n fun e => { e with tx := e.tx.tail }).peLevels n).txRemoved n
      | 1 => s.eng n fun e => { e with slotNext := e.slotNext + 1, slotLeft := e.slotLeft - 1 }
      | _ => s
    let s := match peDest w with
      | 0 => s.eng n fun e => { e with emtw := x }
      | 1 => s.set (PINENG.E_X_X n) x
      | _ => s.set (PINENG.E_Y_Y n) x
    s.set (PINENG.E_STAT_C n) 1

/-- A jump's condition (R128). -/
def State.jmpCond (s : State) (n : Fin 10) (w : Nat) : Bool :=
  match peJcond w with
  | 0 => true
  | 1 => s.on (PINENG.E_STAT_C n)
  | 2 => !s.on (PINENG.E_STAT_C n)
  | 3 => s.get (PINENG.E_X_X n) == 0
  | 4 => s.get (PINENG.E_X_X n) != 0
  | 5 => s.on (PINENG.E_STAT_TO n)
  | _ => !s.on (PINENG.E_STAT_TO n)

/-- The level of WAITPIN's source (R128); a channel is seen two ticks after its output (R310). -/
def State.waitLevel (s : State) (n : Fin 10) (w : Nat) : Bool :=
  match peSrc w with
  | 0 => s.pinLevel n (peIdx w)
  | 1 => getBit s.ev.chan2 (peIdx w)
  | _ => match peIdx w with
    | 0 => s.get (LANE.STAT_LSTATE n) == 4
    | 1 => s.get (LANE.STAT_LSTATE n) == 3
    | i => s.pulsing (0x18 + 4 * n + (i - 2))

/-- The engine is executing a SHIFT. -/
def State.shifting (s : State) (n : Fin 10) : Bool :=
  match s.engines[n].wait with
  | .shift _ => true
  | _ => false

/-- The engine waits at its current instruction. -/
def State.peWait (s : State) (n : Fin 10) (x : EWait) : State :=
  (s.set (PINENG.E_STAT_WAIT n) 1).eng n fun e => { e with wait := x }

/-! ### Injection (R135) -/

/-- The injected instruction's own effect; an injected PUSH or PULL never stalls. (DEDUCED, log entry 47). -/
def State.injected (s : State) (n : Fin 10) (i : Inject) : State :=
  match peOp i.word with
  | 0 => s.act n i.word (s.edgeOf i.inst)
  | 1 => s.sample n i.word
  | 8 => s.evt n i.word
  | 4 => s.push n i.word
  | _ => s.pull n i.word

/-- The injected instruction in the present tick (R135): an AT_KEEP instruction in the tick of its instant, a past one at the next step
boundary, a NOW instruction at a step boundary between the program's instructions and after any SHIFT. A SAMPLE whose instant falls in
a receiving SHIFT waits for the end of it and is late. (DEDUCED, log entry 47). -/
def State.injectStep (s : State) (n : Fin 10) : State :=
  match s.engines[n].inj with
  | none => s
  | some i =>
    let now := i.inst.isNone && !i.past
    let sampling := peOp i.word == 1 && peDirIn (s.peWord n)
    let held := s.shifting n && (now || sampling)
    let clear := decide (s.engines[n].next ≤ s.tick)
    let ready := s.domOn .lane && match i.inst with
      | some t => s.due t && (!i.past || clear)
      | none => s.atBoundary n && (i.past || clear)
    if !ready then s
    else if held then
      if now then s
      else s.eng n fun e => { e with inj := some { i with past := true, inst := some (i.inst.getD s.mt) } }
    else
      let passed := match i.inst with
        | some t => decide (t + 4 ≤ s.mt)
        | none => false
      let s := if i.past || passed then s.peLate n else s
      let s := (s.injected n i).set (PINENG.E_FIFO_STAT_INJ_PEND n) 0
      s.eng n fun e => { e with inj := none }

/-! ### The instructions -/

/-- One instruction of the program: the engine is RUNNING, the instruction at PC is current, has not begun, and its opcode is
`op`, and its tick has come. Otherwise nothing happens. An injected instruction of the same tick acts first (R135). -/
def State.peRun (s : State) (n : Fin 10) (op : Nat) (k : Nat → State → State) : State :=
  if s.get (PINENG.E_STAT_ESTATE n) ≠ 2 || s.engines[n].wait != .fresh || !s.engines[n].cur || !s.domOn .lane then s
  else
    let w := s.peWord n
    if peOp w = op && s.peTime n w then k w ((s.injectStep n).peTimed n w) else s

/-- ACT (R128). -/
def execAct (n : Fin 10) (s : State) : Ans :=
  .next (s.peRun n 0 fun w s => (s.act n w (s.edgeOf s.engines[n].inst)).peDone n (s.peNext n))

/-- SAMPLE (R128). -/
def execSample (n : Fin 10) (balls : Nat) (s : State) : Ans :=
  .next ((s.withBalls balls).peRun n 1 fun w s => (s.sample n w).peDone n (s.peNext n))

/-- WAITPIN (R128): the wait begins; a BY wait that was classified past is abandoned at once (R125). -/
def execWaitpin (n : Fin 10) (balls : Nat) (s : State) : Ans :=
  .next ((s.withBalls balls).peRun n 2 fun w s => s.peWait n (.pin s.tick (s.waitLevel n w)))

/-- Whether WAITPIN's condition holds (R128): a level from the first tick on, an edge from the tick after the wait began. -/
def waitHolds (w : Nat) (now prev : Bool) (later : Bool) : Bool :=
  match peCond w with
  | 0 => !now
  | 1 => now
  | 2 => later && now && !prev
  | _ => later && !now && prev

/-- WAITPIN_COMPLETE (R124, R128): the condition holds in this tick; an edge compares with the level of the previous tick. -/
def execWaitpinComplete (n : Fin 10) (balls : Nat) (s : State) : Ans :=
  let s := s.withBalls balls
  match s.engines[n].wait with
  | .pin t prev =>
    let w := s.peWord n
    if waitHolds w (s.waitLevel n w) prev (decide (t < s.tick)) && !s.byOver n w && s.domOn .lane then
      let s := (s.injectStep n).byDone n w
      let s := if peStamp w then s.pushRx n (s.mt % 2 ^ 32) else s
      .next (s.peDone n (s.peNext n))
    else .next s
  | _ => .next s

/-- The end of a tick: a waiting WAITPIN remembers the level for the edges of the next (R128). -/
def State.noteWaits (s : State) : State :=
  s.forLanes fun n s => match s.engines[n].wait with
    | .pin t _ => s.eng n fun e => { e with wait := .pin t (s.waitLevel n (s.peWord n)) }
    | _ => s

/-- SHIFT (R122, R128): the shift begins; one at a stated instant sets the step reference. -/
def execShift (n : Fin 10) (s : State) : Ans :=
  .next (s.peRun n 3 fun w s =>
    let s := if peTmode w = 0 then s else s.eng n fun e => { e with stepRef := s.tick }
    (s.set (PINENG.E_STAT_WAIT n) 0).eng n fun e => { e with wait := .shift s.tick, mids := [] })

/-- One bit shifted out or in (R128): the words CAPW and EMTW and the level of PIN_D. -/
def shiftBit (msbf dirIn : Bool) (b : Bool) (e : EngSt) (pinD : Nat) : EngSt :=
  if dirIn then
    { e with capw := if msbf then (e.capw * 2 + b2n b) % 2 ^ 32 else e.capw / 2 + b2n b * 2 ^ 31 }
  else
    let o := if msbf then getBit e.emtw 31 else getBit e.emtw 0
    { e with emtw := if msbf then e.emtw * 2 % 2 ^ 32 else e.emtw / 2, stored := Machine.setBit e.stored pinD o }

/-- The engine after the first `cnt` bits of its SHIFT (R128), `din` giving the bits received. -/
def State.shifted (s : State) (n : Fin 10) (cnt : Nat) (din : Nat → Bool) : EngSt :=
  let w := s.peWord n
  (List.range cnt).foldl (fun e i => shiftBit (s.on (PINENG.E_CTRL_MSBF n)) (peDirIn w) (din i) e (pePinD w)) s.engines[n]

/-- The bit received at mid-bit `i` (R118, R120): what the device settled itself, else the board's level as the command gives it. -/
def State.dinBit (s : State) (n : Fin 10) (din i : Nat) : Bool :=
  if 60 ≤ s.pinBall n (pePinD (s.peWord n)) then false
  else match s.engines[n].mids[i]? with
    | some (v, true) => v
    | _ => getBit din i

/-- SHIFT_COMPLETE (R122, R128): the last tick of the last bit period; `din` holds the levels that the board gave PIN_D at mid-bit, the
first in bit 0. PIN_D keeps the last bit sent; PIN_C is high to the end of the tick and then goes low. -/
def execShiftComplete (n : Fin 10) (din : Nat) (s : State) : Ans :=
  match s.engines[n].wait with
  | .shift t =>
    let w := s.peWord n
    if s.tick + 1 < t + peCnt w * 2 * s.peDiv n || !s.domOn .lane then .next s
    else
      let s := s.injectStep n
      let drives := s.pinDrives n (pePinD w)
      let e0 := s.engines[n]
      let e := s.shifted n (peCnt w) (s.dinBit n din)
      let st := if drives || peDirIn w then e.stored else e0.stored
      let clk := decide (pePinC w ≤ 5) && s.pinDrives n (pePinC w)
      let st := if clk then Machine.setBit st (pePinC w) true else st
      let s := s.eng n fun _ => { e with stored := st, clkEnd := if clk then some (pePinC w) else none, mids := [] }
      .next (s.peDone n (s.peNext n))
  | _ => .next s

/-- A SHIFT that is cut off leaves the bits already shifted in CAPW and EMTW (R128). -/
def State.cutShift (s : State) (n : Fin 10) : State :=
  match s.engines[n].wait with
  | .shift t =>
    let w := s.peWord n
    let e0 := s.engines[n]
    let k := if peDirIn w then e0.mids.length else min (peCnt w) ((s.tick - t) / (2 * s.peDiv n) + 1)
    let e := s.shifted n k fun i => ((e0.mids[i]?).map Prod.fst).getD false
    s.eng n fun _ => { e0 with capw := e.capw, emtw := e.emtw, mids := [] }
  | _ => s

/-- PUSH (R128): a full RX FIFO makes a PUSH with STALL = 1 wait. -/
def execPush (n : Fin 10) (s : State) : Ans :=
  .next (s.peRun n 4 fun w s =>
    if peDest w ≠ 1 && peStall w && decide (8 ≤ s.engines[n].rx.length) then s.peWait n .push
    else ((s.push n w).byDone n w).peDone n (s.peNext n))

/-- PUSH_STALL_END (R128): a word has been read, so the stalled PUSH completes. -/
def execPushStallEnd (n : Fin 10) (s : State) : Ans :=
  let w := s.peWord n
  if s.engines[n].wait == .push && decide (s.engines[n].rx.length < 8) && !s.byOver n w && s.domOn .lane then
    let s := s.injectStep n
    .next (((s.push n w).byDone n w).peDone n (s.peNext n))
  else .next s

/-- PULL (R128): an empty TX FIFO makes a PULL with SRC 0 and STALL = 1 wait. -/
def execPull (n : Fin 10) (s : State) : Ans :=
  .next (s.peRun n 5 fun w s =>
    if peSrc w = 0 && peStall w && (s.txHead n).isNone then s.peWait n .pull
    else ((s.pull n w).byDone n w).peDone n (s.peNext n))

/-- PULL_STALL_END (R128): a word has been written, so the stalled PULL completes. -/
def execPullStallEnd (n : Fin 10) (s : State) : Ans :=
  let w := s.peWord n
  if s.engines[n].wait == .pull && (s.txHead n).isSome && !s.byOver n w && s.domOn .lane then
    let s := s.injectStep n
    .next (((s.pull n w).byDone n w).peDone n (s.peNext n))
  else .next s

/-- JMP (R128). -/
def execJmp (n : Fin 10) (s : State) : Ans :=
  .next (s.peRun n 6 fun w s => s.peDone n (if s.jmpCond n w then peAddr w else s.peNext n))

/-- DJNZ (R128): X or Y counts down, and the engine jumps while the result is not 0. -/
def execDjnz (n : Fin 10) (s : State) : Ans :=
  .next (s.peRun n 7 fun w s =>
    let r := if peReg w then PINENG.E_Y_Y n else PINENG.E_X_X n
    let v := (s.get r + 2 ^ 32 - 1) % 2 ^ 32
    (s.set r v).peDone n (if v = 0 then s.peNext n else peAddr w))

/-- EVT (R128). -/
def execEvt (n : Fin 10) (s : State) : Ans :=
  .next (s.peRun n 8 fun w s => (s.evt n w).peDone n (s.peNext n))

/-- SYNC (R128, R131): the engine waits for a synchronous start, or takes a pending slot at once. -/
def execSync (n : Fin 10) (s : State) : Ans :=
  .next (s.peRun n 9 fun _ s => (s.peWait n .sync).syncTake n)

/-- BY_DEADLINE_TIMEOUT (R124, R125): the tick of the deadline of a BY instruction that has not completed: TO := 1 and
BASE := A; a deadline that was past is late. One that a forward step of MT carries past does not set LATE: the model's choice.
(DESIGN CHOICE, log entry 44). -/
def execByDeadlineTimeout (n : Fin 10) (s : State) : Ans :=
  let w := s.peWord n
  if s.get (PINENG.E_STAT_ESTATE n) ≠ 2 || !s.engines[n].cur || peTmode w ≠ 3 || !s.domOn .lane then .next s
  else match s.engines[n].inst with
  | none => .next s
  | some t =>
    if !s.due t then .next s
    else
      let a := s.peInstant n w
      let e := s.engines[n]
      let s := s.injectStep n
      let s := if e.late then s.peLate n else s
      let s := s.set (PINENG.E_STAT_TO n) 1
      let s := if e.stale then s else s.setBase n a
      .next (s.peDone n (s.peNext n))

/-- BASE_STALE (R126): the tick that contains BASE + 2^30 ns. -/
def execBaseStale (n : Fin 10) (s : State) : Ans :=
  if s.due s.engines[n].staleAt && s.domOn .lane then .next (s.set (PINENG.E_STAT_STALE n) 1) else .next s

/-! ### Start, stop and the store -/

/-- The engine is STOPPED or in ERROR, so that its guarded fields accept writes (R121). -/
def State.peIdle (s : State) (n : Nat) : Bool :=
  s.get (PINENG.E_STAT_ESTATE n) == 0 || s.get (PINENG.E_STAT_ESTATE n) == 3

/-- En_CTRL's fields but EN (R121): TSCALE and MSBF only while the engine is STOPPED or in ERROR. -/
def State.peCtrl (s : State) (n : Fin 10) (v : Nat) : State :=
  let s := s.set (PINENG.E_CTRL_ARM n) (bits v 30 30)
  if s.peIdle n then
    (s.setLegal (PINENG.E_CTRL_TSCALE n) (.range 0 16) (bits v 20 16)).set (PINENG.E_CTRL_MSBF n) (bits v 0 0)
  else if (decide (bits v 20 16 ≤ 16) && bits v 20 16 != s.get (PINENG.E_CTRL_TSCALE n)) ||
      bits v 0 0 != s.get (PINENG.E_CTRL_MSBF n) then s.set (PINENG.E_STAT_WR_IGN n) 1
  else s

/-- The engine starts RUNNING (R121) with `base` and step reference `ref`. A slot released before an ERROR stays held (R132), and PULL
SRC 1 takes no more of its words: the model's choice. (DESIGN CHOICE, log entry 44). -/
def State.peStart (s : State) (n : Fin 10) (base ref : Nat) : State :=
  let s := (s.set (PINENG.E_STAT_ESTATE n) 2).set (PINENG.E_STAT_ERR_CODE n) 0
  let s := (s.set (PINENG.E_STAT_C n) 0).set (PINENG.E_STAT_TO n) 0
  let s := s.eng n fun e => { e with capw := 0, emtw := 0, stepRef := ref, next := ref, slotLeft := 0 }
  (((s.setBase n base).set (PINENG.E_STAT_PC n) (s.get (PINENG.E_RANGE_START n))).peFresh n).peBegin n

/-- ENGINE_START (R121): En_CTRL written with EN = 1 and ARM = 0. -/
def execEngineStart (n : Fin 10) (v : Word) (s : State) : Ans :=
  s.busDo (PINENG.E_CTRL n) fun s =>
    let idle := s.peIdle n
    let s := ((s.peCtrl n v.toNat).set (PINENG.E_CTRL_ARM n) 0).set (PINENG.E_CTRL_EN n) 1
    if idle then s.peStart n (s.mt % 2 ^ 32) s.tick else s

/-- ENGINE_ARM (R121): En_CTRL written with EN = 1 and ARM = 1. -/
def execEngineArm (n : Fin 10) (v : Word) (s : State) : Ans :=
  s.busDo (PINENG.E_CTRL n) fun s =>
    let idle := s.peIdle n
    let s := ((s.peCtrl n v.toNat).set (PINENG.E_CTRL_ARM n) 1).set (PINENG.E_CTRL_EN n) 1
    if idle then
      (((s.set (PINENG.E_STAT_ESTATE n) 1).set (PINENG.E_STAT_ERR_CODE n) 0).peFresh n).eng n fun e =>
        { e with stored := s.get (PINENG.E_PINCFG_INIT n), clkEnd := none }
    else s

/-- ENGINE_STOP (R121): En_CTRL written with EN = 0. -/
def execEngineStop (n : Fin 10) (v : Word) (s : State) : Ans :=
  s.busDo (PINENG.E_CTRL n) fun s =>
    let s := ((s.peCtrl n v.toNat).set (PINENG.E_CTRL_EN n) 0).cutShift n
    let s := (s.set (PINENG.E_STAT_ESTATE n) 0).set (PINENG.E_FIFO_STAT_SLOT_PEND n) 0
    let s := (s.set (PINENG.E_FIFO_STAT_INJ_PEND n) 0).peFresh n
    (s.eng n fun e => { e with
      tx := [], rx := [], txLost := none, rxLost := none, trigs := [], inj := none, slot := none
      stored := s.get (PINENG.E_PINCFG_INIT n), clkEnd := none }).peLevels n

/-- Some RUNNING or ARMED engine's range holds word `w` (R130). -/
def State.storeBusy (s : State) (w : Nat) : Bool :=
  (List.finRange 10).any fun n =>
    (s.get (PINENG.E_STAT_ESTATE n) == 2 || s.get (PINENG.E_STAT_ESTATE n) == 1) &&
    decide (s.get (PINENG.E_RANGE_START n) ≤ w) && decide (w ≤ s.get (PINENG.E_RANGE_END n))

/-- PROGRAM_STORE_WRITE (R130): a bus write to word `w` of the store. -/
def execProgramStoreWrite (w : Fin 512) (v : Word) (s : State) : Ans :=
  if !s.accessible PINENG.SS_CTRL || s.storeBusy w then .next { s with bus := .error }
  else .next { s.pokeWord (0x50100800 + 4 * w) v.toNat with bus := .ok 0 }

/-! ### The injection slot (R135) -/

/-- The injection slot accepts the word: ACT, SAMPLE and EVT with NOW or AT_KEEP, PUSH and PULL with NOW. -/
def injectOk (w : Nat) (idle : Bool) : Bool :=
  peFieldsOk w &&
  match peOp w with
  | 0 | 1 | 8 => peTmode w == 0 || (peTmode w == 2 && !idle)
  | 4 | 5 => peTmode w == 0
  | _ => false

/-- INJECT (R135): a write to En_INJECT. -/
def execInject (n : Fin 10) (v : Word) (s : State) : Ans :=
  s.busDo (PINENG.E_INJECT n) fun s =>
    let w := v.toNat
    if s.on (PINENG.E_FIFO_STAT_INJ_PEND n) then s.set (PINENG.E_STAT_INJ_BUSY n) 1
    else if !injectOk w (s.peIdle n) then s.set (PINENG.E_STAT_INJ_REJ n) 1
    else
      let i : Inject :=
        if peTmode w = 0 then ⟨w, none, false⟩
        else match s.class32 (s.peInstant n w) with
          | some t => ⟨w, some t, false⟩
          | none => ⟨w, none, true⟩
      (s.set (PINENG.E_FIFO_STAT_INJ_PEND n) 1).eng n fun e => { e with inj := some i }

/-- INJECTED_EXECUTE (R135): the injected instruction acts where its tick has come. (DEDUCED, log entry 47). -/
def execInjectedExecute (n : Fin 10) (balls : Nat) (s : State) : Ans := .next ((s.withBalls balls).injectStep n)

/-! ### FIFOs seen from the bus (R133) -/

/-- TXFIFO_WRITE (R133). (DEDUCED, log entry 42). -/
def execTxfifoWrite (n : Fin 10) (v : Word) (s : State) : Ans :=
  s.busDo (PINENG.E_TXFIFO n) fun s =>
    if 8 ≤ s.engines[n].tx.length then (s.txMiss n v.toNat).set (PINENG.E_STAT_TX_OVR n) 1
    else (s.eng n fun e => { e with tx := e.tx ++ [(s.tick, v.toNat)] }).peLevels n

/-- RXFIFO_READ (R133): the oldest word, or 0 and RX_UNDER where none was there before the present tick.
(DEDUCED, log entry 42). -/
def execRxfifoRead (n : Fin 10) (s : State) : Ans :=
  if !s.accessible (PINENG.E_RXFIFO n) then .next { s with bus := .error }
  else match s.engines[n].rx.find? fun x => decide (x.1 < s.tick) with
  | none => .next { s.set (PINENG.E_STAT_RX_UNDER n) 1 with bus := .ok 0 }
  | some x => .next { (((s.eng n fun e => { e with rx := e.rx.erase x }).peLevels n).rxRemoved n) with bus := .ok x.2 }

/-! ### Synchronous start (R136, R137) -/

/-- GO (R136): the start is armed, or LATE is set; a GO that arms nothing leaves an armed start as it was.
(DEDUCED, log entry 45). -/
def State.ssGo (s : State) : State :=
  let mask := s.get PINENG.SS_CTRL_MASK
  if mask = 0 || (!s.on PINENG.SS_CTRL_START && !s.on PINENG.SS_CTRL_CLKRST) then s
  else match s.class32 (s.get PINENG.SS_AT_AT) with
  | none => s.set PINENG.SS_STAT_LATE 1
  | some t =>
    if t = s.mt then s.set PINENG.SS_STAT_LATE 1
    else { s.set PINENG.SS_STAT_ARMED 1 with
      ss := ⟨t, mask, s.on PINENG.SS_CTRL_START, s.on PINENG.SS_CTRL_CLKRST⟩ }

/-- CANCEL (R137). (DEDUCED, log entry 45). -/
def State.ssCancel (s : State) : State :=
  if s.on PINENG.SS_STAT_ARMED && !s.due s.ss.inst then s.set PINENG.SS_STAT_ARMED 0
  else s.set PINENG.SS_STAT_TOO_LATE 1

/-- SS_GO (R136): SS_CTRL written with GO = 1; a CANCEL in the same write comes after it. -/
def execSsGo (v : Word) (s : State) : Ans :=
  s.busDo PINENG.SS_CTRL fun s =>
    let s := (s.writeFields (fun f => !f.row) PINENG.SS_CTRL v.toNat false).ssGo
    if getBit v.toNat 30 then s.ssCancel else s
/-- SS_CANCEL (R137): SS_CTRL written with CANCEL = 1. -/
def execSsCancel (s : State) : Ans := s.busDo PINENG.SS_CTRL fun s => s.ssCancel

/-- The engine's current instruction is a SYNC with SRC 0, also one that became current in this tick (R136). -/
def State.atSync (s : State) (n : Fin 10) : Bool :=
  let w := s.peWord n
  let e := s.engines[n]
  s.get (PINENG.E_STAT_ESTATE n) == 2 && e.cur && (e.wait == .sync || (e.wait == .fresh && peOp w == 9)) && peSrc w == 0 &&
    !s.byOver n w

/-- What the instant does to one engine of MASK (R136): the clock restart, then the start or the release. -/
def State.ssEngine (s : State) (n : Fin 10) : State :=
  let s := if !s.ss.clkrst then s
    else if s.shifting n then s.setBit PINENG.SS_STAT_CRMISS n true
    else (s.eng n fun e => { e with stepRef := s.tick }).peBegin n
  if !s.ss.start then s
  else if s.get (PINENG.E_STAT_ESTATE n) = 1 then s.peStart n (s.ss.inst % 2 ^ 32) s.tick
  else if s.atSync n then ((s.byDone n (s.peWord n)).setBase n s.ss.inst).peDone n (s.peNext n)
  else s.setBit PINENG.SS_STAT_MISS n true

/-- SYNC_START_INSTANT (R136): the tick that contains the armed instant. -/
def execSyncStartInstant (s : State) : Ans :=
  if !(s.on PINENG.SS_STAT_ARMED && s.due s.ss.inst && s.domOn .lane) then .next s
  else
    let s := s.forLanes fun n s => if getBit s.ss.mask n then s.ssEngine n else s
    .next (((s.set PINENG.SS_STAT_ARMED 0).set PINENG.SS_STAT_DONE 1).set PINENG.IRQ_STAT_SS_DONE 1)

end Sys2Proof.Machine
end

