-- ==== Sys2Proof/Machine/Uart.lean ====
section
/-!
DEFINITION. UART0 and UART1 (15_events_serial.md, R316 to R323): characters received and sent, tags, address match and mute, the
driver enable, and UART0's dictionary envelopes.
-/
namespace Sys2Proof.Machine

/-! ### Shared operations -/

/-- A UART's state, and its state replaced. -/
def State.uart (s : State) (n : Fin 2) : UartSt := if n = 0 then s.uart0 else s.uart1
def State.setUart (s : State) (n : Fin 2) (f : UartSt → UartSt) : State :=
  if n = 0 then { s with uart0 := f s.uart0 } else { s with uart1 := f s.uart1 }

/-- The UART runs: PD_SYS is On and EN is 1. -/
def State.uartOn (s : State) (n : Fin 2) : Bool := s.domOn .sys && s.on (UART.CTRL_EN n)

/-- UART0 carries dictionary messages (R323). -/
def State.uartDict (s : State) (n : Fin 2) : Bool :=
  n == 0 && s.on (UART.CTRL_DICT 0) && s.domOn .link && s.on DICTENG.CTRL_EN_UART0

/-- RX_LVL and RX_THR. -/
def State.showRx (s : State) (n : Fin 2) : State :=
  let l := (s.uart n).rx.length
  let t := s.get (UART.FIFO_RX_THR n)
  (s.set (UART.FIFO_RX_LVL n) l).setF (UART.STAT_RX_THR n) (decide ((if t = 0 then 16 else t) ≤ l))

/-- TX_LVL, TX_THR and TX_DONE. -/
def State.showTxNow (s : State) (n : Fin 2) : State := s.showTx n (s.uart n).tx (s.uart n).shift.isSome

/-- The bits of a character on the line (R316): start bit, data, ninth or parity bit, and the stop bits.
(DEDUCED, log entry 101). -/
def State.charBits (s : State) (n : Fin 2) (c : Nat) : List Bool :=
  let data := (List.range 8).map (getBit c)
  let odd := data.foldl xor false
  let last := if s.on (UART.CTRL_NINE n) then [getBit c 8]
    else if s.get (UART.CTRL_PAR n) = 1 then [odd] else if s.get (UART.CTRL_PAR n) = 2 then [!odd] else []
  false :: data ++ last ++ true :: (if s.on (UART.CTRL_STOP2 n) then [true] else [])

/-- The timebase ticks that `k` sixteenths of a bit last, rounded up (R316): a bit is DIV / 16 periods of half the system clock. -/
def State.uartTicks (s : State) (n : Fin 2) (k : Nat) : Nat :=
  let d := 64 * s.get CLKGEN.STAT_SYS_MHZ
  if d = 0 then 0 else (k * s.get (UART.BAUD_DIV n) * 125 + d - 1) / d

/-- UARTn_TX `ns` ns into the present tick (R316, R321): the bits of the character that is being sent, and high between characters.
(DEDUCED, log entry 101). -/
def State.uartTxAt (s : State) (n : Fin 2) (ns : Nat) : Bool :=
  let u := s.uart n
  match u.shift with
  | none => true
  | some c =>
    let t := (4 * (s.tick - u.shiftAt) + ns) * 16 * s.get CLKGEN.STAT_SYS_MHZ
    let bit := 16 * 125 * s.get (UART.BAUD_DIV n)
    let lead := u.lead * 125 * s.get (UART.BAUD_DIV n)
    if t < lead then true else (s.charBits n c).getD ((t - lead) / bit) true

/-- The transmitter takes the next character (R321): UART1_DE goes active DE_LEAD before its start bit, or stays active.
(DEDUCED, log entry 101). -/
def State.uartLoad (s : State) (n : Fin 2) : State :=
  let u := s.uart n
  match u.shift, u.tx with
  | none, c :: t =>
    if s.uartOn n && s.on (UART.CTRL_TX_EN n) then
      let de := n == 1 && s.on (UART.CTRL_DE_EN 1)
      (s.setUart n fun u => { u with shift := some c, tx := t, de := de, lag := false, shiftAt := s.tick
                                     lead := if de && !u.de then s.get (UART.DE_TIME_DE_LEAD 1) else 0 }).showTxNow n
    else s
  | _, _ => s

/-! ### Receiving -/

/-- The tag counters of a stored character (R318). -/
def State.countTags (s : State) (n : Fin 2) (pe fe nf : Bool) : State :=
  let s := if pe then s.count (UART.PE_CNT_COUNT n) (UART.PE_CNT_OVF n) else s
  let s := if fe then s.count (UART.FE_CNT_COUNT n) (UART.FE_CNT_OVF n) else s
  if nf then s.count (UART.NF_CNT_COUNT n) (UART.NF_CNT_OVF n) else s

/-- A character with its tags goes into the RX FIFO (R318). -/
def State.takeChar (s : State) (n : Fin 2) (d : Nat) (pe fe nf : Bool) : State :=
  let e := d + 2 ^ 9 * b2n pe + 2 ^ 10 * b2n fe + 2 ^ 11 * b2n nf
  ((s.countTags n pe fe nf).setUart n fun u => { u with rx := u.rx ++ [e] }).showRx n

/-- A character into the RX FIFO (R318), or lost on an overrun. -/
def State.storeRx (s : State) (n : Fin 2) (d : Nat) (pe fe nf : Bool) : State :=
  if 16 ≤ (s.uart n).rx.length then
    let x : CharLost := ⟨s.tick, d, pe, fe, nf, s.get (UART.STAT_OVR n), s.get (UART.OVR_CNT_COUNT n), s.get (UART.OVR_CNT_OVF n)⟩
    ((s.set (UART.STAT_OVR n) 1).count (UART.OVR_CNT_COUNT n) (UART.OVR_CNT_OVF n)).setUart n fun u => { u with overrun := some x }
  else s.takeChar n d pe fe nf

/-- A read has freed an entry (R318): the character that completed in the same clock is stored after all, without an overrun. -/
def State.rxFreed (s : State) (n : Fin 2) : State :=
  match (s.uart n).overrun.filter fun x => x.tick == s.tick with
  | none => s
  | some x =>
    let s := ((s.put (UART.STAT_OVR n) x.ovr).put (UART.OVR_CNT_COUNT n) x.cnt).put (UART.OVR_CNT_OVF n) x.ovf
    (s.setUart n fun u => { u with overrun := none }).takeChar n x.d x.pe x.fe x.nf

/-- The envelope in progress is discarded (R322): ENV_ERR, and UART0 hunts for 0x7E. -/
def State.dropEnv (s : State) : State :=
  ({ s with uart0 := { s.uart0 with env := none } } : State).count (UART.ENV_ERR_COUNT 0) (UART.ENV_ERR_OVF 0)

/-- A character goes to the envelope parser (R322, R323). (DEDUCED, log entry 101). -/
def State.parseEnv (s : State) (b : Nat) (tag : Bool) : State :=
  match s.uart0.env with
  | none => if b = 0x7E ∧ tag = false then { s with uart0 := { s.uart0 with env := some [] } } else s
  | some l =>
    let l := l ++ [BitVec.ofNat 8 b]
    let len := field l 0 2
    if tag then s.dropEnv
    else if l.length < 2 then { s with uart0 := { s.uart0 with env := some l } }
    else if len < 12 ∨ 512 < len then s.dropEnv
    else if l.length < len + 4 then { s with uart0 := { s.uart0 with env := some l } }
    else match unenvelope l with
      | some m => ({ s with uart0 := { s.uart0 with env := none } } : State).acceptReq .uart0 m
      | none => s.dropEnv

/-- The time of a character of an envelope (R322). -/
def State.noteEnv (s : State) : State := { s with uart0 := { s.uart0 with envAt := s.tick } }

/-- A character with address match and mute (R320). -/
def State.matchChar (s : State) (n : Fin 2) (d : Nat) (fe nf : Bool) : State :=
  if getBit d 8 then
    if fe || nf then s.storeRx n d false fe nf
    else if ((d ^^^ s.get (UART.ADDR_ADDR n)) &&& s.get (UART.ADDR_MASK n)) = 0 then
      (s.storeRx n d false false false).set (UART.STAT_MUTED n) 0
    else s.set (UART.STAT_MUTED n) 1
  else if s.on (UART.STAT_MUTED n) then s
  else s.storeRx n d false fe nf

/-- A character that the receiver forms (R316 to R323). (DEDUCED, log entry 101). -/
def State.recvChar (s : State) (n : Fin 2) (d : Nat) (pe fe nf : Bool) : State :=
  let s := if (s.uart n).muteReq then (s.set (UART.STAT_MUTED n) 1).setUart n fun u => { u with muteReq := false } else s
  let nine := s.on (UART.CTRL_NINE n)
  let d := if nine then d % 512 else d % 256
  let pe := pe && !nine && s.get (UART.CTRL_PAR n) != 0
  if s.uartDict n then (s.countTags n pe fe nf).noteEnv.parseEnv (d % 256) (pe || fe || nf)
  else if nine && s.on (UART.CTRL_AM_EN n) then s.matchChar n d fe nf
  else s.storeRx n d pe fe nf

/-- The receiver takes characters: not while UART1_DE is active, unless RX_IN_DE is 1 (R321). -/
def State.rxOpen (s : State) (n : Fin 2) : Bool :=
  s.uartOn n && s.on (UART.CTRL_RX_EN n) && (n == 0 || !s.uart1.de || s.on (UART.CTRL_RX_IN_DE 1))

/-- A character formed (R317, R318). -/
def State.uartChar (s : State) (n : Fin 2) (d : Nat) (pe fe nf : Bool) : State :=
  (s.setUart n fun u => { u with brk := false }).recvChar n d pe fe nf

/-- The line was low through a whole character (R319): it is stored once, until the line has been high. -/
def State.uartBreak (s : State) (n : Fin 2) : State :=
  if (s.uart n).brk then s
  else ((s.setUart n fun u => { u with brk := true }).set (UART.STAT_BREAK n) 1).recvChar n 0 false true false

/-- Two of three samples are 1; and they disagree (R317). -/
def majority (x : Bool × Bool × Bool) : Bool := (x.1 && x.2.1) || (x.1 && x.2.2) || (x.2.1 && x.2.2)
def disagree (x : Bool × Bool × Bool) : Bool := x.1 != x.2.1 || x.2.1 != x.2.2

/-- What the receiver forms of its samples (R316, R317, R319). (DEDUCED, log entry 101). -/
def State.uartSamples (s : State) (n : Fin 2) (l : List (Bool × Bool × Bool)) : State :=
  let par := s.get (UART.CTRL_PAR n)
  let nine := s.on (UART.CTRL_NINE n)
  let stop := if nine || par != 0 then 10 else 9
  let l := (l ++ List.replicate 11 (true, true, true)).take (stop + 1)
  let bits := l.map majority
  if bits.headD true then s.count (UART.NF_CNT_COUNT n) (UART.NF_CNT_OVF n)
  else if l.all fun x => x == (false, false, false) then s.uartBreak n
  else
    let d := ((bits.drop 1).take (if nine then 9 else 8)).foldr (fun b x => b2n b + 2 * x) 0
    let pe := bits.take stop != (s.charBits n d).take stop
    s.uartChar n d pe (!bits.getD stop true) (l.any disagree)

/-- UART_CHAR_RECEIVED (R317 to R320): the samples of a character, a character, or a false start. -/
def execUartCharReceived (n : Fin 2) (c : RxChar) (s : State) : Ans :=
  if !s.rxOpen n then .next s
  else match c with
    | .falseStart => .next (s.count (UART.NF_CNT_COUNT n) (UART.NF_CNT_OVF n))
    | .char d pe fe nf => .next (s.uartChar n d.toNat pe fe nf)
    | .sampled l => .next (s.uartSamples n l)

/-- UART_BREAK (R319): the line is low through a whole character; it is stored once. -/
def execUartBreak (n : Fin 2) (s : State) : Ans :=
  if s.rxOpen n then .next (s.uartBreak n) else .next s

/-- UART_RX_READ (R318): a read of DATA takes the next entry; of an empty FIFO it returns 0 and sets RX_UNDER. -/
def execUartRxRead (n : Fin 2) (s : State) : Ans :=
  if !s.accessible (UART.DATA n) then .next { s with bus := .error }
  else match (s.uart n).rx with
    | [] => .next { s.set (UART.STAT_RX_UNDER n) 1 with bus := .ok 0 }
    | e :: t =>
      let s := ((s.setUart n fun u => { u with rx := t }).showRx n).rxFreed n
      .next { s with bus := .ok e }

/-- MUTE_REQ (R320): CTRL.MUTE_REQ written 1. -/
def execMuteReq (n : Fin 2) (s : State) : Ans :=
  s.busDo (UART.CTRL n) fun s => s.setUart n fun u => { u with muteReq := true }

/-- ENVELOPE_TIMEOUT (R322): more than 16 character times between two characters of an envelope on UART0. -/
def execEnvelopeTimeout (s : State) : Ans :=
  if s.uart0.env.isSome && s.domOn .sys &&
      decide (s.uart0.envAt + s.uartTicks 0 (256 * (s.charBits 0 0).length) < s.tick) then .next s.dropEnv
  else .next s

/-! ### Sending -/

/-- UART_TX_WRITE (R321, R323): a write of DATA; ignored with TX_OVR when the FIFO is full or DICTENG sends. -/
def execUartTxWrite (n : Fin 2) (v : Word) (s : State) : Ans :=
  s.busDo (UART.DATA n) fun s =>
    if s.uartDict n || decide (16 ≤ (s.uart n).tx.length) then s.set (UART.STAT_TX_OVR n) 1
    else ((s.setUart n fun u => { u with tx := u.tx ++ [v.toNat % 512] }).showTxNow n).uartLoad n

/-- UART_CHAR_SENT (R321): the character in the shift register has left; the next follows, or UART1_DE begins its lag. -/
def execUartCharSent (n : Fin 2) (s : State) : Ans :=
  let s := s.uartLoad n
  match (s.uart n).shift with
  | none => .next s
  | some c =>
    if !s.uartOn n then .next s
    else
      let d := if s.on (UART.CTRL_NINE n) then c else c % 256
      let s := (s.setUart n fun u => { u with shift := none, lag := u.de && u.tx.isEmpty, lagAt := s.tick }).emit (.uart n d)
      .next ((s.showTxNow n).uartLoad n)

/-- DE_LAG_END (R321): DE_LAG sixteenths of a bit after the last character. -/
def execDeLagEnd (s : State) : Ans :=
  if s.uart1.lag && decide (s.uart1.lagAt + s.uartTicks 1 (s.get (UART.DE_TIME_DE_LAG 1)) ≤ s.tick) then
    .next { s with uart1 := { s.uart1 with de := false, lag := false } }
  else .next s

end Sys2Proof.Machine
end

