-- ==== Sys2Proof/Machine/Bus.lean ====
section
/-!
DEFINITION. Bus accesses: a write of a register that has no command of its own (R9, R11, R13 to R15), with what single blocks
do beside taking the value; an access to a memory (R14, R33 to R44, R75, R76, R132, R254 to R259, R263); and the error
arbiters' later events (R22, R298).
-/
namespace Sys2Proof.Machine

/-! ### Locks (R11) -/

/-- The source ID under which a block reports (R295); the blocks that have none there report as the interconnect.
(DESIGN CHOICE, log entry 18). -/
def blockSrc : Block → Nat
  | .memctl => 1
  | .flashctl => 2
  | .recstore => 3
  | .uart n => 4 + n
  | .svcwire => 6
  | .evroute => 7
  | .clkgen => 8
  | .mtime => 9
  | .lane n => 16 + n
  | .adcseq => 26
  | .pineng => 27
  | .schedld => 28
  | .port n => 32 + n
  | .ringctl => 34
  | .linkq => 35
  | .dicteng => 36
  | .rtc => 40
  | .harvest => 41
  | .touch => 42
  | .vaultctl => 43
  | .aonctl => 44
  | .mbox => 52
  | .pwrctl | .rstctl | .erragg => 0

/-- The LOCK bit that governs the RWL fields of a register is 1. -/
def State.lockedAt (s : State) (b : Block) : Bool :=
  match b with
  | .svcwire => s.on SVCWIRE.ADDR_LOCK
  | .recstore => s.on RECSTORE.CFG_LOCK
  | .erragg => s.on ERRAGG.CTRL_LOCK
  | .harvest => s.on HARVEST.CTRL_LOCK
  | .schedld => s.on SCHEDLD.CTRL_LIMIT_LOCK
  | _ => false

/-- A register write by the access codes of its fields (R9); a write that meets a locked field is recorded (R11). Fields with a
command of their own are left to it. (DEDUCED, log entry 13; DESIGN CHOICE, log entry 18). -/
def State.plainWrite (s : State) (b : Block) (a v : Nat) : State :=
  let locked := s.lockedAt b
  let s := s.writeFields (fun f => !f.row) a v locked
  if locked && (fieldsAt a).any (fun f => f.acc == .rwl && !f.row) then s.report ⟨blockSrc b, 0x03, a, 1, 0, false⟩ else s

/-! ### What single blocks do beside taking the value -/

/-- A UART's register (R316, R320, R323): the guarded fields are kept while EN is 1, and WR_IGN is set.
(DEDUCED, log entry 14). -/
def State.writeUart (s : State) (n : Fin 2) (a v : Nat) : State :=
  let en := s.on (UART.CTRL_EN n)
  if a = UART.BAUD n then if en then s.set (UART.STAT_WR_IGN n) 1 else s.plainWrite (.uart n) a v
  else if a = UART.CTRL n then
    let guarded (f : Fld) : Bool := f.lo == 5 || f.lo == 4 || f.lo == 2 || (f.lo == 28 && n == 0)
    let am := s.on (UART.CTRL_AM_EN n)
    let s' := s.writeFields (fun f => !f.row && guarded f) a v false
    let s := if !en then s' else if s'.regs = s.regs then s else s.set (UART.STAT_WR_IGN n) 1
    let s := s.writeFields (fun f => !f.row && !guarded f) a v false
    let s := if !am && s.on (UART.CTRL_AM_EN n) then s.set (UART.STAT_MUTED n) 1 else s
    let s := if n = 0 && !s.uartDict 0 then { s with uart0 := { s.uart0 with env := none } } else s
    s.uartLoad n
  else if a = UART.FIFO n then ((s.plainWrite (.uart n) a v).showRx n).showTxNow n
  else s.plainWrite (.uart n) a v

/-- The registers of a pin engine whose every field is guarded (R121): offsets within the engine's registers. -/
def peGuarded (off : Nat) : Bool :=
  off == 0x04 || off == 0x08 || off == 0x14 || off == 0x18 || off == 0x2C || off == 0x30 || off == 0x34

/-- A register of PINENG (R121, R130): guarded fields are kept while the engine is neither STOPPED nor in ERROR. -/
def State.writePineng (s : State) (a v : Nat) : State :=
  let off := a % 4096
  if h : 0x100 ≤ off ∧ off < 0x380 then
    let n : Fin 10 := ⟨(off - 0x100) / 0x40, by omega⟩
    let k := (off - 0x100) % 0x40
    if k = 0 then s.peCtrl n v
    else if peGuarded k && !s.peIdle n then
      if (s.plainWrite .pineng a v).regs = s.regs then s else s.set (PINENG.E_STAT_WR_IGN n) 1
    else
      let s := s.plainWrite .pineng a v
      if k = 0x2C ∨ k = 0x30 ∨ k = 0x34 then s.showConflict else s
  else s.plainWrite .pineng a v

/-- A register of MTIME (R50, R58, R59): MASTER_TRIM is bounded by LIM and is the rate of a master; SYNCOUT_WIDTH lies within
its period, and keeps its value when the period is made shorter; an enabled MT_SYNC_IN measures from its next edge; ASYM enters the
link delays at once (R48). (DESIGN CHOICE, log entry 26). -/
def State.writeMtime (s : State) (a v : Nat) : State :=
  if a = MTIME.MASTER_TRIM then
    let t := clampI (sgn 32 v) (s.get MTIME.PULL_LIM_LIM : Nat)
    let s := s.setI MTIME.MASTER_TRIM_TRIM t
    if s.get MTIME.STATUS_STATE = 4 then s.setI MTIME.SERVO_FREQ_F t else s
  else if a = MTIME.SYNCOUT_WIDTH then
    if 4 ≤ v ∧ v + 4 ≤ s.get MTIME.SYNCOUT_PERIOD_PERIOD then s.plainWrite .mtime a v else s
  else if a = MTIME.ASYM then ((s.plainWrite .mtime a v).showDelay 0).showDelay 1
  else if a = MTIME.SYNCIN_CFG then
    let en := s.on MTIME.SYNCIN_CFG_EN
    let s := s.plainWrite .mtime a v
    if !en && s.on MTIME.SYNCIN_CFG_EN then { s with tm := { s.tm with syncinLast := none, syncinGood := 0 } } else s
  else s.plainWrite .mtime a v

/-- The touch matrix, Cricket's clock and the mailbox's data words (R225, R228, R238). -/
def State.writeTouch (s : State) (m : Master) (a v : Nat) : State :=
  let off := a % 4096
  if 0x840 ≤ off ∧ off < 0x860 then
    if m = .app ∧ s.on TOUCH.MB_CTRL_A2C_FULL = false then s.plainWrite .touch a v else s
  else if 0x860 ≤ off ∧ off < 0x880 then
    if m = .cricket ∧ s.on TOUCH.MB_CTRL_C2A_FULL = false then s.plainWrite .touch a v else s
  else
    let s := s.plainWrite .touch a v
    if 0x004 ≤ off ∧ off ≤ 0x014 then s.touchSetting
    else if off = 0x800 then s.showClocks
    else s

/-- VAULTCTL (R294): TMP_CFG holds its fields once locked, and MESH_EN ignores writes in Production and Returned.
(DESIGN CHOICE, log entry 18). -/
def State.writeVaultctl (s : State) (a v : Nat) : State :=
  if a ≠ VAULTCTL.TMP_CFG then s.plainWrite .vaultctl a v
  else if s.on VAULTCTL.TMP_CFG_LOCK then s
  else
    let fixed := s.lifeCycle == 2 || s.lifeCycle == 3
    s.writeFields (fun f => !f.row && !(fixed && f.lo == 29)) a v false

/-- The record store (13_memories.md, the registers of RECSTORE): the common registers take writes of the application core, the
channel S registers and window those of Scarab; a window holds bytes. -/
def State.writeRecstore (s : State) (m : Master) (a v : Nat) : State :=
  let off := a % 4096
  if 0x400 ≤ off ∧ off < 0x800 then s.pokeWord a v
  else if 0x800 ≤ off then
    if m ≠ .scarab then s else if 0xC00 ≤ off then s.pokeWord a v else s.plainWrite .recstore a v
  else if 0x040 ≤ off ∧ off < 0x080 ∧ m ≠ .app then s
  else s.plainWrite .recstore a v

/-- A queue's BASE and CFG (07_gnourlink.md, the registers of LINKQ): ignored while EN is 1; enabling sets QHEAD to 0.
(DEDUCED, log entry 15). -/
def State.writeLinkq (s : State) (a v : Nat) : State :=
  let off := a % 4096
  if 0x100 ≤ off ∧ off < 0x200 ∧ (off % 0x20 = 0 ∨ off % 0x20 = 4) then
    let q := (off - 0x100) / 0x20
    if s.on (LINKQ.Q_CFG_EN q) then s
    else
      let s := s.plainWrite .linkq a v
      if s.on (LINKQ.Q_CFG_EN q) then s.set (LINKQ.Q_HEAD_HEAD q) 0 else s
  else s.plainWrite .linkq a v

/-- The Scarab mailbox and the watchdog (R281, R304): ARG is held while BUSY; a GO with an OP that has no row ends as such an
operation does; EN starts the watchdog with a full period. (DESIGN CHOICE, log entry 16). -/
def State.writeMbox (s : State) (a v : Nat) : State :=
  let off := a % 4096
  if 0x40 ≤ off ∧ off < 0x80 then if s.on MBOX.STAT_BUSY then s else s.plainWrite .mbox a v
  else if a = MBOX.CMD then
    let s := s.plainWrite .mbox a v
    if getBit v 31 && !s.on MBOX.STAT_BUSY && !(decide (1 ≤ bits v 7 0) && decide (bits v 7 0 ≤ 4)) then
      { s.set MBOX.STAT_BUSY 1 with sc := { s.sc with op := some (bits v 7 0) } }
    else s
  else if a = MBOX.WDOG_CTRL then
    let en := s.on MBOX.WDOG_CTRL_EN
    let s := s.plainWrite .mbox a v
    if !en && s.on MBOX.WDOG_CTRL_EN then
      let p := s.get MBOX.WDOG_CTRL_PERIOD
      { s.set MBOX.WDOG_STAT_REMAIN p with sc := { s.sc with wdPeriod := p, wdLast := none, wdHalf := false } }
    else s
  else s.plainWrite .mbox a v

/-- HARVEST (R215, R218): with BOOST_EN = 0 the boost is IDLE, and goes on from a valid Voc when it is enabled again; with
NTC_EN = 0 TEMP_HOLD reads 0. (DEDUCED, log entry 17; DEDUCED, log entry 73). -/
def State.writeHarvest (s : State) (a v : Nat) : State :=
  let was := s.on HARVEST.CTRL_BOOST_EN
  let s := s.plainWrite .harvest a v
  let s := if s.on HARVEST.NTC_NTC_EN then s else s.set HARVEST.STAT_TEMP_HOLD 0
  if !s.on HARVEST.CTRL_BOOST_EN then s.set HARVEST.STAT_BOOST 0
  else if !was && s.on HARVEST.VOC_VALID then s.set HARVEST.STAT_BOOST (if s.get HARVEST.VOC_TARGET_MV < 250 then 3 else 1)
  else s

/-- A write of a register of a block by a master (R9). -/
def State.blockWrite (s : State) (m : Master) (mach : Bool) (b : Block) (a v : Nat) : State :=
  match b with
  | .evroute =>
    if a = EVROUTE.IRQ_STAT then s.writeEvStat m mach v
    else if a = EVROUTE.IRQ_EN_APP then s.writeEvEn EVROUTE.IRQ_EN_APP_EN v
    else if a = EVROUTE.IRQ_EN_CRK then s.writeEvEn EVROUTE.IRQ_EN_CRK_EN v
    else s.plainWrite b a v
  | .uart n => s.writeUart (if n = 0 then 0 else 1) a v
  | .svcwire => if 0x600 ≤ a % 4096 ∧ a % 4096 < 0x800 then s.pokeWord a v else s.plainWrite b a v
  | .recstore => s.writeRecstore m a v
  | .mtime => s.writeMtime a v
  | .adcseq => if a = ADCSEQ.CTRL then s.writeSlotEn v else s.plainWrite b a v
  | .rtc =>
    let s := if RTC.ALM_TIME 0 ≤ a ∧ a < RTC.ALM_TIME 0 + 16 then s.noteAlarm a else s
    let disc := s.get RTC.CTRL_DISC_EN
    let s := s.plainWrite b a v
    if s.get RTC.CTRL_DISC_EN = disc then s else s.writeDiscEn (s.get RTC.CTRL_DISC_EN)
  | .harvest => s.writeHarvest a v
  | .touch => s.writeTouch m a v
  | .vaultctl => s.writeVaultctl a v
  | .pineng => s.writePineng a v
  | .port n =>
    let p : Fin 2 := if n = 0 then 0 else 1
    let s := s.plainWrite b a v
    if a = PORT.CTRL p ∧ (s.on (PORT.CTRL_EN p) = false ∨ s.on (PORT.CTRL_FORCE_FLT p) = true) then s.losePort p else s
  | .ringctl =>
    let s := s.plainWrite b a v
    if a = RINGCTL.CTRL then s.setBypass else s
  | .linkq => s.writeLinkq a v
  | .dicteng => if a = DICTENG.COLL_BASE ∧ s.dict.snap.phase = 2 then s else s.plainWrite b a v
  | .mbox => s.writeMbox a v
  | _ => s.plainWrite b a v

/-- REGISTER_WRITE (R9 to R11, R13 to R16, R37 to R39): a bus write of a register. The lanes' registers wait for the lane tick
(R100), and the program store guards itself (R130). (DEDUCED, log entry 13). -/
def execRegisterWrite (m : Master) (mach : Bool) (sz : Size) (a : Nat) (v : Word) (s : State) : Ans :=
  match blockOf a with
  | none => .next { s with bus := .error }
  | some b =>
    if !mayReg m true b a then .next (s.violation m a)
    else if sz ≠ .word ∨ a % 4 ≠ 0 then .next { s with bus := .error }
    else match b with
      | .lane n => if h : n < 10 then execLaneRegisterWrite ⟨n, h⟩ (a % 4096) v s else .next { s with bus := .error }
      | .pineng =>
        if h : 0x800 ≤ a % 4096 then execProgramStoreWrite ⟨(a % 4096 - 0x800) / 4, by omega⟩ v s
        else s.busDo a fun s => s.blockWrite m mach .pineng a v.toNat
      | b => s.busDo a fun s => s.blockWrite m mach b a v.toNat

/-! ### Memories -/

/-- The power domain a memory lies in; system SRAM, code flash and the stores in PD_SYS (R29, R33). -/
def MemKind.dom : MemKind → Dom
  | .sched => .lane
  | .vault | .secure => .aon
  | .crkSram => .crk
  | _ => .sys

/-- A memory can be reached now: its domain is On or Gated (R38); the vault from Run to Diapause (R257).
(DESIGN CHOICE, log entry 19). -/
def State.memUp (s : State) (k : MemKind) : Bool :=
  match k with
  | .vault | .secure => s.pwr.step != .pupa && s.pwr.step != .cold
  | k => s.dom k.dom == .on || s.dom k.dom == .gated

/-- The address belongs to the target of the march test that runs (R263). (DEDUCED, log entry 80). -/
def State.marching (s : State) (a : Nat) : Bool := s.marchHolds a 1

/-- The bytes of an access. -/
def sizeBytes : Size → Nat
  | .byte => 1
  | .half => 2
  | .word => 4

/-- The memory's words carry check bits (R254, R256). -/
def MemKind.ecc : MemKind → Bool
  | .sram | .vault | .secure => true
  | _ => false

/-- A read of a word with one bit in error (R254): corrected in the same access. -/
def State.eccSingle (s : State) (k : MemKind) : State :=
  if k = .sram then s.sramSingle
  else (s.count VAULTCTL.ECC_CORR_COUNT VAULTCTL.ECC_CORR_OVF).set VAULTCTL.STAT_CORR 1

/-- A read of a word with two bits in error (R254): the access ends with a bus error and changes nothing. -/
def State.eccDouble (s : State) (k : MemKind) (a : Nat) : State :=
  let a := a / 4 * 4
  let s := if k = .sram then s.sramDouble a
    else
      (((s.count VAULTCTL.ECC_UNCORR_COUNT VAULTCTL.ECC_UNCORR_OVF).set VAULTCTL.ECC_ADDR_ADDR a).set VAULTCTL.STAT_UNCORR 1).report
        ⟨43, 0x01, a, 0, 0, false⟩
  { s with bus := .error }

/-- A bus-port write of schedule memory (R36, R75, R76, R132): none where it ends with a bus error. -/
def State.schedWrite (s : State) (a : Nat) : Option State :=
  let o := a - 0x24000000
  if h : o < 0x3C000 then
    let n : Fin 10 := ⟨o / 0x6000, by omega⟩
    let b := s.get (SCHEDLD.L_BSTAT_BACK_STATE n)
    if o % 0x6000 / 0x3000 ≠ s.backPhys n ∨ b = 2 ∨ b = 5 then none else some (s.setBack n 1)
  else
    let t := o - 0x3C000
    if h : t / 0x600 < 10 then
      let n : Fin 10 := ⟨t / 0x600, h⟩
      let k := t % 0x600 / 0xC0
      if s.bit (PINENG.E_FIFO_STAT_SLOT_PEND n) k || s.engines[n].slot == some k then none else some s
    else some s

/-- A write of a memory, once its target takes it. -/
def State.memWrite (s : State) (k : MemKind) (sz : Size) (a v : Nat) (e : Ecc) : State :=
  let merge := k.ecc && sz != .word
  if merge && e == .double then s.eccDouble k a
  else
    let s := if merge && e == .single then s.eccSingle k else s
    { s.pokes a (leBytes (sizeBytes sz) v) with bus := .ok 0 }

/-- A read of a memory: the data read. -/
def State.memRead (s : State) (k : MemKind) (sz : Size) (a : Nat) (e : Ecc) : State :=
  if k.ecc && e == .double then s.eccDouble k a
  else
    let s := if k.ecc && e == .single then s.eccSingle k else s
    { s with bus := .ok (s.mem? a (sizeBytes sz)) }

/-- A write of a memory in a state, or a bus error where there is none. -/
def State.memWriteOr (s : State) (o : Option State) (k : MemKind) (sz : Size) (a v : Nat) (e : Ecc) : State :=
  match o with
  | none => { s with bus := .error }
  | some s => s.memWrite k sz a v e

/-- The access to a memory that the master may reach and that is up, aligned to its size. -/
def State.memDo (s : State) (m : Master) (k : MemKind) (sz : Size) (a : Nat) (wr : Option Word) (e : Ecc) : State :=
  if k = .secure ∧ 0x28003FC0 ≤ a ∧ m = .app then { s with bus := .ok 0 }
  else match wr with
    | none => s.memRead k sz a e
    | some v =>
      match k with
      | .bootRom | .flash | .bootConfig | .recStore => { s with bus := .error }
      | .sched => s.memWriteOr (s.schedWrite a) k sz a v.toNat e
      | _ => s.memWrite k sz a v.toNat e

/-- DICTENG at the vault (R41): an access that is not granted is held, and its request waits for it.
(DESIGN CHOICE, log entry 19; DEDUCED, log entry 80). -/
def State.vaultHold (s : State) : State :=
  match s.dict.vault, s.nextReq with
  | none, some r => { s.set DICTENG.STAT_BUSY 1 with bus := .held, dict := { s.dict with vault := some r, vaultAt := s.tick } }
  | _, _ => { s with bus := .held }

/-! ### Reads of registers -/

/-- The address lies in a buffer of bytes within a block: the program store, the channels' windows, the service-wire buffer. -/
def Block.window (b : Block) (a : Nat) : Bool :=
  let off := a % 4096
  match b with
  | .pineng => decide (0x800 ≤ off)
  | .svcwire => decide (0x600 ≤ off) && decide (off < 0x800)
  | .recstore => (decide (0x400 ≤ off) && decide (off < 0x800)) || decide (0xC00 ≤ off)
  | _ => false

/-- The RTC's shadow of a bus master (R243). -/
def rtcMaster (m : Master) : Option RtcMaster :=
  match m with
  | .app => some .app
  | .cricket => some .crk
  | .dict => some .dict
  | _ => none

/-- The shadowed RTC register at an address (R243). -/
def rtcReg (a : Nat) : Option (Fin 4) :=
  if a = RTC.RTC_SUBSEC then some 0
  else if a = RTC.RTC_TIME then some 1
  else if a = RTC.RTC_DATE then some 2
  else if a = RTC.RTC_YEAR then some 3
  else none

/-- The engine whose receive FIFO is read at an address. -/
def rxfifoAt (a : Nat) : Option (Fin 10) := (List.finRange 10).find? fun (n : Fin 10) => a == PINENG.E_RXFIFO n

/-- A read of a register that the master may reach (R9, R13), with what the read does in those that a read changes: MT (R26),
SYNCIN_CAPT, the receive FIFOs (R133, R318) and the RTC's shadow (R243); the record store's channel S answers Scarab only.
(DEDUCED, log entry 13; DEDUCED, log entry 20). -/
def execRegisterRead (m : Master) (b : Block) (a : Nat) (s : State) : Ans :=
  if a = MTIME.MT_LO then execMtReadCapture s
  else if a = MTIME.SYNCIN_CAPT_LO then execCaptRead false s
  else if a = MTIME.SYNCIN_CAPT_HI then execCaptRead true s
  else if a = UART.DATA 0 then execUartRxRead 0 s
  else if a = UART.DATA 1 then execUartRxRead 1 s
  else match rxfifoAt a, rtcReg a, rtcMaster m with
    | some n, _, _ => execRxfifoRead n s
    | none, some r, some x => execRtcShadowRead x r s
    | none, _, _ =>
      if s.accessible a then
        .next { s with bus := .ok (if b == .recstore && m != .scarab && decide (0x800 ≤ a % 4096) then 0
          else if b.window a then s.mem? a 4 else s.readReg a) }
      else .next { s with bus := .error }

/-- MEMORY_ACCESS (R14, R33, R34, R36, R39 to R44, R254 to R259, R263): a read, or a write of `wr`; `e`: what the check bits of a
word that is read show; `grant`: the vault's cycle is given to DICTENG. At an address of a peripheral block it reaches the
register, and a reserved offset reads 0 (R13). (DESIGN CHOICE, log entry 19; DEDUCED, log entry 103). -/
def execMemoryAccess (m : Master) (mach : Bool) (sz : Size) (a : Nat) (wr : Option Word) (e : Ecc) (grant : Bool) (s : State) : Ans :=
  match memKind a, blockOf a, wr with
  | none, none, _ => .next { s with bus := .error }
  | none, some _, some v => execRegisterWrite m mach sz a v s
  | none, some b, none =>
    if !mayReg m false b a then .next (s.violation m a)
    else if sz ≠ .word ∨ a % 4 ≠ 0 then .next { s with bus := .error }
    else execRegisterRead m b a s
  | some k, _, _ =>
    if !mayMem m mach s.boot.released wr.isSome k a then .next (s.violation m a)
    else if a % (sizeBytes sz) ≠ 0 ∨ s.memUp k = false then .next { s with bus := .error }
    else if k == .secure && s.on VAULTCTL.STAT_WIPING then .next { s with bus := .held }
    else if m = .dict ∧ k = .vault then
      if grant && !s.marching a then
        let s : State := if s.dict.vault.isSome then { s.set DICTENG.STAT_BUSY 0 with dict := { s.dict with vault := none } } else s
        .next (s.memDo m k sz a wr e)
      else .next s.vaultHold
    else if s.marching a then .next { s with bus := .held }
    else .next (s.memDo m k sz a wr e)

/-! ### The error arbiters (R22, R298) -/

/-- LIVENESS_RECHECK (R298, R24): 100 µs after a policy was applied; a block that still fails is wedged.
(DEDUCED, log entry 22). -/
def execLivenessRecheck (i : Fin 64) (fails : Bool) (s : State) : Ans :=
  if !s.domOn .sys || !s.err.recheck.any (fun r => r.1 == i.1 && decide (r.2 + 25000 ≤ s.tick)) then .next s
  else
    let s : State := { s with err := { s.err with recheck := s.err.recheck.filter fun r => r.1 != i.1 } }
    if !fails then .next s
    else
      let s := (s.set (ERRAGG.SRC_WEDGED i) 1).set ERRAGG.STAT_WEDGED 1
      let s := s.chipReport ⟨i, 0x05, i, 3, 0, false⟩
      .next (if s.on ERRAGG.CTRL_WEDGE_RST then s.scarabReset 8 else s)

/-- BUS_TIMEOUT (R298): an access to the register at `a` has not been answered; a bus error, and the block's report. -/
def execBusTimeout (a : Nat) (s : State) : Ans :=
  match blockOf a with
  | none => .next { s with bus := .error }
  | some b => .next { s.report ⟨blockSrc b, 0x04, a, 1, 0, false⟩ with bus := .error }

/-- LIVENESS_TIMEOUT (R298): the BUSY state of source `i` has outlasted its maximum. -/
def execLivenessTimeout (i : Fin 64) (s : State) : Ans :=
  if srcPresent i then .next (s.report ⟨i, 0x05, i, 1, 0, false⟩) else .next s

end Sys2Proof.Machine
end

