-- ==== Sys2Proof/Machine/Cricket.lean ====
section
/-!
DEFINITION. Cricket's release and interrupt, its 10-bit ADC and its mailbox (11_cricket_touch.md, R224 to R229).
-/
namespace Sys2Proof.Machine

/-! ### Interrupts (R226, R312, R313, R328) -/

/-- A status register has a bit whose enable, of the same number in another register, is 1. (DESIGN CHOICE, log entry 75). -/
def State.irqLine (s : State) (stat en : Nat) : Bool := (s.readReg stat &&& s.readReg en) != 0

/-- Event channels that interrupt Cricket (R312): in Owner mode only those Cricket owns (R313). -/
def State.evtIrqCrk (s : State) : Bool :=
  (List.range 32).any fun k =>
    s.bit EVROUTE.IRQ_STAT_EDGE k && s.bit EVROUTE.IRQ_EN_CRK_EN k &&
    (s.on EVROUTE.GCTL_MODE || s.get (EVROUTE.CH_CFG_OWN k) == 1)

/-- SVCWIRE interrupts its owner (R328). -/
def State.svcIrq (s : State) : Bool :=
  (s.on SVCWIRE.CTRL_REQ_IE && s.on SVCWIRE.STAT_REQ) ||
  (s.on SVCWIRE.CTRL_ERR_IE &&
    (s.on SVCWIRE.STAT_ENV_EV || s.on SVCWIRE.STAT_OVR || s.on SVCWIRE.STAT_STRETCH_TO || s.on SVCWIRE.STAT_DROP))

/-- The level bits of CRK_IRQ_STAT follow their sources. (DESIGN CHOICE, log entry 75). -/
def State.crkLevels (s : State) : State :=
  let s := s.setF TOUCH.CRK_IRQ_STAT_EVT s.evtIrqCrk
  let s := s.setF TOUCH.CRK_IRQ_STAT_SVC (s.on SVCWIRE.CTRL_OWNER && s.svcIrq)
  let s := s.setF TOUCH.CRK_IRQ_STAT_HARVEST (s.irqLine HARVEST.STAT HARVEST.IRQ_EN)
  let s := s.setF TOUCH.CRK_IRQ_STAT_RTC (s.irqLine RTC.STAT RTC.IRQ_EN)
  s.setF TOUCH.CRK_IRQ_STAT_TOUCH (s.irqLine TOUCH.STAT TOUCH.IRQ_EN)

/-- Cricket's external interrupt is asserted (R226). (DESIGN CHOICE, log entry 75). -/
def State.crkIrq (s : State) : Bool := s.crkLevels.irqLine TOUCH.CRK_IRQ_STAT TOUCH.CRK_IRQ_EN

/-- CRICKET_RUN (R224): CRK_CTRL.RUN written 1. -/
def execCricketRun (s : State) : Ans :=
  s.busDo TOUCH.CRK_CTRL fun s =>
    if s.on TOUCH.CRK_CTRL_RUN then s
    else { s.set TOUCH.CRK_CTRL_RUN 1 with crk := { s.crk with started := true, startPc := 0x30000000 } }

/-- CRICKET_WAKE_IRQ (R226): an asserted interrupt ends Cricket's WFI. -/
def execCricketWakeIrq (s : State) : Ans :=
  if s.domOn .crk && s.on TOUCH.CRK_CTRL_RUN && s.crkIrq then .next (s.crkLevels.set TOUCH.CRK_CTRL_SLEEPING 0) else .next s

/-! ### 10-bit ADC (R227) -/

/-- A START or a trigger arrives (R227). -/
def State.adcStart (s : State) : State :=
  if s.on TOUCH.ADC_CTRL_BUSY then s.set TOUCH.ADC_CTRL_CMD_IGN 1
  else if s.get TOUCH.ADC_CTRL_CHMASK = 0 then s
  else { s.set TOUCH.ADC_CTRL_BUSY 1 with crk := { s.crk with adcMask := s.get TOUCH.ADC_CTRL_CHMASK } }

/-- ADC_START (R227): by START, an RTC second, or the end of a touch scan as TRIG selects. -/
def execAdcStart (trig : AdcTrig) (s : State) : Ans :=
  match trig with
  | .start => s.busDo TOUCH.ADC_CTRL State.adcStart
  | .second => if s.domOn .crk && s.get TOUCH.ADC_CTRL_TRIG == 1 then .next s.adcStart else .next s
  | .scan => if s.domOn .crk && s.get TOUCH.ADC_CTRL_TRIG == 2 then .next s.adcStart else .next s

/-- Codes go to the selected channels in ascending order. (DEDUCED, log entry 76). -/
def State.adcResults (s : State) (mask : Nat) (codes : List (BitVec 10)) : State :=
  (((List.range 6).filter fun k => getBit mask k).zip codes).foldl (fun s p => s.set (TOUCH.ADC_RES_CODE p.1) p.2.toNat) s

/-- ADC_SEQUENCE_DONE (R227): the codes of the selected channels, ascending. (DEDUCED, log entry 76). -/
def execAdcSequenceDone (codes : List (BitVec 10)) (s : State) : Ans :=
  if !s.on TOUCH.ADC_CTRL_BUSY then .next s
  else .next (((s.adcResults s.crk.adcMask codes).set TOUCH.ADC_CTRL_BUSY 0).set TOUCH.CRK_IRQ_STAT_ADC 1)

/-! ### The mailbox (R228) -/

/-- MB_SEND (R228): `m` writes the SEND bit of a direction; only its sender's write acts. -/
def execMbSend (m : Master) (a2c : Bool) (s : State) : Ans :=
  s.busBy m true TOUCH.MB_CTRL fun s =>
    if a2c then
      if m ≠ .app then s
      else if s.on TOUCH.MB_CTRL_A2C_FULL then s.set TOUCH.MB_CTRL_A2C_OVR 1
      else (s.set TOUCH.MB_CTRL_A2C_FULL 1).set TOUCH.CRK_IRQ_STAT_MB_RX 1
    else
      if m ≠ .cricket then s
      else if s.on TOUCH.MB_CTRL_C2A_FULL then s.set TOUCH.MB_CTRL_C2A_OVR 1
      else s.set TOUCH.MB_CTRL_C2A_FULL 1

/-- MB_ACK (R228): `m` writes the ACK bit of a direction; only its receiver's write acts. -/
def execMbAck (m : Master) (a2c : Bool) (s : State) : Ans :=
  s.busBy m true TOUCH.MB_CTRL fun s =>
    if a2c then
      if m ≠ .cricket ∨ !s.on TOUCH.MB_CTRL_A2C_FULL then s
      else (s.set TOUCH.MB_CTRL_A2C_FULL 0).set TOUCH.MB_CTRL_A2C_DONE 1
    else
      if m ≠ .app ∨ !s.on TOUCH.MB_CTRL_C2A_FULL then s
      else (s.set TOUCH.MB_CTRL_C2A_FULL 0).set TOUCH.CRK_IRQ_STAT_MB_DONE 1

end Sys2Proof.Machine
end

