-- ==== Sys2Proof/Machine/Dictionary.lean ====
section
/-!
DEFINITION. The dictionary engine's requests (08_dictionary.md, R172 to R191): how a request is taken and checked, reads, writes,
write sets, snapshots, forwarding, application objects, local requests, and the rows that are writes of one object.
-/
namespace Sys2Proof.Machine

/-! ### Taking a request (R172 to R176) -/

/-- The transport carries a NODE (R172). -/
def hasNode (v : Via) : Bool := transport v == 1 || transport v == 2 || transport v == 3

/-- The request goes to every node (R173, R175). -/
def isBcast (m : DictMsg) : Bool :=
  match m.via with
  | .bcast _ => true
  | _ => hasNode m.via && m.node == 127

/-- A message that no check of its object can save (R172, R173, R176): its abort code, 0 where there is none.
(DEDUCED, log entry 58). -/
def msgAbort (op : Nat) (m : DictMsg) : Nat :=
  let noObj := [0x11, 0x12, 0x20, 0x21, 0x30].contains op
  if m.rsv then Abort.badField
  else if !hasNode m.via && m.node != 0 then Abort.badField
  else if 128 ≤ m.node.toNat then Abort.badField
  else if noObj && (m.index != 0 || m.sub != 0) then Abort.badField
  else if isBcast m && (op == 1 || op == 3) then Abort.badOp
  else if !isBcast m && op == 0x30 then Abort.badOp
  else if 500 < m.data.length then Abort.badLength
  else 0

/-- DICTENG, or the recovery code in its place, is there to serve requests (R328, R341). (DEDUCED, log entry 65). -/
def State.dictServes (s : State) : Bool := s.domOn .link || (s.boot.recovery && s.domOn .sys)

/-- DICTENG accepts requests of the transport (DICTENG.CTRL). (DEDUCED, log entry 65). -/
def State.transportOn (s : State) (v : Via) : Bool :=
  if s.boot.recovery then transport v != 4
  else match transport v with
    | 0 => s.on DICTENG.CTRL_EN_RING
    | 1 => s.on DICTENG.CTRL_EN_SVC
    | 2 => s.on DICTENG.CTRL_EN_UART0
    | 3 => true
    | _ => false

/-- The state without the request: it is the one whose turn it is, or none waits and the command is its arrival; none where another
comes first (R174). (DEDUCED, log entry 56). -/
def State.takeReq (s : State) (op : Nat) (m : DictMsg) : Option State :=
  match s.nextReq with
  | none =>
    if s.transportOn m.via then some { s with dict := { s.dict with turn := transport m.via } } else none
  | some r =>
    if msgOp r.msg = op ∧ msgOf r.via r.msg = m then
      some { s with dict := { s.dict with reqs := s.dict.reqs.erase r, turn := transport r.via } }
    else none

/-- A request that arrives while another executes waits; the ring's fifth is not stored (R174). (DEDUCED, log entry 57). -/
def State.holdReq (s : State) (op : Nat) (m : DictMsg) : State :=
  if s.dict.reqs.any (fun r => transport r.via == transport m.via) || !s.transportOn m.via ||
      (transport m.via == 0 && decide (4 ≤ s.ringReqs)) then s
  else { s with dict := { s.dict with reqs := s.dict.reqs ++ [⟨m.via, reqMsg op m m.node⟩] } }

/-- A request as an acyclic frame to a node (R175). -/
def State.requestFrame (s : State) (op : Nat) (m : DictMsg) : AcyclicFrame := s.ownFrameTo m.node.toNat none 1 (reqMsg op m 0)

/-- A request with NODE 1 to 126 is forwarded (R175); without a ring it gets no response. -/
def State.forward (s : State) (op : Nat) (m : DictMsg) : State :=
  if !s.domOn .link then s.answer op m Abort.noResponse []
  else
    let id := s.dict.nextId
    let s := s.sendNumbered (s.requestFrame op m)
    { s with dict := { s.dict with fwd := s.dict.fwd ++ [⟨⟨op, m⟩, s.tick, id⟩] } }

/-- A request with NODE 127 is also broadcast (R175); of a barrier something waits for the frame's return (R191). -/
def State.toAll (s : State) (op : Nat) (m : DictMsg) : State :=
  if !(hasNode m.via && m.node == 127 && s.domOn .link) then s
  else if op = 0x30 then
    { s.sendNumbered (s.requestFrame op m) with dict := { (s.sendNumbered (s.requestFrame op m)).dict with barrierId := s.dict.nextId } }
  else s.sendFrame (s.requestFrame op m)

/-- A request of operation `op` is executed by `run` once it is taken, is for this node and passes the checks of its message. -/
def State.request (op : Nat) (m : DictMsg) (run : State → State) (s : State) : Ans :=
  let s := s.serveBad s.dict.reqs.length
  if !s.dictServes then .next s
  else if s.dictBusy then .next (s.holdReq op m)
  else match s.takeReq op m with
    | none => .next (s.holdReq op m)
    | some t =>
      if hasNode m.via && decide (1 ≤ m.node.toNat ∧ m.node.toNat ≤ 126) && !m.rsv then .next (t.forward op m)
      else
        let c := msgAbort op m
        if c ≠ 0 then .next (t.answer op m c [])
        else if !t.domOn .link && 3 < op then .next (t.answer op m Abort.badOp [])
        else
          .next (run (t.toAll op m))

/-! ### Objects (R170, R173, R177, R178) -/

/-- A request to an application object goes to firmware (R178). -/
def State.toApp (s : State) (op : Nat) (m : DictMsg) : State :=
  if !s.on DICTENG.APP_CFG_EN then s.answer op m Abort.noObject []
  else
    let s := s.pokes (s.get DICTENG.APP_BUF_BUF * 4) m.data
    let s := ((s.set DICTENG.APP_REQ_OP op).set DICTENG.APP_REQ_SUB m.sub.toNat).set DICTENG.APP_REQ_INDEX m.index.toNat
    let s := (s.set DICTENG.APP_LEN_LEN m.data.length).set DICTENG.STAT_APP_PEND 1
    let s := (s.set DICTENG.STAT_BUSY 1).set DICTENG.IRQ_STAT_APP_REQ 1
    { s with dict := { s.dict with app := some ⟨op, m⟩, appAt := s.tick } }

/-- A request to an object: `run` on the object it names, or its abort code; application objects go to firmware. -/
def State.withObject (s : State) (op : Nat) (m : DictMsg) (run : Obj → State) : State :=
  if isApp m.index.toNat && !s.boot.recovery && s.lifeCycle != 4 then s.toApp op m
  else match s.lookup m.index.toNat m.sub.toNat with
    | .error c => s.answer op m c []
    | .ok o => run o

/-- READ (R170, R173). -/
def State.dictRead (m : DictMsg) (s : State) : State :=
  s.withObject 1 m fun o =>
    if o.acc = .wo then s.answer 1 m Abort.writeOnly []
    else if s.domainOff m.index.toNat then s.answer 1 m Abort.domainOff []
    else
      let (c, d, s) := s.objRead m.index.toNat m.sub.toNat
      s.answer 1 m c d

/-- FLAGS of a write set, RO but for its W1C (R184). -/
def flagsObj (i sub : Nat) : Bool := decide (0x1020 ≤ i ∧ i < 0x1024) && sub == 7

/-- The abort code of a WRITE to an object, but for what its effect itself refuses (R170, R176). (DEDUCED, log entry 58). -/
def State.writeAbort (s : State) (o : Obj) (i sub : Nat) (d : List Byte) : Nat :=
  if o.acc = .ro ∧ !flagsObj i sub then Abort.readOnly
  else if o.acc = .rwc then Abort.needsCommit
  else if s.domainOff i then Abort.domainOff
  else if valueAbort o i sub d ≠ 0 then valueAbort o i sub d
  else s.stateAbort i sub d

/-- WRITE (R170, R173). -/
def State.dictWrite (m : DictMsg) (ok : Bool) (s : State) : State :=
  s.withObject 2 m fun o =>
    let i := m.index.toNat
    let c := s.writeAbort o i m.sub.toNat m.data
    if c ≠ 0 then s.answer 2 m c []
    else match s.objWrite m.via m.tid.toNat i m.sub.toNat m.data ok with
      | (some c, s) => s.answer 2 m c []
      | (none, s) => s

/-- The default that DESCRIBE gives of a readable scalar: the value after reset. (DEDUCED, log entry 61). -/
def objDefault (o : Obj) (i sub : Nat) : List Byte :=
  if o.typ.scalar && o.acc != .wo then State.reset.objVal i sub else []

/-- DESCRIBE's answer (R173). -/
def descBytes (o : Obj) (i sub : Nat) : List Byte :=
  [BitVec.ofNat 8 o.typ.code, BitVec.ofNat 8 o.acc.code,
    BitVec.ofNat 8 (b2n (isPersisted i sub) + 2 * b2n (snappable i sub) + 4 * b2n o.stageable)] ++
  leBytes 2 o.typ.size ++ objDefault o i sub

/-- DESCRIBE (R173). (DEDUCED, log entry 61). -/
def State.dictDescribe (m : DictMsg) (s : State) : State :=
  s.withObject 3 m fun o => s.answer 3 m 0 (descBytes o m.index.toNat m.sub.toNat)

/-- READ. -/
def execRead (m : DictMsg) (s : State) : Ans := s.request 1 m (State.dictRead m)

/-- WRITE. (DEDUCED, log entry 66). -/
def execWrite (m : DictMsg) (s : State) : Ans := s.request 2 m (State.dictWrite m true)

/-- DESCRIBE. -/
def execDescribe (m : DictMsg) (s : State) : Ans := s.request 3 m (State.dictDescribe m)

/-! ### Write sets (R180 to R184) -/

/-- The write set that AUX names. (DEDUCED, log entry 58). -/
def auxWs (m : DictMsg) : Option (Fin 4) := if h : m.aux.toNat < 4 then some ⟨m.aux.toNat, h⟩ else none

/-- An operation on the write set of AUX; an AUX above 3 names none. -/
def State.withWs (s : State) (op : Nat) (m : DictMsg) (run : Fin 4 → State) : State :=
  match auxWs m with
  | none => s.answer op m Abort.range []
  | some w => run w

/-- The entries with a value for an object: replaced in its place, or added (R180). -/
def stageEntry (l : List WsEntry) (e : WsEntry) : List WsEntry :=
  if l.any fun x => x.index == e.index && x.sub == e.sub then
    l.map fun x => if x.index = e.index ∧ x.sub = e.sub then e else x
  else l ++ [e]

/-- The value as it is staged: of an MT64 of which bits 39:0 count, the others are 0 (R169). -/
def stagedValue (i sub : Nat) (d : List Byte) : List Byte := if low40 i sub then leBytes 8 (leNat d % 2 ^ 40) else d

/-- STAGE (R180). -/
def State.dictStage (m : DictMsg) (s : State) : State :=
  let i := m.index.toNat
  let sub := m.sub.toNat
  s.withWs 0x10 m fun w =>
    let x := s.dict.ws[w]
    if isApp i && !s.boot.recovery && s.lifeCycle != 4 then
      s.answer 0x10 m (if s.on DICTENG.APP_CFG_EN then Abort.notStageable else Abort.noObject) []
    else match s.lookup i sub with
      | .error c => s.answer 0x10 m c []
      | .ok o =>
        if o.acc = .ro then s.answer 0x10 m Abort.readOnly []
        else if !o.stageable then s.answer 0x10 m Abort.notStageable []
        else if s.domainOff i then s.answer 0x10 m Abort.domainOff []
        else if valueAbort o i sub m.data ≠ 0 then s.answer 0x10 m (valueAbort o i sub m.data) []
        else if x.st = 2 then s.answer 0x10 m Abort.wsArmed []
        else
          let l := stageEntry x.entries ⟨i, sub, stagedValue i sub m.data⟩
          if 64 < l.length then s.answer 0x10 m Abort.wsFull []
          else (s.setWs w { x with entries := l, st := 1 }).answer 0x10 m 0 []

/-- A write set ends without being applied (R181, R182); its entries stay staged. -/
def State.failWs (s : State) (w : Fin 4) (outcome : Nat) : State :=
  (s.setWs w { s.dict.ws[w] with st := 1, outcome := outcome }).setBit DICTENG.IRQ_STAT_WS_FAIL w true

/-- COMMIT (R181): the checks in order. (DEDUCED, log entry 59). -/
def State.dictCommit (m : DictMsg) (s : State) : State :=
  s.withWs 0x11 m fun w =>
    let x := s.dict.ws[w]
    if m.data.length ≠ 5 then s.answer 0x11 m Abort.badLength []
    else if x.entries = [] then s.answer 0x11 m Abort.wsEmpty []
    else if x.st = 2 then s.answer 0x11 m Abort.wsArmed []
    else if !s.timeValid then (s.failWs w 3).answer 0x11 m 0 []
    else
      let (full, past) := s.stamp40 (leNat m.data)
      if past || full == s.mt then
        ((s.failWs w 2).count DICTENG.LATE_CNT_COUNT DICTENG.LATE_CNT_OVF).answer 0x11 m 0 []
      else (s.setWs w { x with st := 2, stamp := leNat m.data, inst := full }).answer 0x11 m 0 []

/-- DISCARD (R184): a set that a commit has emptied is too late to discard. (DEDUCED, log entry 59). -/
def State.dictDiscard (m : DictMsg) (s : State) : State :=
  s.withWs 0x12 m fun w =>
    let x := s.dict.ws[w]
    let s := if x.st = 1 ∨ (x.st = 2 ∧ !s.due x.inst) then s.emptyWs w 5
      else if x.st = 2 ∨ x.outcome = 1 then s.setWs w { x with tooLate := true }
      else s
    s.answer 0x12 m 0 []

/-- STAGE. -/
def execStage (m : DictMsg) (s : State) : Ans := s.request 0x10 m (State.dictStage m)

/-- COMMIT. -/
def execCommit (m : DictMsg) (s : State) : Ans := s.request 0x11 m (State.dictCommit m)

/-- DISCARD. -/
def execDiscard (m : DictMsg) (s : State) : Ans := s.request 0x12 m (State.dictDiscard m)

/-- An entry put in its place in ascending (index, subindex) order. -/
def placeEntry (x : Nat × WsEntry) : List (Nat × WsEntry) → List (Nat × WsEntry)
  | [] => [x]
  | y :: t => if x.2.index * 256 + x.2.sub < y.2.index * 256 + y.2.sub then x :: y :: t else y :: placeEntry x t

/-- The entries with their places in the set, in ascending (index, subindex) order (R182). -/
def sortedEntries (l : List WsEntry) : List (Nat × WsEntry) :=
  (l.zipIdx.map fun p => (p.2, p.1)).foldr placeEntry []

/-- What the state rules say of an entry at the commit (R182). -/
def State.entryAbort (s : State) (e : WsEntry) : Nat :=
  match s.lookup e.index e.sub with
  | .error c => c
  | .ok _ => if s.domainOff e.index then Abort.domainOff else s.stateAbort e.index e.sub e.value

/-- The first failing entry: its place and code. (DEDUCED, log entry 60). -/
def State.wsFailure (s : State) (x : WriteSet) : Option (Nat × Nat) :=
  ((sortedEntries x.entries).find? fun p => s.entryAbort p.2 != 0).map fun p => (p.1, s.entryAbort p.2)

/-- An armed set of higher number that commits in this tick writes the object as well, and prevails (R183).
(DEDUCED, log entry 60). -/
def State.overruled (s : State) (w : Fin 4) (e : WsEntry) : Bool :=
  (List.finRange 4).any fun v =>
    let x := s.dict.ws[v]
    decide (w < v) && x.st == 2 && s.due x.inst && (s.wsFailure x).isNone &&
      x.entries.any fun y => y.index == e.index && y.sub == e.sub

/-- The tick that contains S of an armed set (R182): its entries take effect together, or none does. -/
def State.applyWs (s : State) (w : Fin 4) : State :=
  let x := s.dict.ws[w]
  if x.st ≠ 2 || !s.due x.inst || !s.domOn .link then s
  else if !s.timeValid then s.failWs w 3
  else match s.wsFailure x with
    | some (p, c) => (s.setWs w { x with failPos := p, failCode := c }).failWs w 4
    | none =>
      let todo := (sortedEntries x.entries).filter fun p => !s.overruled w p.2
      let s := s.setWs w { x with entries := [], st := 0, outcome := 1, commitMt := s.mt }
      let s := s.setBit DICTENG.IRQ_STAT_WS_COMMIT w true
      todo.foldl (fun s p => s.setObj p.2.index p.2.sub (leNat p.2.value)) s

/-- WRITE_SET_APPLY (R182, R183): the tick that contains S of an armed set; the lower sets that are due come before it. -/
def execWriteSetApply (w : Fin 4) (s : State) : Ans :=
  if s.dict.ws[w].st ≠ 2 || !s.due s.dict.ws[w].inst then .next s
  else .next (((List.finRange 4).filter fun v => decide (v ≤ w)).foldl State.applyWs s)

/-! ### Snapshots (R185 to R190) -/

/-- The bytes that a listed value occupies: its type's size rounded up to 4 (R185). -/
def slotSize (i sub : Nat) : Nat := match objAt i sub with
  | some o => (o.typ.size + 3) / 4 * 4
  | none => 0

/-- The listed objects (R185). -/
def State.snapList (s : State) : List (Nat × Nat) :=
  (s.dict.snap.list.take s.dict.snap.count).map fun x => (bits x 31 16, bits x 15 8)

/-- SNAP (R186): the first case that applies. -/
def State.dictSnap (m : DictMsg) (s : State) : State :=
  let b := field m.data 5 2
  if m.data.length ≠ 7 then s.answer 0x20 m Abort.badLength []
  else if b % 8 ≠ 0 ∨ b < 8 ∨ 256 < b then s.answer 0x20 m Abort.range []
  else
    let p := s.stamp40 (field m.data 0 5)
    let need := (s.snapList.map fun p => slotSize p.1 p.2).foldl (· + ·) 0
    let s := if !s.timeValid then s.setSnap 7
      else if p.2 || p.1 == s.mt then (s.setSnap 6).count DICTENG.LATE_CNT_COUNT DICTENG.LATE_CNT_OVF
      else if p.1 < s.dict.snap.windowEnd then s.setSnap 8
      else if b < need then s.setSnap 9
      else
        let s : State := { s with dict := { s.dict with snap := { s.dict.snap with inst := p.1, armId := m.aux.toNat, armB := b } } }
        s.setSnap 1
    s.answer 0x20 m 0 []

/-- SNAP. -/
def execSnap (m : DictMsg) (s : State) : Ans := s.request 0x20 m (State.dictSnap m)

/-- The boundary of the first cycle that lies at least 2 µs after an instant, and its CYCLE (R188): on the grid of the last Cycle
Start, else of the multiples of the period. (DEDUCED, log entry 62). -/
def State.firstCycle (s : State) (t : Nat) : Nat × Nat :=
  let tc := 1000 * s.get RINGCTL.CYCLE_CUR_TC
  let (b, c) := s.ring.bLast.getD (0, 0)
  let k := (t + 2000 - b + tc - 1) / tc
  (b + k * tc, (c + k) % 65536)

/-- The capture of the listed values (R185). -/
def State.captureBytes (s : State) (b : Nat) : List Byte :=
  padTo b (s.snapList.foldl (fun l p => l ++ padTo (slotSize p.1 p.2) (s.objVal p.1 p.2)) [])

/-- The tick that contains S of an ARMED request (R187, R188). (DEDUCED, log entry 62). -/
def State.captureSnap (s : State) : State :=
  let sn := s.dict.snap
  if sn.st ≠ 1 || !s.due sn.inst || !s.domOn .link then s
  else if !s.timeValid then s.setSnap 7
  else
    let (b0, c0) := s.firstCycle sn.inst
    let tc := 1000 * s.get RINGCTL.CYCLE_CUR_TC
    let s : State := { s with dict := { s.dict with snap := { sn with
      id := sn.armId, stamp := sn.inst % 2 ^ 40, b := sn.armB, c0 := c0, windowEnd := b0 + chunks sn.armB 8 * tc
      cap := some (s.captureBytes sn.armB), roster := 0, missing := 0, got := [], re := none, phase := 1 } } }
    (s.setSnap 2).set DICTENG.IRQ_STAT_SNAP_DONE 1

/-- SNAPSHOT_CAPTURE (R187, R188). (DEDUCED, log entry 62). -/
def execSnapshotCapture (s : State) : Ans := .next s.captureSnap

/-- What is due in the tick that begins (R183): the capture, the loader's switches, the write sets in ascending order; every command
of the tick comes after them. (DESIGN CHOICE, log entry 10). -/
def State.tickDue (s : State) : State :=
  if s.dict.snap.st ≠ 1 ∧ s.get DICTENG.STAT_WS_ARMED = 0 ∧ (List.range 10).all (fun n => s.get (SCHEDLD.L_BSTAT_BACK_STATE n) != 5)
  then s
  else (List.finRange 4).foldl State.applyWs (s.captureSnap.forLanes fun n s => s.switchAt n)

/-- COLLECTION_WINDOW_END (R188, R189): the boundary at which the window ends. -/
def execCollectionWindowEnd (s : State) : Ans :=
  let sn := s.dict.snap
  if sn.cap.isNone || sn.re.isSome || !s.due sn.windowEnd || !s.domOn .link then .next s
  else if sn.phase = 2 then .next (if sn.missing = 0 then s.snapFinish else s.snapIncomplete)
  else if sn.phase = 1 then .next (s.snapPhase 0)
  else .next s

/-- RECOLLECT (R190). -/
def State.dictRecollect (m : DictMsg) (s : State) : State :=
  let c1 := field m.data 0 2
  let own := s.get RINGCTL.ADDR_ADDR
  let cyc := s.get RINGCTL.CYCNUM_CYCLE
  let sn := s.dict.snap
  if m.data.length ≠ 18 then s.answer 0x21 m Abort.badLength []
  else
    let mine := own != 0 && getBit (field m.data 2 16) own
    let use := sn.cap.isSome && sn.id == m.aux.toNat && newer 16 c1 cyc && decide (2 ≤ (c1 + 65536 - cyc) % 65536) &&
      (mine || (sn.phase == 3 && s.on DICTENG.CTRL_COLLECT))
    let s : State := if use then { s with dict := { s.dict with snap := { sn with re := some (c1, mine) } } } else s
    s.answer 0x21 m 0 []

/-- RECOLLECT. -/
def execRecollect (m : DictMsg) (s : State) : Ans := s.request 0x21 m (State.dictRecollect m)

/-! ### Barriers, publications, forwarding (R62, R175, R191) -/

/-- A barrier (R191): received, it only orders the requests around it; sent, it completes when its frame returns.
(DEDUCED, log entry 63). -/
def State.dictBarrier (m : DictMsg) (s : State) : State :=
  if hasNode m.via then { s with dict := { s.dict with barrier := some ⟨0x30, m⟩, barrierHold := true } } else s.answer 0x30 m 0 []

/-- BARRIER: a second barrier waits for the first. -/
def execBarrier (m : DictMsg) (s : State) : Ans :=
  if hasNode m.via && s.dict.barrier.isSome then .next (s.holdReq 0x30 m) else s.request 0x30 m (State.dictBarrier m)

/-- PUBLISH (R62): a publication that has been received. -/
def execPublish (src : BitVec 7) (index : BitVec 16) (sub : Byte) (value : List Byte) (s : State) : Ans :=
  if s.domOn .link then .next (s.publishObj src.toNat index.toNat sub.toNat value) else .next s

/-- REQUEST_FORWARD_TIMEOUT (R175): 4 cycle periods after the oldest request that was forwarded. (DEDUCED, log entry 64). -/
def execRequestForwardTimeout (s : State) : Ans :=
  match s.dict.fwd with
  | [] => .next s
  | f :: t =>
    if s.tick < f.tick + 1000 * s.get RINGCTL.CYCLE_CUR_TC then .next s
    else .next (({ s with dict := { s.dict with fwd := t } } : State).endReq f.req Abort.noResponse)

/-! ### Firmware, local requests, the vault (R41, R174, R178) -/

/-- The request of an application object ends. -/
def State.endApp (s : State) (r : HeldReq) (status : Nat) (d : List Byte) : State :=
  let s : State := { s with dict := { s.dict with app := none } }
  ((s.set DICTENG.STAT_APP_PEND 0).set DICTENG.STAT_BUSY 0).answer r.op r.m status d

/-- APP_RESPONSE (R178): APP_RESP written with DONE = 1; its other fields are applied first. -/
def execAppResponse (v : Word) (s : State) : Ans :=
  s.busDo DICTENG.APP_RESP fun s =>
    let s := s.writeFields (fun f => f.acc == .rw) DICTENG.APP_RESP v.toNat false
    match s.dict.app with
    | none => s
    | some r => s.endApp r (s.get DICTENG.APP_RESP_STATUS) (s.bytes (s.get DICTENG.APP_BUF_BUF * 4) (s.get DICTENG.APP_RESP_LEN))

/-- APP_TIMEOUT (R178): APP_CFG.TIMEOUT µs have passed. -/
def execAppTimeout (s : State) : Ans :=
  match s.dict.app with
  | none => .next s
  | some r =>
    if !s.domOn .link || decide (s.tick < s.dict.appAt + 250 * s.get DICTENG.APP_CFG_TIMEOUT) then .next s
    else .next ((s.count DICTENG.APP_TO_CNT_COUNT DICTENG.APP_TO_CNT_OVF).endApp r Abort.appTimeout [])

/-- LOC_GO (R174): the message at LOC_BUF becomes a request of this node's own; ignored while LOC_BUSY. A march test of the buffer's
bank holds the read off (R263). -/
def execLocGo (s : State) : Ans :=
  s.busDo DICTENG.LOC_CTRL fun s =>
    if s.on DICTENG.STAT_LOC_BUSY then s
    else
      let s := s.set DICTENG.STAT_LOC_BUSY 1
      if s.marchHolds (s.get DICTENG.LOC_BUF_BUF * 4) 512 then
        { s with march := { s.march with waiting := s.march.waiting ++ [.loc] } }
      else s.locRead

/-- DICTENG_VAULT_TIMEOUT (R41): the request whose vault access was not granted ends with BUSY_RESOURCE. -/
def execDictengVaultTimeout (s : State) : Ans :=
  match s.dict.vault.filter fun _ => decide (s.dict.vaultAt + s.fastTicks 4096 ≤ s.tick) with
  | none => .next s
  | some r =>
    let s : State := { s with dict := { s.dict with vault := none, reqs := s.dict.reqs.erase r } }
    .next ((s.set DICTENG.STAT_BUSY 0).answer (msgOp r.msg) (msgOf r.via r.msg) Abort.busyResource [])

/-! ### Rows that are a WRITE of one object -/

/-- A WRITE of an object of this node. -/
def objMsg (via : Via) (tid : Byte) (index : BitVec 16) (sub : Byte) (d : List Byte) : DictMsg :=
  { via := via, tid := tid, node := 0, rsv := false, aux := 0, index := index, sub := sub, data := d }

/-- A WRITE of an object. -/
def State.writeObj (s : State) (via : Via) (tid : Byte) (index : BitVec 16) (sub : Byte) (d : List Byte) (ok : Bool) : Ans :=
  s.request 2 (objMsg via tid index sub d) (State.dictWrite (objMsg via tid index sub d) ok)

/-- STORE_PERSISTED (R171). -/
def execStorePersisted (via : Via) (tid : Byte) (s : State) : Ans := s.writeObj via tid 0x1010 2 (leBytes 2 0x5A17) true

/-- ERASE_STORED (R171). -/
def execEraseStored (via : Via) (tid : Byte) (s : State) : Ans := s.writeObj via tid 0x1010 3 (leBytes 2 0xD0F0) true

/-- NONCE_WRITE (R284). -/
def execNonceWrite (via : Via) (tid : Byte) (d : List Byte) (s : State) : Ans := s.writeObj via tid 0x7010 1 d true

/-- LIFE_CYCLE_CHANGE (R287). -/
def execLifeCycleChange (via : Via) (tid : Byte) (d : List Byte) (s : State) : Ans := s.writeObj via tid 0x7020 2 d true

/-- OWNER_KEY_HASH_WRITE (R288). -/
def execOwnerKeyHashWrite (via : Via) (tid : Byte) (d : List Byte) (s : State) : Ans := s.writeObj via tid 0x7020 3 d true

/-- DEBUG_UNLOCK (R290): the response object, or the UNLOCK register of the TAP. -/
def execDebugUnlock (via : Via) (tid : Byte) (d : List Byte) (s : State) : Ans :=
  if via = .tap then
    if s.domOn .mgt then .next { (s.unlockOp d).2 with abort := (s.unlockOp d).1 } else .next s
  else s.writeObj via tid 0x7030 2 d true

/-- LOG_CLEAR_LOST (R303). -/
def execLogClearLost (via : Via) (tid : Byte) (s : State) : Ans := s.writeObj via tid 0x7040 5 [2] true

/-- DOWNLOAD_BEGIN (R336). -/
def execDownloadBegin (via : Via) (tid : Byte) (s : State) : Ans := s.writeObj via tid 0x7050 1 [1] true

/-- DOWNLOAD_DATA (R336): `ok`: the programmed words read back right. -/
def execDownloadData (via : Via) (tid : Byte) (d : List Byte) (ok : Bool) (s : State) : Ans := s.writeObj via tid 0x7050 3 d ok

/-- DOWNLOAD_FINISH (R336). -/
def execDownloadFinish (via : Via) (tid : Byte) (s : State) : Ans := s.writeObj via tid 0x7050 1 [2] true

/-- DOWNLOAD_ACTIVATE (R336). -/
def execDownloadActivate (via : Via) (tid : Byte) (s : State) : Ans := s.writeObj via tid 0x7050 1 [3] true

/-- DOWNLOAD_ABORT (R336). -/
def execDownloadAbort (via : Via) (tid : Byte) (s : State) : Ans := s.writeObj via tid 0x7050 1 [4] true

end Sys2Proof.Machine
end

