-- ==== Sys2Proof/Machine/Errors.lean ====
section
/-!
DEFINITION. Error containment (R21, R22, R295 to R299): what the policies CONTAIN and RESET do to each source, the region arbiters,
and the clock in which each of them takes the lowest pending report.
-/
namespace Sys2Proof.Machine

/-! ### The policies (R21, R295, R296) -/

/-- MTIME returns to reset state: TIME_VALID falls, MT is moved to 0, and ADCSEQ loses alignment (R45, R53, R85). -/
def State.resetTime (s : State) : State :=
  let s := s.timeFall.forLanes fun n s => s.timeHold n
  ({ (s.resetBlockRegs .mtime).set ADCSEQ.STAT_ALIGNED 0 with tm := {}, mt := 0 } : State).showDisc

/-- HARVEST returns to reset state; the cell switch changes only as its chapter states (R212), so it keeps its state, and with it
the trip and the comparisons that lead out of it. -/
def State.resetHarvest (s : State) : State :=
  let cell := s.get HARVEST.STAT_CELL
  { (s.resetBlockRegs .harvest).put HARVEST.STAT_CELL cell with hv := { s.hv with interval := 16, sampleEnd := s.slow } }

/-- Cricket returns to reset state and starts again, since no source of R295 clears RUN (R224); an ADC sequence ends.
(DESIGN CHOICE, log entry 117). -/
def State.restartCricket (s : State) : State :=
  { (s.set TOUCH.CRK_CTRL_SLEEPING 0).set TOUCH.ADC_CTRL_BUSY 0 with
    crk := { started := s.on TOUCH.CRK_CTRL_RUN, startPc := if s.on TOUCH.CRK_CTRL_RUN then 0x30000000 else 0 } }

/-- The RESET policy on a source (R295): the block returns to its reset state, but for its LOCK bit (R11). A wipe in progress goes
on (R259). -/
def State.resetSource (s : State) (src : Nat) : State :=
  match src with
  | 1 => s.resetMarch.resetBlockRegs .memctl
  | 2 => s.resetFlash.resetBlockRegs .flashctl
  | 3 => s.resetRec.resetBlockRegs .recstore
  | 4 => { s.resetBlockRegs (.uart 0) with uart0 := {} }
  | 5 => { s.resetBlockRegs (.uart 1) with uart1 := {} }
  | 6 => { s.resetRegs (fun a => blockOf a == some .svcwire && a != SVCWIRE.ADDR) with svc := {} }
  | 7 => { s.resetBlockRegs .evroute with ev := {} }
  | 8 => ({ s.resetBlockRegs .clkgen with pwr := { s.pwr with relockSys := false, relockTb := true } } : State).showClocks
  | 9 => s.resetTime
  | 26 => { s.resetBlockRegs .adcseq with frame := {} }
  | 27 => { s.resetBlockRegs .pineng with engines := Vector.replicate 10 {}, ss := {} }
  | 28 => { s.resetBlockRegs .schedld with sched := Vector.replicate 10 {}, copy := {} }
  | 32 => s.resetBlockRegs (.port 0)
  | 33 => s.resetBlockRegs (.port 1)
  | 34 => { s.resetBlockRegs .ringctl with ring := {} }
  | 35 => s.resetBlockRegs .linkq
  | 36 => { s.resetBlockRegs .dicteng with dict := {} }
  | 40 => ({ s.resetBlockRegs .rtc with rtc := {} } : State).showDisc
  | 41 => s.resetHarvest
  | 42 => { s.resetBlockRegs .touch with touch := {} }
  | 43 =>
    let wiping := s.get VAULTCTL.STAT_WIPING
    (s.resetBlockRegs .vaultctl).put VAULTCTL.STAT_WIPING wiping
  | 44 => s.restartCricket
  | _ =>
    if h : 16 ≤ src ∧ src < 26 then s.resetLane ⟨src - 16, by omega⟩ else s

/-- Every block of the Lane region (R20) returns to reset state; schedule memory keeps its contents (R296). -/
def State.resetLaneRegion (s : State) : State :=
  let s := s.forLanes fun n s => s.resetLane n
  ((s.resetSource 26).resetSource 27).resetSource 28

/-- Every block of the Link region returns to reset state (R296). -/
def State.resetLinkRegion (s : State) : State :=
  ((((s.resetSource 32).resetSource 33).resetSource 34).resetSource 35).resetSource 36

/-- The region arbiter receives a report from its source (R21, R296); `info`: forwarded as information, without policy. -/
def State.regionReport (s : State) (r : Report) (info : Bool) : State :=
  let g := srcRegion r.src
  let s := ((s.set (ERRAGG.REG_LATCH g) 1).set (ERRAGG.REG_LAST_SRC g) r.src).count (ERRAGG.REG_COUNT g) (ERRAGG.REG_OVF g)
  if info then s
  else
    let s := s.setBit ERRAGG.STAT_REGION_EV g true
    match s.get (ERRAGG.REG_POLICY g) with
    | 0 => s
    | 1 => s.chipReport { r with level := 3 }
    | _ =>
      let s := if g = 1 then s.resetLaneRegion else if g = 2 then s.resetLinkRegion else s
      s.chipReport { r with level := 3, info := true }

/-- Every lane that is not OFF coasts under R110 (R295): outputs low, integrators 0; ACTIVE becomes SUSPENDED, and its pending
actions fall (R71). In CAL and READY the outputs are low already. (DEDUCED, log entry 22). -/
def State.coastAll (s : State) : State :=
  s.forLanes fun n s =>
    let st := s.get (LANE.STAT_LSTATE n)
    if st = 3 ∨ st = 4 then
      (((s.setLstate n 4).setAction n 2).lane n fun l => { l with acts := [] }).actionOutputs n 2
    else s

/-- The channels that a report of EVROUTE concerns: that of the register it names, or all of them (R295).
(DESIGN CHOICE, log entry 117). -/
def deadChannels (detail : Nat) : Nat :=
  match (List.range 32).find? fun k => detail == EVROUTE.CH_SEL k || detail == EVROUTE.CH_CFG k with
  | some k => 2 ^ k
  | none => 2 ^ 32 - 1

/-- The state a unit is put in under CONTAIN where the report itself has not put it there (R295). -/
def State.containSource (s : State) (r : Report) : State :=
  match r.src with
  | 2 => { s with flashHeld := true }
  | 4 => { s.set (UART.CTRL_RX_EN 0) 0 with uart0 := { s.uart0 with shift := none } }
  | 5 => { s.set (UART.CTRL_RX_EN 1) 0 with uart1 := { s.uart1 with shift := none } }
  | 7 => { s with ev := { s.ev with dead := s.ev.dead ||| deadChannels r.detail } }
  | 8 => s.pllOff
  | 9 => s.servoRestart
  | 26 => s.coastAll
  | 32 => s.losePort 0
  | 33 => s.losePort 1
  | 34 => s.setRstate 0
  | _ => s

/-- A region arbiter accepts a report (R21, R22): it is recorded at its source and the source's policy applies. -/
def State.acceptReport (s : State) (r : Report) : State :=
  let i := r.src
  let s := (s.set (ERRAGG.SRC_LATCH i) 1).set (ERRAGG.SRC_CAUSE i) r.cause
  let s := (s.set (ERRAGG.DETAIL_DETAIL i) r.detail).set (ERRAGG.SRC_LEVEL i) r.level
  let s : State := { s with err := { s.err with
    acc := s.err.acc.set (srcRegion i) (s.tick + 1), recheck := (i, s.tick) :: s.err.recheck.filter fun r => r.1 != i } }
  if 48 ≤ i then s.chipReport { r with level := 3 }
  else match s.get (ERRAGG.SRC_POLICY i) with
    | 0 => s.containSource r
    | 1 => s.regionReport r false
    | _ => (s.resetSource i).regionReport r true

/-! ### The arbiters' clock (R22) -/

/-- The lowest pending source of a region. -/
def State.lowestPend (s : State) (g : Nat) : Option Report :=
  (List.range 64).findSome? fun i => if srcRegion i = g then s.err.pend.find? (fun r => r.src == i) else none

/-- A region's arbiter, in a clock in which it has taken none, takes the lowest pending source's report.
(DESIGN CHOICE, log entry 21). -/
def State.takeReport (s : State) (g : Nat) : State :=
  if !s.domOn .sys || s.err.acc.getD g 0 == s.tick + 1 then s
  else match s.lowestPend g with
    | none => s
    | some r =>
      let s : State := { s.set (ERRAGG.SRC_PEND r.src) 0 with err := { s.err with pend := s.err.pend.erase r } }
      s.acceptReport r

/-- The five region arbiters at the end of a tick (R22). -/
def State.takeReports (s : State) : State :=
  if s.err.pend.isEmpty then s else (List.range 5).foldl State.takeReport s

/-- PENDING_REPORT_ACCEPT (R22): a region's arbiter takes the lowest pending source's report. (DESIGN CHOICE, log entry 21). -/
def execPendingReportAccept (g : Fin 5) (s : State) : Ans := .next (s.takeReport g)

end Sys2Proof.Machine
end

