-- ==== Sys2Proof/Machine/CoreIrq.lean ====
section
/-!
DEFINITION. The interrupts that the blocks send to the application core (the IRQ_EN registers of every chapter), and those that can end
its WFI in Rest (R200).
-/
namespace Sys2Proof.Machine

/-- The system mailbox interrupts the application core (R228). -/
def State.mailIrq (s : State) : Bool :=
  (s.on TOUCH.MB_CTRL_C2A_FULL && s.on TOUCH.MB_CTRL_APP_IE_C2A) || (s.on TOUCH.MB_CTRL_A2C_DONE && s.on TOUCH.MB_CTRL_APP_IE_DONE)

/-- The TOUCH block's interrupt to the application core: its keys and the mailbox. -/
def State.touchIrqApp (s : State) : Bool := s.irqLine TOUCH.STAT TOUCH.IRQ_EN || s.mailIrq

/-- EVROUTE's interrupt to the application core (R312); an enable has effect while the core owns the channel (R313). -/
def State.evIrqApp (s : State) : Bool :=
  (List.range 32).any fun k =>
    s.bit EVROUTE.IRQ_STAT_EDGE k && s.bit EVROUTE.IRQ_EN_APP_EN k &&
    (s.on EVROUTE.GCTL_MODE || s.get (EVROUTE.CH_CFG_OWN k) == 0)

/-- A compare channel's interrupt (R66). -/
def State.cmpIrq (s : State) : Bool := (s.get MTIME.CMP_STAT_FIRED &&& s.get MTIME.IRQ_EN_CMP_EN) != 0

/-- The service wire interrupts the application core while it is the owner (R328). -/
def State.svcIrqApp (s : State) : Bool := !s.on SVCWIRE.CTRL_OWNER && s.svcIrq

/-- A block's interrupt to the application core. -/
def State.irqApp (s : State) (b : Block) : Bool :=
  match b with
  | .pwrctl => s.on PWRCTL.STAT_MODE_CHG && s.on PWRCTL.CTRL_MODE_IE
  | .evroute => s.evIrqApp
  | .uart n => s.irqLine (UART.STAT n) (UART.IRQ_EN n)
  | .svcwire => s.svcIrqApp
  | .memctl => s.irqLine MEMCTL.IRQ_STAT MEMCTL.IRQ_EN
  | .recstore => s.irqLine RECSTORE.IRQ_STAT RECSTORE.IRQ_EN
  | .erragg => s.irqLine ERRAGG.STAT ERRAGG.IRQ_EN
  | .mtime => (bits (s.readReg MTIME.STATUS) 31 28 &&& s.get MTIME.IRQ_EN_FLAG_EN) != 0 || s.cmpIrq
  | .rtc => s.irqLine RTC.STAT RTC.IRQ_EN
  | .harvest => s.irqLine HARVEST.STAT HARVEST.IRQ_EN
  | .touch => s.touchIrqApp
  | .vaultctl => s.irqLine VAULTCTL.STAT VAULTCTL.IRQ_EN
  | .lane n => s.irqLine (LANE.IRQ_STAT n) (LANE.IRQ_EN n) || s.irqLine (LANE.FLT_IRQ_STAT n) (LANE.FLT_IRQ_EN n)
  | .pineng => s.irqLine PINENG.IRQ_STAT PINENG.IRQ_EN
  | .schedld => s.irqLine SCHEDLD.IRQ_STAT SCHEDLD.IRQ_EN
  | .ringctl => s.irqLine RINGCTL.IRQ_STAT RINGCTL.IRQ_EN
  | .linkq => s.irqLine LINKQ.IRQ_STAT LINKQ.IRQ_EN
  | .dicteng => s.irqLine DICTENG.IRQ_STAT DICTENG.IRQ_EN
  | .mbox => s.on MBOX.STAT_IE && (s.on MBOX.STAT_DONE || s.on MBOX.WDOG_STAT_WARN)
  | .clkgen | .rstctl | .flashctl | .adcseq | .aonctl | .port _ => false

/-- An enabled interrupt of a block in PD_AON or PD_CRK, or of a compare channel, is asserted (R200). -/
def State.restIrq (s : State) : Bool :=
  ([.rtc, .harvest, .touch, .evroute, .svcwire, .vaultctl] : List Block).any s.irqApp || s.cmpIrq

end Sys2Proof.Machine
end

