-- ==== Sys2Proof/Machine/Power.lean ====
section
/-!
DEFINITION. Power modes and the sleep ladder (09_power_ladder.md): docking and detachment, the system clock, step requests,
entries, wakes and exits, Cricket's ladder commands, and the core brown-out.
-/
namespace Sys2Proof.Machine

/-! ### Docked and Detached (R193, R194) -/

/-- PD_SYS holds its registers: it is On, Gated or Retained. -/
def State.sysHeld (s : State) : Bool := s.dom .sys != .off

/-- What a change of mode shows in PWRCTL and to Cricket (R193, R194). -/
def State.modeChanged (s : State) : State :=
  let s := if s.sysHeld then (s.set PWRCTL.STAT_MODE_CHG 1).showMode else s
  if s.domOn .crk then s.set TOUCH.CRK_IRQ_STAT_MODE 1 else s

/-- AONCTL at a detachment (R193): DETACH_EV, DETACH_CNT, DETACH_AT; DEEPEST starts from the present step. -/
def State.noteDetach (s : State) : State :=
  let t := s.calSecs
  let s := ((s.set AONCTL.MODE_DOCKED 0).set AONCTL.MODE_VIN_NOW 0).set AONCTL.MODE_DETACH_EV 1
  let s := s.count AONCTL.DETACH_CNT_COUNT AONCTL.DETACH_CNT_OVF
  let s := (s.set AONCTL.DETACH_AT_LO_SECS (t % 2 ^ 32)).set AONCTL.AT_HI_DETACH_HI (t / 2 ^ 32)
  s.set AONCTL.STEP_DEEPEST s.pwr.step.code

/-- AONCTL at a docking (R194): DOCK_EV, DOCK_CNT, DOCK_AT. (DEDUCED, log entry 72). -/
def State.noteDock (s : State) : State :=
  let t := s.calSecs
  let s := ((s.set AONCTL.MODE_DOCKED 1).set AONCTL.MODE_VIN_NOW 1).set AONCTL.MODE_DOCK_EV 1
  let s := s.count AONCTL.DOCK_CNT_COUNT AONCTL.DOCK_CNT_OVF
  (s.set AONCTL.DOCK_AT_LO_SECS (t % 2 ^ 32)).set AONCTL.AT_HI_DOCK_HI (t / 2 ^ 32)

/-- VIN_ABSENT (R193, R210): the sequence of R193; with the cell not connected nothing supplies the device, which goes Cold.
(DEDUCED, log entry 67). -/
def execVinAbsent (s : State) : Ans :=
  if !s.on AONCTL.MODE_DOCKED then .next s
  else if s.cell ≠ 2 then .next s.goCold
  else
    let s := s.noteDetach.offLane.offLink.modeChanged.showDisc
    .next (if s.sysHeld then s.pllOff else s)

/-- VIN_PRESENT (R194, R210, R221, R223): ends Cold with a power-on reset; starts a main domain that a cold start holds; in Run
and Hover the clocks come back. (DEDUCED, log entry 67). -/
def execVinPresent (s : State) : Ans :=
  if s.pwr.step = .cold then .next (s.coldReset true)
  else if s.on AONCTL.MODE_DOCKED then .next s
  else
    let s := s.noteDock.endScLatch.modeChanged.showDisc
    if s.pwr.coldHold then .next s.coldMain
    else
      let s := if s.pwr.step = .run ∨ s.pwr.step = .hover then s.relockSys false
        else { s with pwr := { s.pwr with lateDock := true } }
      .next (s.wakeSrc (2 ^ 6))

/-! ### Clocks (R207, R208) -/

/-- SYS_CFG_WRITE (R207, SYS_CFG): a MUL and POST above twice CEIL MHz are refused; a new MUL, or a system PLL that does not run,
relocks; POST alone switches. A ceiling lowered below the running clock is kept by the always-on fast oscillator (R28).
(DEDUCED, log entry 68; DESIGN CHOICE, log entry 110). -/
def execSysCfgWrite (v : Word) (s : State) : Ans :=
  s.busDo CLKGEN.SYS_CFG fun s =>
    let x := v.toNat
    let s := s.setLegal CLKGEN.SYS_CFG_CEIL (.range 4 200) (bits x 31 24)
    let old := s.get CLKGEN.SYS_CFG_MUL
    let mul := if 16 ≤ bits x 4 0 then bits x 4 0 else old
    let post := bits x 17 16
    if 2 * s.get CLKGEN.SYS_CFG_CEIL * 2 ^ post < 25 * mul then
      let s := s.set CLKGEN.STAT_CEIL_REJ 1
      if s.overCeil then s.pllOff else s.showClocks
    else
      let s := (s.set CLKGEN.SYS_CFG_MUL mul).set CLKGEN.SYS_CFG_POST post
      if !s.on AONCTL.MODE_DOCKED then s.showClocks
      else if mul ≠ old ∨ !(s.on CLKGEN.STAT_SYS_LOCK || s.pwr.relockSys) then s.relockSys (mul != old)
      else s.showClocks

/-- PLL_LOCK_CONFIRMED (R207): 256 reference cycles below 0.1 %; PD_AON keeps the trim. -/
def execPllLockConfirmed (tb : Bool) (s : State) : Ans :=
  if !s.domOn .sys then .next s
  else if tb then
    if s.pwr.relockTb then
      .next (({ s with pwr := { s.pwr with relockTb := false, trimTb := true } } : State).set CLKGEN.STAT_TB_LOCK 1).showClocks
    else .next s
  else if s.pwr.relockSys then
    let s : State := { s with pwr := { s.pwr with relockSys := false, trimMul := some (s.get CLKGEN.SYS_CFG_MUL) } }
    .next ((s.set CLKGEN.STAT_SYS_LOCK 1).set CLKGEN.STAT_SRC 0).showClocks
  else .next s

/-! ### Stepping down (R197 to R199) -/

/-- The step that TARGET names. -/
def targetStep (t : Nat) : PStep :=
  match t with
  | 2 => .rest
  | 3 => .torpor
  | 4 => .diapause
  | 5 => .pupa
  | _ => .hover

/-- The first reason, in the order of R197, for which Rest or a deeper step is refused; 0 for none. -/
def State.stepReason (s : State) : Nat :=
  if (List.range 10).any fun n => s.get (LANE.STAT_LSTATE n) != 0 then 1
  else if (List.range 10).any fun n => s.get (PINENG.E_STAT_ESTATE n) == 1 || s.get (PINENG.E_STAT_ESTATE n) == 2 then 2
  else if s.get DICTENG.STAT_WS_ARMED ≠ 0 then 3
  else if s.get RINGCTL.STAT_RSTATE ≠ 0 ∧ s.get RINGCTL.STAT_RSTATE ≠ 5 then 4
  else if s.rs.cur.isSome ∨ s.rs.queued.isSome then 5
  else if s.flash.isSome ∨ s.dl.st = 1 then 6
  else 0

/-- WFI_STEP_REQUEST (R197, R264): the application core executes WFI with TARGET. -/
def execWfiStepRequest (s : State) : Ans :=
  if s.pwr.step ≠ .run || s.pwr.req.isSome || s.pwr.entry.isSome || s.pwr.exit.isSome then .next s
  else
    let t := targetStep (s.get PWRCTL.CTRL_TARGET)
    if t = .hover then .next (s.setStep .hover)
    else
      let r := s.stepReason
      if r ≠ 0 then .next (((s.set PWRCTL.STAT_REFUSED 1).set PWRCTL.STAT_REASON r).setStep .hover)
      else
        let s := s.marchAbort.setStep .hover
        .next { s with pwr := { s.pwr with req := some t } }

/-- Scarab has an operation of its own in progress (R198): the mailbox, a signature, a life-cycle change.
(DEDUCED, log entry 70). -/
def State.scarabBusy (s : State) : Bool := s.sc.op.isSome || s.sc.attStatus == 1 || s.sc.lcTarget.isSome

/-- SCARAB_PREPARE_ACK (R198, R264): the commit point; the log is flushed for Diapause and Pupa. It waits for Scarab's
operation and for a march test that is being aborted. (DEDUCED, log entry 70). -/
def execScarabPrepareAck (s : State) : Ans :=
  match s.pwr.req with
  | none => .next s
  | some t =>
    if s.scarabBusy || s.on MEMCTL.MT_STAT_BUSY || s.rs.cur.isSome then .next s
    else
      let s := if t = .diapause ∨ t = .pupa then s.flushLog else s
      .next { s with pwr := { s.pwr with req := none, entry := some t, held := 0, heldFirst := 0x1F } }

/-- What the entry into a step does (R198). -/
def State.enterStep (s : State) (t : PStep) : State :=
  match t with
  | .rest => (s.ringPark.setStep .rest).showClocks
  | .torpor =>
    let s : State := { s.ringPark with pwr := { s.pwr with saved := some (s.mt, s.slow), relockSys := false, relockTb := false } }
    ((((s.set CLKGEN.STAT_SYS_LOCK 0).set CLKGEN.STAT_TB_LOCK 0).set CLKGEN.STAT_SRC 2).setStep .torpor).showClocks
  | .diapause =>
    let k := s.get PWRCTL.RET_RET
    let s := (((s.set AONCTL.RET_LATCH_RET k).offLane.offLink.offMgt).offSys k).setStep .diapause
    ({ s with pwr := { s.pwr with relockSys := false, relockTb := false } } : State).showClocks.touchEnter
  | .pupa =>
    let s := if s.pwr.step = .diapause then s else s.set AONCTL.RET_LATCH_RET (s.get PWRCTL.RET_RET)
    let s := ((s.offLane.offLink.offMgt).offSys 0).offCrk.setStep .pupa
    { s with pwr := { s.pwr with relockSys := false, relockTb := false } }
  | t => s.setStep t

/-- The wake sources held since the commit point begin the exit at once (R198); in Diapause those for Cricket interrupt it
(R201). -/
def State.heldWake (s : State) (t : PStep) : State :=
  let h := s.pwr.held
  let first := s.pwr.heldFirst
  let irq := s.pwr.irqHeld
  let s : State := { s with pwr := { s.pwr with held := 0, heldFirst := 0x1F, irqHeld := false } }
  let crk := if t = .diapause then h &&& s.get AONCTL.WAKE_DEST_DEST else 0
  let main := if t = .diapause then h &&& (1023 - s.get AONCTL.WAKE_DEST_DEST) else h
  let s := if crk = 0 then s else s.set TOUCH.CRK_IRQ_STAT_WAKE 1
  if main = 0 then (if irq = true then { s with pwr := { s.pwr with exit := some t } } else s)
  else
    { s.recordWake (if getBit main first then first else lowestBit main) main t with pwr := { s.pwr with exit := some t } }

/-- STEP_ENTRY_COMPLETE (R198): the entry ends; a wake held meanwhile begins the exit. -/
def execStepEntryComplete (s : State) : Ans :=
  match s.pwr.entry with
  | none => .next s
  | some t =>
    let s := s.enterStep t
    .next (({ s with pwr := { s.pwr with entry := none } } : State).heldWake t)

/-- GO_PUPA (R199): AONCTL.CMD.GO_PUPA written 1; only Cricket, only in Diapause. (DEDUCED, log entry 70). -/
def execGoPupa (m : Master) (s : State) : Ans :=
  s.busBy m true AONCTL.CMD fun s =>
    if m = .cricket ∧ s.pwr.step = .diapause ∧ s.pwr.entry = none ∧ s.pwr.exit = none then
      { s with pwr := { s.pwr with entry := some .pupa, held := 0, heldFirst := 0x1F } }
    else s

/-- WAKE_MAIN (R199): AONCTL.CMD.WAKE_MAIN written 1; only Cricket, only in Diapause. -/
def execWakeMain (m : Master) (s : State) : Ans :=
  s.busBy m true AONCTL.CMD fun s => if m = .cricket ∧ s.pwr.step = .diapause then s.wakeSrc (2 ^ 9) else s

/-! ### Stepping up (R200 to R203) -/

/-- An interrupt that the application core has enabled (R198, R200): it ends the WFI of Hover; in Rest one of a block in PD_AON or
PD_CRK, or of a compare channel, does. Before the commit point it aborts a request, after that of Rest it is held.
(DEDUCED, log entry 71). -/
def State.coreWake (s : State) : State :=
  if s.pwr.entry.isSome then
    if s.pwr.entry = some .rest ∧ s.restIrq then { s with pwr := { s.pwr with irqHeld := true } } else s
  else if s.pwr.req.isSome then
    ({ s.set PWRCTL.STAT_ABORTED 1 with pwr := { s.pwr with req := none } } : State).setStep .run
  else if s.pwr.exit.isSome then s
  else if s.pwr.step = .hover ∨ (s.pwr.step = .rest ∧ s.restIrq) then { s with pwr := { s.pwr with exit := some s.pwr.step } }
  else s

/-- WAKE_EVENT (R198, R200, R201): wake sources that qualify in one slow-clock period; none of them with an enabled interrupt.
(DEDUCED, log entry 71). -/
def execWakeEvent (srcs : BitVec 10) (s : State) : Ans := .next (if srcs = 0 then s.coreWake else s.wakeSrc srcs.toNat)

/-- The watchdog restarts with a full period after an exit (R304). -/
def State.restartWdog (s : State) : State :=
  if s.on MBOX.WDOG_CTRL_EN then s.set MBOX.WDOG_STAT_REMAIN s.sc.wdPeriod else s

/-- Power returns from Torpor (R55, R203, R207). (DEDUCED, log entry 69). -/
def State.exitTorpor (s : State) : State :=
  let s := match s.pwr.saved with
    | some x => s.restoreMt x
    | none => s
  let s : State := { s with pwr := { s.pwr with saved := none, relockTb := true } }
  if s.on AONCTL.MODE_DOCKED then s.relockSys false else s.showClocks

/-- The main domain powers up from Diapause or Pupa (R203): measurement, the watchdog, and the core released to WAKE_VEC or as
a normal boot. -/
def State.exitDeep (s : State) : State :=
  let s := s.measureExit.showBoot.startWdog.showMode
  let pc := if s.on AONCTL.WAKE_VEC_VALID then s.get AONCTL.WAKE_VEC_VEC * 4
    else if s.boot.recovery then 0 else slotBase s.boot.slot + field (s.header s.boot.slot) 32 4
  let s : State := { s with boot := { s.boot with released := s.lifeCycle != 4, releasedAt := s.tick, startPc := pc, pmp := Vector.replicate 16 {} }
                            pwr := { s.pwr with relockTb := true } }
  let s := s.startPersisted
  if s.on AONCTL.MODE_DOCKED then s.relockSys false else s.showClocks

/-- The exit from Rest: a device that docked in Rest starts its system PLL (R194, R203). (DEDUCED, log entry 72). -/
def State.exitRest (s : State) : State :=
  if s.on AONCTL.MODE_DOCKED && !(s.on CLKGEN.STAT_SYS_LOCK || s.pwr.relockSys) then s.relockSys false else s

/-- STEP_EXIT_COMPLETE (R203): every exit ends in Run, which Cricket's MAIN_UP shows. -/
def execStepExitComplete (s : State) : Ans :=
  match s.pwr.exit with
  | none => .next s
  | some t =>
    let s := ({ s with pwr := { s.pwr with exit := none } } : State).setStep .run
    let s := match t with
      | .rest => s.exitRest.restartWdog.ringUnpark
      | .torpor => s.exitTorpor.restartWdog.ringUnpark
      | .diapause => s.exitDeep.touchExit
      | .pupa => s.exitDeep
      | _ => s
    .next (((s.set PWRCTL.STAT_LAST_EXIT t.code).set TOUCH.CRK_IRQ_STAT_MAIN_UP 1).showClocks.tamperReport)

/-! ### Core brown-out (R206) -/

/-- The core regulator is on: not in Pupa or Cold, and in Diapause only with a bank retained (R196). (DEDUCED, log entry 70). -/
def State.coreSupplied (s : State) : Bool :=
  match s.pwr.step with
  | .cold | .pupa => false
  | .diapause => s.get AONCTL.RET_LATCH_RET != 0
  | _ => true

/-- CORE_BROWN_OUT (R206, R329): VCORE below 0.62 V for 2 µs. -/
def execCoreBrownOut (s : State) : Ans :=
  if !s.coreSupplied then .next s
  else
    let deep := s.pwr.step = .diapause
    let s := s.powerCycleMain 5
    let s := (if deep then s.touchExit else s).count AONCTL.BOD_CNT_COUNT AONCTL.BOD_CNT_OVF
    .next ((s.set TOUCH.CRK_IRQ_STAT_BOD 1).showClocks)

end Sys2Proof.Machine
end

