-- ==== Sys2Proof/Machine/ServiceWire.lean ====
section
/-!
DEFINITION. The service wire (15_events_serial.md, R324 to R328): the address match, envelopes written and read, clock
stretching, and responses made by software.
-/
namespace Sys2Proof.Machine

/-- SCL is held low after the address byte until RDY is 1 and PD_CRK is On (R324). -/
def State.sclHeld (s : State) : Bool := !(s.on SVCWIRE.CTRL_RDY && s.domOn .crk) && !s.svc.dead

/-- SVC_ADDRESS_MATCH (R200, R324): an address byte; the device's own wakes and is acknowledged from Run to Pupa. -/
def execSvcAddressMatch (addr : BitVec 7) (rd : Bool) (s : State) : Ans :=
  if s.pwr.step = .cold then .next s
  else if addr.toNat ≠ s.get SVCWIRE.ADDR_ADDR then .next (s.emit (.ack false))
  else
    let s : State := { s with svc := { s.svc with
      xact := some rd, dead := false, refuse := !rd && s.on SVCWIRE.STAT_BUSY, heldAt := s.tick } }
    .next ((s.wakeSrc (2 ^ 0)).emit (.ack true))

/-- The message's bytes into RXBUF (R328). -/
def State.putRxBuf (s : State) (m : List Byte) : State := (s.pokes 0x40006400 m).set SVCWIRE.STAT_RX_LEN m.length

/-- An unread response is discarded (R326). -/
def State.dropResp (s : State) : State :=
  if s.svc.resp.isSome then
    { (s.set SVCWIRE.STAT_RESP_RDY 0).set SVCWIRE.STAT_DROP 1 with svc := { s.svc with resp := none } }
  else s

/-- A valid envelope (R326, R328): served by DICTENG, or by software. -/
def State.svcRequest (s : State) (m : List Byte) : State :=
  let s := (s.dropResp.putRxBuf m).set SVCWIRE.STAT_BUSY 1
  if !s.on SVCWIRE.CTRL_ROUTE && s.domOn .link && s.on DICTENG.CTRL_EN_SVC then s.acceptReq .svc m
  else s.set SVCWIRE.STAT_REQ 1

/-- An invalid envelope (R322, R326). -/
def State.svcEnvErr (s : State) : State :=
  let s : State := { s with svc := { s.svc with envErr := true } }
  (s.set SVCWIRE.STAT_ENV_EV 1).count SVCWIRE.ENV_ERR_COUNT SVCWIRE.ENV_ERR_OVF

/-- The transaction ends. -/
def State.svcStop (s : State) : State := { s with svc := { s.svc with xact := none, dead := false, refuse := false } }

/-- SVC_WRITE_TRANSACTION (R325, R326): the data bytes of a write up to STOP or a repeated START; the last byte's acknowledge.
(DEDUCED, log entry 102). -/
def execSvcWriteTransaction (d : List Byte) (s : State) : Ans :=
  if s.svc.xact ≠ some false || s.sclHeld then .next s
  else if s.svc.dead then .next (s.svcStop.emit (.ack false))
  else if s.svc.refuse then .next ((s.svcStop.set SVCWIRE.STAT_OVR 1).emit (.ack false))
  else
    let s := s.svcStop.emit (.ack (decide (d.length ≤ 516)))
    match unenvelope (d.take 516) with
    | some m => .next (s.svcRequest m)
    | none => .next s.svcEnvErr

/-- `n` bytes of a list, then 0xFF. -/
def fillFF (n : Nat) (l : List Byte) : List Byte := (l ++ List.replicate n 0xFF).take n

/-- SVC_READ_TRANSACTION (R325, R327): a read of `n` bytes, the status byte first. (DEDUCED, log entry 102). -/
def execSvcReadTransaction (n : Nat) (s : State) : Ans :=
  if s.svc.xact ≠ some true || s.sclHeld then .next s
  else if s.svc.dead then .next (s.svcStop.emit (.svc (fillFF n [])))
  else
    let s := s.svcStop
    if s.svc.envErr then
      let s : State := if n = 0 then s else { s with svc := { s.svc with envErr := false } }
      .next (s.emit (.svc (fillFF n [0x03])))
    else if s.on SVCWIRE.STAT_BUSY then .next (s.emit (.svc (fillFF n [0x01])))
    else match s.svc.resp with
      | none => .next (s.emit (.svc (fillFF n [0x00])))
      | some e =>
        let s' := s.emit (.svc (fillFF n (0x02 :: e)))
        if n < e.length + 1 then .next s'
        else .next { s'.set SVCWIRE.STAT_RESP_RDY 0 with svc := { s'.svc with resp := none } }

/-- SVC_STRETCH_TIMEOUT (R325): SCL has been held for STRETCH_LIM ms. -/
def execSvcStretchTimeout (s : State) : Ans :=
  if s.svc.xact.isSome && s.sclHeld && s.domOn .crk &&
      decide (s.svc.heldAt + s.get SVCWIRE.CTRL_STRETCH_LIM * 250000 ≤ s.tick) then
    .next { s.set SVCWIRE.STAT_STRETCH_TO 1 with svc := { s.svc with dead := true } }
  else .next s

/-- SVC_RESP_GO (R328): RESP written with GO = 1; `v` gives LEN. -/
def execSvcRespGo (v : Word) (s : State) : Ans :=
  s.busDo SVCWIRE.RESP fun s =>
    let n := bits v.toNat 9 0
    let s := s.set SVCWIRE.RESP_LEN n
    if !s.on SVCWIRE.STAT_REQ || decide (n < 12) || decide (512 < n) then s
    else s.sendBack .svc (s.bytes 0x40006600 n)

end Sys2Proof.Machine
end

