-- ==== Sys2Proof/Machine/Dispatch.lean ====
section
/-!
DEFINITION. One arm per command of the table: its meaning.
-/
namespace Sys2Proof.Machine

def exec (i : Instr) (s : State) : Host.Outcome State Fault Refusal :=
  match i with
  | .registerWrite m mach sz a v => Sys2Proof.Machine.execRegisterWrite m mach sz a v s
  | .memoryAccess m mach sz a wr e grant => Sys2Proof.Machine.execMemoryAccess m mach sz a wr e grant s
  | .pendingReportAccept g => Sys2Proof.Machine.execPendingReportAccept g s
  | .livenessRecheck src fails => Sys2Proof.Machine.execLivenessRecheck src fails s
  | .busTimeout a => Sys2Proof.Machine.execBusTimeout a s
  | .vinAbsent => Sys2Proof.Machine.execVinAbsent s
  | .vinPresent => Sys2Proof.Machine.execVinPresent s
  | .sysCfgWrite v => Sys2Proof.Machine.execSysCfgWrite v s
  | .pllLockConfirmed tb => Sys2Proof.Machine.execPllLockConfirmed tb s
  | .cycleStartReceived p t f crcOk => Sys2Proof.Machine.execCycleStartReceived p t f crcOk s
  | .cycleStartMissed => Sys2Proof.Machine.execCycleStartMissed s
  | .holdoverExpiry => Sys2Proof.Machine.execHoldoverExpiry s
  | .servoRestart => Sys2Proof.Machine.execServoRestart s
  | .pullLimWrite v => Sys2Proof.Machine.execPullLimWrite v s
  | .delayRequestSend p t1 => Sys2Proof.Machine.execDelayRequestSend p t1 s
  | .dlyFrameReceived p f r t3 => Sys2Proof.Machine.execDlyFrameReceived p f r t3 s
  | .mtSyncInEdge t rising => Sys2Proof.Machine.execMtSyncInEdge t rising s
  | .syncinTimeout => Sys2Proof.Machine.execSyncinTimeout s
  | .mtReadCapture => Sys2Proof.Machine.execMtReadCapture s
  | .syncoutArm hi => Sys2Proof.Machine.execSyncoutArm hi s
  | .mtSyncOutPulse => Sys2Proof.Machine.execMtSyncOutPulse s
  | .cmpArm c hi => Sys2Proof.Machine.execCmpArm c hi s
  | .cmpDisarm mask => Sys2Proof.Machine.execCmpDisarm mask s
  | .cmpFire c => Sys2Proof.Machine.execCmpFire c s
  | .calendarPublish => Sys2Proof.Machine.execCalendarPublish s
  | .copyStart v => Sys2Proof.Machine.execCopyStart v s
  | .copyDone => Sys2Proof.Machine.execCopyDone s
  | .verify n => Sys2Proof.Machine.execVerify n s
  | .verifyDone n => Sys2Proof.Machine.execVerifyDone n s
  | .arm n => Sys2Proof.Machine.execArm n s
  | .cancel n => Sys2Proof.Machine.execCancel n s
  | .invalidate n => Sys2Proof.Machine.execInvalidate n s
  | .epochSwitch n => Sys2Proof.Machine.execEpochSwitch n s
  | .loadData n d => Sys2Proof.Machine.execLoadData n d s
  | .segmentActionsFire n => Sys2Proof.Machine.execSegmentActionsFire n s
  | .laneTick n isa isb oc flt => Sys2Proof.Machine.execLaneTick n isa isb oc flt s
  | .adcseqRunStart v => Sys2Proof.Machine.execAdcseqRunStart v s
  | .adcseqRunStop v => Sys2Proof.Machine.execAdcseqRunStop v s
  | .adcseqPeriodWrite v => Sys2Proof.Machine.execAdcseqPeriodWrite v s
  | .laneRegisterWrite n off v => Sys2Proof.Machine.execLaneRegisterWrite n off v s
  | .quadEdgeAccepted n a b => Sys2Proof.Machine.execQuadEdgeAccepted n a b s
  | .indexEdge n => Sys2Proof.Machine.execIndexEdge n s
  | .qcntWrite n v => Sys2Proof.Machine.execQcntWrite n v s
  | .laneEnable n v => Sys2Proof.Machine.execLaneEnable n v s
  | .laneDisable n v => Sys2Proof.Machine.execLaneDisable n v s
  | .calEnd n => Sys2Proof.Machine.execCalEnd n s
  | .ocTrip n => Sys2Proof.Machine.execOcTrip n s
  | .drvFault n => Sys2Proof.Machine.execDrvFault n s
  | .openDetect n => Sys2Proof.Machine.execOpenDetect n s
  | .senseStuckDetect n => Sys2Proof.Machine.execSenseStuckDetect n s
  | .sensePlausDetect n => Sys2Proof.Machine.execSensePlausDetect n s
  | .senseSumDetect n => Sys2Proof.Machine.execSenseSumDetect n s
  | .feDetect n => Sys2Proof.Machine.execFeDetect n s
  | .holdSafeEnd n => Sys2Proof.Machine.execHoldSafeEnd n s
  | .resume n v => Sys2Proof.Machine.execResume n v s
  | .resumeAt n => Sys2Proof.Machine.execResumeAt n s
  | .act n => Sys2Proof.Machine.execAct n s
  | .sample n balls => Sys2Proof.Machine.execSample n balls s
  | .waitpin n balls => Sys2Proof.Machine.execWaitpin n balls s
  | .waitpinComplete n balls => Sys2Proof.Machine.execWaitpinComplete n balls s
  | .shift n => Sys2Proof.Machine.execShift n s
  | .shiftComplete n din => Sys2Proof.Machine.execShiftComplete n din s
  | .push n => Sys2Proof.Machine.execPush n s
  | .pushStallEnd n => Sys2Proof.Machine.execPushStallEnd n s
  | .pull n => Sys2Proof.Machine.execPull n s
  | .pullStallEnd n => Sys2Proof.Machine.execPullStallEnd n s
  | .jmp n => Sys2Proof.Machine.execJmp n s
  | .djnz n => Sys2Proof.Machine.execDjnz n s
  | .evt n => Sys2Proof.Machine.execEvt n s
  | .sync n => Sys2Proof.Machine.execSync n s
  | .byDeadlineTimeout n => Sys2Proof.Machine.execByDeadlineTimeout n s
  | .baseStale n => Sys2Proof.Machine.execBaseStale n s
  | .engineStart n v => Sys2Proof.Machine.execEngineStart n v s
  | .engineArm n v => Sys2Proof.Machine.execEngineArm n v s
  | .engineStop n v => Sys2Proof.Machine.execEngineStop n v s
  | .programStoreWrite w v => Sys2Proof.Machine.execProgramStoreWrite w v s
  | .inject n v => Sys2Proof.Machine.execInject n v s
  | .injectedExecute n balls => Sys2Proof.Machine.execInjectedExecute n balls s
  | .txfifoWrite n v => Sys2Proof.Machine.execTxfifoWrite n v s
  | .rxfifoRead n => Sys2Proof.Machine.execRxfifoRead n s
  | .ssGo v => Sys2Proof.Machine.execSsGo v s
  | .ssCancel => Sys2Proof.Machine.execSsCancel s
  | .syncStartInstant => Sys2Proof.Machine.execSyncStartInstant s
  | .portLost p why => Sys2Proof.Machine.execPortLost p why s
  | .portSignalGained p => Sys2Proof.Machine.execPortSignalGained p s
  | .linkUsable p => Sys2Proof.Machine.execLinkUsable p s
  | .linkHeal p => Sys2Proof.Machine.execLinkHeal p s
  | .cycleStartSend => Sys2Proof.Machine.execCycleStartSend s
  | .slotPayloadFetch => Sys2Proof.Machine.execSlotPayloadFetch s
  | .slotSend busy => Sys2Proof.Machine.execSlotSend busy s
  | .slotReceived p f r => Sys2Proof.Machine.execSlotReceived p f r s
  | .tokSend => Sys2Proof.Machine.execTokSend s
  | .tokReceived p pos => Sys2Proof.Machine.execTokReceived p pos s
  | .acyclicFrameReceived p f r => Sys2Proof.Machine.execAcyclicFrameReceived p f r s
  | .acyclicTxLost => Sys2Proof.Machine.execAcyclicTxLost s
  | .queueTailWrite q v => Sys2Proof.Machine.execQueueTailWrite q v s
  | .ringEnable v => Sys2Proof.Machine.execRingEnable v s
  | .ringDisable v => Sys2Proof.Machine.execRingDisable v s
  | .listenTimeout => Sys2Proof.Machine.execListenTimeout s
  | .followerTimeout => Sys2Proof.Machine.execFollowerTimeout s
  | .clmSend => Sys2Proof.Machine.execClmSend s
  | .clmReceived p uid prio run crcOk => Sys2Proof.Machine.execClmReceived p uid prio run crcOk s
  | .ringResetWrite => Sys2Proof.Machine.execRingResetWrite s
  | .rstReceived p => Sys2Proof.Machine.execRstReceived p s
  | .sleepGo v => Sys2Proof.Machine.execSleepGo v s
  | .sleepCancel => Sys2Proof.Machine.execSleepCancel s
  | .ringSleep => Sys2Proof.Machine.execRingSleep s
  | .heldWake => Sys2Proof.Machine.execHeldWake s
  | .wakeReq v => Sys2Proof.Machine.execWakeReq v s
  | .ringActivityWake p => Sys2Proof.Machine.execRingActivityWake p s
  | .read m => Sys2Proof.Machine.execRead m s
  | .write m => Sys2Proof.Machine.execWrite m s
  | .describe m => Sys2Proof.Machine.execDescribe m s
  | .stage m => Sys2Proof.Machine.execStage m s
  | .commit m => Sys2Proof.Machine.execCommit m s
  | .discard m => Sys2Proof.Machine.execDiscard m s
  | .writeSetApply w => Sys2Proof.Machine.execWriteSetApply w s
  | .snap m => Sys2Proof.Machine.execSnap m s
  | .snapshotCapture => Sys2Proof.Machine.execSnapshotCapture s
  | .collectionWindowEnd => Sys2Proof.Machine.execCollectionWindowEnd s
  | .recollect m => Sys2Proof.Machine.execRecollect m s
  | .barrier m => Sys2Proof.Machine.execBarrier m s
  | .publish src index sub value => Sys2Proof.Machine.execPublish src index sub value s
  | .requestForwardTimeout => Sys2Proof.Machine.execRequestForwardTimeout s
  | .appResponse v => Sys2Proof.Machine.execAppResponse v s
  | .appTimeout => Sys2Proof.Machine.execAppTimeout s
  | .locGo => Sys2Proof.Machine.execLocGo s
  | .storePersisted via tid => Sys2Proof.Machine.execStorePersisted via tid s
  | .eraseStored via tid => Sys2Proof.Machine.execEraseStored via tid s
  | .dictFullReset => Sys2Proof.Machine.execDictFullReset s
  | .wfiStepRequest => Sys2Proof.Machine.execWfiStepRequest s
  | .scarabPrepareAck => Sys2Proof.Machine.execScarabPrepareAck s
  | .stepEntryComplete => Sys2Proof.Machine.execStepEntryComplete s
  | .wakeEvent srcs => Sys2Proof.Machine.execWakeEvent srcs s
  | .stepExitComplete => Sys2Proof.Machine.execStepExitComplete s
  | .goPupa m => Sys2Proof.Machine.execGoPupa m s
  | .wakeMain m => Sys2Proof.Machine.execWakeMain m s
  | .coreBrownOut => Sys2Proof.Machine.execCoreBrownOut s
  | .vocSampleStart => Sys2Proof.Machine.execVocSampleStart s
  | .vocSampleEnd pvMv => Sys2Proof.Machine.execVocSampleEnd pvMv s
  | .harvestSampleCmd => Sys2Proof.Machine.execHarvestSampleCmd s
  | .fracWrite v => Sys2Proof.Machine.execFracWrite v s
  | .batComparison batMv vstoreMv => Sys2Proof.Machine.execBatComparison batMv vstoreMv s
  | .ntcMeasure r => Sys2Proof.Machine.execNtcMeasure r s
  | .cellShortCircuit => Sys2Proof.Machine.execCellShortCircuit s
  | .scRecovery => Sys2Proof.Machine.execScRecovery s
  | .starterHandover => Sys2Proof.Machine.execStarterHandover s
  | .boostDropout => Sys2Proof.Machine.execBoostDropout s
  | .coldStartResetRelease => Sys2Proof.Machine.execColdStartResetRelease s
  | .coldStartPorReassert => Sys2Proof.Machine.execColdStartPorReassert s
  | .cellConnect => Sys2Proof.Machine.execCellConnect s
  | .cricketRun => Sys2Proof.Machine.execCricketRun s
  | .cricketWakeIrq => Sys2Proof.Machine.execCricketWakeIrq s
  | .adcStart trig => Sys2Proof.Machine.execAdcStart trig s
  | .adcSequenceDone codes => Sys2Proof.Machine.execAdcSequenceDone codes s
  | .mbSend m a2c => Sys2Proof.Machine.execMbSend m a2c s
  | .mbAck m a2c => Sys2Proof.Machine.execMbAck m a2c s
  | .touchScanStart => Sys2Proof.Machine.execTouchScanStart s
  | .touchScanEnd q => Sys2Proof.Machine.execTouchScanEnd q s
  | .touchEnable v => Sys2Proof.Machine.execTouchEnable v s
  | .touchDisable v => Sys2Proof.Machine.execTouchDisable v s
  | .recalAll v => Sys2Proof.Machine.execRecalAll v s
  | .recal v => Sys2Proof.Machine.execRecal v s
  | .keymaskWrite hi v => Sys2Proof.Machine.execKeymaskWrite hi v s
  | .rtcSecondBoundary => Sys2Proof.Machine.execRtcSecondBoundary s
  | .rtcShadowRead m r => Sys2Proof.Machine.execRtcShadowRead m r s
  | .rtcShadowExpiry m => Sys2Proof.Machine.execRtcShadowExpiry m s
  | .rtcSet => Sys2Proof.Machine.execRtcSet s
  | .rtcSetCancel => Sys2Proof.Machine.execRtcSetCancel s
  | .rtcShift v => Sys2Proof.Machine.execRtcShift v s
  | .shiftCountStep => Sys2Proof.Machine.execShiftCountStep s
  | .disciplineWindowEnd => Sys2Proof.Machine.execDisciplineWindowEnd s
  | .trimWrite v => Sys2Proof.Machine.execTrimWrite v s
  | .trimAccumulatorCarry => Sys2Proof.Machine.execTrimAccumulatorCarry s
  | .moistureTick => Sys2Proof.Machine.execMoistureTick s
  | .mcCountWrite n v => Sys2Proof.Machine.execMcCountWrite n v s
  | .marchGo v => Sys2Proof.Machine.execMarchGo v s
  | .marchAbort => Sys2Proof.Machine.execMarchAbort s
  | .marchComplete r => Sys2Proof.Machine.execMarchComplete r s
  | .vaultWipeCmd m mach => Sys2Proof.Machine.execVaultWipeCmd m mach s
  | .vaultWipeComplete => Sys2Proof.Machine.execVaultWipeComplete s
  | .program ch => Sys2Proof.Machine.execProgram ch s
  | .erase ch => Sys2Proof.Machine.execErase ch s
  | .append ch => Sys2Proof.Machine.execAppend ch s
  | .find ch => Sys2Proof.Machine.execFind ch s
  | .groupBegin ch => Sys2Proof.Machine.execGroupBegin ch s
  | .groupClose ch => Sys2Proof.Machine.execGroupClose ch s
  | .groupAbort ch => Sys2Proof.Machine.execGroupAbort ch s
  | .compact ch => Sys2Proof.Machine.execCompact ch s
  | .recstoreAbort ch done => Sys2Proof.Machine.execRecstoreAbort ch done s
  | .recstoreCommandDone bad => Sys2Proof.Machine.execRecstoreCommandDone bad s
  | .mount => Sys2Proof.Machine.execMount s
  | .marginScan weak => Sys2Proof.Machine.execMarginScan weak s
  | .attest => Sys2Proof.Machine.execAttest s
  | .logFlush => Sys2Proof.Machine.execLogFlush s
  | .logRead => Sys2Proof.Machine.execLogRead s
  | .challenge => Sys2Proof.Machine.execChallenge s
  | .nonceWrite via tid d => Sys2Proof.Machine.execNonceWrite via tid d s
  | .attestationSigned => Sys2Proof.Machine.execAttestationSigned s
  | .tempSample s0 s1 s2 => Sys2Proof.Machine.execTempSample s0 s1 s2 s
  | .supplyLow vaon => Sys2Proof.Machine.execSupplyLow vaon s
  | .lifeCycleChange via tid d => Sys2Proof.Machine.execLifeCycleChange via tid d s
  | .lifeCycleFusesBurned => Sys2Proof.Machine.execLifeCycleFusesBurned s
  | .ownerKeyHashWrite via tid d => Sys2Proof.Machine.execOwnerKeyHashWrite via tid d s
  | .debugUnlock via tid d => Sys2Proof.Machine.execDebugUnlock via tid d s
  | .staticTamper k level => Sys2Proof.Machine.execStaticTamper k level s
  | .pairTamper => Sys2Proof.Machine.execPairTamper s
  | .meshTamper => Sys2Proof.Machine.execMeshTamper s
  | .logReport => Sys2Proof.Machine.execLogReport s
  | .logPeriodicFlush => Sys2Proof.Machine.execLogPeriodicFlush s
  | .logClearLost via tid => Sys2Proof.Machine.execLogClearLost via tid s
  | .wdogKick v => Sys2Proof.Machine.execWdogKick v s
  | .wdogWarn => Sys2Proof.Machine.execWdogWarn s
  | .wdogExpiry pc => Sys2Proof.Machine.execWdogExpiry pc s
  | .fire m mach v => Sys2Proof.Machine.execFire m mach v s
  | .channelEdge k => Sys2Proof.Machine.execChannelEdge k s
  | .channelConfigWrite m mach k cfg v => Sys2Proof.Machine.execChannelConfigWrite m mach k cfg v s
  | .gctlWrite m mach v => Sys2Proof.Machine.execGctlWrite m mach v s
  | .uartCharReceived n c => Sys2Proof.Machine.execUartCharReceived n c s
  | .uartBreak n => Sys2Proof.Machine.execUartBreak n s
  | .uartRxRead n => Sys2Proof.Machine.execUartRxRead n s
  | .uartTxWrite n v => Sys2Proof.Machine.execUartTxWrite n v s
  | .uartCharSent n => Sys2Proof.Machine.execUartCharSent n s
  | .deLagEnd => Sys2Proof.Machine.execDeLagEnd s
  | .muteReq n => Sys2Proof.Machine.execMuteReq n s
  | .envelopeTimeout => Sys2Proof.Machine.execEnvelopeTimeout s
  | .svcAddressMatch addr rd => Sys2Proof.Machine.execSvcAddressMatch addr rd s
  | .svcWriteTransaction d => Sys2Proof.Machine.execSvcWriteTransaction d s
  | .svcReadTransaction n => Sys2Proof.Machine.execSvcReadTransaction n s
  | .svcStretchTimeout => Sys2Proof.Machine.execSvcStretchTimeout s
  | .svcRespGo v => Sys2Proof.Machine.execSvcRespGo v s
  | .powerOnReset vin => Sys2Proof.Machine.execPowerOnReset vin s
  | .pinReset low => Sys2Proof.Machine.execPinReset low s
  | .swrst m mach v => Sys2Proof.Machine.execSwrst m mach v s
  | .startUp strap marchFail => Sys2Proof.Machine.execStartUp strap marchFail s
  | .downloadBegin via tid => Sys2Proof.Machine.execDownloadBegin via tid s
  | .downloadSlotErased => Sys2Proof.Machine.execDownloadSlotErased s
  | .downloadData via tid d ok => Sys2Proof.Machine.execDownloadData via tid d ok s
  | .downloadFinish via tid => Sys2Proof.Machine.execDownloadFinish via tid s
  | .downloadVerified => Sys2Proof.Machine.execDownloadVerified s
  | .downloadActivate via tid => Sys2Proof.Machine.execDownloadActivate via tid s
  | .downloadAbort via tid => Sys2Proof.Machine.execDownloadAbort via tid s
  | .activationInstant => Sys2Proof.Machine.execActivationInstant s
  | .healthConfirm => Sys2Proof.Machine.execHealthConfirm s
  | .trialTimeout => Sys2Proof.Machine.execTrialTimeout s
  | .promotePendingWrite => Sys2Proof.Machine.execPromotePendingWrite s
  | .flashProgram v => Sys2Proof.Machine.execFlashProgram v s
  | .flashEraseSector v => Sys2Proof.Machine.execFlashEraseSector v s
  | .flashEraseSlot v => Sys2Proof.Machine.execFlashEraseSlot v s
  | .flashCommandDone bad => Sys2Proof.Machine.execFlashCommandDone bad s
  | .dictengVaultTimeout => Sys2Proof.Machine.execDictengVaultTimeout s
  | .livenessTimeout src => Sys2Proof.Machine.execLivenessTimeout src s
  | .mailboxOperationDone => Sys2Proof.Machine.execMailboxOperationDone s
  | .tapAccess a => Sys2Proof.Machine.execTapAccess a s

end Sys2Proof.Machine
end

