-- ==== Sys2Proof/Machine/Tick.lean ====
section
/-!
DEFINITION. The timebase tick that passes when no command waits (R45, R47): what the blocks do at a tick by themselves, each only
while its domain is clocked (R29, R38).
-/
namespace Sys2Proof.Machine

/-- The field lies in a block whose register clock is the always-on slow one (R37). -/
def slowClocked (k : Nat) : Bool :=
  match blockOf (k / 32) with
  | some b => b.dom == .aon
  | none => false

/-- A new tick begins: what was set in the tick before no longer meets a clear of the same clock (R10, R16).
(DESIGN CHOICE, log entry 108). -/
def State.newClock (s : State) : State :=
  { s with now := { raised := s.now.raised.filter (fun e => slowClocked e.1), counted := s.now.counted.filter slowClocked } }

/-- A new slow-clock period begins for the blocks on the slow clock (R10, R16). -/
def State.endSlowClock (s : State) : State :=
  { s with now := { raised := s.now.raised.filter (fun e => !slowClocked e.1)
                    counted := s.now.counted.filter (fun k => !slowClocked k) } }

/-- MT to 1 ns at an edge of the slow clock (R247). -/
def State.noteEdge (s : State) : State := { s with rtc := { s.rtc with edgeMt := s.mt + (Config.slowNs s.tick).toNat } }

/-- What the lane region does at a tick: the frames, the lanes and the pin engines, or nothing while its clock stands (R29). -/
def State.tickRegion (s : State) : State :=
  if s.domOn .lane then s.tickFrames.tickLanes.tickEngines else s.holdFrames

/-- CRK_CTRL.SLEEPING (R226): while Cricket runs and no interrupt of its is asserted, its program decides whether it waits in WFI.
(DESIGN CHOICE, log entry 115). -/
def State.tickCricket (s : State) : State :=
  if !(s.domOn .crk && s.on TOUCH.CRK_CTRL_RUN) then s
  else s.put TOUCH.CRK_CTRL_SLEEPING (b2n (Config.cricketWaits s.tick && !s.crkIrq))

/-- DICTENG answers the waiting messages that no command row executes (R174, R176). -/
def State.tickDict (s : State) : State := if s.dictServes then s.serveBad s.dict.reqs.length else s

/-- One 4 ns timebase tick with no command (R45, R47): MT counts except in UNLOCKED, and where the timebase PLL is off (R55).
(DESIGN CHOICE, log entry 8; DESIGN CHOICE, log entry 10). -/
def State.idleTick (s : State) : State :=
  let s := s.takeReports.newClock
  let s := (if s.domOn .lane then s.noteWaits.noteDrives else s).noteChannels
  let run := s.mtRuns && s.get MTIME.STATUS_STATE != 0
  let s : State := { s with tick := s.tick + 1, mt := if run then (s.mt + 4) % 2 ^ 64 else s.mt }
  let s := (if s.mtRuns then s.tickTime else s).tickDue.tickRegion.tickChannels.tickDict.tickCricket
  let s := if s.tick % 250000 = 0 && s.domOn .sys then s.tickMs else s
  if Config.slowEdge s.tick then s.endSlowClock.noteEdge.tickSlow else s

end Sys2Proof.Machine
end

