-- ==== Sys2Proof/Machine/Step.lean ====
section
/-!
DEFINITION. One step: the command at the front of the queue, or, with no command waiting, one timebase tick.
-/
namespace Sys2Proof.Machine

/-- The front command runs with the rest of the queue; an empty queue lets one 4 ns timebase tick pass (DESIGN CHOICE, log
entries 1 and 10). (DESIGN CHOICE, log entry 1; DESIGN CHOICE, log entry 10). -/
def step (s : State) : Host.Outcome State Fault Refusal :=
  match s.pending with
  | [] => .next s.idleTick
  | c :: rest => exec c { s with pending := rest }

/-- The state with the command that a word spells in front of the queue; no word spells one. -/
def State.withFetchWord (s : State) (nbits w : Nat) : State :=
  match decodeTableWord nbits w with
  | some c => { s with pending := c :: s.pending }
  | none => s

end Sys2Proof.Machine
end

