-- ==== Sys2Proof/Machine/Balls.lean ====
section
/-!
DEFINITION. The balls of the package and what the device does to each of them at every nanosecond (17_pins_electrical.md, R346, with
R32, R59 to R61, R98, R120, R157, R230, R231 and R321). Nothing here is state: a ball's state follows from the machine's.
-/
namespace Sys2Proof.Machine

/-- The balls of R346, but the supplies. -/
inductive Ball where
  /-- LANEn_PWM_A to LANEn_PWM_D, LANEn_IO0 to LANEn_IO5, and LANEn_ISA, ISB and FLT_N. -/
  | pwm (n : Fin 10) (k : Fin 4)
  | io (n : Fin 10) (j : Fin 6)
  | isa (n : Fin 10)
  | isb (n : Fin 10)
  | fltN (n : Fin 10)
  /-- The pairs PA_TX and PB_TX, PA_RX and PB_RX. -/
  | ringTx (p : Fin 2)
  | ringRx (p : Fin 2)
  | bypassHold | mtSyncIn | mtSyncOut | refOut | svcScl | svcSda
  | uartTx (u : Fin 2)
  | uartRx (u : Fin 2)
  | uart1De
  | tchD (r : Fin 8)
  | tchS (c : Fin 8)
  | xt32 | xtm | resetN | bootRec
  | tamper (k : Fin 2)
  | debugIn | debugTdo
  /-- PV_IN to BAT_NTC. -/
  | harvest
  deriving DecidableEq, Repr

/-- What the device does to a ball. -/
inductive BallState where
  /-- Driven to a level. -/
  | level (v : Bool)
  /-- Driven by its function, which sends symbols, characters or clocks; the model carries what they say, not their waveform. -/
  | active
  /-- High impedance with no keeper. -/
  | floating
  /-- An input; of a ring port: terminated, with the signal detector alone, or not terminated. -/
  | input | terminated | detector | unterminated
  /-- Open drain, pulled low or released. -/
  | pulled | released
  /-- Held at VSSA, or analog. -/
  | vssa | analog
  deriving DecidableEq, Repr

/-- The columns of the table of R346. -/
inductive PinMode where
  | run | rest | torpor | diapause | pupa | reset | unpowered
  deriving DecidableEq, Repr

/-- The column in force: the steps, but "Reset" from the start of a full reset to the release of the application core. -/
def State.pinMode (s : State) : PinMode :=
  match s.pwr.step with
  | .cold => .unpowered
  | .torpor => .torpor
  | .diapause => .diapause
  | .pupa => .pupa
  | .rest => if s.boot.released then .rest else .reset
  | .run | .hover => if s.boot.released then .run else .reset

/-- The lane and LVDS balls are connected only while the device is Docked (R31). -/
def State.docked (s : State) : Bool := s.on AONCTL.MODE_DOCKED

/-- REF_OUT `ns` ns into the present tick (R60, R61): high for the first 50 of each 100 ns of MT; while MT is frozen it runs at an
undefined phase. A gated output is low until the first rise after TIME_VALID has become 1. (DESIGN CHOICE, log entry 26). -/
def State.refOutAt (s : State) (ns : Nat) : Bool :=
  let t := s.mt + ns
  if !s.on MTIME.OUT_CTRL_REFOUT_EN then false
  else if s.on MTIME.OUT_CTRL_REFOUT_GATE then s.timeValid && decide (s.tm.validAt ≤ t / 100 * 100) && decide (t % 100 < 50)
  else if s.get MTIME.STATUS_STATE = 0 then decide ((4 * s.tick + ns + Config.refPhase s.tm.frozenAt) % 100 < 50)
  else decide (t % 100 < 50)

/-- MT_SYNC_OUT `ns` ns into the present tick (R59, R61): high from the pattern's instant for WIDTH ns.
(DESIGN CHOICE, log entry 26). -/
def State.syncOutAt (s : State) (ns : Nat) : Bool :=
  let t := 4 * s.tick + ns
  s.syncoutOn && (match s.tm.syncoutFall with
    | some f => decide (s.tm.syncoutRise ≤ t) && decide (t < f)
    | none => false)

/-- A PWM output `ns` ns into the present tick (R98): low with width 0. -/
def State.pwmAt (s : State) (n k ns : Nat) : Bool := decide (0 < s.pwmWidth n k) && s.pwmLevel n k ns

/-- One step of the 15-bit sequence x^15 + x^14 + 1 (R292). -/
def lfsr15 (x : Nat) : Nat := (2 * x + (b2n (getBit x 14 != getBit x 13))) % 2 ^ 15

/-- The active pair's sequence in a slow-clock period: one bit per 32 periods, from a state that is not 0 (R292).
(DEDUCED, log entry 97). -/
def tamperSequence (period : Nat) : Nat := Nat.repeat lfsr15 (period / 32) (1 + Config.tamperSeed % 32767)

/-- A lane's ball in a column of R346; the device is Docked. -/
def State.laneBall (s : State) (m : PinMode) (run rest reset : BallState) : BallState :=
  match m with
  | .run => if s.docked then run else .floating
  | .rest => if s.docked then rest else .floating
  | .reset => if s.docked then reset else .floating
  | _ => .floating

/-- An output of PD_SYS in a column of R346. -/
def sysBall (m : PinMode) (run rest reset : BallState) : BallState :=
  match m with
  | .run => run
  | .rest => rest
  | .reset => reset
  | _ => .floating

/-- A ball of PD_AON in a column of R346. -/
def aonBall (m : PinMode) (x : BallState) : BallState := if m = .unpowered then .floating else x

/-- What the device does to a ball `ns` ns into the present tick (R346). (DEDUCED, log entry 116). -/
def State.ballAt (s : State) (b : Ball) (ns : Nat) : BallState :=
  let m := s.pinMode
  match b with
  | .pwm n k => s.laneBall m (.level (s.pwmAt n k ns)) (.level false) .floating
  | .io n j =>
    let x := match s.ballDriveAt (6 * n + j) ns with
      | some v => .level v
      | none => .input
    s.laneBall m x x .floating
  | .isa _ | .isb _ | .fltN _ => s.laneBall m .input .input .input
  | .ringTx p => s.laneBall m (if s.on (PORT.CTRL_EN p) then .active else .floating) .floating .floating
  | .ringRx _ => if !s.docked then .floating else match m with
    | .run => .terminated
    | .reset => .unterminated
    | .unpowered => .floating
    | _ => .detector
  | .bypassHold => aonBall m (if m = .run ∧ s.on RINGCTL.STAT_BYPASS = true then .pulled else .released)
  | .mtSyncIn => sysBall m .input .input .input
  | .mtSyncOut => sysBall m (.level (s.syncOutAt ns)) (.level false) .floating
  | .refOut => sysBall m (.level (s.refOutAt ns)) (.level false) .floating
  | .svcScl => aonBall m (if s.svc.xact.isSome && s.sclHeld then .pulled else .released)
  | .svcSda => aonBall m (if s.svc.xact.isSome then .active else .released)
  | .uartTx u => sysBall m (.level (s.uartTxAt u ns)) .active .floating
  | .uartRx _ => sysBall m .input .input .input
  | .uart1De => let x := .level ((s.uart1.de && s.on (UART.CTRL_DE_EN 1)) != s.on (UART.CTRL_DE_POL 1)); sysBall m x x .floating
  | .tchD r => match m with
    | .pupa | .unpowered => .floating
    | .reset => .level false
    | _ => if s.domOn .crk then .level (s.rowLevel r ns) else .floating
  | .tchS _ => match m with
    | .pupa | .unpowered => .floating
    | .reset => .vssa
    | _ => if !s.domOn .crk then .floating else if s.on TOUCH.STAT_SCANNING then .analog else .vssa
  | .xt32 => aonBall m .analog
  | .xtm => sysBall m .analog .analog .analog
  | .resetN | .bootRec => aonBall m .input
  | .tamper k => aonBall m (if k = 0 ∧ s.on VAULTCTL.TMP_CFG_PAIR = true then .level (getBit (tamperSequence s.slow) 14) else .input)
  | .debugIn => sysBall m .input .input .input
  | .debugTdo => .floating
  | .harvest => .analog

end Sys2Proof.Machine
end

