-- ==== Sys2Proof/Machine/BallMap.lean ====
section
/-!
DEFINITION. Where the balls lie on the package and which rail powers each (17_pins_electrical.md, R342 to R345).
-/
namespace Sys2Proof.Machine

/-- The rows of R342, from A to W. -/
inductive BallRow where
  | A | B | C | D | E | F | G | H | J | K | L | M | N | P | T | U | V | W
  deriving DecidableEq, Repr

/-- What lies at a position: a signal's ball, `k` of those that `Ball` counts as one (P and N of a pair, IN and OUT of a crystal, the
debug inputs and the harvester's balls in the order of R343), or a supply (R344). -/
inductive Pad where
  | sig (b : Ball) (k : Nat)
  | vin | vcoreLx | vcore | vddio | vaon | vdda | vssa | vss
  deriving DecidableEq, Repr

/-- Position p of lane n (R342). -/
def lanePad (n : Fin 10) (p : Nat) : Pad :=
  match p with
  | 0 => .sig (.pwm n 0) 0
  | 1 => .sig (.pwm n 1) 0
  | 2 => .sig (.pwm n 2) 0
  | 3 => .sig (.pwm n 3) 0
  | 4 => .vss
  | 5 => .sig (.fltN n) 0
  | 6 => .sig (.io n 0) 0
  | 7 => .sig (.io n 1) 0
  | 8 => .sig (.io n 2) 0
  | 9 => .sig (.io n 3) 0
  | 10 => .sig (.io n 4) 0
  | 11 => .sig (.io n 5) 0
  | 12 => .sig (.isa n) 0
  | _ => .sig (.isb n) 0

/-- The row's place among A to G, in which lanes 0 to 8 lie. -/
def BallRow.laneRow (r : BallRow) : Option Nat :=
  match r with
  | .A => some 0
  | .B => some 1
  | .C => some 2
  | .D => some 3
  | .E => some 4
  | .F => some 5
  | .G => some 6
  | _ => none

/-- Columns 1 to 8, as touch drives and senses take them. -/
def touchLine (c : Nat) : Fin 8 := Fin.ofNat 8 (c - 1)

/-- The balls of rows H to W (R342 to R344); a position that no rule names is VSS. -/
def padOther (r : BallRow) (c : Nat) : Pad :=
  match r with
  | .H => if c ≤ 14 then lanePad 9 (c - 1) else if c % 2 = 1 then .vdda else .vssa
  | .J => match c with
    | 1 | 2 => .sig (.ringTx 0) (c - 1)
    | 17 | 18 => .sig (.ringTx 1) (c - 17)
    | 5 | 6 | 13 | 14 => .vddio
    | _ => .vss
  | .K => match c with
    | 1 | 2 => .sig (.ringRx 0) (c - 1)
    | 17 | 18 => .sig (.ringRx 1) (c - 17)
    | 9 | 10 => .vcore
    | _ => .vss
  | .L => match c with
    | 1 => .sig .bypassHold 0
    | 2 => .sig .mtSyncIn 0
    | 17 => .sig .mtSyncOut 0
    | 18 => .sig .refOut 0
    | 9 | 10 => .vcore
    | _ => .vss
  | .M => match c with
    | 1 => .sig .svcScl 0
    | 2 => .sig .svcSda 0
    | 17 => .sig (.uartTx 0) 0
    | 18 => .sig (.uartRx 0) 0
    | _ => .vss
  | .N =>
    if c ≤ 8 then .sig (.tchD (touchLine c)) 0
    else match c with
      | 17 => .sig (.uartTx 1) 0
      | 18 => .sig (.uartRx 1) 0
      | _ => .vss
  | .P => if c ≤ 8 then .sig (.tchS (touchLine c)) 0 else if c = 18 then .sig .uart1De 0 else .vss
  | .T => match c with
    | 1 | 2 => .sig .xt32 (c - 1)
    | 17 => .sig .resetN 0
    | 18 => .sig .bootRec 0
    | _ => .vss
  | .U => match c with
    | 1 | 2 => .sig .xtm (c - 1)
    | 17 => .sig (.tamper 0) 0
    | 18 => .sig (.tamper 1) 0
    | 15 | 16 => .vcore
    | _ => .vss
  | .V => match c with
    | 1 | 2 | 3 | 5 => .sig .debugIn (c - 1)
    | 4 => .sig .debugTdo 0
    | 9 | 10 => .vddio
    | 15 | 16 | 17 | 18 => .vcoreLx
    | _ => .vss
  | .W => match c with
    | 1 | 2 | 3 | 4 | 5 => .sig .harvest (c - 1)
    | 6 | 7 => .vaon
    | 8 => .vssa
    | 15 | 16 | 17 | 18 => .vin
    | _ => .vss
  | _ => .vss

/-- The ball in row `r` and column `c`, 1 to 18 (R342 to R344). -/
def padAt (r : BallRow) (c : Nat) : Pad :=
  match r.laneRow with
  | some i => lanePad (Fin.ofNat 10 ((c - 1) / 2)) (i + 7 * ((c - 1) % 2))
  | none => padOther r c

/-- The rails of R345. -/
inductive PadRail where
  | vddio | vin | vpadAon | vdda
  deriving DecidableEq, Repr

/-- The rail that powers a signal's ball (R345); the rule names none for the balls of the harvester. -/
def Ball.rail (b : Ball) : Option PadRail :=
  match b with
  | .pwm _ _ | .io _ _ | .fltN _ | .mtSyncIn | .mtSyncOut | .refOut | .uartTx _ | .uartRx _ | .uart1De | .debugIn | .debugTdo => some .vddio
  | .ringTx _ | .ringRx _ => some .vin
  | .bypassHold | .svcScl | .svcSda | .tchD _ | .tchS _ | .resetN | .bootRec | .tamper _ | .xt32 => some .vpadAon
  | .isa _ | .isb _ | .xtm => some .vdda
  | .harvest => none

/-- Fail-safe balls: up to 3.6 V at all times (R345). -/
def Ball.failSafe (b : Ball) : Bool :=
  match b with
  | .svcScl | .svcSda | .bypassHold | .resetN | .bootRec | .tamper _ => true
  | _ => false

end Sys2Proof.Machine
end

