-- ==== Sys2Proof/WellFormed.lean ====
section
/-!
DEFINITION. Which operands a command can have: the widths and lengths that the spec gives the frames, addresses, levels and data
that the outside supplies. Operands whose type already bounds them need no check.
-/
namespace Sys2Proof

/-- A ring transport names a source of 7 bits (R19). -/
def Via.ok : Via → Bool
  | .ring src suid => decide (src < 128) && suid.all fun u => decide (u < 2 ^ 64)
  | .bcast src => decide (src < 128)
  | .svc | .uart0 | .loc | .tap => true

/-- A message of at most 512 bytes: 12 bytes of header and DATA (R172, R322). -/
def DictMsg.ok (m : DictMsg) : Bool := m.via.ok && decide (m.data.length ≤ 500)

/-- The widths of a Cycle Start's fields (R147). -/
def CycleStart.ok (f : CycleStart) : Bool :=
  decide (f.tm < 2 ^ 64) && decide (f.corr < 2 ^ 32) && decide (f.cyc < 2 ^ 16) && decide (f.tc < 2 ^ 10) &&
  decide (f.acycPos < 2 ^ 16) && decide (f.master < 2 ^ 7) && decide (f.flags < 2 ^ 3) && decide (f.sleepCyc < 2 ^ 16)

/-- The widths of a delay frame's fields (R153). -/
def DlyFrame.ok (f : DlyFrame) : Bool :=
  decide (f.seq < 2 ^ 8) && decide (f.turn < 2 ^ 32) && decide (f.addr < 2 ^ 7) && f.heal.all fun h => decide (h < 2 ^ 16)

/-- A slot's fields, and 1 to 32 units of 8 payload bytes (R149). -/
def SlotFrame.ok (f : SlotFrame) : Bool :=
  decide (f.idx < 2 ^ 7) && decide (f.src < 2 ^ 7) && decide (f.flags < 2 ^ 3) &&
  decide (8 ≤ f.data.length) && decide (f.data.length ≤ 256) && f.data.length % 8 == 0

/-- An acyclic frame's fields, and at most 512 payload bytes (R151). -/
def AcyclicFrame.ok (f : AcyclicFrame) : Bool :=
  decide (f.dest < 2 ^ 8) && decide (f.src < 2 ^ 8) && decide (f.typ < 2 ^ 8) && decide (f.hops < 2 ^ 8) &&
  f.duid.isSome == (f.dest == 0) && f.suid.isSome == (f.src == 0) && decide (f.payload.length ≤ 512) && decide (f.ack < 2 ^ 8)

/-- A fault of a march test: one of six elements, a word of the largest target, seven check bits (R254, R260, R263). -/
def MarchFault.ok (f : MarchFault) : Bool := decide (f.elem ≤ 5) && decide (f.w < 65536) && decide (f.chk < 2 ^ 7)

/-- The command's operands are ones the outside can supply. -/
def Instr.wf : Instr → Bool
  | .registerWrite _ _ _ a _ => decide (a < 2 ^ 32)
  | .memoryAccess _ _ _ a _ _ _ => decide (a < 2 ^ 32)
  | .busTimeout a => decide (a < 2 ^ 32)
  | .cycleStartReceived _ _ f _ => f.ok
  | .dlyFrameReceived _ f _ _ => f.ok
  | .loadData _ d => decide (d.length ≤ 500)
  | .laneRegisterWrite _ off _ => decide (off < 4096) && off % 4 == 0
  | .sample _ balls => decide (balls < 2 ^ 120)
  | .waitpin _ balls => decide (balls < 2 ^ 120)
  | .waitpinComplete _ balls => decide (balls < 2 ^ 120)
  | .shiftComplete _ din => decide (din < 2 ^ 32)
  | .injectedExecute _ balls => decide (balls < 2 ^ 120)
  | .slotReceived _ f r => f.ok && decide (r.stamp < 2 ^ 64)
  | .tokReceived _ pos => decide (pos < 50000)
  | .acyclicFrameReceived _ f r => f.ok && decide (r.stamp < 2 ^ 64)
  | .read m => m.ok
  | .write m => m.ok
  | .describe m => m.ok
  | .stage m => m.ok
  | .commit m => m.ok
  | .discard m => m.ok
  | .snap m => m.ok
  | .recollect m => m.ok
  | .barrier m => m.ok
  | .publish _ _ _ value => decide (value.length ≤ 500)
  | .storePersisted via _ => via.ok
  | .eraseStored via _ => via.ok
  | .adcSequenceDone codes => decide (1 ≤ codes.length) && decide (codes.length ≤ 6)
  | .touchScanEnd q => q.length == 64
  | .marchComplete r => r.all MarchFault.ok
  | .recstoreCommandDone bad => bad.all fun k => decide (k < 65536)
  | .marginScan weak => weak.all fun o => decide (o < 65536) && o % 4 == 0
  | .nonceWrite via _ d => via.ok && decide (d.length ≤ 500)
  | .lifeCycleChange via _ d => via.ok && decide (d.length ≤ 500)
  | .ownerKeyHashWrite via _ d => via.ok && decide (d.length ≤ 500)
  | .debugUnlock via _ d => via.ok && decide (d.length ≤ 500)
  | .logClearLost via _ => via.ok
  | .downloadBegin via _ => via.ok
  | .downloadData via _ d _ => via.ok && decide (d.length ≤ 500)
  | .downloadFinish via _ => via.ok
  | .downloadActivate via _ => via.ok
  | .downloadAbort via _ => via.ok
  | .flashCommandDone bad => bad.all fun k => decide (k < 1024)
  | .pendingReportAccept _ | .livenessRecheck _ _ | .vinAbsent | .vinPresent | .sysCfgWrite _ | .pllLockConfirmed _
  | .cycleStartMissed | .holdoverExpiry | .servoRestart | .pullLimWrite _ | .delayRequestSend _ _ | .mtSyncInEdge _ _
  | .syncinTimeout | .mtReadCapture | .syncoutArm _ | .mtSyncOutPulse | .cmpArm _ _ | .cmpDisarm _ | .cmpFire _
  | .calendarPublish | .copyStart _ | .copyDone | .verify _ | .verifyDone _ | .arm _ | .cancel _ | .invalidate _
  | .epochSwitch _ | .segmentActionsFire _ | .laneTick _ _ _ _ _ | .adcseqRunStart _ | .adcseqRunStop _ | .adcseqPeriodWrite _
  | .quadEdgeAccepted _ _ _ | .indexEdge _ | .qcntWrite _ _ | .laneEnable _ _ | .laneDisable _ _ | .calEnd _ | .ocTrip _
  | .drvFault _ | .openDetect _ | .senseStuckDetect _ | .sensePlausDetect _ | .senseSumDetect _ | .feDetect _ | .holdSafeEnd _
  | .resume _ _ | .resumeAt _ | .act _ | .shift _ | .push _ | .pushStallEnd _ | .pull _ | .pullStallEnd _ | .jmp _ | .djnz _
  | .evt _ | .sync _ | .byDeadlineTimeout _ | .baseStale _ | .engineStart _ _ | .engineArm _ _ | .engineStop _ _
  | .programStoreWrite _ _ | .inject _ _ | .txfifoWrite _ _ | .rxfifoRead _ | .ssGo _ | .ssCancel | .syncStartInstant
  | .portLost _ _ | .portSignalGained _ | .linkUsable _ | .linkHeal _ | .cycleStartSend | .slotPayloadFetch | .slotSend _
  | .tokSend | .acyclicTxLost | .queueTailWrite _ _ | .ringEnable _ | .ringDisable _ | .listenTimeout | .followerTimeout
  | .clmSend | .clmReceived _ _ _ _ _ | .ringResetWrite | .rstReceived _ | .sleepGo _ | .sleepCancel | .ringSleep | .heldWake
  | .wakeReq _ | .ringActivityWake _ | .writeSetApply _ | .snapshotCapture | .collectionWindowEnd | .requestForwardTimeout
  | .appResponse _ | .appTimeout | .locGo | .dictFullReset | .wfiStepRequest | .scarabPrepareAck | .stepEntryComplete
  | .wakeEvent _ | .stepExitComplete | .goPupa _ | .wakeMain _ | .coreBrownOut | .vocSampleStart | .vocSampleEnd _
  | .harvestSampleCmd | .fracWrite _ | .batComparison _ _ | .ntcMeasure _ | .cellShortCircuit | .scRecovery | .starterHandover
  | .boostDropout | .coldStartResetRelease | .coldStartPorReassert | .cellConnect | .cricketRun | .cricketWakeIrq | .adcStart _
  | .mbSend _ _ | .mbAck _ _ | .touchScanStart | .touchEnable _ | .touchDisable _ | .recalAll _ | .recal _ | .keymaskWrite _ _
  | .rtcSecondBoundary | .rtcShadowRead _ _ | .rtcShadowExpiry _ | .rtcSet | .rtcSetCancel | .rtcShift _ | .shiftCountStep
  | .disciplineWindowEnd | .trimWrite _ | .trimAccumulatorCarry | .moistureTick | .mcCountWrite _ _ | .marchGo _ | .marchAbort
  | .vaultWipeCmd _ _ | .vaultWipeComplete | .program _ | .erase _ | .append _ | .find _ | .groupBegin _ | .groupClose _
  | .groupAbort _ | .compact _ | .recstoreAbort _ _ | .mount | .attest | .logFlush | .logRead | .challenge | .attestationSigned
  | .tempSample _ _ _ | .supplyLow _ | .lifeCycleFusesBurned | .staticTamper _ _ | .pairTamper | .meshTamper | .logReport
  | .logPeriodicFlush | .wdogKick _ | .wdogWarn | .wdogExpiry _ | .fire _ _ _ | .channelEdge _ | .channelConfigWrite _ _ _ _ _
  | .gctlWrite _ _ _ | .uartCharReceived _ _ | .uartBreak _ | .uartRxRead _ | .uartTxWrite _ _ | .uartCharSent _ | .deLagEnd
  | .muteReq _ | .envelopeTimeout | .svcAddressMatch _ _ | .svcWriteTransaction _ | .svcReadTransaction _ | .svcStretchTimeout
  | .svcRespGo _ | .powerOnReset _ | .pinReset _ | .swrst _ _ _ | .startUp _ _ | .downloadSlotErased | .downloadVerified
  | .activationInstant | .healthConfirm | .trialTimeout | .promotePendingWrite | .flashProgram _ | .flashEraseSector _
  | .flashEraseSlot _ | .dictengVaultTimeout | .livenessTimeout _ | .mailboxOperationDone | .tapAccess _ => true

end Sys2Proof
end

