-- ==== Sys2Proof/Safety.lean ====
section
/-!
DEFINITION. What counts as a sound state and a safe step, in the terms that the statements use: the registers and the memories
in canonical form, the hard limits of the registers' values, and a step that answers a next state.
-/
namespace Sys2Proof.Machine

/-- The registers are in canonical form: keys strictly rise, and no entry holds its register's reset value. -/
def regsWf (m : List (Nat × Nat)) : Bool := Store.wf regDefault m

/-- The memories are in canonical form: addresses strictly rise, and no entry holds what its address reads as unlisted. -/
def Memory.wf (m : List Host.Cell) : Bool := Store.wf memUnlisted m

/-- Registers and memories are in canonical form. -/
def State.Canonical (s : State) : Prop := regsWf s.regs = true ∧ Memory.wf s.mem = true

/-! ### Frames -/

/-- Every register field but those listed reads as before. -/
def RegsBut (fs : List RF) (s t : State) : Prop := ∀ g : RF, (∀ f ∈ fs, g.key ≠ f.key) → t.get g = s.get g

/-- Every register field outside the registers that `p` names reads as before. -/
def RegsOutside (p : Nat → Bool) (s t : State) : Prop := ∀ g : RF, g.lo < 32 → p g.addr = false → t.get g = s.get g

/-- Every byte of every memory reads as before. -/
def SameMemory (s t : State) : Prop := ∀ a, t.byte a = s.byte a

/-- Every byte outside the `n` bytes from `lo` reads as before. -/
def MemoryBut (lo n : Nat) (s t : State) : Prop := ∀ a, a < lo ∨ lo + n ≤ a → t.byte a = s.byte a

/-- Nothing differs but the listed register fields, with the record of what was set in the present clock, and the record of the bus
answer. -/
def OnlyRegs (fs : List RF) (s t : State) : Prop :=
  RegsBut fs s t ∧ SameMemory s t ∧ t = { s with regs := t.regs, now := t.now, bus := t.bus }

/-- The command answers a next state, of which `P` holds. -/
def Yields (c : Instr) (s : State) (P : State → Prop) : Prop := ∃ t, exec c s = .next t ∧ P t

/-- No switch of the lane is due, and none of its loader commands has landed in the present tick (R80). -/
def State.LoaderFree (s : State) (n : Fin 10) : Prop :=
  (s.on (SCHEDLD.L_SWSTAT_ARMED n) = false ∨ s.due s.sched[n].armS = false) ∧
  ∀ l, s.sched[n].landed = some l → l.tick ≠ s.tick

/-- The lane has not resumed, or ended a resume, in the present tick, and no resume of it is due (R116). -/
def State.NoResumeNow (s : State) (n : Fin 10) : Prop :=
  (∀ r, s.lanes[n].resNow = some r → r.tick ≠ s.tick) ∧
  (s.on (LANE.RES_STAT_PENDING n) = false ∨ s.due s.lanes[n].resAt = false)

/-- An outcome is a next state. -/
def isNext : Host.Outcome State Fault Refusal → Bool
  | .next _ => true
  | .fault _ => false
  | .refused _ => false

/-- A run is safe when none of its commands is refused; no command ends in a fault. -/
def SafeStep (s : State) : Prop := isNext (step s) = true

end Sys2Proof.Machine
end

