-- ==== Sys2Proof/Certificates/Slice0/Obligations.lean ====
section
/-!
DEFINITION. The statements for the provers: what the rules of spec/ say the commands and the machine do, for every family of
commands and every kind of state. Each says under which conditions on the state and the operands alone a command answers its next
state, what that state holds, and what it leaves.
-/
section
open Sys2Proof Sys2Proof.Machine

/-- A step runs the command at the front of the queue on the state with the rest of the queue. For every command c, queue rest
and state s: the step of s with c in front of rest is exec of c on s with the queue rest; the step of a state with an empty
queue is one idle timebase tick (the model's choice, log entries 1 and 10). (00_scope.md.) -/
def Obligations.StepRunsFrontCommand : Prop :=
  (∀ (c : Instr) (rest : List Instr) (s : State),
    step { s with pending := c :: rest } = exec c { s with pending := rest }) ∧
  (∀ s : State, s.pending = [] → step s = .next s.idleTick)

/-- A register field reads back what was put into it; a register write by the access codes. A value put into a register field
reads back cut to the field's width, and no other field, no byte of memory and nothing else of the state changes. A word
read of a register whose read has no effect, by a master that may read it, answers the register's fields, and 0 at a
reserved offset, and changes nothing else. A word write that reaches a register of a block whose registers no command of
their own writes (CLKGEN, PWRCTL, RSTCTL, MEMCTL, FLASHCTL, ERRAGG, SCHEDLD, AONCTL) puts a legal value into every RW field
and leaves the field at a reserved value, clears the written ones of every W1C field but those that the device sets in the
same clock, and changes no other register, no memory and nothing else. (00_scope.md, R9, R10, R13, R15.) -/
def Obligations.RegisterFieldsAndWrites : Prop :=
  (∀ (s : State) (f : RF) (v : Nat),
    (s.set f v).get f = v % f.bound ∧ OnlyRegs [f] s (s.set f v)) ∧
  (∀ (m : Master) (mach : Bool) (e : Ecc) (g : Bool) (a : Nat) (s : State) (b : Block),
    memKind a = none → blockOf a = some b → mayReg m false b a = true → a % 4 = 0 → s.accessible a = true → b.window a = false →
    a ∉ [MTIME.MT_LO, MTIME.SYNCIN_CAPT_LO, MTIME.SYNCIN_CAPT_HI, UART.DATA 0, UART.DATA 1] → rxfifoAt a = none → rtcReg a = none →
    s.viewReg a = none →
    exec (.memoryAccess m mach .word a none e g) s = .next { s with bus := .ok (s.rawReg a) } ∧
    (fieldsAt a = [] → s.rawReg a = 0)) ∧
  (∀ (m : Master) (mach : Bool) (a : Nat) (v : Word) (s : State) (b : Block),
    blockOf a = some b → b ∈ [Block.clkgen, .pwrctl, .rstctl, .memctl, .flashctl, .erragg, .schedld, .aonctl] →
    mayReg m true b a = true → a % 4 = 0 → s.accessible a = true → s.lockedAt b = false →
    Yields (.registerWrite m mach .word a v) s fun t =>
      (∀ f ∈ fieldsAt a, f.row = false → f.acc = .rw → t.get ⟨a, f.hi, f.lo⟩ =
        if f.legal.ok (bits v.toNat f.hi f.lo) then f.legal.take (bits v.toNat f.hi f.lo) else s.get ⟨a, f.hi, f.lo⟩) ∧
      (∀ f ∈ fieldsAt a, f.row = false → f.acc = .w1c → t.get ⟨a, f.hi, f.lo⟩ =
        (s.get ⟨a, f.hi, f.lo⟩ &&& ((RF.mk a f.hi f.lo).bound - 1 - bits v.toNat f.hi f.lo) |||
          (s.get ⟨a, f.hi, f.lo⟩ &&& s.raised ⟨a, f.hi, f.lo⟩)) % (RF.mk a f.hi f.lo).bound) ∧
      RegsOutside (fun x => x == a) s t ∧ SameMemory s t ∧ t = { s with regs := t.regs, bus := .ok 0 })

/-- Registers take aligned words only; memories take aligned bytes, halfwords and words. A register write by a master that may
write it, with another size than a word or at an address that is not a multiple of 4, ends with a bus error and changes
nothing else; a memory access at an address that is not a multiple of its size ends with a bus error and changes nothing
else, whether it reads or writes, and so does a read of a register with another size than a word or at an address that is
not a multiple of 4; an aligned read of 1, 2 or 4 bytes answers the bytes at its address, least significant first; an
aligned write puts its bytes at its address and changes no other byte and nothing else. (R14.) -/
def Obligations.AccessSizesAndAlignment : Prop :=
  (∀ (m : Master) (mach : Bool) (sz : Size) (a : Nat) (v : Word) (s : State) (b : Block), blockOf a = some b →
    mayReg m true b a = true → (sz ≠ .word ∨ a % 4 ≠ 0) →
    exec (.registerWrite m mach sz a v) s = .next { s with bus := .error }) ∧
  (∀ (m : Master) (mach : Bool) (sz : Size) (a : Nat) (e : Ecc) (g : Bool) (s : State) (b : Block),
    memKind a = none → blockOf a = some b → mayReg m false b a = true → (sz ≠ .word ∨ a % 4 ≠ 0) →
    exec (.memoryAccess m mach sz a none e g) s = .next { s with bus := .error }) ∧
  (∀ (m : Master) (mach : Bool) (sz : Size) (a : Nat) (wr : Option Word) (e : Ecc) (g : Bool) (s : State) (k : MemKind),
    memKind a = some k → mayMem m mach s.boot.released wr.isSome k a = true → a % sizeBytes sz ≠ 0 →
    exec (.memoryAccess m mach sz a wr e g) s = .next { s with bus := .error }) ∧
  (∀ (m : Master) (mach : Bool) (sz : Size) (a : Nat) (g : Bool) (s : State) (k : MemKind),
    memKind a = some k → mayMem m mach s.boot.released false k a = true → a % sizeBytes sz = 0 → s.memUp k = true → s.marching a = false →
    (k = .secure → s.on VAULTCTL.STAT_WIPING = false ∧ ¬ (0x28003FC0 ≤ a ∧ m = .app)) → ¬ (m = .dict ∧ k = .vault) →
    exec (.memoryAccess m mach sz a none .clean g) s = .next { s with bus := .ok (s.mem? a (sizeBytes sz)) }) ∧
  (∀ (m : Master) (mach : Bool) (sz : Size) (a : Nat) (v : Word) (g : Bool) (s : State) (k : MemKind),
    memKind a = some k → k ∈ [MemKind.sram, .vault, .secure, .crkSram] → mayMem m mach s.boot.released true k a = true →
    a % sizeBytes sz = 0 → s.memUp k = true → s.marching a = false →
    (k = .secure → s.on VAULTCTL.STAT_WIPING = false ∧ ¬ (0x28003FC0 ≤ a ∧ m = .app)) → ¬ (m = .dict ∧ k = .vault) →
    Yields (.memoryAccess m mach sz a (some v) .clean g) s fun t =>
      (∀ i, i < sizeBytes sz → t.byte (a + i) = BitVec.ofNat 8 (v.toNat / 2 ^ (8 * i))) ∧
      MemoryBut a (sizeBytes sz) s t ∧ t = { s with mem := t.mem, bus := .ok 0 })

/-- Accesses that are turned away, and memory accesses that meet an ECC error, a read-only memory, a held target or schedule
memory. A register write, a register read or a memory access that the access matrix does not give the master ends with a bus
error and is reported as a violation with cause 0x02, the address and the master; a register write or a memory access at an
address outside every block and memory ends with a bus error and changes nothing else. A single-bit error is counted, sets
CORR and answers the data; a double-bit error is counted, its word's address kept, UNCORR set, reported with cause 0x01, and
ends with a bus error; the boot ROM and code flash take no write; a memory whose domain is down answers a bus error; an
access to a memory under march test, or to the vault's secure part while it is wiped, is held; a word written into a back
bank makes it LOADING and changes only its bytes. (01_architecture.md, R13, R38, R39, 13_memories.md, R34, R41, R75, R254,
R257, R259, R263.) -/
def Obligations.ForbiddenAndLimitedAccesses : Prop :=
  (∀ (m : Master) (mach : Bool) (sz : Size) (a : Nat) (v : Word) (s : State) (b : Block), blockOf a = some b →
    mayReg m true b a = false → exec (.registerWrite m mach sz a v) s =
      .next { s.report ⟨0, 0x02, a, 1, masterNum m, false⟩ with bus := .error }) ∧
  (∀ (m : Master) (mach : Bool) (sz : Size) (a : Nat) (v : Word) (s : State),
    blockOf a = none → exec (.registerWrite m mach sz a v) s = .next { s with bus := .error }) ∧
  (∀ (m : Master) (mach : Bool) (sz : Size) (a : Nat) (wr : Option Word) (e : Ecc) (g : Bool) (s : State) (k : MemKind),
    memKind a = some k → mayMem m mach s.boot.released wr.isSome k a = false → exec (.memoryAccess m mach sz a wr e g) s =
      .next { s.report ⟨0, 0x02, a, 1, masterNum m, false⟩ with bus := .error }) ∧
  (∀ (m : Master) (mach : Bool) (sz : Size) (a : Nat) (wr : Option Word) (e : Ecc) (g : Bool) (s : State),
    memKind a = none → blockOf a = none → exec (.memoryAccess m mach sz a wr e g) s = .next { s with bus := .error }) ∧
  (∀ (m : Master) (mach : Bool) (sz : Size) (a : Nat) (e : Ecc) (g : Bool) (s : State) (b : Block),
    memKind a = none → blockOf a = some b → mayReg m false b a = false → exec (.memoryAccess m mach sz a none e g) s =
      .next { s.report ⟨0, 0x02, a, 1, masterNum m, false⟩ with bus := .error }) ∧
  (∀ (sz : Size) (a : Nat) (g : Bool) (s : State), 0x20000000 ≤ a → a < 0x20080000 → a % sizeBytes sz = 0 →
    s.memUp .sram = true → s.marching a = false →
    exec (.memoryAccess .app true sz a none .single g) s =
      .next { (s.count MEMCTL.ECC_CORR_COUNT MEMCTL.ECC_CORR_OVF).set MEMCTL.IRQ_STAT_CORR 1 with
              bus := .ok (s.mem? a (sizeBytes sz)) }) ∧
  (∀ (sz : Size) (a : Nat) (g : Bool) (s : State), 0x20000000 ≤ a → a < 0x20080000 → a % sizeBytes sz = 0 →
    s.memUp .sram = true → s.marching a = false →
    exec (.memoryAccess .app true sz a none .double g) s =
      .next { (((s.count MEMCTL.ECC_UNCORR_COUNT MEMCTL.ECC_UNCORR_OVF).set MEMCTL.ECC_ADDR_ADDR (a / 4 * 4)).set
                MEMCTL.IRQ_STAT_UNCORR 1).report ⟨1, 0x01, a / 4 * 4, 0, 0, false⟩ with bus := .error }) ∧
  (∀ (mach : Bool) (sz : Size) (a : Nat) (v : Word) (e : Ecc) (g : Bool) (s : State) (k : MemKind), memKind a = some k →
    k ∈ [MemKind.bootRom, .flash] → a % sizeBytes sz = 0 → s.memUp k = true → s.marching a = false →
    exec (.memoryAccess .app mach sz a (some v) e g) s = .next { s with bus := .error }) ∧
  (∀ (mach : Bool) (sz : Size) (a : Nat) (wr : Option Word) (e : Ecc) (g : Bool) (s : State) (k : MemKind), memKind a = some k →
    mayMem .app mach s.boot.released wr.isSome k a = true → a % sizeBytes sz = 0 → s.memUp k = false →
    exec (.memoryAccess .app mach sz a wr e g) s = .next { s with bus := .error }) ∧
  (∀ (mach : Bool) (sz : Size) (a : Nat) (wr : Option Word) (e : Ecc) (g : Bool) (s : State) (k : MemKind), memKind a = some k →
    mayMem .app mach s.boot.released wr.isSome k a = true → a % sizeBytes sz = 0 → s.memUp k = true →
    (s.marching a = true ∨ (k = .secure ∧ s.on VAULTCTL.STAT_WIPING = true)) →
    exec (.memoryAccess .app mach sz a wr e g) s = .next { s with bus := .held }) ∧
  (∀ (n : Fin 10) (o : Nat) (v : Word) (e : Ecc) (g mach : Bool) (s : State), o < 0x3000 → o % 4 = 0 → s.memUp .sched = true →
    s.get (SCHEDLD.L_BSTAT_BACK_STATE n) ≠ 2 → s.get (SCHEDLD.L_BSTAT_BACK_STATE n) ≠ 5 →
    s.marching (0x24000000 + n.1 * 0x6000 + s.backPhys n * 0x3000 + o) = false → s.backPhys n < 2 →
    exec (.memoryAccess .app mach .word (0x24000000 + n.1 * 0x6000 + s.backPhys n * 0x3000 + o) (some v) e g) s =
      .next { (s.setBack n 1).pokes (0x24000000 + n.1 * 0x6000 + s.backPhys n * 0x3000 + o) (leBytes (sizeBytes .word) v.toNat) with bus := .ok 0 })

/-- A pending report is accepted; timeouts and a block that still fails are reported. The lowest pending source of a region is
accepted when its arbiter is free in the present clock; a block that passes its recheck leaves the recheck list, one that
fails with CTRL.WEDGE_RST 0 is marked WEDGED and reported at chip level with cause 0x05; a bus timeout answers a bus error
and is reported with cause 0x04 by the block's source; a liveness timeout is reported with cause 0x05; while PD_SYS is not
off a report of a source with none pending sets its pending bit and waits, a further one is counted in REPEAT; a region's
lowest pending source is the one accepted, one report per region and timebase tick (the model's choice, log entry 21);
accepting a chip-level report latches source, cause, level and detail. (14_management_trust.md, R22, R298.) -/
def Obligations.ReportsAndTimeouts : Prop :=
  (∀ (g : Fin 5) (s : State) (r : Report), s.domOn .sys = true → s.err.acc.getD g 0 ≠ s.tick + 1 → s.lowestPend g = some r →
    exec (.pendingReportAccept g) s = .next
      (State.acceptReport { s.set (ERRAGG.SRC_PEND r.src) 0 with err := { s.err with pend := s.err.pend.erase r } } r)) ∧
  (∀ (i : Fin 64) (k : Nat) (s : State), s.domOn .sys = true → (i.1, k) ∈ s.err.recheck → k + 25000 ≤ s.tick →
    exec (.livenessRecheck i false) s = .next { s with err := { s.err with recheck := s.err.recheck.filter fun r => r.1 != i.1 } }) ∧
  (∀ (i : Fin 64) (s : State), (∀ k, (i.1, k) ∈ s.err.recheck → s.tick < k + 25000) →
    exec (.livenessRecheck i true) s = .next s) ∧
  (∀ (i : Fin 64) (k : Nat) (s : State), s.domOn .sys = true → (i.1, k) ∈ s.err.recheck → k + 25000 ≤ s.tick →
    s.on ERRAGG.CTRL_WEDGE_RST = false →
    exec (.livenessRecheck i true) s = .next (State.chipReport
      { (s.set (ERRAGG.SRC_WEDGED i) 1).set ERRAGG.STAT_WEDGED 1 with
        err := { s.err with recheck := s.err.recheck.filter fun r => r.1 != i.1 } } ⟨i, 0x05, i, 3, 0, false⟩)) ∧
  (∀ (a : Nat) (b : Block) (s : State), blockOf a = some b →
    exec (.busTimeout a) s = .next { s.report ⟨blockSrc b, 0x04, a, 1, 0, false⟩ with bus := .error }) ∧
  (∀ (i : Fin 64) (s : State), srcPresent i = true →
    exec (.livenessTimeout i) s = .next (s.report ⟨i, 0x05, i, 1, 0, false⟩)) ∧
  (∀ (s : State) (r : Report), s.dom .sys ≠ .off → s.on (ERRAGG.SRC_PEND r.src) = false →
    s.report r = { s.set (ERRAGG.SRC_PEND r.src) 1 with err := { s.err with pend := s.err.pend ++ [r] } }) ∧
  (∀ (s : State) (r : Report), s.dom .sys ≠ .off → s.on (ERRAGG.SRC_PEND r.src) = true →
    s.report r = s.count (ERRAGG.SRC_REPEAT r.src) (ERRAGG.SRC_OVF r.src)) ∧
  (∀ (g : Nat) (s : State) (r : Report), s.lowestPend g = some r → srcRegion r.src = g ∧ r ∈ s.err.pend ∧
    ∀ x ∈ s.err.pend, x.src < 64 → srcRegion x.src = g → r.src ≤ x.src) ∧
  (∀ (s : State) (r : Report), 48 ≤ r.src → r.src < 64 →
    (s.acceptReport r).get (ERRAGG.SRC_LATCH r.src) = 1 ∧ (s.acceptReport r).get (ERRAGG.SRC_CAUSE r.src) = r.cause % 256 ∧
    (s.acceptReport r).get (ERRAGG.SRC_LEVEL r.src) = r.level % 4 ∧
    (s.acceptReport r).get (ERRAGG.DETAIL_DETAIL r.src) = r.detail % 2 ^ 32 ∧
    (s.acceptReport r).get ERRAGG.STAT_CHIP_EV = 1)

/-- The servo's commands: a missed Cycle Start, the end of holdover, a restart, a new pull limit, and the fall of TIME_VALID.
The instant for a Cycle Start passes with none: in ACQUIRE GOOD_CNT is cleared and F set to I; in TRACK F is set to I and
HOLDOVER entered with its instant kept; a holdover past HOLDOVER_LIM drops TIME_VALID and counts; a restart returns to
ACQUIRE without valid time; a new pull limit clamps itself, the integrator, the frequency, the frequency that waits for its
instant and the master trim. The fall of TIME_VALID sets VALID_FALL, cuts a gated MT_SYNC_OUT pulse, shows RTC discipline
ended, and suspends every ACTIVE lane that plays a schedule with FIRST and TIME_LOST, no action and no fault count (which
lanes play one: log entry 106); with no lane ACTIVE it changes those three bits and no other register. A SUSPENDED lane with
action 0 holds its commanded position, or its segment's end position, where MT moves. (02_machine_time.md, R50, R51, R53,
R54.) -/
def Obligations.ServoCommands : Prop :=
  (∀ (s : State) (t : Nat), s.tm.tLast = some t → s.tm.missed = false → s.due (s.missedAt t) = true → s.domOn .sys = true → s.get MTIME.STATUS_STATE = 1 →
    Yields .cycleStartMissed s fun u =>
      u.get MTIME.STATUS_GOOD_CNT = 0 ∧ u.get MTIME.SERVO_FREQ_F = s.get MTIME.SERVO_INT_I % 2 ^ 32 ∧
      OnlyRegs [MTIME.STATUS_GOOD_CNT, MTIME.SERVO_FREQ_F] { s with tm := { s.tm with missed := true, fNext := none } } u) ∧
  (∀ (s : State) (t : Nat), s.tm.tLast = some t → s.tm.missed = false → s.due (s.missedAt t) = true → s.domOn .sys = true → s.get MTIME.STATUS_STATE = 2 →
    Yields .cycleStartMissed s fun u =>
      u.get MTIME.STATUS_STATE = 3 ∧ u.get MTIME.STATUS_STATE_CHG = 1 ∧
      u.get MTIME.SERVO_FREQ_F = s.get MTIME.SERVO_INT_I % 2 ^ 32 ∧
      OnlyRegs [MTIME.STATUS_STATE, MTIME.STATUS_STATE_CHG, MTIME.SERVO_FREQ_F]
        { s with tm := { s.tm with missed := true, fNext := none, hoEntry := s.mt, hoExpired := false } } u) ∧
  (∀ s : State, s.get MTIME.STATUS_STATE = 3 → s.tm.hoExpired = false → s.domOn .sys = true →
    s.due (s.tm.hoEntry + s.get MTIME.HOLDOVER_LIM_LIMIT_MS * 1000000) = true →
    exec .holdoverExpiry s = .next ((State.timeFall { s with tm := { s.tm with hoExpired := true } }).count
      MTIME.DIAG_HOLDOVER_COUNT MTIME.DIAG_HOLDOVER_OVF)) ∧
  (∀ s : State, s.accessible MTIME.CTRL = true → s.get MTIME.STATUS_STATE ∈ [1, 2, 3] →
    exec .servoRestart s = .next { ((s.set MTIME.STATUS_GOOD_CNT 0).setSync 1).timeFall with bus := .ok 0 }) ∧
  (∀ (v : Word) (s : State), s.accessible MTIME.PULL_LIM = true →
    Yields (.pullLimWrite v) s fun u =>
      let l := min (bits v.toNat 21 0) 0x0D1B71
      u.get MTIME.PULL_LIM_LIM = l ∧ u.get MTIME.SERVO_INT_I = wrap 32 (clampI (s.getI MTIME.SERVO_INT_I) l) ∧
      u.get MTIME.SERVO_FREQ_F = wrap 32 (clampI (s.getI MTIME.SERVO_FREQ_F) l) ∧
      u.get MTIME.MASTER_TRIM_TRIM = wrap 32 (clampI (s.getI MTIME.MASTER_TRIM_TRIM) l) ∧
      OnlyRegs [MTIME.PULL_LIM_LIM, MTIME.SERVO_INT_I, MTIME.SERVO_FREQ_F, MTIME.MASTER_TRIM_TRIM]
        { s with tm := { s.tm with fNext := s.tm.fNext.map fun p => (p.1, wrap 32 (clampI (sgn 32 p.2) l)) } } u) ∧
  (∀ s : State, s.timeValid = true → (∀ n : Fin 10, s.get (LANE.STAT_LSTATE n) ≠ 3) →
    s.timeFall.get MTIME.STATUS_TIME_VALID = 0 ∧ s.timeFall.get MTIME.STATUS_VALID_FALL = 1 ∧
    s.timeFall.get RTC.STAT_DISC_ACT = 0 ∧
    RegsBut [MTIME.STATUS_TIME_VALID, MTIME.STATUS_VALID_FALL, RTC.STAT_DISC_ACT] s s.timeFall ∧ SameMemory s s.timeFall) ∧
  (∀ s : State, s.timeValid = true → s.timeFall =
    ((((s.set MTIME.STATUS_TIME_VALID 0).set MTIME.STATUS_VALID_FALL 1).syncoutCut).showDisc).forLanes fun n s => s.loseTime n) ∧
  (∀ (n : Fin 10) (s : State),
    (s.get (LANE.STAT_LSTATE n) = 3 → s.lanes[n].playing = true → let t := s.loseTime n
      t.get (LANE.STAT_LSTATE n) = 4 ∧ t.get (LANE.FLT_STAT_FIRST n) = 7 ∧ t.get (LANE.FLT_STAT_ACTION n) = 0 ∧
      t.get (LANE.FLT_STAT_TIME_LOST n) = 1 ∧ t.get (LANE.FLT_IRQ_STAT_FAULT n) = 1 ∧ t.lanes[n].act = 0 ∧ t.lanes[n].acts = [] ∧
      t.get (LANE.FLT_CNT_COUNT n) = s.get (LANE.FLT_CNT_COUNT n) ∧ SameMemory s t) ∧
    (s.get (LANE.STAT_LSTATE n) ≠ 3 → s.loseTime n = s)) ∧
  (∀ (n : Fin 10) (s : State),
    (s.get (LANE.STAT_LSTATE n) = 4 → s.lanes[n].act = 0 → s.timeHold n = s.lane n fun l => { l with
      held := if s.inSeg n s.mt then s.get (LANE.POS_CMD_P n) else s.basePos n, holding := true, started := false }) ∧
    (s.get (LANE.STAT_LSTATE n) ≠ 4 → s.timeHold n = s))

/-- MT_SYNC_IN, MT_SYNC_OUT, REF_OUT, the capture of MT, the compare channels and the published calendar. An edge of the chosen
polarity captures its instant in 1 ns and pulses event 0x79; two periods without an edge of MT_SYNC_IN clear the lock; a
read of MT_LO captures the high word; arming MT_SYNC_OUT keeps its base and plans the first pulse from START and PERIOD at
least 32 ns ahead; a due and ungated pulse is sent, rises at its instant, falls WIDTH later, and the next is planned; a
compare channel keeps the instant armed, fires at once for a past one, is disarmed by mask, and at its instant, while MT
runs, sets FIRED, disarms and pulses its event; a Master publishes the second boundary as three frames of TYPE 3 for every
node; REF_OUT ungated is high for the first 50 of every 100 ns of MT. (02_machine_time.md, R46, R58, R59, R60, R62, R66.) -/
def Obligations.MachineTimePinsAndCompareChannels : Prop :=
  (∀ (t : Nat) (rising : Bool) (s : State), rising ≠ s.on MTIME.SYNCIN_CFG_EDGE → s.domOn .sys = true → s.get MTIME.STATUS_STATE ≠ 4 →
    Yields (.mtSyncInEdge t rising) s fun u =>
      u.get MTIME.SYNCIN_CAPT_LO_CAPT = t % 2 ^ 32 ∧ u.get MTIME.SYNCIN_CAPT_HI_CAPT = t / 2 ^ 32 % 2 ^ 32 ∧
      u.get MTIME.STATUS_SYNCIN_EDGE = 1 ∧ (0x79, s.tick + 1) ∈ u.ev.pulses ∧
      OnlyRegs [MTIME.SYNCIN_CAPT_LO_CAPT, MTIME.SYNCIN_CAPT_HI_CAPT, MTIME.STATUS_SYNCIN_EDGE] { s with ev := u.ev } u) ∧
  (∀ s : State, s.domOn .sys = true → s.tm.syncinNs + 2 * s.get MTIME.SYNCIN_PERIOD_PERIOD < 4 * s.tick + 4 →
    exec .syncinTimeout s = .next { s.set MTIME.STATUS_SYNCIN_LOCK 0 with tm := { s.tm with syncinGood := 0 } }) ∧
  (∀ s : State, s.accessible MTIME.MT_LO = true →
    exec .mtReadCapture s = .next { s with tm := { s.tm with shadow := s.mt / 2 ^ 32 }, bus := .ok (s.mt % 2 ^ 32) }) ∧
  (∀ (hi : Word) (s : State), s.accessible MTIME.SYNCOUT_START_HI = true →
    Yields (.syncoutArm hi) s fun u =>
      let start := hi.toNat * 2 ^ 32 + s.get MTIME.SYNCOUT_START_LO_START
      u.get MTIME.SYNCOUT_START_HI_START = hi.toNat ∧
      OnlyRegs [MTIME.SYNCOUT_START_HI_START] { s with tm := { s.tm with
        syncoutBase := start, syncoutNext := some (patternFrom start (s.get MTIME.SYNCOUT_PERIOD_PERIOD) (s.mt + 32)) } } u) ∧
  (∀ (t : Nat) (s : State), s.tm.syncoutNext = some t → s.get MTIME.STATUS_STATE ≠ 0 → s.due t = true → s.domOn .sys = true →
    s.on MTIME.OUT_CTRL_SYNCOUT_EN = true → (s.on MTIME.OUT_CTRL_SYNCOUT_GATE = false ∨ s.timeValid = true) →
    exec .mtSyncOutPulse s = .next { s with
      tm := { s.tm with syncoutNext := some (patternFrom s.tm.syncoutBase (s.get MTIME.SYNCOUT_PERIOD_PERIOD) (t + 1)),
                        syncoutRise := s.timebaseNs t,
                        syncoutFall := some (s.timebaseNs t + s.get MTIME.SYNCOUT_WIDTH_WIDTH) },
      sent := .syncPulse t (s.get MTIME.SYNCOUT_WIDTH_WIDTH) :: s.sent }) ∧
  (∀ (c : Fin 4) (hi : Word) (s : State), s.accessible (MTIME.CMP_HI c) = true →
    s.due (hi.toNat * 2 ^ 32 + s.get (MTIME.CMP_LO_CMP c)) = false →
    Yields (.cmpArm c hi) s fun u =>
      u.get (MTIME.CMP_HI_CMP c) = hi.toNat ∧ u.bit MTIME.CMP_STAT_ARMED c = true ∧
      OnlyRegs [MTIME.CMP_HI_CMP c, MTIME.CMP_STAT_ARMED]
        { s with tm := { s.tm with cmp := s.tm.cmp.set c (hi.toNat * 2 ^ 32 + s.get (MTIME.CMP_LO_CMP c)) } } u) ∧
  (∀ (c : Fin 4) (hi : Word) (s : State), s.accessible (MTIME.CMP_HI c) = true →
    s.due (hi.toNat * 2 ^ 32 + s.get (MTIME.CMP_LO_CMP c)) = true →
    exec (.cmpArm c hi) s = .next { State.fireCmp { s.set (MTIME.CMP_HI_CMP c) hi.toNat with
      tm := { s.tm with cmp := s.tm.cmp.set c (hi.toNat * 2 ^ 32 + s.get (MTIME.CMP_LO_CMP c)) } } c true with bus := .ok 0 }) ∧
  (∀ (mask : BitVec 4) (s : State), s.accessible MTIME.CMP_STAT = true →
    Yields (.cmpDisarm mask) s fun u =>
      u.get MTIME.CMP_STAT_ARMED = (s.get MTIME.CMP_STAT_ARMED &&& (15 - mask.toNat)) % 16 ∧
      OnlyRegs [MTIME.CMP_STAT_ARMED] s u) ∧
  (∀ (c : Fin 4) (s : State), s.bit MTIME.CMP_STAT_ARMED c = true → s.mtRuns = true → s.due (s.cmpInst c) = true →
    Yields (.cmpFire c) s fun u =>
      u.bit MTIME.CMP_STAT_FIRED c = true ∧ u.bit MTIME.CMP_STAT_ARMED c = false ∧ (1 + c.1, s.tick + 1) ∈ u.ev.pulses ∧
      OnlyRegs [MTIME.CMP_STAT_FIRED, MTIME.CMP_STAT_ARMED] { s with ev := u.ev } u) ∧
  (∀ (t : Nat) (s : State), s.rtc.secMt = some t → s.get MTIME.STATUS_STATE = 4 → s.domOn .link = true →
    s.rtc.calDue = true → s.tick ≤ s.rtc.secTick + 2500000 →
    exec .calendarPublish s = .next { s with
      rtc := { s.rtc with calDue := false }
      tm := { s.tm with calMt := t % 2 ^ 64, calSec := s.rtc.secCal % 2 ^ 64, calValid := s.on RTC.STAT_VALID, calHeld := true,
                        calNode := s.get RINGCTL.ADDR_ADDR },
      dict := { s.dict with out := s.dict.out ++
        [⟨s.ownFrameTo 127 none 3 (publishMsg 0x4010 1 (leBytes 8 t)), 0⟩,
         ⟨s.ownFrameTo 127 none 3 (publishMsg 0x4010 2 (leBytes 8 s.rtc.secCal)), 0⟩,
         ⟨s.ownFrameTo 127 none 3 (publishMsg 0x4010 3 (leBytes 1 (b2n (s.on RTC.STAT_VALID)))), 0⟩] } }) ∧
  (∀ (s : State) (ns : Nat), s.pinMode = .run → s.on MTIME.OUT_CTRL_REFOUT_EN = true → s.on MTIME.OUT_CTRL_REFOUT_GATE = false →
    s.get MTIME.STATUS_STATE ≠ 0 → s.ballAt .refOut ns = .level (decide ((s.mt + ns) % 100 < 50)))

/-- Ports: loss and gain of signal, delay frames and link delays, usable and healed links. The four causes of a loss; losing a
port that is LOST already withdraws its pending heal alone, and losing another leaves LOST, no pending heal, the loops and,
in FOLLOWER or MASTER, an abort on the port that forwards and the BREAK flag; signal gained; a delay request where it is
due, with its T1; a delay response gives neighbour, readiness and the sample 16(T4 - T1) - turnaround; a delay frame with a
bad CRC is counted and nothing else; 16 samples make the delay valid and give its rounded value with the asymmetry; a usable
link heals at once outside a formed ring and, on port B, is announced for its cycle in one; a port that is still usable
heals at that boundary. (07_gnourlink.md, R48, R142, R144, R153, R163.) -/
def Obligations.RingPortsAndDelayFrames : Prop :=
  (∀ (p : Fin 2) (s : State), s.domOn .link = true →
    exec (.portLost p .fltReceived) s = .next ((s.set (PORT.STAT_FLT_RX p) 1).losePort p) ∧
    exec (.portLost p .noSymbol) s = .next ((((((s.set (PORT.STAT_SIG p) 0).set (PORT.STAT_ALIGNED p) 0).dropSamples p).count
      (PORT.LOS_CNT_COUNT p) (PORT.LOS_CNT_OVF p))).losePort p) ∧
    exec (.portLost p .codeErrors) s = .next ((((((s.set (PORT.STAT_SIG p) 0).set (PORT.STAT_ALIGNED p) 0).dropSamples p).count
      (PORT.LOS_CNT_COUNT p) (PORT.LOS_CNT_OVF p)).codeErrors p).losePort p) ∧
    (s.on (PORT.STAT_SIG p) = false → s.on RINGCTL.CTRL_EN = true → s.ring.enAt + 25000 ≤ s.tick →
      exec (.portLost p .neverSignal) s = .next (s.losePort p))) ∧
  (∀ (p : Fin 2) (s : State), s.lost p = true → s.losePort p = s.set (PORT.STAT_HEAL_PEND p) 0) ∧
  (∀ (p : Fin 2) (s : State), s.lost p = false →
    (s.losePort p).lost p = true ∧ (s.losePort p).get (PORT.STAT_HEAL_PEND p) = 0 ∧
    (s.losePort p).on RINGCTL.STAT_LOOP_A = (s.lost 0 || p == 0) ∧ (s.losePort p).on RINGCTL.STAT_LOOP_B = (s.lost 1 || p == 1) ∧
    ((s.get RINGCTL.STAT_RSTATE = 3 ∨ s.get RINGCTL.STAT_RSTATE = 4) →
      (s.losePort p).get RINGCTL.IRQ_STAT_BREAK = 1 ∧ (s.losePort p).sent = .abt (s.outPort p) :: s.sent) ∧
    OnlyRegs [PORT.STAT_LOST p, PORT.STAT_HEAL_PEND p, RINGCTL.STAT_LOOP_A, RINGCTL.STAT_LOOP_B, RINGCTL.BREAK_CNT_COUNT,
      RINGCTL.BREAK_CNT_OVF, RINGCTL.IRQ_STAT_BREAK] { s with sent := (s.losePort p).sent } (s.losePort p)) ∧
  (∀ (p : Fin 2) (s : State), s.domOn .link = true → s.on (PORT.CTRL_EN p) = true →
    exec (.portSignalGained p) s =
      .next (((s.set (PORT.STAT_SIG p) 1).set (PORT.STAT_ALIGNED p) 1).set (PORT.STAT_FLT_RX p) 0)) ∧
  (∀ (t1 : Nat) (s : State), s.domOn .link = true →
    (s.on (PORT.STAT_SIG 0) = true → s.requestDue 0 = true → exec (.delayRequestSend 0 t1) s =
      .next { s with tm := { s.tm with t1A := some t1 }, sent := .dly 0 (s.dlyFrame 0 false 0 0) :: s.sent }) ∧
    (s.on (PORT.STAT_SIG 1) = true → s.requestDue 1 = true → exec (.delayRequestSend 1 t1) s =
      .next { s with tm := { s.tm with t1B := some t1 }, sent := .dly 1 (s.dlyFrame 1 false 0 0) :: s.sent })) ∧
  (∀ (p : Fin 2) (f : DlyFrame) (t t1 t3 : Nat) (s : State), s.domOn .link = true → f.senderB ≠ (p == 1) → f.heal = none →
    f.resp = true → s.t1 p = some t1 →
    exec (.dlyFrameReceived p f ⟨t, true⟩ t3) s =
      .next (((((s.set (PORT.STAT_FLT_RX p) 0).set (PORT.STAT_NBR_ADDR p) f.addr).setF (PORT.STAT_NBR_READY p) f.ready).set (PORT.STAT_MISWIRED p) 0).addSample p
        (16 * ((t : Int) - (t1 : Int)) - (f.turn : Nat)))) ∧
  (∀ (p : Fin 2) (f : DlyFrame) (t t3 : Nat) (s : State), s.domOn .link = true →
    exec (.dlyFrameReceived p f ⟨t, false⟩ t3) s = .next (s.count (PORT.CRC_ERR_COUNT p) (PORT.CRC_ERR_OVF p))) ∧
  (∀ (q : Int) (s : State),
    (s.addSample 0 q).tm.samplesA = (q :: s.tm.samplesA).take 16 ∧ (s.addSample 0 q).tm.t1A = none ∧
    (s.addSample 0 q).on MTIME.LINKDLY_A_VALID = decide (15 ≤ s.tm.samplesA.length) ∧
    (15 ≤ s.tm.samplesA.length → (s.addSample 0 q).get MTIME.LINKDLY_A_DELAY =
      wrap 16 (linkDelay ((q :: s.tm.samplesA).take 16) (s.getI MTIME.ASYM_ASYM_A)))) ∧
  (∀ (p : Fin 2) (s : State), s.domOn .link = true → s.lost p = true → s.portReady p = true → s.on (PORT.STAT_NBR_READY p) = true →
    (s.get RINGCTL.STAT_RSTATE ≠ 3 → s.get RINGCTL.STAT_RSTATE ≠ 4 → exec (.linkUsable p) s = .next (s.healPort p)) ∧
    ((s.get RINGCTL.STAT_RSTATE = 3 ∨ s.get RINGCTL.STAT_RSTATE = 4) → p = 1 → exec (.linkUsable p) s =
      .next ((s.set (PORT.STAT_HEAL_CYC p) ((s.get RINGCTL.CYCNUM_CYCLE + 6) / 4 * 4 % 65536)).set (PORT.STAT_HEAL_PEND p) 1))) ∧
  (∀ (p : Fin 2) (s : State), s.domOn .link = true → s.on (PORT.STAT_HEAL_PEND p) = true → s.portReady p = true →
    s.on (PORT.STAT_NBR_READY p) = true → s.healDue p = true →
    Yields (.linkHeal p) s fun u =>
      u.lost p = false ∧ u.get (PORT.STAT_HEAL_PEND p) = 0 ∧ u.get RINGCTL.IRQ_STAT_HEAL = 1 ∧
      OnlyRegs [PORT.STAT_LOST p, PORT.STAT_HEAL_PEND p, RINGCTL.IRQ_STAT_HEAL, RINGCTL.STAT_LOOP_A, RINGCTL.STAT_LOOP_B] s u)

/-- The cycle: Cycle Starts sent, forwarded and accepted; slots fetched, sent and received. A Master's Cycle Start at its
instant carries B, CYC, CORR 1,024 and its address, and plans the next; a valid Cycle Start of a new CYC makes a node in
LISTEN a FOLLOWER, ends its silence and goes on with CORR raised by the link delay and 1,024, after the MT_SYNC_OUT levels
it makes; one with a bad CRC is counted and replaced by an abort, but on the Master's return port, where nothing goes on;
the payload of the next slot is fetched 2 us before it, has exactly 8 L bytes and is STALE only with nothing to send; a slot
that would collide is counted and not sent; one that is due is sent, by the transmitter that forwarded the cycle's Cycle
Start, with its flags; a received slot goes on, but on the Master's return port, is collected, and is stored once if
subscribed. (07_gnourlink.md, R143, R146, R148, R149, R155.) -/
def Obligations.RingCycleAndSlots : Prop :=
  (∀ (b cyc : Nat) (s : State), s.ring.nextB = some (b, cyc) → s.get RINGCTL.STAT_RSTATE = 4 → s.domOn .link = true →
    s.due b = true → s.ring.sleepT ≠ some cyc →
    Yields .cycleStartSend s fun t =>
      t.get RINGCTL.CYCNUM_CYCLE = cyc % 65536 ∧ t.get RINGCTL.CYCLE_CUR_TC = s.get RINGCTL.CYCLE_TC_US % 2 ^ 10 ∧
      t.get MTIME.STATUS_STATE = 4 ∧ t.get MTIME.STATUS_TIME_VALID = 1 ∧
      t.ring.nextB = some (b + s.get RINGCTL.CYCLE_TC_US % 2 ^ 10 * 1000, (cyc + 1) % 65536) ∧ t.ring.bLast = some (b, cyc) ∧
      t.ring.tokSent = false ∧ t.ring.slotBy = s.masterPort ∧ ∃ f : CycleStart, t.sent = .cs s.masterPort f :: s.sent ∧ f.tm = b ∧ f.cyc = cyc ∧ f.corr = 1024 ∧
        f.master = s.get RINGCTL.ADDR_ADDR) ∧
  (∀ (p : Fin 2) (tArr : Nat) (f : CycleStart) (s : State), s.domOn .link = true → s.get RINGCTL.STAT_RSTATE ∈ [1, 3] →
    s.lost p = false → s.linkValid p = true → s.ring.lastCyc ≠ some f.cyc → f.cyc < 65536 →
    Yields (.cycleStartReceived p tArr f true) s fun t =>
      t.get RINGCTL.STAT_RSTATE = 3 ∧ t.get RINGCTL.CYCNUM_CYCLE = f.cyc ∧ t.ring.lastCyc = some f.cyc ∧ t.ring.quietAt = s.tick ∧
      t.ring.bLast = some (f.tm, f.cyc) ∧ t.ring.slotBy = s.outPort p ∧ t.tm.missed = false ∧
      ∃ l, (∀ o ∈ l, o = Out.syncLow) ∧ t.sent = l ++ .cs (s.outPort p) { f with
        corr := f.corr + s.linkDly p + 1024, flags := if s.looped then f.flags ||| 4 else f.flags } :: s.sent) ∧
  (∀ (p : Fin 2) (tArr : Nat) (f : CycleStart) (s : State), s.domOn .link = true → s.get RINGCTL.STAT_RSTATE ∈ [1, 2, 3, 4] →
    s.lost p = false →
    ((s.get RINGCTL.STAT_RSTATE ≠ 4 ∨ s.isReturn p = false) → exec (.cycleStartReceived p tArr f false) s =
      .next ((s.count (PORT.CRC_ERR_COUNT p) (PORT.CRC_ERR_OVF p)).emit (.abt (s.outPort p)))) ∧
    (s.get RINGCTL.STAT_RSTATE = 4 → s.isReturn p = true → exec (.cycleStartReceived p tArr f false) s =
      .next (s.count (PORT.CRC_ERR_COUNT p) (PORT.CRC_ERR_OVF p)))) ∧
  (∀ (cyc at_ n : Nat) (s : State), s.nextSlot = some (cyc, at_, n) → s.ringUp = true → s.due (at_ - 2000) = true →
    Yields .slotPayloadFetch s fun t => ∃ d stale dict q, d.length = n ∧
      t.ring = { s.ring with fetched := some (d, stale, dict, q), fetchCyc := cyc } ∧ SameMemory s t ∧
      (stale = true → s.snapChunk n = none ∧ (s.queueHas (s.cyclicQ s.ring.slotBy) = false ∨ s.on MEMCTL.MT_STAT_BUSY = true))) ∧
  (∀ (at_ : Nat) (s : State), s.slotInstant = some at_ → s.slotAllowed = true → s.due at_ = true →
    exec (.slotSend true) s = .next (State.count { s with ring := { s.ring with slotDone := true } }
      RINGCTL.SLOT_COLL_COUNT RINGCTL.SLOT_COLL_OVF)) ∧
  (∀ (at_ : Nat) (d : List Byte) (stale dict : Bool) (s : State), s.slotInstant = some at_ → s.slotAllowed = true →
    s.due at_ = true → s.ring.fetched = some (d, stale, dict, none) → s.ring.fetchCyc = s.get RINGCTL.CYCNUM_CYCLE →
    Yields (.slotSend false) s fun t => t.ring.slotDone = true ∧ t.ring.fetched = none ∧ t.regs = s.regs ∧ SameMemory s t ∧
      ∃ fl, t.sent = .slot s.ring.slotBy s.ring.slotIdx (s.get RINGCTL.ADDR_ADDR) fl (padTo (8 * s.ring.slotLen) d) :: s.sent ∧ getBit fl 1 = stale ∧
        getBit fl 2 = dict) ∧
  (∀ (p : Fin 2) (tArr : Nat) (f : SlotFrame) (s : State), s.domOn .link = true → s.get RINGCTL.STAT_RSTATE ∈ [1, 2, 3, 4] → s.lost p = false →
    let u0 : State := { s with
      sent := if s.get RINGCTL.STAT_RSTATE = 4 ∧ s.isReturn p = true then s.sent
        else .slot (s.outPort p) f.idx f.src f.flags f.data :: s.sent
      ring := { s.ring with srcs := f.src :: s.ring.srcs.filter (· ≠ f.src) } }
    let u1 := if getBit f.flags 0 then u0.sleepCancel else u0
    let u2 := if getBit f.flags 2 then u1.snapCollect f.src f.data else u1
    exec (.slotReceived p f ⟨tArr, true⟩) s = .next (if s.subscribed f.idx = false ∨ f.idx ∈ s.ring.stored then u2
      else (State.rxStore { u2 with ring := { u2.ring with stored := f.idx :: s.ring.stored } }
        (if p = 0 then 2 else 6) 0 f.src tArr (f.flags * 2 ^ 16 + f.idx * 2 ^ 8) f.data).1))

/-- The token, acyclic frames and the hardware queues. The Master sends the token at the end of the slots; a token that comes
too late is dropped, else it goes on, behind an acyclic frame if one fits; a frame for others goes on with HOPS + 1, one
with HOPS 255 is an orphan, one for this node is stored and goes on with its acknowledgement, one with a bad CRC is counted
and replaced by an abort; the sender's own frame completes its descriptor and is replaced by an abort, counted where its CRC
is bad; a frame lost, of a queue or of the dictionary engine, whichever is older, completes with result 4; completion
advances HEAD, sets DONE, and writes only the last 8 bytes of a descriptor in SRAM; a tail write sets TAIL.
(07_gnourlink.md, R150, R152, R154.) -/
def Obligations.RingTokenAndAcyclicFrames : Prop :=
  (∀ (b cyc : Nat) (s : State), s.ring.bLast = some (b, cyc) → s.get RINGCTL.STAT_RSTATE = 4 → s.domOn .link = true →
    s.ring.tokSent = false → s.due (b + 64 + 20 * s.get RINGCTL.ACYC_CUR_POS) = true →
    exec .tokSend s = .next { s with ring := { s.ring with tokSent := true }, sent := .tok s.masterPort :: s.sent }) ∧
  (∀ (p : Fin 2) (pos : Nat) (s : State), s.domOn .link = true → s.get RINGCTL.STAT_RSTATE ∈ [1, 2, 3, 4] → s.lost p = false →
    (s.acycEnd < pos → exec (.tokReceived p pos) s = .next s) ∧
    (pos ≤ s.acycEnd → s.sendAcyclic (s.outPort p) pos = none →
      exec (.tokReceived p pos) s = .next { s with sent := .tok (s.outPort p) :: s.sent }) ∧
    (pos ≤ s.acycEnd → ∀ u, s.sendAcyclic (s.outPort p) pos = some u →
      exec (.tokReceived p pos) s = .next { u with sent := .tok (s.outPort p) :: u.sent })) ∧
  (∀ (p : Fin 2) (tArr : Nat) (f : AcyclicFrame) (s : State), s.domOn .link = true → s.get RINGCTL.STAT_RSTATE ∈ [1, 2, 3, 4] →
    s.lost p = false → s.isSource f = false →
    (f.hops < 255 → s.isDest f = false →
      exec (.acyclicFrameReceived p f ⟨tArr, true⟩) s = .next { s with sent := .acyc (s.outPort p) { f with hops := f.hops + 1 } :: s.sent }) ∧
    (255 ≤ f.hops → exec (.acyclicFrameReceived p f ⟨tArr, true⟩) s =
      .next ((s.count RINGCTL.ORPHAN_COUNT RINGCTL.ORPHAN_OVF).emit (.abt (s.outPort p)))) ∧
    (f.hops < 255 → s.isDest f = true → exec (.acyclicFrameReceived p f ⟨tArr, true⟩) s =
      .next ((s.storeFrame p tArr f).1.emit (.acyc (s.outPort p) { f with
        hops := f.hops + 1, ack := f.ack ||| (s.storeFrame p tArr f).2 }))) ∧
    exec (.acyclicFrameReceived p f ⟨tArr, false⟩) s =
      .next ((s.count (PORT.CRC_ERR_COUNT p) (PORT.CRC_ERR_OVF p)).emit (.abt (s.outPort p)))) ∧
  (∀ (p : Fin 2) (tArr : Nat) (f : AcyclicFrame) (s : State), s.domOn .link = true → s.get RINGCTL.STAT_RSTATE ∈ [1, 2, 3, 4] →
    s.lost p = false → s.isSource f = true → s.dictOlder = false →
    exec (.acyclicFrameReceived p f ⟨tArr, true⟩) s = .next ((s.completeTx f.ack (ackResult f true)).emit (.abt (s.outPort p))) ∧
    exec (.acyclicFrameReceived p f ⟨tArr, false⟩) s = .next ((s.completeTx f.ack (ackResult f false)).badFrame p true)) ∧
  (∀ (q i t : Nat) (rest : List (Nat × Nat × Nat)) (s : State), s.dictOlder = false → s.ring.txOut = (q, i, t) :: rest →
    s.domOn .link = true → s.txLate t = true → exec .acyclicTxLost s = .next (s.completeTx 0 4)) ∧
  (∀ (f : DictFrame) (t : Nat) (rest : List (DictFrame × Nat)) (s : State), s.dictOlder = true → s.dict.onRing = (f, t) :: rest →
    s.domOn .link = true → s.txLate t = true →
    exec .acyclicTxLost s = .next (State.dictFrameBack { s with dict := { s.dict with onRing := rest } } f 4)) ∧
  (∀ (q i t ack res : Nat) (rest : List (Nat × Nat × Nat)) (s : State), s.ring.txOut = (q, i, t) :: rest → q < 8 →
    s.get (LINKQ.Q_HEAD_HEAD q) = i → inSram (s.descAddr q i + 8) 8 = true →
    let u := s.completeTx ack res
    u.ring.txOut = rest ∧ u.get (LINKQ.Q_HEAD_HEAD q) = (i + 1) % s.get (LINKQ.Q_CFG_SIZE q) % 2 ^ 8 ∧
    u.bit LINKQ.IRQ_STAT_DONE q = true ∧ MemoryBut (s.descAddr q i + 8) 8 s u ∧
    OnlyRegs [LINKQ.Q_HEAD_HEAD q, LINKQ.IRQ_STAT_DONE] { s with mem := u.mem, ring := { s.ring with txOut := rest } } u) ∧
  (∀ (q : Fin 8) (v : Word) (s : State), s.accessible (LINKQ.Q_TAIL q) = true →
    Yields (.queueTailWrite q v) s fun t => t.get (LINKQ.Q_TAIL_TAIL q) = bits v.toNat 7 0 ∧ t.bus = .ok 0 ∧
      OnlyRegs [LINKQ.Q_TAIL_TAIL q] s t)

/-- Forming the ring: enable, disable, timeouts, claims, election and ring reset. Enabling a docked node whose domain is on
takes it to LISTEN, disabling to DOWN; silence for 100 us in LISTEN, with INSERT, and silence for 8 cycles in FOLLOWER take
a node that may be master to CLAIM (in LISTEN also one with both ports lost), and it sends its claim on both ports; a claim
passes a node that does not claim, which notes the best key seen, is dropped by a stronger claimant, elects its own sender,
and takes a weaker claimant to LISTEN with the winner's priority and identifier; one with a bad CRC is counted and replaced
by an abort; noting a claim keeps the lowest key of the formation; a ring reset is sent on both ports, or passed on once
within 10 us, and leaves the node in LISTEN with MT 0 and time invalid. (07_gnourlink.md, R51, R157, R158, R159, R160,
R161.) -/
def Obligations.RingFormation : Prop :=
  (∀ (v : Word) (s : State), s.accessible RINGCTL.CTRL = true → Yields (.ringEnable v) s fun t => t.get RINGCTL.CTRL_EN = 1 ∧
      t.on RINGCTL.STAT_BYPASS = (getBit v.toNat 30 && s.domOn .link) ∧
      (s.get RINGCTL.STAT_RSTATE = 0 → s.on AONCTL.MODE_DOCKED = true → s.domOn .link = true → t.get RINGCTL.STAT_RSTATE = 1 ∧
        t.get RINGCTL.IRQ_STAT_STATE_CHG = 1 ∧ t.ring.quietAt = s.tick) ∧
      RegsOutside (fun a => a == RINGCTL.CTRL || a == RINGCTL.STAT || a == RINGCTL.IRQ_STAT) s t ∧ SameMemory s t) ∧
  (∀ (v : Word) (s : State), s.accessible RINGCTL.CTRL = true →
    Yields (.ringDisable v) s fun t => t.get RINGCTL.CTRL_EN = 0 ∧ t.get RINGCTL.STAT_RSTATE = 0 ∧
      t.get RINGCTL.STAT_BYPASS = 0 ∧
      RegsOutside (fun a => a == RINGCTL.CTRL || a == RINGCTL.STAT || a == RINGCTL.IRQ_STAT) s t ∧ SameMemory s t) ∧
  (∀ s : State, s.get RINGCTL.STAT_RSTATE = 1 → s.domOn .link = true → s.ring.quietAt + 25000 ≤ s.tick → s.on RINGCTL.CTRL_INSERT = true →
    (s.on RINGCTL.CTRL_MASTER_CAP = true ∨ s.lost 0 = true ∧ s.lost 1 = true) →
    Yields .listenTimeout s fun t => t.get RINGCTL.STAT_RSTATE = 2 ∧
      OnlyRegs [RINGCTL.STAT_RSTATE, RINGCTL.IRQ_STAT_STATE_CHG] { s with ring := { s.ring with clmAt := none } } t) ∧
  (∀ (tl : Nat) (s : State), s.tm.tLast = some tl → s.get RINGCTL.STAT_RSTATE = 3 → s.domOn .link = true →
    s.on RINGCTL.CTRL_MASTER_CAP = true → s.due (tl + 8000 * s.get RINGCTL.CYCLE_CUR_TC) = true →
    Yields .followerTimeout s fun t => t.get RINGCTL.STAT_RSTATE = 2 ∧
      OnlyRegs [RINGCTL.STAT_RSTATE, RINGCTL.IRQ_STAT_STATE_CHG] { s with ring := { s.ring with clmAt := none } } t) ∧
  (∀ s : State, s.get RINGCTL.STAT_RSTATE = 2 → s.domOn .link = true → (∀ k, s.ring.clmAt = some k → k + 2000 ≤ s.tick) →
    exec .clmSend s = .next { s with
      ring := { s.ring with clmAt := some s.tick }
      sent := .clm 1 Config.uniqueId (s.get RINGCTL.CTRL_PRIO) (s.get MTIME.STATUS_STATE != 0) ::
      .clm 0 Config.uniqueId (s.get RINGCTL.CTRL_PRIO) (s.get MTIME.STATUS_STATE != 0) :: s.sent }) ∧
  (∀ (p : Fin 2) (uid : BitVec 64) (prio : Byte) (run : Bool) (s : State), s.domOn .link = true → s.hears p = true →
    (s.get RINGCTL.STAT_RSTATE ∈ [1, 3, 4] → exec (.clmReceived p uid prio run true) s =
      .next ((s.hear.noteClaim prio.toNat uid.toNat).emit (.clm (s.outPort p) uid prio.toNat run))) ∧
    (s.get RINGCTL.STAT_RSTATE ∈ [1, 2, 3, 4] → exec (.clmReceived p uid prio run false) s =
      .next ((s.count (PORT.CRC_ERR_COUNT p) (PORT.CRC_ERR_OVF p)).emit (.abt (s.outPort p)))) ∧
    (s.get RINGCTL.STAT_RSTATE = 2 → s.get RINGCTL.CTRL_PRIO * 2 ^ 64 + ownUid < prio.toNat * 2 ^ 64 + uid.toNat →
      exec (.clmReceived p uid prio run true) s = .next (s.hear.emit (.abt (s.outPort p)))) ∧
    (s.get RINGCTL.STAT_RSTATE = 2 → prio.toNat * 2 ^ 64 + uid.toNat = s.get RINGCTL.CTRL_PRIO * 2 ^ 64 + ownUid →
      Yields (.clmReceived p uid prio run true) s fun t => t.get RINGCTL.STAT_RSTATE = 4 ∧ t.get RINGCTL.IRQ_STAT_ELECTED = 1 ∧
        t.get RINGCTL.MASTER_ADDR = s.get RINGCTL.ADDR_ADDR % 2 ^ 7 ∧ t.get RINGCTL.STAT_MUTED = 0 ∧
        t.sent = .abt (s.outPort p) :: s.sent) ∧
    (s.get RINGCTL.STAT_RSTATE = 2 → prio.toNat * 2 ^ 64 + uid.toNat < s.get RINGCTL.CTRL_PRIO * 2 ^ 64 + ownUid →
      (∀ k, s.ring.bestKey = some k → prio.toNat * 2 ^ 64 + uid.toNat < k) →
      Yields (.clmReceived p uid prio run true) s fun t => t.get RINGCTL.STAT_RSTATE = 1 ∧
        t.get RINGCTL.MASTER_PRIO = prio.toNat ∧ t.get RINGCTL.MASTER_UID_LO_UID = uid.toNat % 2 ^ 32 ∧
        t.get RINGCTL.MASTER_UID_HI_UID = uid.toNat / 2 ^ 32 ∧ t.ring.quietAt = s.tick ∧
        t.sent = .clm (s.outPort p) uid prio.toNat run :: s.sent)) ∧
  (∀ (s : State) (prio uid : Nat),
    ((∀ k, s.ring.bestKey = some k → prio * 2 ^ 64 + uid < k) → (s.noteClaim prio uid).get RINGCTL.MASTER_PRIO = prio % 2 ^ 8 ∧
      (s.noteClaim prio uid).get RINGCTL.MASTER_UID_LO_UID = uid % 2 ^ 32 ∧
      (s.noteClaim prio uid).get RINGCTL.MASTER_UID_HI_UID = uid / 2 ^ 32 % 2 ^ 32 ∧
      (s.noteClaim prio uid).ring = { s.ring with bestKey := some (prio * 2 ^ 64 + uid) }) ∧
    (∀ k, s.ring.bestKey = some k → k ≤ prio * 2 ^ 64 + uid → s.noteClaim prio uid = s)) ∧
  (∀ s : State, s.accessible RINGCTL.CTRL = true → s.get RINGCTL.STAT_RSTATE ≠ 0 → s.domOn .link = true →
    exec .ringResetWrite s = .next { (s.ringReset.emit (.rst 0)).emit (.rst 1) with
      ring := { s.ringReset.ring with rstTick := s.ringReset.tick + 1 }, bus := .ok 0 }) ∧
  (∀ (p : Fin 2) (s : State), s.domOn .link = true → s.get RINGCTL.STAT_RSTATE ≠ 0 →
    (s.ring.rstTick = 0 ∨ s.ring.rstTick + 2500 < s.tick + 1) →
    exec (.rstReceived p) s = .next { s.ringReset.emit (.rst (other p)) with
      ring := { s.ringReset.ring with rstTick := s.ringReset.tick + 1 } }) ∧
  (∀ s : State, s.ringReset.get RINGCTL.STAT_RSTATE = 1 ∧ s.ringReset.get RINGCTL.IRQ_STAT_RESET = 1 ∧
    s.ringReset.get MTIME.STATUS_STATE = 0 ∧ s.ringReset.timeValid = false ∧ s.ringReset.mt = 0 ∧ s.ringReset.ring.bLast = none ∧
    s.ringReset.ring.txOut = [] ∧ s.ringReset.get RINGCTL.SLEEP_PEND = 0)

/-- Ring sleep: announced, cancelled, entered, and the ways it ends. A Master's sleep announcement fixes the cycle; a cancel
before the last cycle withdraws it and is announced; in the cycle before T the ring sleeps, HELD if a wake is requested; a
held wake in Run, or in Hover, which it ends, and activity on an enabled port take a sleeping ring to LISTEN with a wake
sent on both ports; a write of WAKE wakes where it must. (07_gnourlink.md, R165, R166, R167, R168.) -/
def Obligations.RingSleepCommands : Prop :=
  (∀ (v : Word) (s : State), s.accessible RINGCTL.SLEEP = true → s.get RINGCTL.STAT_RSTATE = 4 → s.ring.sleepT = none →
    4 ≤ bits v.toNat 15 0 → bits v.toNat 15 0 ≤ 32767 →
    Yields (.sleepGo v) s fun t => t.get RINGCTL.SLEEP_PEND = 1 ∧
      t.get RINGCTL.SLEEP_CYC_T = (s.get RINGCTL.CYCNUM_CYCLE + bits v.toNat 15 0) % 65536 ∧
      t.ring.sleepT = some ((s.get RINGCTL.CYCNUM_CYCLE + bits v.toNat 15 0) % 65536)) ∧
  (∀ (c : Nat) (s : State), s.accessible RINGCTL.SLEEP = true → s.get RINGCTL.STAT_RSTATE = 4 → s.ring.sleepT = some c →
    s.get RINGCTL.CYCNUM_CYCLE ≠ (c + 65535) % 65536 →
    exec .sleepCancel s = .next { (s.set RINGCTL.SLEEP_PEND 0).set RINGCTL.IRQ_STAT_CANCELLED 1 with
      ring := { s.ring with sleepT := none, cancelLeft := 4 }, bus := .ok 0 }) ∧
  (∀ (c : Nat) (s : State), s.ring.sleepT = some c → s.domOn .link = true → s.get RINGCTL.STAT_RSTATE ∈ [3, 4] →
    s.get RINGCTL.CYCNUM_CYCLE = (c + 65535) % 65536 →
    Yields .ringSleep s fun t => t.get RINGCTL.STAT_RSTATE = 5 ∧ t.get RINGCTL.IRQ_STAT_SLEPT = 1 ∧ t.get RINGCTL.SLEEP_PEND = 0 ∧
      (s.on RINGCTL.WAKE_REQ = true → t.get RINGCTL.STAT_HELD = 1) ∧
      OnlyRegs [RINGCTL.STAT_RSTATE, RINGCTL.IRQ_STAT_STATE_CHG, RINGCTL.IRQ_STAT_SLEPT, RINGCTL.SLEEP_PEND, RINGCTL.STAT_HELD]
        { s with ring := { s.ring with sleepT := none, nextB := none } } t) ∧
  (∀ s : State, s.get RINGCTL.STAT_RSTATE = 5 → s.domOn .link = true →
    (s.on RINGCTL.STAT_HELD = true → s.pwr.entry = none → s.pwr.step = .run → exec .heldWake s = .next s.ringWake) ∧
    (s.on RINGCTL.STAT_HELD = true → s.pwr.entry = none → s.pwr.step = .hover → s.pwr.exit = none →
      exec .heldWake s = .next { s.ringWake with pwr := { s.pwr with exit := some .hover, req := none } }) ∧
    (∀ p, s.on (PORT.CTRL_EN p.1) = true → exec (.ringActivityWake p) s = .next s.ringWake)) ∧
  (∀ (v : Word) (s : State), s.accessible RINGCTL.WAKE = true →
    exec (.wakeReq v) s = .next { (s.writeFields (fun _ => true) RINGCTL.WAKE v.toNat false).wakeRing with bus := .ok 0 }) ∧
  (∀ s : State, s.get RINGCTL.STAT_RSTATE = 5 →
    s.ringWake.get RINGCTL.STAT_RSTATE = 1 ∧ s.ringWake.get RINGCTL.IRQ_STAT_STATE_CHG = 1 ∧ s.ringWake.ring.quietAt = s.tick ∧
    OnlyRegs [RINGCTL.STAT_RSTATE, RINGCTL.IRQ_STAT_STATE_CHG]
      { s with sent := .wake 1 :: .wake 0 :: s.sent, ring := { s.ring with quietAt := s.tick } } s.ringWake)

/-- The copy channel, verification, invalidation and records loaded through the dictionary. A legal copy of a source in SRAM
makes the back bank LOADING and the channel BUSY, and at its end, with the source not under a march test and the bank
neither verifying nor armed, the bank's bytes are the source's and verification follows where it was asked for; VERIFY, with
the loader free, takes over the count, generation, CRC and limits; the verdict over the bank's bytes gives READY with its
generation, or REJECTED with the reason and the record's index; INVALIDATE empties the bank; while verifying or armed both
are ignored with CMD_IGN; records written through the dictionary go behind those before them and change no other byte.
(03_schedules.md, R67, R72, R74, R75, R76.) -/
def Obligations.ScheduleCopyAndVerify : Prop :=
  (∀ (n : Fin 10) (v : Word) (s : State), s.accessible SCHEDLD.COPY_CTRL = true → s.get SCHEDLD.COPY_CTRL_BUSY = 0 →
    bits v.toNat 3 0 = n.1 → bits v.toNat 25 25 = 1 → bits v.toNat 26 26 = 1 → 1 ≤ bits v.toNat 24 16 → bits v.toNat 24 16 ≤ 384 →
    s.get (SCHEDLD.L_BSTAT_BACK_STATE n) ≠ 2 → s.get (SCHEDLD.L_BSTAT_BACK_STATE n) ≠ 5 →
    inSram (s.get SCHEDLD.COPY_SRC_SRC * 32) (bits v.toNat 24 16 * 32) = true →
    Yields (.copyStart v) s fun t =>
      t.get SCHEDLD.COPY_CTRL_BUSY = 1 ∧ t.get SCHEDLD.COPY_CTRL_ERR = 0 ∧ t.get SCHEDLD.COPY_CTRL_DONE = 0 ∧
      t.get SCHEDLD.COPY_CTRL_LANE = n.1 ∧ t.get SCHEDLD.COPY_CTRL_COUNT = bits v.toNat 24 16 ∧
      t.get (SCHEDLD.L_BSTAT_BACK_STATE n) = 1 ∧ t.get (SCHEDLD.L_GEN_BACK_GEN n) = 0 ∧
      RegsOutside (fun a => a == SCHEDLD.COPY_CTRL || a == SCHEDLD.L_BSTAT n || a == SCHEDLD.L_GEN n) s t ∧ SameMemory s t ∧
      t = { s with
        regs := t.regs, now := t.now, bus := .ok 0
        copy := ⟨s.get SCHEDLD.COPY_SRC_SRC * 32, bits v.toNat 24 16, n, getBit v.toNat 30⟩ }) ∧
  (∀ (n : Fin 10) (s : State), s.get SCHEDLD.COPY_CTRL_BUSY = 1 → s.domOn .lane = true →
    s.marchHolds s.copy.src (s.copy.count * 32) = false → inSram s.copy.src (s.copy.count * 32) = true → s.copy.lane = n.1 →
    s.get (SCHEDLD.L_BSTAT_BACK_STATE n) ≠ 2 → s.get (SCHEDLD.L_BSTAT_BACK_STATE n) ≠ 5 →
    let u := (s.set SCHEDLD.COPY_CTRL_BUSY 0).set SCHEDLD.COPY_CTRL_DONE 1
    let x := u.dmaRead .copy s.copy.src (s.copy.count * 32)
    let t := (x.1.pokes (bankBase n (x.1.backPhys n)) x.2).setBack n 1
    exec .copyDone s = .next (if s.copy.auto then t.loader n .verify false else t) ∧
      (x = (u, s.bytes s.copy.src (s.copy.count * 32)) ∨ ∃ w double, Config.dmaError s.tick s.copy.src = some (w, double))) ∧
  (∀ (n : Fin 10) (s : State), s.accessible (SCHEDLD.L_CMD n) = true → s.LoaderFree n →
    s.get (SCHEDLD.L_BSTAT_BACK_STATE n) ≠ 2 → s.get (SCHEDLD.L_BSTAT_BACK_STATE n) ≠ 5 →
    Yields (.verify n) s fun t => t.get (SCHEDLD.L_BSTAT_BACK_STATE n) = 2 ∧ t.get (SCHEDLD.L_GEN_BACK_GEN n) = 0 ∧
      (t.sched[n].vCount, t.sched[n].vGen, t.sched[n].vCrc) =
        (s.get (SCHEDLD.L_LOADCFG_COUNT n), s.get (SCHEDLD.L_LOADCFG_GEN n), s.get (SCHEDLD.L_BANKCRC_CRC n)) ∧
      (t.sched[n].vPosMin, t.sched[n].vPosMax, t.sched[n].vVel, t.sched[n].vAcc) = (s.get (SCHEDLD.L_POSMIN_POSMIN n),
        s.get (SCHEDLD.L_POSMAX_POSMAX n), s.get (SCHEDLD.L_VELMAX_VELMAX n), s.get (SCHEDLD.L_ACCMAX_ACCMAX n)) ∧
      OnlyRegs [SCHEDLD.L_BSTAT_BACK_STATE n, SCHEDLD.L_GEN_BACK_GEN n] { s with sched := t.sched } t) ∧
  (∀ (n : Fin 10) (s : State), s.domOn .lane = true → s.get (SCHEDLD.L_BSTAT_BACK_STATE n) = 2 →
    (verdict s.sched[n] (s.bytes (bankBase n (s.backPhys n)) 12288)).reason = 0 →
    Yields (.verifyDone n) s fun t => t.get (SCHEDLD.L_BSTAT_BACK_STATE n) = 3 ∧ t.get (SCHEDLD.L_BSTAT_REASON n) = 0 ∧
      t.get (SCHEDLD.L_GEN_BACK_GEN n) = s.sched[n].vGen % 2 ^ 16 ∧ t.bit SCHEDLD.IRQ_STAT_VER_DONE n = true ∧
      OnlyRegs [SCHEDLD.L_BSTAT_BACK_STATE n, SCHEDLD.L_BSTAT_REASON n, SCHEDLD.L_BSTAT_REC_INDEX n, SCHEDLD.L_GEN_BACK_GEN n,
        SCHEDLD.IRQ_STAT_VER_DONE] s t) ∧
  (∀ (n : Fin 10) (r : Verdict) (s : State), s.domOn .lane = true → s.get (SCHEDLD.L_BSTAT_BACK_STATE n) = 2 →
    verdict s.sched[n] (s.bytes (bankBase n (s.backPhys n)) 12288) = r → r.reason ≠ 0 →
    Yields (.verifyDone n) s fun t => t.get (SCHEDLD.L_BSTAT_BACK_STATE n) = 4 ∧
      t.get (SCHEDLD.L_BSTAT_REASON n) = r.reason % (SCHEDLD.L_BSTAT_REASON n).bound ∧
      t.get (SCHEDLD.L_BSTAT_REC_INDEX n) = r.index % (SCHEDLD.L_BSTAT_REC_INDEX n).bound ∧
      t.get (SCHEDLD.L_GEN_BACK_GEN n) = 0 ∧ t.bit SCHEDLD.IRQ_STAT_VER_DONE n = true ∧
      OnlyRegs [SCHEDLD.L_BSTAT_BACK_STATE n, SCHEDLD.L_BSTAT_REASON n, SCHEDLD.L_BSTAT_REC_INDEX n, SCHEDLD.L_GEN_BACK_GEN n,
        SCHEDLD.IRQ_STAT_VER_DONE] s t) ∧
  (∀ (n : Fin 10) (s : State), s.accessible (SCHEDLD.L_CMD n) = true → s.LoaderFree n →
    s.get (SCHEDLD.L_BSTAT_BACK_STATE n) ≠ 2 → s.get (SCHEDLD.L_BSTAT_BACK_STATE n) ≠ 5 →
    Yields (.invalidate n) s fun t => t.get (SCHEDLD.L_BSTAT_BACK_STATE n) = 0 ∧ t.get (SCHEDLD.L_GEN_BACK_GEN n) = 0 ∧
      OnlyRegs [SCHEDLD.L_BSTAT_BACK_STATE n, SCHEDLD.L_GEN_BACK_GEN n] { s with sched := t.sched } t) ∧
  (∀ (n : Fin 10) (s : State), s.accessible (SCHEDLD.L_CMD n) = true → s.LoaderFree n →
    (s.get (SCHEDLD.L_BSTAT_BACK_STATE n) = 2 ∨ s.get (SCHEDLD.L_BSTAT_BACK_STATE n) = 5) →
    ∀ c ∈ [Instr.invalidate n, Instr.verify n],
      ∃ l, exec c s = .next { (s.set (SCHEDLD.L_SWSTAT_CMD_IGN n) 1).schedOf n fun q => { q with landed := l } with bus := .ok 0 }) ∧
  (∀ (n : Fin 10) (d : List Byte) (s : State), s.domOn .lane = true → d.length ≠ 0 → d.length % 32 = 0 → d.length ≤ 256 →
    s.sched[n].loadOffset + d.length / 32 ≤ 384 → s.get (SCHEDLD.L_BSTAT_BACK_STATE n) ≠ 2 →
    s.get (SCHEDLD.L_BSTAT_BACK_STATE n) ≠ 5 →
    Yields (.loadData n d) s fun t => t.abort = 0 ∧ t.get (SCHEDLD.L_BSTAT_BACK_STATE n) = 1 ∧
      t.sched[n].loadOffset = s.sched[n].loadOffset + d.length / 32 ∧
      (∀ i (h : i < d.length), t.byte (bankBase n (s.backPhys n) + s.sched[n].loadOffset * 32 + i) = d[i]) ∧
      MemoryBut (bankBase n (s.backPhys n) + s.sched[n].loadOffset * 32) d.length s t)

/-- Arming, cancelling and making the switch to another schedule. ARM of a READY bank with a newer generation, valid time and an
instant not past and before its first record arms the lane; without valid time or a READY bank it ends with its code; an
outcome clears ARMED and sets SW_DONE; CANCEL while the lane is armed returns the bank to READY, after it is too late; at
the instant the switch is refused with its code or swaps the banks, takes the generation, takes a READY lane to ACTIVE and
holds the commanded position; the actions of a segment fire when due, after the switch due in their tick, unless the lane is
SUSPENDED. (03_schedules.md, R77, R78, R79, R80, R88.) -/
def Obligations.EpochSwitching : Prop :=
  (∀ (n : Fin 10) (s : State), s.accessible (SCHEDLD.L_CMD n) = true → s.LoaderFree n → s.get (SCHEDLD.L_BSTAT_BACK_STATE n) = 3 → s.timeValid = true →
    (s.on (SCHEDLD.L_BSTAT_FRONT_VALID n) = false ∨
      newer 16 (s.get (SCHEDLD.L_GEN_BACK_GEN n)) (s.get (SCHEDLD.L_GEN_FRONT_GEN n)) = true) →
    let x := s.get (SCHEDLD.L_SWT_HI_S_HI n) * 2 ^ 32 + s.get (SCHEDLD.L_SWT_LO_S_LO n)
    (s.stamp40 x).2 = false → s.due (s.stamp40 x).1 = false →
    ((s.seg n (s.backPhys n) 0).start + 2 ^ 40 - x) % 2 ^ 40 < 2 ^ 39 →
    Yields (.arm n) s fun t => t.get (SCHEDLD.L_BSTAT_BACK_STATE n) = 5 ∧ t.get (SCHEDLD.L_SWSTAT_OUTCOME n) = 1 ∧
      t.get (SCHEDLD.L_SWSTAT_ARMED n) = 1 ∧ t.sched[n].armS = (s.stamp40 x).1 ∧
      OnlyRegs [SCHEDLD.L_BSTAT_BACK_STATE n, SCHEDLD.L_SWSTAT_OUTCOME n, SCHEDLD.L_SWSTAT_ARMED n] { s with sched := t.sched } t) ∧
  (∀ (n : Fin 10) (s : State), s.accessible (SCHEDLD.L_CMD n) = true → s.LoaderFree n → s.get (SCHEDLD.L_BSTAT_BACK_STATE n) ≠ 5 →
    (s.timeValid = false → ∃ l, exec (.arm n) s =
      .next { (s.swDone n 0x14).schedOf n fun q => { q with landed := l } with bus := .ok 0 }) ∧
    (s.timeValid = true → s.get (SCHEDLD.L_BSTAT_BACK_STATE n) ≠ 3 → ∃ l, exec (.arm n) s =
      .next { (s.swDone n 0x10).schedOf n fun q => { q with landed := l } with bus := .ok 0 })) ∧
  (∀ (n : Fin 10) (code : Nat) (s : State), code < 32 → (s.swDone n code).get (SCHEDLD.L_SWSTAT_OUTCOME n) = code ∧
    (s.swDone n code).get (SCHEDLD.L_SWSTAT_ARMED n) = 0 ∧ (s.swDone n code).bit SCHEDLD.IRQ_STAT_SW_DONE n = true ∧
    OnlyRegs [SCHEDLD.L_SWSTAT_OUTCOME n, SCHEDLD.L_SWSTAT_ARMED n, SCHEDLD.IRQ_STAT_SW_DONE] s (s.swDone n code)) ∧
  (∀ (n : Fin 10) (s : State), s.accessible (SCHEDLD.L_CMD n) = true → s.LoaderFree n →
    (s.on (SCHEDLD.L_SWSTAT_ARMED n) = true → ∃ l, exec (.cancel n) s =
      .next { ((s.setBack n 3).swDone n 3).schedOf n fun q => { q with landed := l } with bus := .ok 0 }) ∧
    (s.on (SCHEDLD.L_SWSTAT_ARMED n) = false → ∃ l, exec (.cancel n) s =
      .next { (s.set (SCHEDLD.L_SWSTAT_TOO_LATE n) 1).schedOf n fun q => { q with landed := l } with bus := .ok 0 })) ∧
  (∀ (n : Fin 10) (s : State), s.on (SCHEDLD.L_SWSTAT_ARMED n) = true → s.due s.sched[n].armS = true → s.domOn .lane = true →
    let u := s.advance n s.sched[n].armS
    (u.switchRefusal n = none → exec (.epochSwitch n) s = .next (u.switchBanks n)) ∧
    (∀ c, u.switchRefusal n = some c → exec (.epochSwitch n) s = .next ((u.setBack n 3).swDone n c))) ∧
  (∀ (n : Fin 10) (s : State),
    let t := s.switchBanks n
    t.get (SCHEDLD.L_GEN_FRONT_GEN n) = s.get (SCHEDLD.L_GEN_BACK_GEN n) % 2 ^ 16 ∧ t.frontPhys n = s.backPhys n % 2 ∧
    t.on (SCHEDLD.L_BSTAT_FRONT_VALID n) = true ∧ t.get (SCHEDLD.L_BSTAT_BACK_STATE n) = 0 ∧ t.get (SCHEDLD.L_GEN_BACK_GEN n) = 0 ∧
    t.get (SCHEDLD.L_SWSTAT_OUTCOME n) = 2 ∧ t.get (SCHEDLD.L_SWSTAT_ARMED n) = 0 ∧ t.bit SCHEDLD.IRQ_STAT_SW_DONE n = true ∧
    (s.get (LANE.STAT_LSTATE n) = 2 → t.get (LANE.STAT_LSTATE n) = 3) ∧
    (s.get (LANE.STAT_LSTATE n) ≠ 2 → t.get (LANE.STAT_LSTATE n) = s.get (LANE.STAT_LSTATE n)) ∧
    t.lanes[n].playing = true ∧ t.lanes[n].started = false ∧ t.lanes[n].holding = true ∧
    t.lanes[n].held = s.get (LANE.POS_CMD_P n) ∧ SameMemory s t) ∧
  (∀ (n : Fin 10) (s : State),
    let u := (s.switchAt n).advance n (s.mt + 3)
    let w := u.lane n fun l => { l with acts := l.acts.filter fun a => !u.due a.inst }
    (w.get (LANE.STAT_LSTATE n) ≠ 4 → exec (.segmentActionsFire n) s =
      .next ((u.lanes[n].acts.filter fun a => u.due a.inst).foldl (fun s a => s.fireActs n a) w)) ∧
    (w.get (LANE.STAT_LSTATE n) = 4 → exec (.segmentActionsFire n) s = .next w))

/-- What a bank that passes verification holds. Whatever the bank holds, if verification passes: the count is 1 to 384, the
CRC-32C is the expected one, every record's CRC-16 is right and its format and duration legal, only the last record is END,
every position lies within the limits, every TRAJ keeps the velocity and acceleration limits, and no record starts before
the one in front of it has ended. (03_schedules.md, R70, R71, R72.) -/
def Obligations.VerifiedSchedulesAreSound : Prop :=
  ∀ (q : SchedSt) (b : List Byte), (verdict q b).reason = 0 → q.vCount * 32 ≤ b.length →
    1 ≤ q.vCount ∧ q.vCount ≤ 384 ∧ crc32c (b.take (q.vCount * 32)) = q.vCrc ∧
    ∀ i, i < q.vCount →
      let bytes := (b.drop (i * 32)).take 32
      let r := Seg.ofBytes bytes
      crc16 (bytes.take 30) = r.crc ∧ (r.kind = 4 ↔ i + 1 = q.vCount) ∧ r.formatOk = true ∧ r.durationOk = true ∧
      r.posOk (sgn 32 q.vPosMin) (sgn 32 q.vPosMax) = true ∧
      (r.kind = 0 → r.velOk (q.vVel : Nat) = true ∧ r.accOk (q.vAcc : Nat) = true) ∧
      (0 < i → let p := Seg.ofBytes ((b.drop ((i - 1) * 32)).take 32)
        p.dur ≤ (r.start + 2 ^ 40 - p.start) % 2 ^ 40 ∧ (r.start + 2 ^ 40 - p.start) % 2 ^ 40 < 2 ^ 39)

/-- A lane tick, the frame sequencer's commands and the writes that wait for the tick. A due lane tick runs the lane's tick with
the converted currents, another does nothing; its objects and positions are shown when its computing time is over, and not
before; the frame sequencer started with MT running begins at the first multiple of the period, whatever moves MT before,
and sets ALIGNED, and with MT not running at once; it stops only with every lane off, and takes a period of 10,000 to
100,000 ns in steps of 4; SLOT_EN is written with every lane off; while lanes run, changes are ignored with CFG_IGN; a lane
register write waits for the tick unless its register acts at once or RUN is 0; a stop of the frames lets waiting writes
take effect. (04_lanes.md, R83, R85, R100, R105.) -/
def Obligations.LaneTicksAndFrames : Prop :=
  (∀ (n : Fin 10) (isa isb : BitVec 12) (oc flt : Bool) (s : State),
    (s.laneTickDue n = true → exec (.laneTick n isa isb oc flt) s = .next (s.laneTick n isa.toNat isb.toNat oc flt)) ∧
    (s.laneTickDue n = false → exec (.laneTick n isa isb oc flt) s = .next s)) ∧
  (∀ (n : Fin 10) (t : Nat) (s : State), s.lanes[n].doneAt = some t →
    (t ≤ s.tick → (s.completeDue n).lanes[n].objs = (s.completeDue n).laneObjs n ∧ (s.completeDue n).lanes[n].shown = [] ∧ (s.completeDue n).lanes[n].doneAt = none ∧
      (s.completeDue n).regs = s.regs) ∧
    (s.tick < t → s.completeDue n = s)) ∧
  (∀ (t : Nat) (s : State), s.frame.startAt = some t → s.get MTIME.STATUS_STATE ≠ 0 →
    (s.mt % s.frame.period = 0 → s.tickFrames = s.startFrame.set ADCSEQ.STAT_ALIGNED 1 ∧ s.startFrame.frame.running = true ∧
      s.startFrame.frame.frameTick = s.tick ∧ s.startFrame.get ADCSEQ.STAT_RUNNING = 1) ∧
    (s.mt % s.frame.period ≠ 0 → s.tickFrames = s)) ∧
  (∀ (v : Word) (s : State), s.accessible ADCSEQ.CTRL = true → (s.writeSlotEn v.toNat).on ADCSEQ.CTRL_RUN = false →
    let u := s.writeSlotEn v.toNat
    (s.get MTIME.STATUS_STATE ≠ 0 → exec (.adcseqRunStart v) s = .next { u.set ADCSEQ.CTRL_RUN 1 with
      frame := { running := false, startAt := some s.tick
                 period := s.get ADCSEQ.PERIOD_P, frameTick := s.tick, done := 0 }, bus := .ok 0 }) ∧
    (s.get MTIME.STATUS_STATE = 0 → Yields (.adcseqRunStart v) s fun t =>
      t.get ADCSEQ.CTRL_RUN = 1 ∧ t.get ADCSEQ.STAT_RUNNING = 1 ∧
      t.get ADCSEQ.FRAME_CNT_COUNT = (s.get ADCSEQ.FRAME_CNT_COUNT + 1) % 2 ^ 32 ∧
      OnlyRegs [ADCSEQ.CTRL_RUN, ADCSEQ.STAT_RUNNING, ADCSEQ.FRAME_CNT_COUNT] { u with
        frame := { running := true, startAt := none, period := s.get ADCSEQ.PERIOD_P, frameTick := s.tick, done := 0 } } t)) ∧
  (∀ (v : Word) (s : State), s.accessible ADCSEQ.CTRL = true → (s.writeSlotEn v.toNat).on ADCSEQ.CTRL_RUN = true →
    let u := s.writeSlotEn v.toNat
    (u.lanesOff = true → exec (.adcseqRunStop v) s = .next { ({ ((u.set ADCSEQ.CTRL_RUN 0).set ADCSEQ.STAT_RUNNING 0).set
        ADCSEQ.STAT_ALIGNED 0 with frame := { s.frame with running := false, startAt := none } } : State).forLanes
          (fun n s => s.laneStaged n fun _ => true) with bus := .ok 0 }) ∧
    (u.lanesOff = false → exec (.adcseqRunStop v) s = .next { u.set ADCSEQ.STAT_CFG_IGN 1 with bus := .ok 0 })) ∧
  (∀ (v : Nat) (s : State), s.lanesOff = true →
    (s.writeSlotEn v).get ADCSEQ.CTRL_SLOT_EN = bits v 19 0 ∧ OnlyRegs [ADCSEQ.CTRL_SLOT_EN] s (s.writeSlotEn v)) ∧
  (∀ (v : Word) (s : State), s.accessible ADCSEQ.PERIOD = true → (s.on ADCSEQ.CTRL_RUN = false ∨ s.lanesOff = true) →
    10000 ≤ bits v.toNat 16 0 → bits v.toNat 16 0 ≤ 100000 → bits v.toNat 16 0 % 4 = 0 →
    exec (.adcseqPeriodWrite v) s = .next { s.put ADCSEQ.PERIOD_P (bits v.toNat 16 0) with bus := .ok 0 }) ∧
  (∀ (v : Word) (s : State), s.accessible ADCSEQ.PERIOD = true → s.on ADCSEQ.CTRL_RUN = true → s.lanesOff = false →
    exec (.adcseqPeriodWrite v) s = .next { s.set ADCSEQ.STAT_CFG_IGN 1 with bus := .ok 0 }) ∧
  (∀ (n : Fin 10) (off : Nat) (v : Word) (s : State), off % 4 = 0 → off < 0x1000 →
    s.accessible (0x50000000 + n.1 * 0x1000 + off) = true →
    exec (.laneRegisterWrite n off v) s = .next { (s.laneW1c n off v.toNat).laneLand n off v with bus := .ok 0 } ∧
    (laneImmediate off = false → s.on ADCSEQ.CTRL_RUN = true → s.laneLand n off v = s.lane n fun l =>
      { l with stage := l.stage ++ [(s.tick, off, v)] }) ∧
    ((laneImmediate off = true ∨ s.on ADCSEQ.CTRL_RUN = false) → s.laneLand n off v = s.laneApply n off v.toNat))

/-- A lane enabled, calibrated and disabled; its quadrature counter. A write of EN as 1 waits with its landing tick, or takes
effect at once while RUN is 0; when the tick takes the waiting writes the enable is judged after them; it takes a lane in
OFF with its drive, both slots and its feedback to CAL with empty sums, and one without a drive stays OFF with CFG_ERR;
disabling, after the switch due in its tick, puts the lane OFF, clears the widths, the loops, the schedule, a pending resume
and an enable that waits; 256 codes of each input within the window end the calibration with their rounded means as offsets;
a quadrature edge counts up or down, and is then not followed by another of its line before FILT + 1 ticks, a sooner one
being no edge; a double edge is an error; an index edge captures the count, with the edges of its own tick, and MT; QCNT is
written only in OFF, CAL and READY, and the edges of its tick count on top. (04_lanes.md, R90, R91, R92, R101, R102, R103.) -/
def Obligations.LaneEnablingAndCalibration : Prop :=
  (∀ (n : Fin 10) (v : Word) (s : State), s.accessible (LANE.CTRL n) = true →
    (s.on ADCSEQ.CTRL_RUN = true → exec (.laneEnable n v) s = .next { s.lane n fun l =>
      { l with stage := l.stage ++ [(s.tick, 0, v)], enAt := some (l.enAt.getD s.tick) } with bus := .ok 0 }) ∧
    (s.on ADCSEQ.CTRL_RUN = false → (s.laneApply n 0 v.toNat).on ADCSEQ.CTRL_RUN = false →
      exec (.laneEnable n v) s = .next { (s.laneApply n 0 v.toNat).enableLane n with bus := .ok 0 })) ∧
  (∀ (n : Fin 10) (p : Nat → Bool) (t : Nat) (s : State), s.lanes[n].enAt = some t →
    let u := (s.lanes[n].stage.filter fun w => p w.1).foldl (fun s w => s.laneApply n w.2.1 w.2.2.toNat) (s.lane n fun l =>
      { l with stage := l.stage.filter fun w => !p w.1, enAt := l.enAt.filter fun t => !p t })
    (p t = true → s.laneStaged n p = u.enableLane n) ∧ (p t = false → s.laneStaged n p = u)) ∧
  (∀ (n : Fin 10) (u : State),
    (u.get (LANE.STAT_LSTATE n) = 0 → u.get (LANE.CTRL_DRIVE n) ≠ 0 → getBit (u.get ADCSEQ.CTRL_SLOT_EN) (2 * n.1) = true →
      getBit (u.get ADCSEQ.CTRL_SLOT_EN) (2 * n.1 + 1) = true → (u.get (LANE.CTRL_DRIVE n) = 1 ∨ u.fbOn n = true) →
      (u.enableLane n).get (LANE.STAT_LSTATE n) = 1 ∧ (u.enableLane n).get (LANE.CTRL_EN n) = 1 ∧
      ((u.enableLane n).lanes[n].calN, (u.enableLane n).lanes[n].calNB) = (0, 0) ∧
      OnlyRegs [LANE.CTRL_EN n, LANE.STAT_LSTATE n, LANE.IRQ_STAT_STATE_CHG n, LANE.FLT_STAT_FIRST n, LANE.FLT_STAT_ACTION n,
        LANE.FLT_STAT_PHASE n, LANE.FLT_STAT_SRC_LANE n] { u with lanes := (u.enableLane n).lanes } (u.enableLane n)) ∧
    (u.get (LANE.STAT_LSTATE n) = 0 → u.get (LANE.CTRL_DRIVE n) = 0 →
      (u.enableLane n).get (LANE.STAT_LSTATE n) = 0 ∧ (u.enableLane n).get (LANE.CTRL_EN n) = 0 ∧
      (u.enableLane n).get (LANE.STAT_CFG_ERR n) = 1)) ∧
  (∀ (n : Fin 10) (v : Word) (s : State), s.accessible (LANE.CTRL n) = true →
    exec (.laneDisable n v) s = .next { (s.disableLane n).laneLand n 0 v with bus := .ok 0 } ∧
    ((s.switchAt n).get (LANE.STAT_LSTATE n) ≠ 0 → let t := s.disableLane n
      t.get (LANE.STAT_LSTATE n) = 0 ∧ t.get (LANE.CTRL_EN n) = 0 ∧ t.get (LANE.IRQ_STAT_STATE_CHG n) = 1 ∧
      t.get (LANE.PW_A_W n) = 0 ∧ t.get (LANE.PW_B_W n) = 0 ∧ t.get (LANE.PW_C_W n) = 0 ∧ t.get (LANE.PW_D_W n) = 0 ∧
      t.get (LANE.RES_STAT_PENDING n) = 0 ∧ t.lanes[n].playing = false ∧ t.lanes[n].nxt = none ∧ t.lanes[n].acts = [] ∧
      t.lanes[n].enAt = none ∧ (t.lanes[n].iacc, t.lanes[n].iiA, t.lanes[n].iiB) = (0, 0, 0))) ∧
  (∀ (n : Fin 10) (s : State), s.get (LANE.STAT_LSTATE n) = 1 → s.lanes[n].calN = 256 → s.lanes[n].calNB = 256 →
    let a := (s.lanes[n].calA + 128) / 256
    let b := (s.lanes[n].calB + 128) / 256
    let w := s.get (LANE.OFFS_WIN_WIN n)
    2048 ≤ a + w → a ≤ 2048 + w → 2048 ≤ b + w → b ≤ 2048 + w → a < 2 ^ 12 → b < 2 ^ 12 →
    Yields (.calEnd n) s fun t => t.get (LANE.STAT_LSTATE n) = 2 ∧ t.get (LANE.IRQ_STAT_CAL_DONE n) = 1 ∧
      t.get (LANE.OFFS_OFFS_A n) = a ∧ t.get (LANE.OFFS_OFFS_B n) = b ∧
      t.lanes[n].theta = wrap 40 (((if s.get (LANE.CTRL_DRIVE n) = 1 then s.get (LANE.POS_CMD_P n) else s.get (LANE.POS_MEAS_P n)) : Int) *
        (s.get (LANE.ESCALE_ESCALE n) : Nat)) ∧
      OnlyRegs [LANE.STAT_LSTATE n, LANE.IRQ_STAT_STATE_CHG n, LANE.IRQ_STAT_CAL_DONE n, LANE.OFFS_OFFS_A n, LANE.OFFS_OFFS_B n]
        { s with lanes := t.lanes } t) ∧
  (∀ (n : Fin 10) (a b : Bool) (s : State), s.domOn .lane = true → s.on (LANE.QCFG_EN n) = true → a ≠ s.lanes[n].qa →
    b = s.lanes[n].qb → s.lanes[n].qaNext ≤ s.tick →
    let q := wrap 32 ((s.get (LANE.QCNT_COUNT n) : Int) + (if (a != b) = s.on (LANE.QCFG_DIR n) then -1 else 1))
    Yields (.quadEdgeAccepted n a b) s fun t => t.get (LANE.QCNT_COUNT n) = q ∧ t.lanes[n].qa = a ∧ t.lanes[n].qb = b ∧
      t.lanes[n].qaNext = s.tick + s.get (LANE.QCFG_FILT n) + 1 ∧
      (s.lanes[n].idxTick = some s.tick → t.get (LANE.QIDX_CAPT n) = q) ∧
      (s.lanes[n].idxTick ≠ some s.tick → t.get (LANE.QIDX_CAPT n) = s.get (LANE.QIDX_CAPT n)) ∧
      OnlyRegs [LANE.QCNT_COUNT n, LANE.QIDX_CAPT n] { s with lanes := t.lanes } t) ∧
  (∀ (n : Fin 10) (a b : Bool) (s : State), s.domOn .lane = true → s.on (LANE.QCFG_EN n) = true → a ≠ s.lanes[n].qa →
    b = s.lanes[n].qb → s.tick < s.lanes[n].qaNext →
    Yields (.quadEdgeAccepted n a b) s fun t => t.regs = s.regs ∧ t.lanes[n] = s.lanes[n] ∧ t = { s with lanes := t.lanes }) ∧
  (∀ (n : Fin 10) (a b : Bool) (s : State), s.domOn .lane = true → s.on (LANE.QCFG_EN n) = true → a ≠ s.lanes[n].qa →
    b ≠ s.lanes[n].qb → s.lanes[n].qaNext ≤ s.tick → s.lanes[n].qbNext ≤ s.tick → exec (.quadEdgeAccepted n a b) s =
      .next ((s.lane n fun l => { l with qa := a, qaNext := s.nextAccept n, qb := b, qbNext := s.nextAccept n }).count
        (LANE.QERR_COUNT n) (LANE.QERR_OVF n))) ∧
  (∀ (n : Fin 10) (s : State), s.domOn .lane = true → s.on (LANE.QCFG_EN n) = true → s.get (LANE.QCFG_IDXMODE n) = 1 →
    s.lanes[n].qiNext ≤ s.tick →
    Yields (.indexEdge n) s fun t => t.get (LANE.QIDX_CAPT n) = s.get (LANE.QCNT_COUNT n) % 2 ^ 32 ∧
      t.get (LANE.QIDX_MT_CAPT n) = s.mt % 2 ^ 32 ∧ t.get (LANE.IRQ_STAT_IDX n) = 1 ∧ t.lanes[n].idxTick = some s.tick ∧
      OnlyRegs [LANE.QIDX_CAPT n, LANE.QIDX_MT_CAPT n, LANE.IRQ_STAT_IDX n] { s with lanes := t.lanes } t) ∧
  (∀ (n : Fin 10) (v : Word) (s : State), s.accessible (LANE.QCNT n) = true →
    (s.get (LANE.STAT_LSTATE n) < 3 → Yields (.qcntWrite n v) s fun t =>
      t.get (LANE.QCNT_COUNT n) = wrap 32 ((v.toNat : Int) + s.lanes[n].countsNow s.tick) ∧
      (s.lanes[n].qdTick ≠ s.tick → t.get (LANE.QCNT_COUNT n) = v.toNat) ∧
      (s.lanes[n].idxTick ≠ some s.tick → t.get (LANE.QIDX_CAPT n) = s.get (LANE.QIDX_CAPT n)) ∧
      OnlyRegs [LANE.QCNT_COUNT n, LANE.QIDX_CAPT n] s t) ∧
    (3 ≤ s.get (LANE.STAT_LSTATE n) → exec (.qcntWrite n v) s = .next { s.set (LANE.STAT_WR_IGN n) 1 with bus := .ok 0 }))

/-- The bounds that the loops and the pulse widths keep. For all inputs: the current loop's integrator and output keep the
voltage limit, the position loop's output and integrator keep IQMAX, a phase voltage keeps 32,767, a pulse width never
exceeds the period, the minimum on and off times leave a width as it is or set it to 0 or to the longest, and a bridge's two
widths differ by the demanded width. (04_lanes.md, R93, R96, R97, R98.) -/
def Obligations.LoopOutputsAreBounded : Prop :=
  (∀ (kpc kic vlim ii e : Int), 0 ≤ vlim →
    (currentPi kpc kic vlim ii e).1.natAbs ≤ (vlim * 256).natAbs ∧ (currentPi kpc kic vlim ii e).2.natAbs ≤ vlim.natAbs) ∧
  (∀ (s : State) (n : Fin 10) (ep dp dm : Int), (s.posLoop n ep dp dm).1.natAbs ≤ s.get (LANE.IQCFG_IQMAX n) ∧
    (s.posLoop n ep dp dm).2.natAbs ≤ s.get (LANE.IQCFG_IQMAX n) * 2 ^ 24) ∧
  (∀ (svm : Bool) (a b c : Int), (commonMode svm a b c).1.natAbs ≤ 32767 ∧ (commonMode svm a b c).2.1.natAbs ≤ 32767 ∧
    (commonMode svm a b c).2.2.natAbs ≤ 32767) ∧
  (∀ (v : Int) (p : Nat), v.natAbs ≤ 32767 → width2 v p ≤ p ∧ width3 v p ≤ p) ∧
  (∀ (w p minon minoff : Nat), w ≤ p → let r := limitWidth w p minon minoff
    r ≤ p ∧ (r = 0 ∨ minon ≤ r ∨ r = p - minoff) ∧ (r = w ∨ r = 0 ∨ r = p - minoff)) ∧
  (∀ (v : Int) (w p : Nat) (decay : Bool), w ≤ p → let o := bridge v w p decay
    o.1 ≤ p ∧ o.2 ≤ p ∧ (0 ≤ v → o.1 = o.2 + w) ∧ (v < 0 → o.2 = o.1 + w))

/-- Detection of lane faults and what the policies do. An overcurrent trip is live at once; in CAL and READY it is detected, in
ACTIVE and SUSPENDED, no resume having just taken effect, it latches, takes the outputs low and waits for the next lane
tick; a driver fault is live, qualified and detected at once; the five sampled conditions are detected when their counts are
reached; in ACTIVE the first class of a tick in the order of R112 suspends the lane with its latch, its policy's action,
phase and source and drops pending actions; COAST and BRAKE set their widths, low after a trip, and clear the loops; which
action follows a later detection. (05_lane_faults.md, R106, R107, R108, R109, R110, R112, R113.) -/
def Obligations.LaneFaultDetection : Prop :=
  (∀ (n : Fin 10) (s : State), s.get (LANE.STAT_LSTATE n) ≠ 0 → s.domOn .lane = true →
    (s.get (LANE.STAT_LSTATE n) < 3 →
      exec (.ocTrip n) s = .next ((s.set (LANE.FLT_STAT_LIVE_OC n) 1).detectTick n [(.oc, 3)])) ∧
    (3 ≤ s.get (LANE.STAT_LSTATE n) → s.NoResumeNow n → Yields (.ocTrip n) s fun t => t.get (LANE.FLT_STAT_LIVE_OC n) = 1 ∧
      t.get (LANE.FLT_STAT_OC n) = 1 ∧ t.get (LANE.PW_A_W n) = 0 ∧ t.get (LANE.PW_B_W n) = 0 ∧ t.get (LANE.PW_C_W n) = 0 ∧
      t.get (LANE.PW_D_W n) = 0 ∧ (t.lanes[n].pwNextA, t.lanes[n].pwNextB, t.lanes[n].pwNextC, t.lanes[n].pwNextD) = (0, 0, 0, 0) ∧
      t.lanes[n].ocPend = true ∧ OnlyRegs [LANE.FLT_STAT_LIVE_OC n, LANE.FLT_STAT_OC n, LANE.PW_A_W n, LANE.PW_B_W n,
        LANE.PW_C_W n, LANE.PW_D_W n] { s with lanes := t.lanes } t) ∧
    (s.on (LANE.FLT_CFG_DRV_EN n) = true →
      exec (.drvFault n) s = .next (((s.set (LANE.FLT_STAT_LIVE_DRV n) 1).lane n fun l => { l with drvQual := true }).detectTick
        n [(.drv, 3)]))) ∧
  (∀ (n : Fin 10) (s : State), s.get (LANE.STAT_LSTATE n) ≠ 0 →
    ((s.openSeen n).isSome = true → exec (.openDetect n) s = .next (s.detectTick n [])) ∧
    ((s.stuckSeen n).isSome = true → exec (.senseStuckDetect n) s = .next (s.detectTick n [])) ∧
    ((s.plausSeen n).isSome = true → exec (.sensePlausDetect n) s = .next (s.detectTick n [])) ∧
    (s.sumSeen n = true → exec (.senseSumDetect n) s = .next (s.detectTick n [])) ∧
    (s.feSeen n = true → exec (.feDetect n) s = .next (s.detectTick n []))) ∧
  (∀ (n : Fin 10) (also : List (FaultClass × Nat)) (c : FaultClass) (phase : Nat) (s : State),
    s.get (LANE.STAT_LSTATE n) = 3 → (∀ r, s.lanes[n].resNow = some r → r.tick ≠ s.tick) →
    firstClass (also ++ s.detected n) = some (c, phase) →
    let t := s.detectTick n also
    t.get (LANE.STAT_LSTATE n) = 4 ∧ t.get (LANE.FLT_STAT_FIRST n) = c.code ∧
    t.get (LANE.FLT_STAT_ACTION n) = polAction (s.get (c.polField n)) ∧ t.get (LANE.FLT_STAT_PHASE n) = phase % 4 ∧
    t.get (LANE.FLT_STAT_SRC_LANE n) = n.1 ∧ t.get (c.latch n) = 1 ∧ t.get (LANE.FLT_IRQ_STAT_FAULT n) = 1 ∧
    t.lanes[n].act = polAction (s.get (c.polField n)) ∧ t.lanes[n].acts = []) ∧
  (∀ (n : Fin 10) (act : Nat) (s : State), act = 2 ∨ act = 3 →
    let t := s.actionOutputs n act
    let w := if act = 3 ∧ s.get (LANE.CTRL_DRIVE n) ≠ 3 ∧ s.lanes[n].ocPend = false then s.frame.period % 2 ^ 17 else 0
    t.get (LANE.PW_A_W n) = w ∧ t.get (LANE.PW_B_W n) = w ∧ t.get (LANE.PW_C_W n) = w ∧
    (t.lanes[n].iacc, t.lanes[n].iiA, t.lanes[n].iiB) = (0, 0, 0) ∧
    OnlyRegs [LANE.PW_A_W n, LANE.PW_B_W n, LANE.PW_C_W n, LANE.PW_D_W n] { s with lanes := t.lanes } t) ∧
  (∀ (act : Nat) (c : FaultClass) (pol : Nat),
    laterAction 2 c pol = 2 ∧ laterAction 3 .oc pol = 2 ∧ laterAction 3 .drv pol = 2 ∧ laterAction 3 .sense pol = 3 ∧
    laterAction 3 .openPhase pol = 3 ∧ laterAction 3 .fe pol = 3 ∧
    (act = 1 ∨ act = 4 → laterAction act c 1 = 2 ∧ laterAction act c 2 = 3 ∧ laterAction act c 0 = 2))

/-- The end of HOLD_SAFE, and resumption. At the end of HOLD_SAFE, the instant of a frame's middle, the lane coasts with
HOLD_END; a resume for a future instant is pending, one of a lane that is not SUSPENDED ends with 0x10; at the instant it is
refused with its code or the lane is ACTIVE again and goes on with the record after the instant with the measured position
held; a fault in the tick of the instant ends the pending resume with 0x16; the refusals for time, action and a live
overcurrent. (05_lane_faults.md, R111, R115, R116.) -/
def Obligations.LaneResumption : Prop :=
  (∀ (n : Fin 10) (s : State), s.get (LANE.STAT_LSTATE n) = 4 → s.lanes[n].act = 1 →
    s.lanes[n].holdEnd ≤ 4 * s.frame.frameTick + s.centre n → 4 * s.frame.frameTick + s.centre n < 4 * s.tick + 4 →
    exec (.holdSafeEnd n) s = .next (((s.setAction n 2).set (LANE.FLT_IRQ_STAT_HOLD_END n) 1).actionOutputs n 2)) ∧
  (∀ (n : Fin 10) (v : Word) (s : State), s.accessible (LANE.RESUME n) = true → s.get (LANE.STAT_LSTATE n) = 4 →
    let x := bits v.toNat 7 0 * 2 ^ 32 + s.get (LANE.RES_AT_LO_RES_AT_LO n)
    (s.stamp40 x).2 = false → (s.stamp40 x).1 ≠ s.mt →
    Yields (.resume n v) s fun t => t.get (LANE.RES_STAT_PENDING n) = 1 ∧ t.get (LANE.RESUME_RES_AT_HI n) = bits v.toNat 7 0 ∧
      t.lanes[n].resAt = (s.stamp40 x).1 ∧
      OnlyRegs [LANE.RES_STAT_PENDING n, LANE.RESUME_RES_AT_HI n] { s with lanes := t.lanes } t) ∧
  (∀ (n : Fin 10) (v : Word) (s : State), s.accessible (LANE.RESUME n) = true → s.get (LANE.STAT_LSTATE n) ≠ 4 →
    exec (.resume n v) s = .next { (s.set (LANE.RESUME_RES_AT_HI n) (bits v.toNat 7 0)).resDone n 0x10 with bus := .ok 0 }) ∧
  (∀ (n : Fin 10) (s : State), s.on (LANE.RES_STAT_PENDING n) = true → s.due s.lanes[n].resAt = true →
    let u := (s.set (LANE.RES_STAT_PENDING n) 0).lane n fun l => { l with
      resNow := some ⟨s.tick, s.get (LANE.RES_STAT_OUTCOME n), s.get (LANE.FLT_IRQ_STAT_RES_DONE n), none⟩ }
    let nxt := u.recordAfter n s.lanes[n].resAt 384 s.lanes[n].nxt
    (∀ c, u.resumeRefusal n nxt = some c → exec (.resumeAt n) s = .next (u.resDone n c)) ∧
    (u.resumeRefusal n nxt = none → s.get (LANE.STAT_LSTATE n) ≠ 3 → Yields (.resumeAt n) s fun t =>
      t.get (LANE.STAT_LSTATE n) = 3 ∧ t.get (LANE.RES_STAT_PENDING n) = 0 ∧ t.get (LANE.RES_STAT_OUTCOME n) = 2 ∧
      t.get (LANE.FLT_IRQ_STAT_RES_DONE n) = 1 ∧ t.get (LANE.POS_CMD_P n) = s.get (LANE.POS_MEAS_P n) % 2 ^ 32 ∧
      t.lanes[n].nxt = nxt ∧ t.lanes[n].holding = true ∧ t.lanes[n].held = s.get (LANE.POS_MEAS_P n) ∧
      OnlyRegs [LANE.STAT_LSTATE n, LANE.IRQ_STAT_STATE_CHG n, LANE.RES_STAT_PENDING n, LANE.RES_STAT_OUTCOME n,
        LANE.FLT_IRQ_STAT_RES_DONE n, LANE.POS_CMD_P n, LANE.STAT_ENDED n] { s with lanes := t.lanes } t)) ∧
  (∀ (n : Fin 10) (s : State), s.get (LANE.STAT_LSTATE n) = 4 → s.lanes[n].resNow = none → s.on (LANE.RES_STAT_PENDING n) = true →
    s.due s.lanes[n].resAt = true →
    (s.faultAtResume n).get (LANE.RES_STAT_PENDING n) = 0 ∧ (s.faultAtResume n).get (LANE.RES_STAT_OUTCOME n) = 0x16 ∧
    (s.faultAtResume n).get (LANE.FLT_IRQ_STAT_RES_DONE n) = 1 ∧
    OnlyRegs [LANE.RES_STAT_PENDING n, LANE.RES_STAT_OUTCOME n, LANE.FLT_IRQ_STAT_RES_DONE n]
      { s with lanes := (s.faultAtResume n).lanes } (s.faultAtResume n)) ∧
  (∀ (n : Fin 10) (nxt : Option (Nat × Nat)) (s : State),
    (s.timeValid = false → s.resumeRefusal n nxt = some 0x13) ∧
    (s.timeValid = true → s.lanes[n].act = 1 → s.resumeRefusal n nxt = some 0x11) ∧
    (s.timeValid = true → s.lanes[n].act ≠ 1 → s.on (LANE.FLT_STAT_LIVE_OC n) = true → s.resumeRefusal n nxt = some 0x12))

/-- The ten pin-engine instructions, in the tick in which they act. What each of the ten instructions does in the tick in which
it acts, its time being due: the action, push or pull (or its stall), the jump, the count down, the event, the wait;
completing sets PC, clears WAIT and takes the next tick; a PC outside the range is error 3 and leaves the initial levels; a
sample compares the chosen pins and keeps the six levels. WAITPIN_COMPLETE, SHIFT_COMPLETE, PUSH_STALL_END, PULL_STALL_END
and BY_DEADLINE_TIMEOUT complete with PC at the next address, WAIT clear and the next tick taken, whenever what they wait
for has come and no injected instruction is pending. (06_pin_engines.md, R122, R124, R128, R129, R131.) -/
def Obligations.PinEngineInstructions : Prop :=
  (∀ (n : Fin 10) (s : State), s.get (PINENG.E_STAT_ESTATE n) = 2 → s.engines[n].wait = .fresh → s.engines[n].cur = true →
    s.domOn .lane = true → s.peTime n (s.peWord n) = true →
    let w := s.peWord n
    let u := (s.injectStep n).peTimed n w
    (peOp w = 0 → exec (.act n) s = .next ((u.act n w (u.edgeOf u.engines[n].inst)).peDone n (u.peNext n))) ∧
    (peOp w = 3 → Yields (.shift n) s fun t => t.engines[n].wait = .shift s.tick ∧ t.get (PINENG.E_STAT_WAIT n) = 0 ∧
      (peTmode w ≠ 0 → t.engines[n].stepRef = s.tick)) ∧
    (peOp w = 4 → (peDest w = 1 ∨ peStall w = false ∨ u.engines[n].rx.length < 8) →
      exec (.push n) s = .next (((u.push n w).byDone n w).peDone n (u.peNext n))) ∧
    (peOp w = 4 → peDest w ≠ 1 → peStall w = true → 8 ≤ u.engines[n].rx.length → exec (.push n) s = .next (u.peWait n .push)) ∧
    (peOp w = 5 → (peSrc w ≠ 0 ∨ peStall w = false ∨ (u.txHead n).isSome = true) →
      exec (.pull n) s = .next (((u.pull n w).byDone n w).peDone n (u.peNext n))) ∧
    (peOp w = 5 → peSrc w = 0 → peStall w = true → u.txHead n = none → exec (.pull n) s = .next (u.peWait n .pull)) ∧
    (peOp w = 6 → exec (.jmp n) s = .next (u.peDone n (if u.jmpCond n w then peAddr w else u.peNext n))) ∧
    (peOp w = 7 →
      let r := if peReg w then PINENG.E_Y_Y n else PINENG.E_X_X n
      let v := (u.get r + 2 ^ 32 - 1) % 2 ^ 32
      exec (.djnz n) s = .next ((u.set r v).peDone n (if v = 0 then u.peNext n else peAddr w))) ∧
    (peOp w = 8 → exec (.evt n) s = .next ((u.evt n w).peDone n (u.peNext n))) ∧
    (peOp w = 9 → exec (.sync n) s = .next ((u.peWait n .sync).syncTake n))) ∧
  (∀ (n : Fin 10) (balls : Nat) (s0 : State), s0.get (PINENG.E_STAT_ESTATE n) = 2 → s0.engines[n].wait = .fresh →
    s0.engines[n].cur = true → s0.domOn .lane = true →
    let s := s0.withBalls balls
    let w := s.peWord n
    let u := (s.injectStep n).peTimed n w
    s.peTime n w = true →
    (peOp w = 1 → exec (.sample n balls) s0 = .next ((u.sample n w).peDone n (u.peNext n))) ∧
    (peOp w = 2 → exec (.waitpin n balls) s0 = .next (u.peWait n (.pin u.tick (u.waitLevel n w))))) ∧
  (∀ (n : Fin 10) (pc : Nat) (s : State), s.get (PINENG.E_RANGE_START n) ≤ pc → pc ≤ s.get (PINENG.E_RANGE_END n) → pc < 512 →
    let t := s.peDone n pc
    t.get (PINENG.E_STAT_PC n) = pc ∧ t.get (PINENG.E_STAT_WAIT n) = 0 ∧ t.engines[n].next = s.tick + 1 ∧
    t.engines[n].cur = false ∧ t.engines[n].wait = .fresh ∧
    OnlyRegs [PINENG.E_STAT_PC n, PINENG.E_STAT_WAIT n] { s with engines := t.engines } t) ∧
  (∀ (n : Fin 10) (pc : Nat) (s : State), (pc < s.get (PINENG.E_RANGE_START n) ∨ s.get (PINENG.E_RANGE_END n) < pc) →
    let t := s.peDone n pc
    t.get (PINENG.E_STAT_ESTATE n) = 3 ∧ t.get (PINENG.E_STAT_ERR_CODE n) = 3 ∧ t.bit PINENG.IRQ_STAT_ERR n = true ∧
    t.engines[n].stored = s.get (PINENG.E_PINCFG_INIT n)) ∧
  (∀ (n : Fin 10) (w : Nat) (s : State),
    (s.sample n w).on (PINENG.E_STAT_C n) = (((s.pins n ^^^ peVal w) &&& peMask w) == 0) ∧
    (s.sample n w).engines[n].capw = (s.engines[n].capw * 64 + s.pins n) % 2 ^ 32) ∧
  -- the rows that end a wait complete: PC advances and the next instruction is awaited
  (∀ (n : Fin 10) (s : State), s.domOn .lane = true → s.get (PINENG.E_RANGE_START n) ≤ s.peNext n →
    s.peNext n ≤ s.get (PINENG.E_RANGE_END n) → s.peNext n < 512 → s.engines[n].inj = none →
    let done (t : State) : Prop := t.get (PINENG.E_STAT_PC n) = s.peNext n ∧ t.get (PINENG.E_STAT_WAIT n) = 0 ∧
      t.engines[n].wait = .fresh ∧ t.engines[n].cur = false ∧ t.engines[n].next = s.tick + 1
    let w := s.peWord n
    (∀ (balls t0 : Nat) (prev : Bool), s.engines[n].wait = .pin t0 prev → s.byOver n w = false →
      waitHolds w ((s.withBalls balls).waitLevel n w) prev (decide (t0 < s.tick)) = true → Yields (.waitpinComplete n balls) s done) ∧
    (∀ t0 din : Nat, s.engines[n].wait = .shift t0 → t0 + peCnt w * 2 * s.peDiv n ≤ s.tick + 1 → Yields (.shiftComplete n din) s done) ∧
    (s.engines[n].wait = .push → s.engines[n].rx.length < 8 → s.byOver n w = false → Yields (.pushStallEnd n) s done) ∧
    (s.engines[n].wait = .pull → (s.txHead n).isSome = true → s.byOver n w = false → Yields (.pullStallEnd n) s done) ∧
    (∀ t : Nat, s.get (PINENG.E_STAT_ESTATE n) = 2 → s.engines[n].cur = true → peTmode w = 3 → s.engines[n].inst = some t →
      s.due t = true → Yields (.byDeadlineTimeout n) s done))

/-- How a waiting pin-engine instruction ends, deadlines, a stale BASE, and an injected instruction. A waiting WAITPIN goes on
when its condition holds and its deadline is not over, stamped where asked, else waits on; a SHIFT ends after 2 CNT DIV
ticks, an incoming one with the levels of its pin in the captured word; PUSH and PULL end when there is room or data; an
instruction BY its deadline ends with TO and BASE moved to it; BASE becomes stale; a 32-bit instant reaches 2^31 - 1 ns
ahead; INJECT is taken, rejected or refused as busy, and an injected instruction runs at a boundary, or in the tick of its
instant, and is then gone. (06_pin_engines.md, R123, R124, R125, R126, R128, R135.) -/
def Obligations.PinEngineWaitsAndDeadlines : Prop :=
  (∀ (n : Fin 10) (balls t0 : Nat) (prev : Bool) (s0 : State), s0.engines[n].wait = .pin t0 prev → s0.domOn .lane = true →
    let s := s0.withBalls balls
    let w := s.peWord n
    (waitHolds w (s.waitLevel n w) prev (decide (t0 < s.tick)) = true → s.byOver n w = false →
      exec (.waitpinComplete n balls) s0 = .next (
        let u := (s.injectStep n).byDone n w
        let u := if peStamp w then u.pushRx n (u.mt % 2 ^ 32) else u
        u.peDone n (u.peNext n))) ∧
    (waitHolds w (s.waitLevel n w) prev (decide (t0 < s.tick)) = false →
      exec (.waitpinComplete n balls) s0 = .next s)) ∧
  (∀ (n : Fin 10) (t0 din : Nat) (s : State), s.engines[n].wait = .shift t0 → s.domOn .lane = true →
    t0 + peCnt (s.peWord n) * 2 * s.peDiv n ≤ s.tick + 1 →
    let u := s.injectStep n
    Yields (.shiftComplete n din) s fun t => (peDirIn (s.peWord n) = false → t.engines[n].capw = u.engines[n].capw) ∧
      (peDirIn (s.peWord n) = true → t.engines[n].emtw = u.engines[n].emtw) ∧
      (peDirIn (s.peWord n) = true → peCnt (s.peWord n) = 32 → s.on (PINENG.E_CTRL_MSBF n) = false → u.engines[n].capw < 2 ^ 32 →
        ∀ i, i < 32 → getBit t.engines[n].capw i = u.dinBit n din i)) ∧
  (∀ (n : Fin 10) (s : State), s.engines[n].wait = .push → s.domOn .lane = true → s.engines[n].rx.length < 8 →
    s.byOver n (s.peWord n) = false → let u := s.injectStep n
    exec (.pushStallEnd n) s = .next (((u.push n (s.peWord n)).byDone n (s.peWord n)).peDone n (u.peNext n))) ∧
  (∀ (n : Fin 10) (s : State), s.engines[n].wait = .pull → s.domOn .lane = true → (s.txHead n).isSome = true →
    s.byOver n (s.peWord n) = false → let u := s.injectStep n
    exec (.pullStallEnd n) s = .next (((u.pull n (s.peWord n)).byDone n (s.peWord n)).peDone n (u.peNext n))) ∧
  (∀ (n : Fin 10) (t : Nat) (s : State), s.get (PINENG.E_STAT_ESTATE n) = 2 → s.engines[n].cur = true → s.domOn .lane = true →
    peTmode (s.peWord n) = 3 → s.engines[n].inst = some t → s.due t = true →
    let a := s.peInstant n (s.peWord n)
    let u := (if s.engines[n].late then (s.injectStep n).peLate n else s.injectStep n).set (PINENG.E_STAT_TO n) 1
    let u := if s.engines[n].stale then u else u.setBase n a
    exec (.byDeadlineTimeout n) s = .next (u.peDone n (u.peNext n))) ∧
  (∀ (n : Fin 10) (s : State), s.domOn .lane = true → s.due s.engines[n].staleAt = true →
    exec (.baseStale n) s = .next (s.set (PINENG.E_STAT_STALE n) 1)) ∧
  (∀ (a : Nat) (s : State), s.mt % 2 ^ 32 = a →
    s.class32 ((a + 2 ^ 31 - 1) % 2 ^ 32) = some (s.mt + 2 ^ 31 - 1) ∧ s.class32 ((a + 2 ^ 31) % 2 ^ 32) = none) ∧
  (∀ (n : Fin 10) (v : Word) (s : State), s.accessible (PINENG.E_INJECT n) = true → s.on (PINENG.E_FIFO_STAT_INJ_PEND n) = false →
    (injectOk v.toNat (s.peIdle n) = false →
      exec (.inject n v) s = .next { s.set (PINENG.E_STAT_INJ_REJ n) 1 with bus := .ok 0 }) ∧
    (injectOk v.toNat (s.peIdle n) = true → peTmode v.toNat = 0 → exec (.inject n v) s =
      .next { (s.set (PINENG.E_FIFO_STAT_INJ_PEND n) 1).eng n fun e => { e with inj := some ⟨v.toNat, none, false⟩ } with
        bus := .ok 0 })) ∧
  (∀ (n : Fin 10) (v : Word) (s : State), s.accessible (PINENG.E_INJECT n) = true → s.on (PINENG.E_FIFO_STAT_INJ_PEND n) = true →
    exec (.inject n v) s = .next { s.set (PINENG.E_STAT_INJ_BUSY n) 1 with bus := .ok 0 }) ∧
  (∀ (n : Fin 10) (balls : Nat) (i : Inject) (s0 : State), s0.engines[n].inj = some i → s0.domOn .lane = true → i.past = false →
    (i.inst = none → s0.shifting n = false → s0.atBoundary n = true → s0.engines[n].next ≤ s0.tick →
      exec (.injectedExecute n balls) s0 = .next ((((s0.withBalls balls).injected n i).set (PINENG.E_FIFO_STAT_INJ_PEND n) 0).eng n
        fun e => { e with inj := none })) ∧
    (∀ t, i.inst = some t → s0.due t = true → s0.mt < t + 4 → s0.shifting n = false →
      exec (.injectedExecute n balls) s0 = .next ((((s0.withBalls balls).injected n i).set (PINENG.E_FIFO_STAT_INJ_PEND n) 0).eng n
        fun e => { e with inj := none })))

/-- Starting, arming and stopping an engine, the program store, the FIFOs and the synchronous start. Starting an idle engine
runs from RANGE.START with BASE and cleared flags, arming waits, stopping clears the FIFOs and everything pending and stores
the initial levels; a store word is written unless a running engine holds it; the FIFOs in order, with TX_OVR and RX_UNDER,
a word pushed in the clock of the read that makes room staying; a synchronous start is armed for its instant, cancelled
before it, and acts on the engines of the mask. BASE_STALE sets STALE and nothing else; INJECT completes as taken, with
INJ_PEND, as rejected or as busy; INJECTED_EXECUTE completes with nothing to do where nothing is injected, and at a boundary
runs a NOW instruction and clears INJ_PEND. (06_pin_engines.md, R121, R130, R133, R136, R137.) -/
def Obligations.PinEngineStartStopAndStore : Prop :=
  (∀ (n : Fin 10) (v : Word) (s : State), s.accessible (PINENG.E_CTRL n) = true → s.peIdle n = true →
    let u := s.peCtrl n v.toNat
    exec (.engineStart n v) s = .next { ((u.set (PINENG.E_CTRL_ARM n) 0).set (PINENG.E_CTRL_EN n) 1).peStart n (s.mt % 2 ^ 32) s.tick with
      bus := .ok 0 } ∧
    Yields (.engineArm n v) s fun t => t.get (PINENG.E_STAT_ESTATE n) = 1 ∧ t.get (PINENG.E_STAT_ERR_CODE n) = 0 ∧
      t.get (PINENG.E_CTRL_EN n) = 1 ∧ t.get (PINENG.E_CTRL_ARM n) = 1 ∧
      t.engines[n].stored = s.get (PINENG.E_PINCFG_INIT n)) ∧
  (∀ (n : Fin 10) (v : Word) (s : State), s.accessible (PINENG.E_CTRL n) = true →
    Yields (.engineStop n v) s fun t => t.get (PINENG.E_STAT_ESTATE n) = 0 ∧ t.get (PINENG.E_CTRL_EN n) = 0 ∧
      t.get (PINENG.E_FIFO_STAT_SLOT_PEND n) = 0 ∧ t.get (PINENG.E_FIFO_STAT_INJ_PEND n) = 0 ∧
      t.get (PINENG.E_FIFO_STAT_RX_LVL n) = 0 ∧ t.get (PINENG.E_FIFO_STAT_TX_LVL n) = 0 ∧
      t.engines[n].tx = [] ∧ t.engines[n].rx = [] ∧ t.engines[n].trigs = [] ∧ t.engines[n].inj = none ∧
      t.engines[n].stored = s.get (PINENG.E_PINCFG_INIT n) ∧ SameMemory s t ∧
      RegsOutside (fun a => a == PINENG.E_CTRL n || a == PINENG.E_STAT n || a == PINENG.E_FIFO_STAT n) s t) ∧
  (∀ (n : Fin 10) (base ref : Nat) (s : State), ref = s.tick →
    peIllegal (s.mem? (0x50100800 + 4 * (s.get (PINENG.E_RANGE_START n) % 2 ^ 9)) 4) = 0 →
    let t := s.peStart n base ref
    t.get (PINENG.E_STAT_ESTATE n) = 2 ∧ t.get (PINENG.E_STAT_PC n) = s.get (PINENG.E_RANGE_START n) % 2 ^ 9 ∧
    t.get (PINENG.E_BASE_BASE n) = base % 2 ^ 32 ∧ t.get (PINENG.E_STAT_C n) = 0 ∧ t.get (PINENG.E_STAT_TO n) = 0 ∧
    t.engines[n].cur = true ∧ t.engines[n].capw = 0 ∧ t.engines[n].emtw = 0) ∧
  (∀ (w : Fin 512) (v : Word) (s : State), s.accessible PINENG.SS_CTRL = true →
    (s.storeBusy w = true → exec (.programStoreWrite w v) s = .next { s with bus := .error }) ∧
    (s.storeBusy w = false → exec (.programStoreWrite w v) s =
      .next { s.pokeWord (0x50100800 + 4 * w.1) v.toNat with bus := .ok 0 })) ∧
  (∀ (n : Fin 10) (v : Word) (s : State), s.accessible (PINENG.E_TXFIFO n) = true →
    (s.engines[n].tx.length < 8 → Yields (.txfifoWrite n v) s fun t => t.engines[n].tx = s.engines[n].tx ++ [(s.tick, v.toNat)] ∧
      t.get (PINENG.E_FIFO_STAT_TX_LVL n) = s.engines[n].tx.length + 1) ∧
    (8 ≤ s.engines[n].tx.length → Yields (.txfifoWrite n v) s fun t => t.get (PINENG.E_STAT_TX_OVR n) = 1 ∧
      t.engines[n].tx = s.engines[n].tx ∧ OnlyRegs [PINENG.E_STAT_TX_OVR n] { s with engines := t.engines } t)) ∧
  (∀ (n : Fin 10) (s : State), s.accessible (PINENG.E_RXFIFO n) = true →
    ((∀ x ∈ s.engines[n].rx, s.tick ≤ x.1) →
      exec (.rxfifoRead n) s = .next { s.set (PINENG.E_STAT_RX_UNDER n) 1 with bus := .ok 0 }) ∧
    (∀ k x r, s.engines[n].rx = (k, x) :: r → k < s.tick →
      (s.engines[n].rxLost = none → Yields (.rxfifoRead n) s fun t => t.bus = .ok x ∧ t.engines[n].rx = r) ∧
      (∀ w cnt ovf, s.engines[n].rxLost = some ⟨s.tick, [w], cnt, ovf⟩ → Yields (.rxfifoRead n) s fun t =>
        t.bus = .ok x ∧ t.engines[n].rx = r ++ [(s.tick, w)] ∧ t.get (PINENG.E_STAT_C n) = 1))) ∧
  (∀ (v : Word) (s : State), s.accessible PINENG.SS_CTRL = true → getBit v.toNat 30 = false →
    exec (.ssGo v) s = .next { (s.writeFields (fun f => !f.row) PINENG.SS_CTRL v.toNat false).ssGo with bus := .ok 0 }) ∧
  (∀ (t : Nat) (s : State), s.get PINENG.SS_CTRL_MASK ≠ 0 → (s.on PINENG.SS_CTRL_START = true ∨ s.on PINENG.SS_CTRL_CLKRST = true) →
    s.class32 (s.get PINENG.SS_AT_AT) = some t → t ≠ s.mt →
    s.ssGo = { s.set PINENG.SS_STAT_ARMED 1 with
      ss := ⟨t, s.get PINENG.SS_CTRL_MASK, s.on PINENG.SS_CTRL_START, s.on PINENG.SS_CTRL_CLKRST⟩ }) ∧
  (∀ s : State, s.accessible PINENG.SS_CTRL = true → s.on PINENG.SS_STAT_ARMED = true → s.due s.ss.inst = false →
    exec .ssCancel s = .next { s.set PINENG.SS_STAT_ARMED 0 with bus := .ok 0 }) ∧
  (∀ s : State, s.on PINENG.SS_STAT_ARMED = true → s.due s.ss.inst = true → s.domOn .lane = true →
    exec .syncStartInstant s = .next ((((s.forLanes fun n s => if getBit s.ss.mask n then s.ssEngine n else s).set
      PINENG.SS_STAT_ARMED 0).set PINENG.SS_STAT_DONE 1).set PINENG.IRQ_STAT_SS_DONE 1)) ∧
  -- a stale BASE, the injection of an instruction and its execution complete
  (∀ (n : Fin 10) (s : State), s.domOn .lane = true → s.due s.engines[n].staleAt = true →
    Yields (.baseStale n) s fun t => t.get (PINENG.E_STAT_STALE n) = 1 ∧ OnlyRegs [PINENG.E_STAT_STALE n] s t) ∧
  (∀ (n : Fin 10) (v : Word) (s : State), s.accessible (PINENG.E_INJECT n) = true →
    (s.on (PINENG.E_FIFO_STAT_INJ_PEND n) = true → Yields (.inject n v) s fun t =>
      t.get (PINENG.E_STAT_INJ_BUSY n) = 1 ∧ t.engines[n].inj = s.engines[n].inj) ∧
    (s.on (PINENG.E_FIFO_STAT_INJ_PEND n) = false → injectOk v.toNat (s.peIdle n) = false → Yields (.inject n v) s fun t =>
      t.get (PINENG.E_STAT_INJ_REJ n) = 1 ∧ t.engines[n].inj = s.engines[n].inj) ∧
    (s.on (PINENG.E_FIFO_STAT_INJ_PEND n) = false → injectOk v.toNat (s.peIdle n) = true → Yields (.inject n v) s fun t =>
      t.get (PINENG.E_FIFO_STAT_INJ_PEND n) = 1 ∧ t.engines[n].inj.isSome = true ∧
      OnlyRegs [PINENG.E_FIFO_STAT_INJ_PEND n] { s with engines := t.engines, bus := .ok 0 } t)) ∧
  (∀ (n : Fin 10) (balls : Nat) (s : State), s.engines[n].inj = none →
    Yields (.injectedExecute n balls) s fun t => t = s.withBalls balls) ∧
  (∀ (n : Fin 10) (balls : Nat) (i : Inject) (s : State), s.engines[n].inj = some i → i.inst = none → i.past = false →
    s.shifting n = false → s.atBoundary n = true → s.engines[n].next ≤ s.tick → s.domOn .lane = true →
    Yields (.injectedExecute n balls) s fun t => t.engines[n].inj = none ∧ t.get (PINENG.E_FIFO_STAT_INJ_PEND n) = 0)

/-- How a dictionary request is taken, checked, forwarded and answered. A request first answers the bad messages that have
waited; then, on an engine that serves and is not busy, a well-formed one whose turn has come is handled by its operation,
forwarded to the named node, or answered with abort 0x11 where a reserved field is not 0, and one whose turn has not come,
or that meets a busy engine, is held; the turn goes round the five transports; a broadcast BARRIER sends its numbered frame
and waits, a second one is held; an answer carries status and data and is counted, and a broadcast request gets no response;
a response has its twelve header bytes and its data. (08_dictionary.md, R172, R173, R174, R175, R176.) -/
def Obligations.DictionaryRequests : Prop :=
  (∀ (m : DictMsg) (s₀ t : State), let s := s₀.serveBad s₀.dict.reqs.length
    s.dictServes = true → s.dictBusy = false → t.domOn .link = true → (hasNode m.via = false ∨ m.node = 0) →
    (s.takeReq 1 m = some t → msgAbort 1 m = 0 → exec (.read m) s₀ = .next (t.dictRead m)) ∧
    (s.takeReq 2 m = some t → msgAbort 2 m = 0 → exec (.write m) s₀ = .next (t.dictWrite m true)) ∧
    (s.takeReq 3 m = some t → msgAbort 3 m = 0 → exec (.describe m) s₀ = .next (t.dictDescribe m)) ∧
    (s.takeReq 0x10 m = some t → msgAbort 0x10 m = 0 → exec (.stage m) s₀ = .next (t.dictStage m)) ∧
    (s.takeReq 0x11 m = some t → msgAbort 0x11 m = 0 → exec (.commit m) s₀ = .next (t.dictCommit m)) ∧
    (s.takeReq 0x12 m = some t → msgAbort 0x12 m = 0 → exec (.discard m) s₀ = .next (t.dictDiscard m)) ∧
    (s.takeReq 0x20 m = some t → msgAbort 0x20 m = 0 → exec (.snap m) s₀ = .next (t.dictSnap m)) ∧
    (s.takeReq 0x21 m = some t → msgAbort 0x21 m = 0 → exec (.recollect m) s₀ = .next (t.dictRecollect m))) ∧
  (∀ (m : DictMsg) (s₀ t : State), let s := s₀.serveBad s₀.dict.reqs.length
    s.dictServes = true → s.dictBusy = false → hasNode m.via = true → 1 ≤ m.node.toNat → m.node.toNat ≤ 126 → m.rsv = false →
    (s.takeReq 1 m = some t → exec (.read m) s₀ = .next (t.forward 1 m)) ∧
    (s.takeReq 0x11 m = some t → exec (.commit m) s₀ = .next (t.forward 0x11 m))) ∧
  (∀ (m : DictMsg) (s₀ t : State), let s := s₀.serveBad s₀.dict.reqs.length
    s.dictServes = true → s.dictBusy = false → m.rsv = true →
    (s.takeReq 1 m = some t → exec (.read m) s₀ = .next (t.answer 1 m 0x11 [])) ∧
    (s.takeReq 0x20 m = some t → exec (.snap m) s₀ = .next (t.answer 0x20 m 0x11 []))) ∧
  (∀ (m : DictMsg) (s₀ : State), let s := s₀.serveBad s₀.dict.reqs.length
    s.dictServes = true → (s.dictBusy = true ∨ s.takeReq 1 m = none) → exec (.read m) s₀ = .next (s.holdReq 1 m)) ∧
  (∀ (m : DictMsg) (s₀ t : State), let s := s₀.serveBad s₀.dict.reqs.length
    s.dictServes = true → s.dictBusy = false → t.domOn .link = true → hasNode m.via = true → m.node = 127 →
    s₀.dict.barrier = none → s.takeReq 0x30 m = some t → msgAbort 0x30 m = 0 →
    let u := t.sendNumbered (t.requestFrame 0x30 m)
    exec (.barrier m) s₀ = .next { u with
      dict := { u.dict with barrier := some ⟨0x30, m⟩, barrierHold := true, barrierId := t.dict.nextId } }) ∧
  (∀ (m : DictMsg) (s : State), hasNode m.via = true → s.dict.barrier ≠ none → exec (.barrier m) s = .next (s.holdReq 0x30 m)) ∧
  (∀ (r : DictReq) (s : State), s.nextReq = some r → ∃ k, 1 ≤ k ∧ k ≤ 5 ∧ transport r.via = (s.dict.turn + k) % 5 ∧
    ∀ r' ∈ s.dict.reqs, ∀ j, 1 ≤ j → j < k → transport r'.via ≠ (s.dict.turn + j) % 5) ∧
  (∀ (op status : Nat) (m : DictMsg) (data : List Byte) (src : Nat) (u : Option Nat) (s : State), m.via = .ring src u →
    let t := s.answer op m status data
    t.abort = status ∧
    t.sent = .resp m.via (respMsg op m.tid.toNat status m.aux.toNat m.index.toNat m.sub.toNat (if status = 0 then data else [])) :: s.sent ∧
    t.dict.out.length = s.dict.out.length + 1 ∧ SameMemory s t ∧
    RegsBut [DICTENG.REQ_CNT_COUNT, DICTENG.REQ_CNT_OVF, DICTENG.ABORT_CNT_COUNT, DICTENG.ABORT_CNT_OVF] s t) ∧
  (∀ (op status : Nat) (m : DictMsg) (data : List Byte) (src : Nat) (s : State), m.via = .bcast src →
    let t := s.answer op m status data
    t.abort = status ∧ t.sent = s.sent ∧ t.dict.out = s.dict.out) ∧
  (∀ (op tid status aux index sub : Nat) (data : List Byte), data.length < 65536 →
    let l := respMsg op tid status aux index sub data
    l.length = 12 + data.length ∧ msgOp l = op % 128 + 128 ∧ field l 1 1 = tid % 256 ∧ field l 3 1 = status % 256 ∧
    field l 10 2 = data.length ∧ l.drop 12 = data)

/-- Reading, describing and writing an object, and the ways a request to one is refused. An object that does not exist is
refused with its code; a WO object is not read, a RO object not written, an RWC object only staged, a wrong length refused
with 0x05, a powered-down object with 0x13; otherwise READ answers its value, DESCRIBE its descriptor and WRITE sets it;
application objects go to software with their data in APP_BUF and end with its response, or with abort 0x15 once
APP_CFG.TIMEOUT is over; forwarded requests time out with 0x14 after 4 cycles, vault requests with 0x0A; LOC_GO takes the
request in LOC_BUF, but waits where a march test holds it; a published calendar is kept. (08_dictionary.md, R169, R170,
R173, R176, R177, R178.) -/
def Obligations.ObjectReadsAndWrites : Prop :=
  (∀ (m : DictMsg) (c : Nat) (s : State), isApp m.index.toNat = false → s.lookup m.index.toNat m.sub.toNat = .error c →
    s.dictRead m = s.answer 1 m c [] ∧ s.dictWrite m true = s.answer 2 m c [] ∧ s.dictDescribe m = s.answer 3 m c []) ∧
  (∀ (m : DictMsg) (o : Obj) (s : State), isApp m.index.toNat = false → s.lookup m.index.toNat m.sub.toNat = .ok o →
    (o.acc = .wo → s.dictRead m = s.answer 1 m 0x04 []) ∧
    (o.acc ≠ .wo → s.domainOff m.index.toNat = true → s.dictRead m = s.answer 1 m 0x13 []) ∧
    (o.acc ≠ .wo → s.domainOff m.index.toNat = false → m.index ∉ [0x5001, 0x7010, 0x7030, 0x7040] →
      s.dictRead m = s.answer 1 m 0 (s.objVal m.index.toNat m.sub.toNat)) ∧
    s.dictDescribe m = s.answer 3 m 0 (descBytes o m.index.toNat m.sub.toNat) ∧
    (o.acc = .ro → flagsObj m.index.toNat m.sub.toNat = false → s.dictWrite m true = s.answer 2 m 0x03 []) ∧
    (o.acc = .rwc → s.dictWrite m true = s.answer 2 m 0x08 []) ∧
    (o.acc = .rw → o.typ.scalar = true → s.domainOff m.index.toNat = false → m.data.length ≠ o.typ.size →
      s.dictWrite m true = s.answer 2 m 0x05 []) ∧
    (s.writeAbort o m.index.toNat m.sub.toNat m.data = 0 → o.typ.scalar = true → low40 m.index.toNat m.sub.toNat = false →
      m.index ∉ [0x1010, 0x7010, 0x7020, 0x7030, 0x7050, 0x7051] →
      s.dictWrite m true = (s.setObj m.index.toNat m.sub.toNat (leNat m.data)).answer 2 m 0 [])) ∧
  (∀ (op : Nat) (m : DictMsg) (s : State), s.on DICTENG.APP_CFG_EN = true →
    let t := s.toApp op m
    t.dict.app = some ⟨op, m⟩ ∧ t.get DICTENG.APP_REQ_OP = op % 128 ∧ t.get DICTENG.APP_REQ_INDEX = m.index.toNat ∧
    t.get DICTENG.APP_REQ_SUB = m.sub.toNat ∧ t.get DICTENG.STAT_APP_PEND = 1 ∧ t.get DICTENG.STAT_BUSY = 1 ∧
    t.get DICTENG.IRQ_STAT_APP_REQ = 1 ∧ t.dict.appAt = s.tick ∧ MemoryBut (s.get DICTENG.APP_BUF_BUF * 4) m.data.length s t) ∧
  (∀ (v : Word) (r : HeldReq) (s : State), s.accessible DICTENG.APP_RESP = true → s.dict.app = some r →
    let u := s.writeFields (fun f => f.acc == .rw) DICTENG.APP_RESP v.toNat false
    exec (.appResponse v) s = .next { u.endApp r (u.get DICTENG.APP_RESP_STATUS)
      (s.bytes (u.get DICTENG.APP_BUF_BUF * 4) (u.get DICTENG.APP_RESP_LEN)) with bus := .ok 0 }) ∧
  (∀ (r : HeldReq) (s : State), s.dict.app = some r → s.domOn .link = true →
    s.dict.appAt + 250 * s.get DICTENG.APP_CFG_TIMEOUT ≤ s.tick →
    exec .appTimeout s = .next ((s.count DICTENG.APP_TO_CNT_COUNT DICTENG.APP_TO_CNT_OVF).endApp r 0x15 [])) ∧
  (∀ (f : FwdReq) (rest : List FwdReq) (s : State), s.dict.fwd = f :: rest →
    f.tick + 1000 * s.get RINGCTL.CYCLE_CUR_TC ≤ s.tick →
    exec .requestForwardTimeout s = .next (State.endReq { s with dict := { s.dict with fwd := rest } } f.req 0x14)) ∧
  (∀ (r : DictReq) (s : State), s.dict.vault = some r → s.dict.vaultAt + s.fastTicks 4096 ≤ s.tick →
    exec .dictengVaultTimeout s = .next ((State.set { s with dict := { s.dict with vault := none, reqs := s.dict.reqs.erase r } }
      DICTENG.STAT_BUSY 0).answer (msgOp r.msg) (msgOf r.via r.msg) 0x0A [])) ∧
  (∀ (s : State), s.accessible DICTENG.LOC_CTRL = true → s.on DICTENG.STAT_LOC_BUSY = false →
    let u := s.set DICTENG.STAT_LOC_BUSY 1
    let a := s.get DICTENG.LOC_BUF_BUF * 4
    (u.marchHolds a 512 = false → exec .locGo s = .next { u.locRead with bus := .ok 0 }) ∧
    (u.marchHolds a 512 = true → exec .locGo s = .next { u with
      march := { u.march with waiting := u.march.waiting ++ [.loc] }, bus := .ok 0 }) ∧
    (inSram a 512 = true →
      let l := s.bytes a 12 ++ s.bytes (a + 12) (min 500 (field (s.bytes a 12) 10 2))
      u.locRead = State.acceptReq { u with dict := { u.dict with loc := some (field l 1 1) } } .loc l ∨
        ∃ k w double, k ≤ 12 ∧ Config.dmaError s.tick (a + k) = some (w, double))) ∧
  (∀ (src : BitVec 7) (v : List Byte) (s : State), s.domOn .link = true →
    exec (.publish src 0x4010 1 v) s = .next { s with tm := { s.tm with calHeld := true, calNode := src.toNat, calMt := leNat v } } ∧
    exec (.publish src 0x4010 2 v) s = .next { s with tm := { s.tm with calHeld := true, calNode := src.toNat, calSec := leNat v } })

/-- Staging, committing, discarding and applying a write set. STAGE keeps an entry in a set that is not armed; COMMIT arms the
set for a future instant, and fails it with 3 without valid time and 2 for a past one; DISCARD empties it; sets above 3 are
refused with 0x06; at its instant a set is applied after the lower sets that are due; one whose entries all pass is applied
in order (but those that another set or command overrules), one that does not is kept and its failing entry named, and lost
time fails it; putting one set leaves the others. The entries of a set are applied in ascending order of index and subindex,
each exactly once with its place in the set; staging keeps one entry for each object, holds the new one and every other.
(08_dictionary.md, R180, R181, R182, R184.) -/
def Obligations.WriteSets : Prop :=
  (∀ (m : DictMsg) (w : Fin 4) (o : Obj) (s : State), m.aux.toNat = w.1 → isApp m.index.toNat = false →
    s.lookup m.index.toNat m.sub.toNat = .ok o → o.acc ≠ .ro → o.stageable = true → s.domainOff m.index.toNat = false →
    valueAbort o m.index.toNat m.sub.toNat m.data = 0 → s.dict.ws[w].st ≠ 2 →
    let l := stageEntry s.dict.ws[w].entries ⟨m.index.toNat, m.sub.toNat, stagedValue m.index.toNat m.sub.toNat m.data⟩
    l.length ≤ 64 → s.dictStage m = (s.setWs w { s.dict.ws[w] with entries := l, st := 1 }).answer 0x10 m 0 []) ∧
  (∀ (m : DictMsg) (w : Fin 4) (s : State), m.aux.toNat = w.1 → m.data.length = 5 → s.dict.ws[w].entries ≠ [] →
    s.dict.ws[w].st ≠ 2 →
    (s.timeValid = false → s.dictCommit m = (s.failWs w 3).answer 0x11 m 0 []) ∧
    (s.timeValid = true → ((s.stamp40 (leNat m.data)).2 = true ∨ (s.stamp40 (leNat m.data)).1 = s.mt) →
      s.dictCommit m = ((s.failWs w 2).count DICTENG.LATE_CNT_COUNT DICTENG.LATE_CNT_OVF).answer 0x11 m 0 []) ∧
    (s.timeValid = true → (s.stamp40 (leNat m.data)).2 = false → (s.stamp40 (leNat m.data)).1 ≠ s.mt →
      s.dictCommit m = (s.setWs w { s.dict.ws[w] with st := 2, stamp := leNat m.data, inst := (s.stamp40 (leNat m.data)).1 }).answer
        0x11 m 0 [])) ∧
  (∀ (m : DictMsg) (w : Fin 4) (s : State), m.aux.toNat = w.1 → s.dict.ws[w].st = 1 →
    s.dictDiscard m = (s.emptyWs w 5).answer 0x12 m 0 []) ∧
  (∀ (m : DictMsg) (s : State), 4 ≤ m.aux.toNat → s.dictStage m = s.answer 0x10 m 0x06 [] ∧
    s.dictCommit m = s.answer 0x11 m 0x06 [] ∧ s.dictDiscard m = s.answer 0x12 m 0x06 []) ∧
  (∀ (w : Fin 4) (s : State), s.dict.ws[w].st = 2 → s.due s.dict.ws[w].inst = true →
    exec (.writeSetApply w) s = .next (((List.finRange 4).filter fun v => decide (v ≤ w)).foldl State.applyWs s) ∧
    ((∀ v < w, s.dict.ws[v].st ≠ 2 ∨ s.due s.dict.ws[v].inst = false) → exec (.writeSetApply w) s = .next (s.applyWs w))) ∧
  (∀ (w : Fin 4) (s : State), s.dict.ws[w].st ≠ 2 ∨ s.due s.dict.ws[w].inst = false ∨ s.domOn .link = false → s.applyWs w = s) ∧
  (∀ (w : Fin 4) (s : State), s.dict.ws[w].st = 2 → s.due s.dict.ws[w].inst = true → s.domOn .link = true → s.timeValid = true →
    s.wsFailure s.dict.ws[w] = none →
    s.applyWs w = ((sortedEntries s.dict.ws[w].entries).filter fun p => !s.overruled w p.2).foldl
      (fun s p => s.setObj p.2.index p.2.sub (leNat p.2.value))
      ((s.setWs w { s.dict.ws[w] with entries := [], st := 0, outcome := 1, commitMt := s.mt }).setBit DICTENG.IRQ_STAT_WS_COMMIT w
        true)) ∧
  (∀ (w : Fin 4) (p c : Nat) (s : State), s.dict.ws[w].st = 2 → s.due s.dict.ws[w].inst = true → s.domOn .link = true →
    s.timeValid = true → s.wsFailure s.dict.ws[w] = some (p, c) →
    let t := s.applyWs w
    t.dict.ws[w].st = 1 ∧ t.dict.ws[w].outcome = 4 ∧ t.dict.ws[w].failPos = p ∧ t.dict.ws[w].failCode = c ∧
    t.dict.ws[w].entries = s.dict.ws[w].entries ∧ t.bit DICTENG.IRQ_STAT_WS_FAIL w = true ∧
    t.bit DICTENG.STAT_WS_ARMED w = false ∧
    OnlyRegs [DICTENG.IRQ_STAT_WS_FAIL, DICTENG.STAT_WS_ARMED] { s with dict := t.dict } t) ∧
  (∀ (w : Fin 4) (s : State), s.dict.ws[w].st = 2 → s.due s.dict.ws[w].inst = true → s.domOn .link = true → s.timeValid = false →
    s.applyWs w = s.failWs w 3) ∧
  (∀ (w : Fin 4) (x : WriteSet) (s : State), (s.setWs w x).dict.ws[w] = x ∧
    (s.setWs w x).bit DICTENG.STAT_WS_ARMED w = (x.st == 2) ∧ ∀ v : Fin 4, v ≠ w → (s.setWs w x).dict.ws[v] = s.dict.ws[v]) ∧
  (∀ l : List WsEntry, ((sortedEntries l).map (·.2)).Perm l ∧
    (sortedEntries l).Pairwise (fun x y => x.2.index * 256 + x.2.sub ≤ y.2.index * 256 + y.2.sub) ∧
    ∀ p ∈ sortedEntries l, l[p.1]? = some p.2) ∧
  (∀ (l : List WsEntry) (e : WsEntry), l.Pairwise (fun x y => (x.index, x.sub) ≠ (y.index, y.sub)) →
    (stageEntry l e).Pairwise (fun x y => (x.index, x.sub) ≠ (y.index, y.sub)) ∧ e ∈ stageEntry l e ∧
    (stageEntry l e).length ≤ l.length + 1 ∧
    ∀ x ∈ l, (x.index, x.sub) ≠ (e.index, e.sub) → x ∈ stageEntry l e)

/-- Snapshots requested, captured, collected and collected again. SNAP arms a snapshot for a future instant, and sets its error
state without valid time (7), for a past instant (6), within a collection (8) or where the list does not fit (9); at the
instant the objects are captured with the stamp and the collection window; lost time ends it; the window's end finishes, or
leaves it INCOMPLETE; RECOLLECT names a coming cycle; a chunk that is not awaited changes nothing. (08_dictionary.md, R186,
R187, R188, R189, R190.) -/
def Obligations.Snapshots : Prop :=
  (∀ (m : DictMsg) (s : State), m.data.length = 7 → field m.data 5 2 % 8 = 0 → 8 ≤ field m.data 5 2 → field m.data 5 2 ≤ 256 →
    let b := field m.data 5 2
    let p := s.stamp40 (field m.data 0 5)
    (s.timeValid = false → s.dictSnap m = (s.setSnap 7).answer 0x20 m 0 []) ∧
    (s.timeValid = true → (p.2 = true ∨ p.1 = s.mt) →
      s.dictSnap m = ((s.setSnap 6).count DICTENG.LATE_CNT_COUNT DICTENG.LATE_CNT_OVF).answer 0x20 m 0 []) ∧
    (s.timeValid = true → p.2 = false → p.1 ≠ s.mt → p.1 < s.dict.snap.windowEnd →
      s.dictSnap m = (s.setSnap 8).answer 0x20 m 0 []) ∧
    (s.timeValid = true → p.2 = false → p.1 ≠ s.mt → s.dict.snap.windowEnd ≤ p.1 →
      b < (s.snapList.map fun p => slotSize p.1 p.2).foldl (· + ·) 0 → s.dictSnap m = (s.setSnap 9).answer 0x20 m 0 []) ∧
    (s.timeValid = true → p.2 = false → p.1 ≠ s.mt → s.dict.snap.windowEnd ≤ p.1 →
      (s.snapList.map fun p => slotSize p.1 p.2).foldl (· + ·) 0 ≤ b →
      s.dictSnap m = (State.setSnap { s with dict := { s.dict with snap := { s.dict.snap with
        inst := p.1, armId := m.aux.toNat, armB := b } } } 1).answer 0x20 m 0 [])) ∧
  (∀ s : State, s.dict.snap.st = 1 → s.due s.dict.snap.inst = true → s.domOn .link = true → s.timeValid = true →
    Yields .snapshotCapture s fun t => t.dict.snap.st = 2 ∧ t.get DICTENG.STAT_SNAP = 2 ∧ t.get DICTENG.IRQ_STAT_SNAP_DONE = 1 ∧
      t.dict.snap.cap = some (s.captureBytes s.dict.snap.armB) ∧ t.dict.snap.id = s.dict.snap.armId ∧
      t.dict.snap.b = s.dict.snap.armB ∧ t.dict.snap.stamp = s.dict.snap.inst % 2 ^ 40 ∧ t.dict.snap.phase = 1 ∧
      t.dict.snap.c0 = (s.firstCycle s.dict.snap.inst).2 ∧ t.dict.snap.windowEnd =
        (s.firstCycle s.dict.snap.inst).1 + chunks s.dict.snap.armB 8 * (1000 * s.get RINGCTL.CYCLE_CUR_TC) ∧
      OnlyRegs [DICTENG.STAT_SNAP, DICTENG.IRQ_STAT_SNAP_DONE] { s with dict := t.dict } t) ∧
  (∀ s : State, s.dict.snap.st = 1 → s.due s.dict.snap.inst = true → s.domOn .link = true → s.timeValid = false →
    exec .snapshotCapture s = .next (s.setSnap 7)) ∧
  (∀ (d : List Byte) (s : State), s.dict.snap.cap = some d → s.dict.snap.re = none → s.due s.dict.snap.windowEnd = true →
    s.domOn .link = true →
    (s.dict.snap.phase = 2 → s.dict.snap.missing = 0 → exec .collectionWindowEnd s = .next s.snapFinish) ∧
    (s.dict.snap.phase = 2 → s.dict.snap.missing ≠ 0 → exec .collectionWindowEnd s = .next s.snapIncomplete) ∧
    (s.dict.snap.phase = 1 → exec .collectionWindowEnd s = .next (s.snapPhase 0))) ∧
  (∀ s : State, s.dict.snap.st ≠ 1 → s.snapIncomplete.dict.snap.st = 5 ∧ s.snapIncomplete.get DICTENG.IRQ_STAT_SNAP_INC = 1 ∧
    s.snapIncomplete.dict.snap.phase = 3 ∧ (s.dict.snap.missing = 0 → s.snapFinish.dict.snap.st = 4 ∧
      s.snapFinish.get DICTENG.IRQ_STAT_SNAP_DONE = 1 ∧ s.snapFinish.dict.snap.phase = 0)) ∧
  (∀ (m : DictMsg) (d : List Byte) (s : State), m.data.length = 18 → s.dict.snap.cap = some d → s.dict.snap.id = m.aux.toNat →
    let c1 := field m.data 0 2
    let cyc := s.get RINGCTL.CYCNUM_CYCLE
    newer 16 c1 cyc = true → 2 ≤ (c1 + 65536 - cyc) % 65536 → s.get RINGCTL.ADDR_ADDR ≠ 0 →
    getBit (field m.data 2 16) (s.get RINGCTL.ADDR_ADDR) = true →
    s.dictRecollect m = State.answer { s with dict := { s.dict with snap := { s.dict.snap with re := some (c1, true) } } } 0x21 m 0 []) ∧
  (∀ (src : Nat) (data : List Byte) (s : State), s.dict.snap.phase ≠ 2 ∨ getBit s.dict.snap.missing src = false →
    s.snapCollect src data = s)

/-- The rows that are a dictionary WRITE of one object. Each of the twelve rows that stand for a dictionary WRITE of one object
is that WRITE: storing and erasing persisted objects, the attestation nonce, a life-cycle change, the owner's key hash, a
debug unlock, clearing the log's loss counters, and the six commands of a download, with the answer and the effect of each
under its conditions. (08_dictionary.md, R171, R284, R287, R288, R290, R303, R336.) -/
def Obligations.CommandsThatWriteOneObject : Prop :=
  ∀ (via : Via) (tid : Byte) (s₀ t : State), let s := s₀.serveBad s₀.dict.reqs.length
    s.dictServes = true → s.dictBusy = false → t.domOn .link = true → t.domOn .mgt = true → t.boot.recovery = false →
    t.lifeCycle ∈ [1, 2, 3] →
    let req (i : BitVec 16) (sub : Byte) (d : List Byte) : Prop := s.takeReq 2 (objMsg via tid i sub d) = some t
    let done (i : BitVec 16) (sub : Byte) (d : List Byte) (x : Nat × State) : Host.Outcome State Fault Refusal :=
      .next (x.2.answer 2 (objMsg via tid i sub d) x.1 [])
    (∀ u, req 0x1010 2 (leBytes 2 0x5A17) → t.onTrial = false → t.storePersisted = some u →
      exec (.storePersisted via tid) s₀ = done 0x1010 2 (leBytes 2 0x5A17) (0, u)) ∧
    (∀ u, req 0x1010 3 (leBytes 2 0xD0F0) → t.eraseStored = some u →
      exec (.eraseStored via tid) s₀ = done 0x1010 3 (leBytes 2 0xD0F0) (0, u)) ∧
    (∀ d, req 0x7010 1 d → d.length = 32 → t.sc.attStatus ≠ 1 → exec (.nonceWrite via tid d) s₀ =
      done 0x7010 1 d (0, { t with sc := { t.sc with attStatus := 1, attNonce := d, attReport := [] } })) ∧
    (∀ d, req 0x7020 2 d → d.length ≤ 134 → t.sc.lcTarget = none → lcPermits t.lifeCycle (field d 0 1) = true → field d 0 1 ≠ 3 →
      field d 1 4 = Config.uniqueId.toNat % 2 ^ 32 → exec (.lifeCycleChange via tid d) s₀ = .next (State.startWipe { t with
        sc := { t.sc with lcTarget := some (field d 0 1), lcReq := some (via, tid.toNat) } } VAULTCTL.STAT_CAUSE_LC)) ∧
    (∀ d, req 0x7020 3 d → d.length ≤ 32 → t.sc.lcTarget = none → t.lifeCycle = 1 → t.sc.ownerHash = none →
      exec (.ownerKeyHashWrite via tid d) s₀ = done 0x7020 3 d (0, { t with sc := { t.sc with ownerHash := some d } })) ∧
    (∀ d, req 0x7030 2 d → d.length ≤ 129 → via ≠ .tap → exec (.debugUnlock via tid d) s₀ = done 0x7030 2 d (t.unlockOp d)) ∧
    (req 0x7040 5 [2] → exec (.logClearLost via tid) s₀ = done 0x7040 5 [2] (0, { t with log := { t.log with
      lost := List.replicate 8 0, lostOvf := List.replicate 8 false } })) ∧
    (req 0x7050 1 [1] → t.dl.st ∈ [0, 5, 6] → t.regNormal = true → exec (.downloadBegin via tid) s₀ = done 0x7050 1 [1]
      (0, { t.dropMcache.aimDownload with dl := { t.dl with st := 1, offset := 0, held := 0 } })) ∧
    (∀ d ok, req 0x7050 3 d → d.length ≤ 256 → exec (.downloadData via tid d ok) s₀ = done 0x7050 3 d (t.dlData d ok)) ∧
    (req 0x7050 1 [2] → t.dl.st = 3 → t.dl.offset = hdrLength (t.header t.inactive) →
      exec (.downloadFinish via tid) s₀ = done 0x7050 1 [2] (0, t.dlTo 4)) ∧
    (req 0x7050 1 [3] → exec (.downloadActivate via tid) s₀ = done 0x7050 1 [3] t.dlActivate) ∧
    (req 0x7050 1 [4] → t.dl.st ≠ 7 → exec (.downloadAbort via tid) s₀ =
      done 0x7050 1 [4] (0, { t.cutErase with dl := { t.dl with st := 0, reason := 0x0D, armedAt := none } }))

/-- VIN leaves and comes, the system clock is configured, a PLL locks. When VIN leaves, a device without a connected cell goes
cold, one with it undocks: MODE, DETACH_EV and the instant are kept, the ring goes DOWN, the lanes OFF, their domains down;
VIN on a cold device starts it docked, on a running one relocks the clock, on a sleeping one is noted until the exit, each
as wake source 6, and in the hold of a cold start it starts the main domain; a docking sets DOCKED, VIN_NOW and DOCK_EV with
its count and instant and nothing else; SYS_CFG takes its ceiling and refuses a faster clock with CEIL_REJ, relocks for
another multiplier, and changes a locked clock's divider at once; a confirmed lock shows and clears its relock.
(09_power_ladder.md, R193, R194, R207, R208, R210.) -/
def Obligations.DockingAndClocks : Prop :=
  (∀ s : State, s.on AONCTL.MODE_DOCKED = true →
    (s.cell ≠ 2 → exec .vinAbsent s = .next s.goCold) ∧
    (s.cell = 2 → Yields .vinAbsent s fun t => t.get AONCTL.MODE_DOCKED = 0 ∧ t.get AONCTL.MODE_VIN_NOW = 0 ∧
      t.get AONCTL.MODE_DETACH_EV = 1 ∧ t.get AONCTL.STEP_DEEPEST = s.pwr.step.code ∧
      t.get AONCTL.DETACH_AT_LO_SECS = s.calSecs % 2 ^ 32 ∧ t.get RINGCTL.STAT_RSTATE = 0 ∧ t.pwr.step = s.pwr.step ∧
      (∀ n : Fin 10, t.get (LANE.STAT_LSTATE n) = 0) ∧ t.domOn .lane = false ∧ t.domOn .link = false)) ∧
  (∀ s : State, s.pwr.step = .cold → exec .vinPresent s = .next (s.coldReset true)) ∧
  (∀ s : State, s.pwr.step ≠ .cold → s.on AONCTL.MODE_DOCKED = false → s.pwr.coldHold = false →
    let t := s.noteDock.endScLatch.modeChanged.showDisc
    (s.pwr.step ≠ .run → s.pwr.step ≠ .hover →
      exec .vinPresent s = .next (State.wakeSrc { t with pwr := { t.pwr with lateDock := true } } (2 ^ 6))) ∧
    (s.pwr.step = .run ∨ s.pwr.step = .hover → exec .vinPresent s = .next ((t.relockSys false).wakeSrc (2 ^ 6)))) ∧
  (∀ s : State, s.pwr.step ≠ .cold → s.on AONCTL.MODE_DOCKED = false → s.pwr.coldHold = true →
    exec .vinPresent s = .next s.noteDock.endScLatch.modeChanged.showDisc.coldMain) ∧
  (∀ s : State, s.noteDock.on AONCTL.MODE_DOCKED = true ∧ s.noteDock.get AONCTL.MODE_VIN_NOW = 1 ∧
    s.noteDock.get AONCTL.MODE_DOCK_EV = 1 ∧ s.noteDock.get AONCTL.DOCK_AT_LO_SECS = s.calSecs % 2 ^ 32 ∧
    OnlyRegs [AONCTL.MODE_DOCKED, AONCTL.MODE_VIN_NOW, AONCTL.MODE_DOCK_EV, AONCTL.DOCK_CNT_COUNT, AONCTL.DOCK_CNT_OVF,
      AONCTL.DOCK_AT_LO_SECS, AONCTL.AT_HI_DOCK_HI] s s.noteDock) ∧
  (∀ (v : Word) (s : State), s.accessible CLKGEN.SYS_CFG = true → 4 ≤ bits v.toNat 31 24 → bits v.toNat 31 24 ≤ 200 →
    16 ≤ bits v.toNat 4 0 → let mul := bits v.toNat 4 0; let post := bits v.toNat 17 16; let ceil := bits v.toNat 31 24
    (2 * ceil * 2 ^ post < 25 * mul → Yields (.sysCfgWrite v) s fun t => t.get CLKGEN.STAT_CEIL_REJ = 1 ∧
      t.get CLKGEN.SYS_CFG_CEIL = ceil ∧ t.get CLKGEN.SYS_CFG_MUL = s.get CLKGEN.SYS_CFG_MUL ∧
      t.get CLKGEN.SYS_CFG_POST = s.get CLKGEN.SYS_CFG_POST) ∧
    (25 * mul ≤ 2 * ceil * 2 ^ post → s.on AONCTL.MODE_DOCKED = true → mul ≠ s.get CLKGEN.SYS_CFG_MUL →
      Yields (.sysCfgWrite v) s fun t => t.get CLKGEN.SYS_CFG_MUL = mul ∧ t.get CLKGEN.SYS_CFG_POST = post ∧
        t.get CLKGEN.SYS_CFG_CEIL = ceil ∧ t.get CLKGEN.STAT_SYS_LOCK = 0 ∧ t.get CLKGEN.STAT_SRC = 2 ∧ t.pwr.relockSys = true ∧
        t.get CLKGEN.STAT_SYS_MHZ = fastMhz ceil) ∧
    (25 * mul ≤ 2 * ceil * 2 ^ post → mul = s.get CLKGEN.SYS_CFG_MUL → s.on CLKGEN.STAT_SYS_LOCK = true →
      s.get CLKGEN.STAT_SRC = 0 → Yields (.sysCfgWrite v) s fun t => t.get CLKGEN.SYS_CFG_POST = post ∧
        t.get CLKGEN.STAT_SYS_MHZ = pllMhz mul post ∧ t.get CLKGEN.STAT_SYS_LOCK = 1 ∧ t.get CLKGEN.STAT_SRC = 0)) ∧
  (∀ s : State, s.domOn .sys = true →
    (s.pwr.relockSys = true → Yields (.pllLockConfirmed false) s fun t => t.get CLKGEN.STAT_SYS_LOCK = 1 ∧
      t.get CLKGEN.STAT_SRC = 0 ∧ t.pwr.relockSys = false ∧ t.pwr.trimMul = some (s.get CLKGEN.SYS_CFG_MUL)) ∧
    (s.pwr.relockTb = true → Yields (.pllLockConfirmed true) s fun t => t.get CLKGEN.STAT_TB_LOCK = 1 ∧
      t.pwr.relockTb = false ∧ t.pwr.trimTb = true))

/-- A step is requested, refused, prepared and entered; Cricket's ladder commands. WFI with target Hover enters Hover, with a
deeper target is refused with its reason, in Hover, or begins preparation from Hover; a lane that is not OFF refuses with
reason 1; Scarab's acknowledgement, given with no command of the record store in progress, begins the entry, flushing the
log for Diapause and Pupa; the entry enters the step and then takes a wake that was held, with what Torpor and Diapause save
and code flash unchanged; Cricket's GO_PUPA and WAKE_MAIN; a step change shows in STEP and DEEPEST alone.
(09_power_ladder.md, R197, R198, R199, R264.) -/
def Obligations.SleepLadderDown : Prop :=
  (∀ s : State, s.pwr.step = .run → s.pwr.req = none → s.pwr.entry = none → s.pwr.exit = none →
    (targetStep (s.get PWRCTL.CTRL_TARGET) = .hover → exec .wfiStepRequest s = .next (s.setStep .hover)) ∧
    (targetStep (s.get PWRCTL.CTRL_TARGET) ≠ .hover → s.stepReason ≠ 0 →
      exec .wfiStepRequest s = .next (((s.set PWRCTL.STAT_REFUSED 1).set PWRCTL.STAT_REASON s.stepReason).setStep .hover)) ∧
    (targetStep (s.get PWRCTL.CTRL_TARGET) ≠ .hover → s.stepReason = 0 → s.on MEMCTL.MT_STAT_BUSY = false →
      Yields .wfiStepRequest s fun t => t.pwr.step = .hover ∧ t.pwr.req = some (targetStep (s.get PWRCTL.CTRL_TARGET)) ∧
        t.get AONCTL.STEP_STEP = 1)) ∧
  (∀ s : State, (∃ n, n < 10 ∧ s.get (LANE.STAT_LSTATE n) ≠ 0) → s.stepReason = 1) ∧
  (∀ (t : PStep) (s : State), s.pwr.req = some t → s.scarabBusy = false → s.on MEMCTL.MT_STAT_BUSY = false →
    s.rs.cur = none →
    (t = .rest ∨ t = .torpor → exec .scarabPrepareAck s =
      .next { s with pwr := { s.pwr with req := none, entry := some t, held := 0, heldFirst := 0x1F } }) ∧
    (t = .diapause ∨ t = .pupa → exec .scarabPrepareAck s =
      .next { s.flushLog with pwr := { s.flushLog.pwr with req := none, entry := some t, held := 0, heldFirst := 0x1F } })) ∧
  (∀ (t : PStep) (s : State), s.pwr.entry = some t →
    exec .stepEntryComplete s = .next (State.heldWake { s.enterStep t with pwr := { (s.enterStep t).pwr with entry := none } } t)) ∧
  (∀ s : State,
    (s.enterStep .rest).pwr.step = .rest ∧ (s.enterStep .torpor).pwr.step = .torpor ∧
    (s.enterStep .torpor).pwr.saved = some (s.mt, s.slow) ∧ (s.enterStep .torpor).get CLKGEN.STAT_SYS_LOCK = 0 ∧
    (s.enterStep .diapause).pwr.step = .diapause ∧ (s.enterStep .diapause).get AONCTL.RET_LATCH_RET = s.get PWRCTL.RET_RET % 2 ^ 8 ∧
    (s.enterStep .pupa).pwr.step = .pupa ∧ (s.enterStep .pupa).get TOUCH.CRK_CTRL_RUN = 0 ∧
    (s.flash = none → ∀ a, 0x08000000 ≤ a → a < 0x08210000 → (s.enterStep .diapause).byte a = s.byte a)) ∧
  (∀ s : State, s.accessible AONCTL.CMD = true → s.pwr.step = .diapause → s.pwr.entry = none → s.pwr.exit = none →
    exec (.goPupa .cricket) s =
      .next { s with pwr := { s.pwr with entry := some .pupa, held := 0, heldFirst := 0x1F }, bus := .ok 0 } ∧
    exec (.wakeMain .cricket) s = .next { s.wakeSrc (2 ^ 9) with bus := .ok 0 }) ∧
  (∀ (st : PStep) (s : State), (s.setStep st).pwr.step = st ∧ (s.setStep st).get AONCTL.STEP_STEP = st.code ∧
    OnlyRegs [AONCTL.STEP_STEP, AONCTL.STEP_DEEPEST] { s with
      pwr := { s.pwr with step := st, lateDock := s.pwr.lateDock && st != .run } } (s.setStep st))

/-- Wake sources, the exit from a step, and a core brown-out. An event with sources is a wake; an enabled interrupt, with none,
ends Hover, and Rest where its source runs in Rest, aborts a request that is pending, and is held while Rest is being
entered; from Torpor and Diapause only an enabled source wakes, and WAKE_CAUSE keeps the lowest first source, all sources
and the step; a source sent to Cricket alone only interrupts it; a completed exit from each step returns to Run with
LAST_EXIT; a core brown-out restarts the main domain and leaves Cricket and the RTC running. (09_power_ladder.md, R200,
R201, R203, R206.) -/
def Obligations.WakesAndExits : Prop :=
  (∀ (srcs : BitVec 10) (s : State), srcs ≠ 0 → exec (.wakeEvent srcs) s = .next (s.wakeSrc srcs.toNat)) ∧
  (∀ s : State,
    (s.pwr.req = none → s.pwr.entry = none → s.pwr.exit = none → s.pwr.step = .hover ∨ (s.pwr.step = .rest ∧ s.restIrq = true) →
      exec (.wakeEvent 0) s = .next { s with pwr := { s.pwr with exit := some s.pwr.step } }) ∧
    (s.pwr.entry = none → s.pwr.req ≠ none → exec (.wakeEvent 0) s = .next
      (State.setStep { s.set PWRCTL.STAT_ABORTED 1 with pwr := { s.pwr with req := none } } .run)) ∧
    (s.pwr.entry = some .rest → s.restIrq = true →
      exec (.wakeEvent 0) s = .next { s with pwr := { s.pwr with irqHeld := true } })) ∧
  (∀ (srcs : Nat) (s : State), s.pwr.step = .torpor → s.pwr.req = none → s.pwr.entry = none → s.pwr.exit = none →
    s.pwr.coldHold = false →
    let en := srcs &&& s.get AONCTL.WAKE_EN_EN &&& wakeMask .torpor (s.on AONCTL.MODE_DOCKED)
    (en = 0 → s.wakeSrc srcs = s) ∧
    (en ≠ 0 → let t := s.wakeSrc srcs
      t.pwr.exit = some .torpor ∧ t.get AONCTL.WAKE_CAUSE_FIRST = lowestBit en % 2 ^ 5 ∧
      t.get AONCTL.WAKE_CAUSE_CAUSE = (s.get AONCTL.WAKE_CAUSE_CAUSE ||| en) % 2 ^ 10 ∧ t.get AONCTL.WAKE_CAUSE_FROM = 3 ∧
      OnlyRegs [AONCTL.WAKE_CAUSE_FIRST, AONCTL.WAKE_CAUSE_CAUSE, AONCTL.WAKE_CAUSE_FROM] { s with pwr := t.pwr, ring := t.ring } t)) ∧
  (∀ (srcs : Nat) (s : State), s.pwr.step = .diapause → s.pwr.req = none → s.pwr.entry = none → s.pwr.exit = none →
    s.pwr.coldHold = false →
    let en := srcs &&& s.get AONCTL.WAKE_EN_EN &&& wakeMask .diapause (s.on AONCTL.MODE_DOCKED)
    en ≠ 0 → en &&& (1023 - s.get AONCTL.WAKE_DEST_DEST) = 0 → en &&& s.get AONCTL.WAKE_DEST_DEST ≠ 0 →
    s.wakeSrc srcs = s.set TOUCH.CRK_IRQ_STAT_WAKE 1) ∧
  (∀ s : State,
    (s.pwr.exit = some .hover → exec .stepExitComplete s = .next ((((State.setStep { s with pwr := { s.pwr with exit := none } }
      .run).set PWRCTL.STAT_LAST_EXIT 1).set TOUCH.CRK_IRQ_STAT_MAIN_UP 1).showClocks.tamperReport)) ∧
    (s.pwr.exit = some .rest → exec .stepExitComplete s = .next (((((State.setStep { s with pwr := { s.pwr with exit := none } }
      .run).exitRest.restartWdog.ringUnpark).set PWRCTL.STAT_LAST_EXIT 2).set TOUCH.CRK_IRQ_STAT_MAIN_UP 1).showClocks.tamperReport)) ∧
    (s.pwr.exit = some .torpor → exec .stepExitComplete s = .next (((((State.setStep { s with pwr := { s.pwr with exit := none } }
      .run).exitTorpor.restartWdog.ringUnpark).set PWRCTL.STAT_LAST_EXIT 3).set TOUCH.CRK_IRQ_STAT_MAIN_UP 1).showClocks.tamperReport)) ∧
    (s.pwr.exit = some .diapause → exec .stepExitComplete s = .next (((((State.setStep { s with pwr := { s.pwr with exit := none } }
      .run).exitDeep.touchExit).set PWRCTL.STAT_LAST_EXIT 4).set TOUCH.CRK_IRQ_STAT_MAIN_UP 1).showClocks.tamperReport)) ∧
    (s.pwr.exit = some .pupa → exec .stepExitComplete s = .next (((((State.setStep { s with pwr := { s.pwr with exit := none } }
      .run).exitDeep).set PWRCTL.STAT_LAST_EXIT 5).set TOUCH.CRK_IRQ_STAT_MAIN_UP 1).showClocks.tamperReport))) ∧
  (∀ s : State, s.coreSupplied = true → s.pwr.coldHold = false → Yields .coreBrownOut s fun t =>
    t.pwr.step = .run ∧ t.get AONCTL.RST_CAUSE_BOD = 1 ∧ t.get TOUCH.CRK_IRQ_STAT_BOD = 1 ∧ t.boot.code = 5 ∧ t.boot.released = false ∧
    t.get MTIME.STATUS_STATE = 0 ∧ t.mt = 0 ∧ (∀ n : Fin 10, t.get (LANE.STAT_LSTATE n) = 0) ∧
    t.get RINGCTL.STAT_RSTATE = 0 ∧ t.get TOUCH.CRK_CTRL_RUN = s.get TOUCH.CRK_CTRL_RUN ∧ t.rtc.sub = s.rtc.sub) ∧
  (∀ m : Nat, m < 1024 → (m = 0 → lowestBit m = 0x1F) ∧ (m ≠ 0 → getBit m (lowestBit m) = true ∧ ∀ i, i < lowestBit m → getBit m i = false))

/-- The harvester: the panel, the cell, the temperature window, a short circuit and the cold start. A due Voc sample starts and
its end sets VOC, the target from FRAC and the boost's mode; a SAMPLE command during one is ignored, else it starts one;
FRAC takes effect at once; an empty undocked cell is cut off at its second low comparison and the device goes cold, a cell
above the cutoff is shown and charged or not; a hot thermistor holds charging with its event, and with NTC_EN 0 nothing is
held; a short circuit disconnects the cell, latches after the third and is retried, or turns an undocked device cold; the
retry connects the cell as it was. The boost takes over from the starter, and gives it back on dropout; the release from
reset leaves Pupa with the cell disconnected and the sampled Voc kept; a second undervoltage returns to cold; a cell
connected normally is shown, after a cold start it starts the main domain with reset code 1; going through a cold reset
changes no byte of code flash, no fuse and no waiting command, and MT is 0. (10_harvester.md, R213, R214, R215, R217, R218,
R219, R220, R221, R210, R222, R223.) -/
def Obligations.HarvestingChargingAndColdStart : Prop :=
  (∀ s : State, s.on HARVEST.CTRL_BOOST_EN = true → s.boost ≠ 2 → s.pwr.step ≠ .cold →
    (s.on HARVEST.VOC_VALID = false ∨ s.hv.sampleEnd + s.hv.interval * 32768 ≤ s.slow) →
    exec .vocSampleStart s = .next { s.set HARVEST.STAT_BOOST 2 with hv := { s.hv with sampleAt := s.tick } }) ∧
  (∀ (v : BitVec 12) (s : State), s.boost = 2 → s.hv.sampleAt + 2000000 ≤ s.tick → Yields (.vocSampleEnd v) s fun t =>
    let target := v.toNat * s.get HARVEST.MPPT_FRAC / 100 % 2 ^ 12
    t.get HARVEST.VOC_VOC_MV = v.toNat ∧ t.get HARVEST.VOC_TARGET_MV = target ∧ t.get HARVEST.VOC_VALID = 1 ∧
    t.boost = (if target < 250 then 3 else 1) ∧ t.hv.sampleEnd = s.slow ∧
    OnlyRegs [HARVEST.VOC_VOC_MV, HARVEST.VOC_TARGET_MV, HARVEST.VOC_VALID, HARVEST.STAT_BOOST] { s with hv := t.hv } t) ∧
  (∀ s : State, s.accessible HARVEST.CTRL = true →
    (s.boost = 2 → exec .harvestSampleCmd s = .next { s.set HARVEST.STAT_CMD_IGN 1 with bus := .ok 0 }) ∧
    (s.boost ≠ 2 → s.on HARVEST.CTRL_BOOST_EN = true →
      exec .harvestSampleCmd s = .next { s.set HARVEST.STAT_BOOST 2 with hv := { s.hv with sampleAt := s.tick }, bus := .ok 0 })) ∧
  (∀ (v : Word) (s : State), s.accessible HARVEST.MPPT = true →
    let u := s.writeFields (fun _ => true) HARVEST.MPPT v.toNat false
    exec (.fracWrite v) s = .next { (if u.boost = 1 then u.setTarget else u) with bus := .ok 0 }) ∧
  (∀ (bat vs : BitVec 12) (s : State), s.pwr.step ≠ .cold →
    (s.on AONCTL.MODE_DOCKED = false → (s.cell = 2 ∨ s.cell = 1 ∧ s.pwr.coldHold = false) → bat.toNat ≤ 3000 → 1 ≤ s.hv.low → 3000 ≤ s.warnMv →
      Yields (.batComparison bat vs) s fun t => t.pwr.step = .cold ∧ t.cell = 0 ∧ t.get HARVEST.STAT_BOOST = 0) ∧
    (3000 < bat.toNat → s.warnMv < bat.toNat → bat.toNat < s.warnMv + 100 →
      exec (.batComparison bat vs) s = .next (
        let u : State := { (s.set HARVEST.LEVELS_BAT_MV bat.toNat).set HARVEST.LEVELS_VSTORE_MV vs.toNat with
          hv := { s.hv with low := 0, scRun := if s.cell = 0 then s.hv.scRun else 0 } }
        (u.coldCell vs.toNat).chargeNow bat.toNat))) ∧
  (∀ (r : Byte) (s : State), s.pwr.step ≠ .cold →
    (s.on HARVEST.NTC_NTC_EN = false → exec (.ntcMeasure r) s = .next (s.set HARVEST.STAT_TEMP_HOLD 0)) ∧
    (s.on HARVEST.NTC_NTC_EN = true → s.on HARVEST.STAT_TEMP_HOLD = false → r.toNat < s.get HARVEST.NTC_T_HOT → r.toNat < 0xF8 →
      Yields (.ntcMeasure r) s fun t => t.get HARVEST.STAT_TEMP_HOLD = 1 ∧ t.get HARVEST.STAT_TEMP_EV = 1 ∧
        t.get HARVEST.STAT_CHARGE = (if s.get HARVEST.STAT_CHARGE = 3 then 3 else 0) ∧ t.get HARVEST.NTC_LAST = r.toNat ∧ t.get HARVEST.STAT_NTC_OPEN = 0 ∧
        OnlyRegs [HARVEST.NTC_LAST, HARVEST.STAT_NTC_OPEN, HARVEST.STAT_TEMP_HOLD, HARVEST.STAT_TEMP_EV, HARVEST.STAT_CHARGE] s t)) ∧
  (∀ s : State, s.cell ≠ 0 → s.pwr.step ≠ .cold →
    (s.on AONCTL.MODE_DOCKED = true → Yields .cellShortCircuit s fun t => t.cell = 0 ∧ t.get HARVEST.STAT_SC_EV = 1 ∧
      t.hv.scPrev = s.cell ∧ (2 ≤ s.hv.scRun → t.get HARVEST.STAT_SC_LATCH = 1) ∧ (s.hv.scRun < 2 → t.hv.scWait = true) ∧
      OnlyRegs [HARVEST.STAT_CELL, HARVEST.STAT_SC_EV, HARVEST.SC_CNT_COUNT, HARVEST.SC_CNT_OVF, HARVEST.STAT_SC_LATCH]
        { s with hv := t.hv } t) ∧
    (s.on AONCTL.MODE_DOCKED = false → Yields .cellShortCircuit s fun t => t.pwr.step = .cold ∧ t.cell = 0)) ∧
  (∀ s : State, s.hv.scWait = true → s.on AONCTL.MODE_DOCKED = true → s.on HARVEST.STAT_SC_LATCH = false →
    s.hv.scAt + 250000000 ≤ s.tick →
    exec .scRecovery s = .next { s.set HARVEST.STAT_CELL s.hv.scPrev with hv := { s.hv with scWait := false } }) ∧
  (∀ s : State, s.pwr.step = .cold → s.hv.stage ≠ .boost →
    exec .starterHandover s = .next { s.set HARVEST.STAT_BOOST 2 with hv := { s.hv with sampleAt := s.tick, stage := .boost } }) ∧
  (∀ s : State, s.hv.stage = .boost →
    exec .boostDropout s = .next { s.set HARVEST.STAT_BOOST 0 with hv := { s.hv with stage := .starter } } ∧
    Yields .coldStartResetRelease s fun t => t.pwr.step = .pupa ∧ t.pwr.coldHold = true ∧ t.get HARVEST.STAT_COLD_START = 1 ∧
      t.cell = 0 ∧ t.get AONCTL.STEP_STEP = 5 ∧ t.hv.stage = .released ∧ t.on AONCTL.MODE_DOCKED = false ∧
      t.get HARVEST.VOC_VOC_MV = s.get HARVEST.VOC_VOC_MV % 2 ^ 12 ∧ t.boot.released = false) ∧
  (∀ s : State, s.hv.stage = .released → s.pwr.coldHold = true →
    Yields .coldStartPorReassert s fun t => t.pwr.step = .cold ∧ t.hv.stage = .boost ∧ t.cell = 0) ∧
  (∀ s : State, s.cell = 1 →
    (s.pwr.coldHold = false → exec .cellConnect s = .next (s.set HARVEST.STAT_CELL 2)) ∧
    (s.pwr.coldHold = true → Yields .cellConnect s fun t => t.cell = 2 ∧ t.pwr.coldHold = false ∧ t.pwr.step = .run ∧
      t.boot.code = 1 ∧ t.hv.stage = .none)) ∧
  (∀ (docked : Bool) (s : State), s.flash = none → s.march.mode = 0 → s.dl.st ≠ 1 → s.sc.lcTarget = none →
    (∀ a, 0x08000000 ≤ a → a < 0x08210000 → (s.coldReset docked).byte a = s.byte a) ∧
    (s.coldReset docked).on AONCTL.MODE_DOCKED = docked ∧ (s.coldReset docked).pending = s.pending ∧
    ((s.coldReset docked).sc.fuse1, (s.coldReset docked).sc.fuse2, (s.coldReset docked).sc.fuse3) =
      (s.sc.fuse1, s.sc.fuse2, s.sc.fuse3) ∧ (s.coldReset docked).mt = 0)

/-- Cricket's release and interrupt, its ADC sequences and the mailbox. CRICKET_RUN starts Cricket once, at 0x3000_0000; an
asserted interrupt ends its WFI and shows it no longer sleeping; a START or the selected trigger starts a sequence of the
channels in CHMASK, is ignored with CMD_IGN while BUSY, and starts nothing with CHMASK = 0; the end of the sequence places
the codes in ascending channel order and sets CRK_IRQ_STAT.ADC; SEND of the sender sets FULL or OVR, ACK of the receiver
clears FULL and sets the sender's DONE, and neither acts for the other side. (11_cricket_touch.md, R224, R226, R227, R228.) -/
def Obligations.CricketAdcAndMailbox : Prop :=
  (∀ s : State, s.accessible TOUCH.CRK_CTRL = true →
    (s.on TOUCH.CRK_CTRL_RUN = false → exec .cricketRun s = .next { s.set TOUCH.CRK_CTRL_RUN 1 with
      crk := { s.crk with started := true, startPc := 0x30000000 }, bus := .ok 0 }) ∧
    (s.on TOUCH.CRK_CTRL_RUN = true → exec .cricketRun s = .next { s with bus := .ok 0 })) ∧
  (∀ s : State, s.domOn .crk = true → s.on TOUCH.CRK_CTRL_RUN = true →
    (s.crkIrq = true → Yields .cricketWakeIrq s fun t => t.get TOUCH.CRK_CTRL_SLEEPING = 0 ∧
      OnlyRegs [TOUCH.CRK_CTRL_SLEEPING, TOUCH.CRK_IRQ_STAT_EVT, TOUCH.CRK_IRQ_STAT_SVC, TOUCH.CRK_IRQ_STAT_HARVEST,
        TOUCH.CRK_IRQ_STAT_RTC, TOUCH.CRK_IRQ_STAT_TOUCH] s t) ∧
    (s.crkIrq = false → exec .cricketWakeIrq s = .next s)) ∧
  (∀ s : State,
    (s.on TOUCH.ADC_CTRL_BUSY = true → s.adcStart = s.set TOUCH.ADC_CTRL_CMD_IGN 1) ∧
    (s.on TOUCH.ADC_CTRL_BUSY = false → s.get TOUCH.ADC_CTRL_CHMASK = 0 → s.adcStart = s) ∧
    (s.on TOUCH.ADC_CTRL_BUSY = false → s.get TOUCH.ADC_CTRL_CHMASK ≠ 0 → s.adcStart =
      { s.set TOUCH.ADC_CTRL_BUSY 1 with crk := { s.crk with adcMask := s.get TOUCH.ADC_CTRL_CHMASK } }) ∧
    (s.accessible TOUCH.ADC_CTRL = true → exec (.adcStart .start) s = .next { s.adcStart with bus := .ok 0 }) ∧
    (s.domOn .crk = true → s.get TOUCH.ADC_CTRL_TRIG = 1 → exec (.adcStart .second) s = .next s.adcStart) ∧
    (s.domOn .crk = true → s.get TOUCH.ADC_CTRL_TRIG = 2 → exec (.adcStart .scan) s = .next s.adcStart)) ∧
  (∀ (codes : List (BitVec 10)) (s : State), s.on TOUCH.ADC_CTRL_BUSY = true →
    codes.length = ((List.range 6).filter fun k => getBit s.crk.adcMask k).length →
    Yields (.adcSequenceDone codes) s fun t => t.get TOUCH.ADC_CTRL_BUSY = 0 ∧ t.get TOUCH.CRK_IRQ_STAT_ADC = 1 ∧
      (∀ k : Fin 6, t.get (TOUCH.ADC_RES_CODE k) = if getBit s.crk.adcMask k then
        (codes.getD ((List.range k).filter fun j => getBit s.crk.adcMask j).length 0).toNat else s.get (TOUCH.ADC_RES_CODE k)) ∧
      OnlyRegs (TOUCH.ADC_CTRL_BUSY :: TOUCH.CRK_IRQ_STAT_ADC :: (List.range 6).map TOUCH.ADC_RES_CODE) s t) ∧
  (∀ s : State, s.accessible TOUCH.MB_CTRL = true →
    (s.on TOUCH.MB_CTRL_A2C_FULL = false → exec (.mbSend .app true) s =
      .next { (s.set TOUCH.MB_CTRL_A2C_FULL 1).set TOUCH.CRK_IRQ_STAT_MB_RX 1 with bus := .ok 0 } ∧
      exec (.mbAck .cricket true) s = .next { s with bus := .ok 0 }) ∧
    (s.on TOUCH.MB_CTRL_A2C_FULL = true → exec (.mbSend .app true) s = .next { s.set TOUCH.MB_CTRL_A2C_OVR 1 with bus := .ok 0 } ∧
      exec (.mbAck .cricket true) s =
        .next { (s.set TOUCH.MB_CTRL_A2C_FULL 0).set TOUCH.MB_CTRL_A2C_DONE 1 with bus := .ok 0 }) ∧
    (s.on TOUCH.MB_CTRL_C2A_FULL = false → exec (.mbSend .cricket false) s =
      .next { s.set TOUCH.MB_CTRL_C2A_FULL 1 with bus := .ok 0 } ∧ exec (.mbAck .app false) s = .next { s with bus := .ok 0 }) ∧
    (s.on TOUCH.MB_CTRL_C2A_FULL = true → exec (.mbSend .cricket false) s = .next { s.set TOUCH.MB_CTRL_C2A_OVR 1 with bus := .ok 0 } ∧
      exec (.mbAck .app false) s =
        .next { (s.set TOUCH.MB_CTRL_C2A_FULL 0).set TOUCH.CRK_IRQ_STAT_MB_DONE 1 with bus := .ok 0 }) ∧
    exec (.mbSend .cricket true) s = .next { s with bus := .ok 0 } ∧ exec (.mbSend .app false) s = .next { s with bus := .ok 0 } ∧
    exec (.mbAck .app true) s = .next { s with bus := .ok 0 } ∧ exec (.mbAck .cricket false) s = .next { s with bus := .ok 0 })

/-- Touch scans, and the commands that enable, disable and recalibrate keys. A due scan starts with the settings of the
registers, and keys that the new settings enable begin acquisition; the decode of the eight chips of a column recovers the
eight keys' values; outside a scan the rows are low and the columns at VSSA, in a scan each row with an enabled key is, in
the second half of each pulse, at the level of its chip's code, the others low, and with PD_CRK off all float; a scan ends
once the pulses of its 8 chips are over; at its end an acquiring key sums 16 scans into its baseline, a recalibrated key
takes its last value as the baseline, and every other enabled key debounces, snaps, tracks, releases or is released by
HOLD_LIM, a disabled key stays as it was, the next start lies ahead and STAGE shows the stage in force; the stage is 0 while
a key is touched, acquires or counts towards a touch, and else follows from the idle time by the three idle limits. EN
written 1 starts scanning and every enabled key acquires; EN written 0 aborts the scan and clears every key without a
report; RECAL_ALL makes every enabled key acquire; RECAL waits for the end of the next scan, or sets CMD_IGN for a key that
is disabled or acquires; a key mask written outside a scan takes effect at once, and during a scan from the next.
(11_cricket_touch.md, R230, R231, R232, R233, R234, R235, R236, R238.) -/
def Obligations.TouchScansAndCommands : Prop :=
  (∀ s : State, s.domOn .crk = true → s.on TOUCH.CTRL_EN = true → s.on TOUCH.STAT_SCANNING = false → s.touch.nextStart ≤ s.slow →
    Yields .touchScanStart s fun t => t.get TOUCH.STAT_SCANNING = 1 ∧ t.touch.lastStart = s.slow ∧ t.touch.acqNext = 0 ∧
      t.touch.cfg = s.touchCfg ∧ t.touch.recal = s.touch.recalNext ∧ t.touch.recalNext = 0 ∧
      (∀ k : Fin 64, getBit s.keyMask k = true → getBit s.touch.cfg.mask k = false →
        t.touch.keys[k].acq = some (0, 0) ∧ t.touched k = false) ∧
      (∀ k : Fin 64, getBit s.keyMask k = false → getBit s.touch.cfg.mask k = true → t.touch.keys[k] = {} ∧ t.touched k = false) ∧
      (∀ k : Fin 64, getBit s.keyMask k = getBit s.touch.cfg.mask k → getBit s.touch.acqNext k = false →
        t.touch.keys[k] = s.touch.keys[k] ∧ t.touched k = s.touched k)) ∧
  (∀ (m : Fin 8 → Nat) (q : List Int) (c : Fin 8), (∀ r, m r ≤ 65535) →
    (∀ k : Fin 8, q.getD (8 * c + k) 0 =
      (List.finRange 8).foldl (fun a (r : Fin 8) => if hadamardNeg r k then a - (m r : Int) else a + (m r : Int)) 0) →
    ∀ r : Fin 8, decodeKey q r c = m r) ∧
  (∀ (q : List Int) (s : State) (k : Fin 64), s.on TOUCH.STAT_SCANNING = true → s.scanDone = true →
    getBit s.touch.cfg.mask k = true → let m := decodeKey q (k / 8) (k % 8)
    let x := s.touch.keys[k]
    let c := s.touch.cfg
    let d : Int := (x.base / 256 : Nat) - (m : Nat)
    let lim := s.get TOUCH.TRACK_HOLD_LIM
    Yields (.touchScanEnd q) s fun t => t.get TOUCH.STAT_SCANNING = 0 ∧ t.touch.keys[k].m = m ∧
      (∀ n sum, x.acq = some (n, sum) → t.touched k = s.touched k ∧
        (n + 1 = 16 → t.touch.keys[k].base = (sum + m) * 16 ∧ t.touch.keys[k].acq = none) ∧
        (n + 1 ≠ 16 → t.touch.keys[k].base = x.base ∧ t.touch.keys[k].acq = some (n + 1, sum + m))) ∧
      (x.acq = none → getBit s.touch.acqNext k = false →
        (getBit s.touch.recal k = true → t.touched k = false ∧ t.touch.keys[k].base = m * 256 ∧ t.touch.keys[k].on = 0 ∧
          t.touch.keys[k].off = 0) ∧
        (getBit s.touch.recal k = false → c.deb ≠ 0 →
          (s.touched k = false → (c.thOn : Int) ≤ d →
            (x.on + 1 = c.deb → t.touched k = true ∧ t.touch.keys[k].on = 0 ∧ t.touch.keys[k].since = s.slow ∧
              t.touch.keys[k].base = x.base ∧ t.get TOUCH.STAT_KEY_EV = 1) ∧
            (x.on + 1 ≠ c.deb → t.touched k = false ∧ t.touch.keys[k].on = x.on + 1)) ∧
          (s.touched k = false → d < (c.thOn : Int) → t.touched k = false ∧ t.touch.keys[k].on = 0 ∧
            (d ≤ -(s.get TOUCH.TRACK_TH_NEG : Int) → t.touch.keys[k].base = m * 256) ∧
            (-(s.get TOUCH.TRACK_TH_NEG : Int) < d → absI d < (c.thOff : Int) → t.touch.keys[k].base =
              ((x.base : Int) + asr ((m * 256 : Nat) - (x.base : Int)) (s.get TOUCH.TRACK_SHIFT)).toNat) ∧
            (-(s.get TOUCH.TRACK_TH_NEG : Int) < d → (c.thOff : Int) ≤ absI d → t.touch.keys[k].base = x.base)) ∧
          (s.touched k = true → d < (c.thOff : Int) → x.off + 1 = c.deb → t.touched k = false ∧ t.touch.keys[k].off = 0 ∧
            t.touch.keys[k].base = x.base ∧ t.get TOUCH.STAT_KEY_EV = 1) ∧
          (s.touched k = true → (c.thOff : Int) ≤ d →
            (lim ≠ 0 → lim * 32768 ≤ s.slow - x.since → t.touched k = false ∧ t.touch.keys[k].base = m * 256 ∧
              t.get TOUCH.STAT_KEY_EV = 1 ∧ t.get TOUCH.STAT_RECAL_EV = 1) ∧
            (lim = 0 ∨ s.slow - x.since < lim * 32768 → t.touched k = true ∧ t.touch.keys[k].base = x.base ∧
              t.touch.keys[k].off = 0))))) ∧
  (∀ (q : List Int) (s : State) (k : Fin 64), s.on TOUCH.STAT_SCANNING = true → s.scanDone = true →
    getBit s.touch.cfg.mask k = false →
    Yields (.touchScanEnd q) s fun t => t.touch.keys[k] = s.touch.keys[k] ∧ t.touched k = s.touched k) ∧
  (∀ (q : List Int) (s : State), s.on TOUCH.STAT_SCANNING = true → s.scanDone = true → Yields (.touchScanEnd q) s fun t =>
    t.get TOUCH.STAT_STAGE = t.touch.endStage % 4 ∧ s.slow < t.touch.nextStart ∧ t.touch.recal = 0) ∧
  (∀ (s : State) (r c : Fin 8) (ns : Nat), let awake := s.pinMode ∈ [.run, .rest, .torpor, .diapause]
    (awake → s.domOn .crk = true → (s.on TOUCH.CTRL_EN = false ∨ s.on TOUCH.STAT_SCANNING = false) → s.ballAt (.tchD r) ns = .level false) ∧
    (awake → s.domOn .crk = true → s.on TOUCH.STAT_SCANNING = false → s.ballAt (.tchS c) ns = .vssa) ∧
    (awake → s.domOn .crk = true → s.on TOUCH.CTRL_EN = true → s.on TOUCH.STAT_SCANNING = true →
      s.ballAt (.tchD r) ns = .level (s.touch.cfg.rowAt r (4 * (s.tick - s.touch.scanTick) + ns))) ∧
    (s.pwr.step = .pupa ∨ s.pwr.step = .cold → s.domOn .crk = false ∧ s.ballAt (.tchD r) ns = .floating ∧
      s.ballAt (.tchS c) ns = .floating)) ∧
  (∀ (c : TouchCfg) (r j u : Nat), j < 8 * c.burst → 125 * c.pulse ≤ u → u < 250 * c.pulse →
    (c.rowUsed r = true → c.rowAt r (j * (250 * c.pulse) + u) = !hadamardNeg r (j / c.burst)) ∧
    (c.rowUsed r = false → c.rowAt r (j * (250 * c.pulse) + u) = false)) ∧
  (∀ s : State, s.scanDone = true ↔ 16 * s.touch.cfg.burst * (125 * s.touch.cfg.pulse) ≤ 4 * (s.tick - s.touch.scanTick)) ∧
  (∀ s : State, (s.touchBusy = true → s.stage = 0) ∧ (s.touchBusy = false → s.touch.idleFrom < s.slow →
    let idle := s.slow - s.touch.idleFrom
    let c := s.touch.cfg
    (c.idle1 * 32768 ≤ idle → idle < c.idle2 * 32768 → s.stage = 1) ∧
    (c.idle1 * 32768 ≤ idle → c.idle2 * 32768 ≤ idle → idle < c.idle3 * 32768 → s.stage = 2) ∧
    (c.idle1 * 32768 ≤ idle → c.idle2 * 32768 ≤ idle → c.idle3 * 32768 ≤ idle → s.stage = 3))) ∧
  (∀ (v : Word) (s : State), s.accessible TOUCH.CTRL = true →
    (Yields (.touchEnable v) s fun t => t.get TOUCH.CTRL_EN = 1 ∧ t.get TOUCH.CTRL_KEY = bits v.toNat 5 0) ∧
    (s.on TOUCH.CTRL_EN = false → getBit v.toNat 30 = false → getBit v.toNat 29 = false → Yields (.touchEnable v) s fun t =>
      t.touch.cfg = s.touchCfg ∧ t.touch.nextStart = s.slow + 1 ∧ t.touch.idleFrom = s.slow ∧ t.get TOUCH.STAT_STAGE = 0 ∧
      (∀ k : Fin 64, getBit s.keyMask k = true → getBit t.touch.acqNext k = true ∧ t.touched k = false ∧ t.get TOUCH.STAT_ACQ = 1)) ∧
    (s.on TOUCH.CTRL_EN = true → getBit v.toNat 30 = false → getBit v.toNat 29 = false →
      exec (.touchEnable v) s = .next { s.set TOUCH.CTRL_KEY (bits v.toNat 5 0) with bus := .ok 0 }) ∧
    (Yields (.touchDisable v) s fun t => t.get TOUCH.CTRL_EN = 0 ∧ t.get TOUCH.STAT_SCANNING = 0 ∧ t.get TOUCH.STAT_ACQ = 0 ∧
      (∀ k : Fin 64, t.touched k = false ∧ t.touch.keys[k] = {}) ∧ t.touch.acqNext = 0 ∧ t.touch.recal = 0 ∧ t.touch.recalNext = 0 ∧
      OnlyRegs [TOUCH.CTRL_EN, TOUCH.CTRL_KEY, TOUCH.STAT_SCANNING, TOUCH.STAT_ACQ, TOUCH.KEYS_LO_KEYS, TOUCH.KEYS_HI_KEYS,
        TOUCH.STAT_CMD_IGN] { s with touch := t.touch } t)) ∧
  (∀ (v : Word) (s : State), s.accessible TOUCH.CTRL = true → s.on TOUCH.CTRL_EN = true → getBit v.toNat 31 = true →
    (getBit v.toNat 29 = false → Yields (.recalAll v) s fun t => t.get TOUCH.CTRL_EN = 1 ∧
      (∀ k : Fin 64, getBit s.keyMask k = true → getBit t.touch.acqNext k = true ∧ t.touched k = false ∧ t.touch.keys[k].on = 0) ∧
      (∀ k : Fin 64, getBit s.keyMask k = false → t.touch.keys[k] = s.touch.keys[k] ∧ t.touched k = s.touched k)) ∧
    (getBit v.toNat 30 = false → ∀ k : Fin 64, k.1 = bits v.toNat 5 0 →
      (getBit s.keyMask k = true → getBit s.touch.cfg.mask k = true → s.acquiring k = false → exec (.recal v) s =
        .next { s.set TOUCH.CTRL_KEY k with touch := { s.touch with recalNext := setBit s.touch.recalNext k true }, bus := .ok 0 }) ∧
      (getBit s.keyMask k = false ∨ s.acquiring k = true → exec (.recal v) s =
        .next { (s.set TOUCH.CTRL_KEY k).set TOUCH.STAT_CMD_IGN 1 with bus := .ok 0 }))) ∧
  (∀ (v : Word) (s : State), s.accessible TOUCH.KEYMASK_HI = true →
    (s.on TOUCH.CTRL_EN = false ∨ s.on TOUCH.STAT_SCANNING = true →
      exec (.keymaskWrite true v) s = .next { s.set TOUCH.KEYMASK_HI_MASK v.toNat with bus := .ok 0 } ∧
      exec (.keymaskWrite false v) s = .next { s.set TOUCH.KEYMASK_LO_MASK v.toNat with bus := .ok 0 }) ∧
    (s.on TOUCH.CTRL_EN = true → s.on TOUCH.STAT_SCANNING = false → ∀ hi : Bool, Yields (.keymaskWrite hi v) s fun t =>
      t.get (if hi then TOUCH.KEYMASK_HI_MASK else TOUCH.KEYMASK_LO_MASK) = v.toNat ∧ t.touch.cfg.mask = t.keyMask ∧
      (∀ k : Fin 64, getBit t.keyMask k = true → getBit s.touch.cfg.mask k = false →
        getBit t.touch.acqNext k = true ∧ t.touched k = false) ∧
      (∀ k : Fin 64, getBit t.keyMask k = false → getBit s.touch.cfg.mask k = true →
        t.touch.keys[k] = {} ∧ t.touched k = false ∧ getBit t.touch.acqNext k = false)))

/-- The calendar counts seconds; what a second boundary of the RTC does. For every date and time of the calendar, its calendar
seconds give it back; the second after it exists, is one calendar second later, and WDAY moves by one exactly at midnight;
after 2199-12-31 23:59:59 comes 2000-01-01 00:00:00, a Saturday. Before 32,768 counts nothing happens; then SUBSEC wraps,
SEC_EV is set, the boundary's MT is kept and the time goes on by a second; past 2199 it rolls over, VALID falls and RANGE_EV
is set; a pending set that landed before the last period is applied if its fields pass the checks (VALID, SET_DONE, SUBSEC
and SHIFT_REM 0) and else refused with SET_ERR; a later one stays pending; each alarm is evaluated against the time that
starts, with its register as it stood before a write in the boundary's period. (12_rtc.md, R240, R241, R244, R245, R250.) -/
def Obligations.CalendarAndRtcSeconds : Prop :=
  (∀ c : Cal, c.ok = true → Cal.ofSecs c.secs = c ∧ c.secs ≤ lastSecond) ∧
  (∀ x : Nat, x ≤ lastSecond → (Cal.ofSecs x).ok = true ∧ (Cal.ofSecs x).secs = x) ∧
  (∀ c : Cal, c.ok = true → c ≠ ⟨2199, 12, 31, 23, 59, 59⟩ → c.next.ok = true ∧ c.next.secs = c.secs + 1 ∧
    c.next.wday = if c.hour = 23 ∧ c.min = 59 ∧ c.sec = 59 then (c.wday + 1) % 7 else c.wday) ∧
  Cal.next ⟨2199, 12, 31, 23, 59, 59⟩ = ⟨2000, 1, 1, 0, 0, 0⟩ ∧ Cal.wday ⟨2000, 1, 1, 0, 0, 0⟩ = 5 ∧
  (∀ s : State, s.rtc.sub < 32768 → exec .rtcSecondBoundary s = .next s) ∧
  (∀ (a : Fin 2) (v : Nat) (s : State), s.rtc.almAt ≠ s.slow →
    let t := (s.noteAlarm (RTC.ALM_TIME a)).writeFields (fun _ => true) (RTC.ALM_TIME a) v false
    t.alarmView.readReg (RTC.ALM_TIME a) = s.readReg (RTC.ALM_TIME a) ∧
    ({ t with slow := t.slow + 1 } : State).alarmView = { t with slow := t.slow + 1 }) ∧
  (∀ s : State, 32768 ≤ s.rtc.sub →
    (Yields .rtcSecondBoundary s fun t => t.get RTC.STAT_SEC_EV = 1 ∧ t.rtc.secMt = some s.rtc.edgeMt ∧ t.rtc.secCal = t.calSecs ∧
      t.rtc.secs = (s.rtc.secs + 1) % 60 ∧ (s.rtc.secs = 59 → t.rtc.moistDue = true) ∧ SameMemory s t ∧
      (s.on RTC.CTRL_ALM0_EN = true → t.alarmView.alarmMatch 0 = true → t.get RTC.STAT_ALM0 = 1) ∧
      (s.on RTC.CTRL_ALM0_EN = false ∨ t.alarmView.alarmMatch 0 = false → t.get RTC.STAT_ALM0 = s.get RTC.STAT_ALM0) ∧
      (s.on RTC.CTRL_ALM1_EN = true → t.alarmView.alarmMatch 1 = true → t.get RTC.STAT_ALM1 = 1) ∧
      (s.on RTC.CTRL_ALM1_EN = false ∨ t.alarmView.alarmMatch 1 = false → t.get RTC.STAT_ALM1 = s.get RTC.STAT_ALM1)) ∧
    (s.on RTC.STAT_SET_PEND = false ∨ s.slow ≤ s.rtc.setAt + 1 → s.cal.ok = true → Yields .rtcSecondBoundary s fun t =>
      t.cal = s.cal.next ∧ t.rtc.sub = s.rtc.sub - 32768 ∧ t.get RTC.STAT_SET_PEND = s.get RTC.STAT_SET_PEND ∧
      t.get RTC.RTC_DATE_WDAY = s.cal.next.wday ∧
      (s.cal = ⟨2199, 12, 31, 23, 59, 59⟩ → t.get RTC.STAT_VALID = 0 ∧ t.get RTC.STAT_RANGE_EV = 1) ∧
      (s.cal ≠ ⟨2199, 12, 31, 23, 59, 59⟩ → t.get RTC.STAT_VALID = s.get RTC.STAT_VALID)) ∧
    (s.on RTC.STAT_SET_PEND = true → s.rtc.setAt + 1 < s.slow →
      (s.stagedCal.ok = true → Yields .rtcSecondBoundary s fun t => t.cal = s.stagedCal ∧ t.rtc.sub = 0 ∧
        t.get RTC.STAT_VALID = 1 ∧ t.get RTC.STAT_SET_DONE = 1 ∧ t.get RTC.STAT_SET_PEND = 0 ∧ t.get RTC.SHIFT_REM_REM = 0 ∧
        t.get RTC.STAT_SHIFT_BUSY = 0 ∧ t.get RTC.RTC_DATE_WDAY = s.stagedCal.wday) ∧
      (s.stagedCal.ok = false → s.cal.ok = true → Yields .rtcSecondBoundary s fun t => t.cal = s.cal.next ∧
        t.get RTC.STAT_SET_ERR = 1 ∧ t.get RTC.STAT_SET_PEND = 0 ∧ t.rtc.sub = s.rtc.sub - 32768)))

/-- The RTC's shadow, set, shift, trim and discipline; the moisture clocks. A read without a frozen shadow captures and freezes,
one with it returns its part, a read of the year releases it, and it expires after 32,768 periods; SET makes a set pending
and SET_CANCEL withdraws it, but at its own boundary; SHIFT starts a shift, whose steps, one every 128 periods, add or
withhold one count and move SHIFT_REM towards 0; a second boundary under discipline opens a window, and the sixteenth after
it keeps its duration and opens the next; TRIM is written only while discipline is inactive; a window's end computes TRIM by
R247's formula within its range; the accumulator's carry adds or withholds one count. At a due tick the band is chosen from
the thermistor ratio and every enabled clock adds the band's weight, stopping at 0x0FFF_FFFF with SAT; a COUNT that first
reaches LIMIT × 16 sets the clock's EXP bit and MC_EXP_EV; a write of COUNT sets it and clears SAT unless it writes the
maximum; an increment of the same slow period is added to the written value. (12_rtc.md, R243, R244, R246, R247, R248, R251,
R252.) -/
def Obligations.RtcCommandsAndMoistureClocks : Prop :=
  (∀ (m : RtcMaster) (r : Fin 4) (s : State),
    let x := (s.shadow m).getD s.capture
    Yields (.rtcShadowRead m r) s fun t => t.bus = .ok [x.subsec, x.time, x.date, x.year][r] ∧
      t.shadow m = (if r = 3 then none else some x) ∧ (∀ m', m' ≠ m → t.shadow m' = s.shadow m') ∧ t.regs = s.regs ∧
      t = { s with rtc := t.rtc, bus := t.bus }) ∧
  (∀ (m : RtcMaster) (x : Shadow) (s : State), s.shadow m = some x →
    (x.taken + 32768 ≤ s.slow → exec (.rtcShadowExpiry m) s = .next ((s.setShadow m none).set RTC.STAT_SHADOW_EXP 1)) ∧
    (s.slow < x.taken + 32768 → exec (.rtcShadowExpiry m) s = .next s)) ∧
  (∀ s : State, s.accessible RTC.CTRL = true →
    exec .rtcSet s = .next { s.set RTC.STAT_SET_PEND 1 with rtc := { s.rtc with setAt := s.slow }, bus := .ok 0 } ∧
    (s.on RTC.STAT_SET_PEND = true → s.rtc.sub < 32768 ∨ s.slow ≤ s.rtc.setAt + 1 →
      exec .rtcSetCancel s = .next { s.set RTC.STAT_SET_PEND 0 with bus := .ok 0 }) ∧
    (s.on RTC.STAT_SET_PEND = false ∨ (32768 ≤ s.rtc.sub ∧ s.rtc.setAt + 1 < s.slow) →
      exec .rtcSetCancel s = .next { s.set RTC.STAT_CMD_IGN 1 with bus := .ok 0 })) ∧
  (∀ (v : Word) (s : State), s.accessible RTC.SHIFT = true → let x := sgn 16 v.toNat
    (s.get RTC.SHIFT_REM_REM ≠ 0 → exec (.rtcShift v) s = .next { s.set RTC.STAT_CMD_IGN 1 with bus := .ok 0 }) ∧
    (s.get RTC.SHIFT_REM_REM = 0 → x ≠ 0 → -16384 ≤ x → x ≤ 16384 → Yields (.rtcShift v) s fun t =>
      t.getI RTC.SHIFT_REM_REM = x ∧ t.get RTC.STAT_SHIFT_BUSY = 1 ∧ t.rtc.winMt = none ∧
      OnlyRegs [RTC.SHIFT_REM_REM, RTC.STAT_SHIFT_BUSY] { s with rtc := t.rtc } t) ∧
    (s.get RTC.SHIFT_REM_REM = 0 → x = 0 ∨ x < -16384 ∨ 16384 < x → exec (.rtcShift v) s = .next { s with bus := .ok 0 })) ∧
  (∀ s : State, s.slow % 128 = 0 → let x := s.getI RTC.SHIFT_REM_REM
    (x = 0 ∨ s.rtc.shiftAt = some s.slow → exec .shiftCountStep s = .next s) ∧
    (0 < x → s.rtc.shiftAt ≠ some s.slow → Yields .shiftCountStep s fun t => t.getI RTC.SHIFT_REM_REM = x - 1 ∧ t.rtc.sub = s.rtc.sub + 1 ∧
      t.rtc.skip = s.rtc.skip ∧ t.rtc.winMt = none ∧ t.on RTC.STAT_SHIFT_BUSY = decide (x ≠ 1) ∧
      OnlyRegs [RTC.SHIFT_REM_REM, RTC.STAT_SHIFT_BUSY] { s with rtc := t.rtc } t) ∧
    (x < 0 → s.rtc.shiftAt ≠ some s.slow → Yields .shiftCountStep s fun t => t.getI RTC.SHIFT_REM_REM = x + 1 ∧ t.rtc.skip = s.rtc.skip + 1 ∧
      t.rtc.sub = s.rtc.sub ∧ t.rtc.winMt = none ∧ t.on RTC.STAT_SHIFT_BUSY = decide (x ≠ -1) ∧
      OnlyRegs [RTC.SHIFT_REM_REM, RTC.STAT_SHIFT_BUSY] { s with rtc := t.rtc } t)) ∧
  (∀ s : State, let b := s.rtc.edgeMt
    (s.showDisc.discNow = false → s.discBoundary false = s.showDisc) ∧
    (s.showDisc.discNow = true →
      (s.rtc.winMt = none → s.discBoundary false = { s.showDisc with rtc := { s.showDisc.rtc with winMt := some b, winN := 0 } }) ∧
      ∀ a, s.showDisc.rtc.winMt = some a →
        s.discBoundary true = { s.showDisc with rtc := { s.showDisc.rtc with winMt := some b, winN := 0 } } ∧
        (s.showDisc.rtc.winN < 15 →
          s.discBoundary false = { s.showDisc with rtc := { s.showDisc.rtc with winN := s.showDisc.rtc.winN + 1 } }) ∧
        (15 ≤ s.showDisc.rtc.winN → s.discBoundary false = { s.showDisc with
          rtc := { s.showDisc.rtc with winMt := some b, winN := 0, winDelta := some ((b : Int) - (a : Int)) } }))) ∧
  (∀ (d : Int) (s : State), s.rtc.winDelta = some d → Yields .disciplineWindowEnd s fun t => t.rtc.winDelta = none ∧
    t.getI RTC.TRIM_TRIM = max (-(2 ^ 22 - 1)) (min (2 ^ 22 - 1)
      (s.getI RTC.TRIM_TRIM - (16000000000 - d) * 2 ^ 32 / 16000000000)) ∧
    OnlyRegs [RTC.TRIM_TRIM] { s with rtc := t.rtc } t) ∧
  (∀ (v : Word) (s : State), s.accessible RTC.TRIM = true →
    (s.discNow = true → exec (.trimWrite v) s = .next { s.set RTC.STAT_CMD_IGN 1 with bus := .ok 0 }) ∧
    (s.discNow = false → Yields (.trimWrite v) s fun t =>
      t.getI RTC.TRIM_TRIM = max (-0x3FFFFF) (sgn 23 v.toNat) ∧ OnlyRegs [RTC.TRIM_TRIM] s t)) ∧
  (∀ s : State,
    (2 ^ 32 ≤ s.rtc.acc → exec .trimAccumulatorCarry s =
      .next { s with rtc := { s.rtc with acc := s.rtc.acc - 2 ^ 32, sub := s.rtc.sub + 1 } }) ∧
    (s.rtc.acc ≤ -(2 ^ 32) → exec .trimAccumulatorCarry s =
      .next { s with rtc := { s.rtc with acc := s.rtc.acc + 2 ^ 32, skip := s.rtc.skip + 1 } })) ∧
  (∀ (s : State), s.rtc.moistDue = true → Yields .moistureTick s fun t => t.rtc.moistDue = false ∧
    t.get RTC.MC_STAT_BAND = s.band % 4 ∧
    (∀ n : Fin 10, s.on (RTC.MC_CTRL_EN n) = false →
      t.get (RTC.MC_CNT_COUNT n) = s.get (RTC.MC_CNT_COUNT n) ∧ t.bit RTC.MC_STAT_EXP n = s.bit RTC.MC_STAT_EXP n) ∧
    (∀ n : Fin 10, s.on (RTC.MC_CTRL_EN n) = true →
      let x := min 0x0FFFFFFF (s.get (RTC.MC_CNT_COUNT n) + s.weight s.band)
      let lim := s.get (RTC.MC_CTRL_LIMIT n) * 16
      t.get (RTC.MC_CNT_COUNT n) = x ∧ (x = 0x0FFFFFFF → t.get (RTC.MC_CNT_SAT n) = 1) ∧
      (x ≠ 0x0FFFFFFF → t.get (RTC.MC_CNT_SAT n) = s.get (RTC.MC_CNT_SAT n)) ∧
      (lim ≠ 0 → s.get (RTC.MC_CNT_COUNT n) < lim → lim ≤ x → t.bit RTC.MC_STAT_EXP n = true ∧ t.get RTC.STAT_MC_EXP_EV = 1))) ∧
  (∀ s : State, let r := s.get HARVEST.NTC_LAST
    (s.on HARVEST.NTC_NTC_EN = false ∨ s.on HARVEST.STAT_NTC_OPEN = true ∨ r ≤ 8 → s.band = s.get RTC.MC_CFG_DEF_BAND) ∧
    (s.on HARVEST.NTC_NTC_EN = true → s.on HARVEST.STAT_NTC_OPEN = false → 8 < r →
      (s.get RTC.MC_CFG_B1 < r → s.band = 0) ∧
      (r ≤ s.get RTC.MC_CFG_B1 → s.get RTC.MC_CFG_B2 < r → s.band = 1) ∧
      (r ≤ s.get RTC.MC_CFG_B1 → r ≤ s.get RTC.MC_CFG_B2 → s.get RTC.MC_CFG_B3 < r → s.band = 2) ∧
      (r ≤ s.get RTC.MC_CFG_B1 → r ≤ s.get RTC.MC_CFG_B2 → r ≤ s.get RTC.MC_CFG_B3 → s.band = 3))) ∧
  (∀ (n : Fin 10) (v : Word) (s : State), s.accessible (RTC.MC_CNT n) = true → s.mcIncNow n ≠ 0 →
    Yields (.mcCountWrite n v) s fun t => t.get (RTC.MC_CNT_COUNT n) = min 0x0FFFFFFF (bits v.toNat 27 0 + s.mcIncNow n) ∧
      (0x0FFFFFFF ≤ bits v.toNat 27 0 + s.mcIncNow n → t.get (RTC.MC_CNT_SAT n) = 1)) ∧
  (∀ (n : Fin 10) (v : Word) (s : State), s.accessible (RTC.MC_CNT n) = true → s.mcIncNow n = 0 → let x := bits v.toNat 27 0
    let lim := s.get (RTC.MC_CTRL_LIMIT n) * 16
    Yields (.mcCountWrite n v) s fun t => t.get (RTC.MC_CNT_COUNT n) = x ∧
      t.get (RTC.MC_CNT_SAT n) = (if x = 0x0FFFFFFF then s.get (RTC.MC_CNT_SAT n) else 0) ∧
      (lim ≠ 0 → s.get (RTC.MC_CNT_COUNT n) < lim → lim ≤ x → t.bit RTC.MC_STAT_EXP n = true ∧ t.get RTC.STAT_MC_EXP_EV = 1) ∧
      OnlyRegs [RTC.MC_CNT_COUNT n, RTC.MC_CNT_SAT n, RTC.MC_STAT_EXP, RTC.STAT_MC_EXP_EV] s t)

/-- The march tests of the SRAM and the wipe of the vault. GO takes MODE and TARGET and starts, or sets REFUSED while BUSY or
where R263's conditions fail; an INIT test, and a DESTRUCTIVE one that no faulty word fails, leaves zeros in the target and
nothing else changed, a PRESERVE test without a faulty word leaves memory as it was; a DESTRUCTIVE test records the failure
that comes first of those that the faulty words show, with its element, address, data read and expected, and check bits
where the target has them, and changes no byte outside the target; PRESERVE records a signature's mismatch with its element
and the address 0xFFFFFFFF, else the first word whose check bits fail; a transfer of another master that the test held goes
on when it ends; an abort ends a test at once outside PRESERVE, and there waits for its end. Only the application core in
machine mode starts a wipe by the register; a start records its cause and WIPING; the end leaves the secure part all zero,
no measurement cached, and counts the wipe, with nothing else in memory changed; after a tamper with TMP_CFG.RESET a full
reset with the tamper's code follows, once the record store's command in progress has ended. (13_memories.md, R260, R261,
R262, R263, R264, R259, R293.) -/
def Obligations.MarchTestsAndVaultWipes : Prop :=
  (∀ (v : Word) (s : State), s.accessible MEMCTL.MT_CTRL = true → bits v.toNat 5 4 ≤ 2 → bits v.toNat 3 0 ≤ 10 →
    (s.on MEMCTL.MT_STAT_BUSY = true ∨ s.marchOk (bits v.toNat 3 0) (bits v.toNat 5 4) = false → Yields (.marchGo v) s fun t =>
      t.get MEMCTL.MT_STAT_REFUSED = 1 ∧ t.get MEMCTL.MT_STAT_BUSY = s.get MEMCTL.MT_STAT_BUSY ∧ t.march = s.march ∧
      OnlyRegs [MEMCTL.MT_CTRL_MODE, MEMCTL.MT_CTRL_TARGET, MEMCTL.MT_STAT_REFUSED] s t) ∧
    (s.on MEMCTL.MT_STAT_BUSY = false → s.marchOk (bits v.toNat 3 0) (bits v.toNat 5 4) = true → Yields (.marchGo v) s fun t =>
      t.get MEMCTL.MT_CTRL_MODE = bits v.toNat 5 4 ∧ t.get MEMCTL.MT_CTRL_TARGET = bits v.toNat 3 0 ∧
      t.get MEMCTL.MT_STAT_BUSY = 1 ∧ t.march = { target := bits v.toNat 3 0, mode := bits v.toNat 5 4 } ∧
      OnlyRegs [MEMCTL.MT_CTRL_MODE, MEMCTL.MT_CTRL_TARGET, MEMCTL.MT_STAT_BUSY] { s with march := t.march } t)) ∧
  (∀ (t mode : Nat) (s : State), s.marchOk t mode = true → s.domOn (marchDom t) = true ∧
    (t = 8 → ∀ n : Fin 10, s.get (LANE.STAT_LSTATE n) = 0 ∧ s.get (PINENG.E_STAT_ESTATE n) = 0) ∧
    (t = 10 → mode ≠ 1 → s.on TOUCH.CRK_CTRL_RUN = false)) ∧
  (∀ (r : List MarchFault) (s : State), s.on MEMCTL.MT_STAT_BUSY = true → s.march.waiting = [] →
    let k := s.march.target
    let lo := (marchSpan k).1
    let n := (marchSpan k).2
    let q := r.filter fun f => decide (f.w < n / 4) && decide (f.elem < 6)
    let ended (t : State) : Prop := t.get MEMCTL.MT_STAT_BUSY = 0 ∧ t.get MEMCTL.MT_STAT_DONE = 1 ∧
      t.get MEMCTL.IRQ_STAT_MT_DONE = 1 ∧ t.march = {} ∧ (s.march.aborting = true → t.get MEMCTL.MT_STAT_ABORTED = 1)
    (s.march.mode = 2 ∨ (s.march.mode = 0 ∧ marchFirst k (n / 4) q = none) → Yields (.marchComplete r) s fun t => ended t ∧
      t.get MEMCTL.MT_STAT_FAIL = s.get MEMCTL.MT_STAT_FAIL ∧ (∀ a, lo ≤ a → a < lo + n → t.byte a = 0) ∧ MemoryBut lo n s t) ∧
    (∀ f : MarchFault, s.march.mode = 0 → marchFirst k (n / 4) q = some f → Yields (.marchComplete r) s fun t => ended t ∧
      t.get MEMCTL.MT_STAT_FAIL = 1 ∧ t.get MEMCTL.MT_STAT_ELEMENT = f.elem ∧
      t.get MEMCTL.MT_FAIL_ADDR_ADDR = lo + 4 * f.w ∧ t.get MEMCTL.MT_FAIL_READ_READ = f.read.toNat ∧
      t.get MEMCTL.MT_FAIL_EXP_EXP = (if f.elem = 2 ∨ f.elem = 4 then 0xFFFFFFFF else 0) ∧
      (k = 8 ∨ k = 10 → t.get MEMCTL.MT_FAIL_CHK_CHK_READ = 0 ∧ t.get MEMCTL.MT_FAIL_CHK_CHK_EXP = 0) ∧
      (k ≠ 8 → k ≠ 10 → t.get MEMCTL.MT_FAIL_CHK_CHK_READ = f.chk % 2 ^ 7) ∧
      (∀ a, a < lo ∨ lo + n ≤ a → (Store.get memUnlisted a s.mem).isSome → t.byte a = s.byte a)) ∧
    (s.march.mode = 1 → q = [] → Yields (.marchComplete r) s fun t => ended t ∧
      t.get MEMCTL.MT_STAT_FAIL = s.get MEMCTL.MT_STAT_FAIL ∧ SameMemory s t) ∧
    (∀ e, s.march.mode = 1 → firstSig (s.faultReads k q) = some e → Yields (.marchComplete r) s fun t => ended t ∧
      t.get MEMCTL.MT_STAT_FAIL = 1 ∧ t.get MEMCTL.MT_STAT_ELEMENT = e ∧ t.get MEMCTL.MT_FAIL_ADDR_ADDR = 0xFFFFFFFF ∧
      t.get MEMCTL.MT_FAIL_READ_READ = s.get MEMCTL.MT_FAIL_READ_READ) ∧
    (∀ f : MarchFault, s.march.mode = 1 → firstSig (s.faultReads k q) = none →
      earliest (n / 4) (q.filter (checkFails k)) = some f → Yields (.marchComplete r) s fun t => ended t ∧
      t.get MEMCTL.MT_STAT_FAIL = 1 ∧ t.get MEMCTL.MT_FAIL_ADDR_ADDR = lo + 4 * f.w)) ∧
  (∀ (k n : Nat) (r : List MarchFault) (f : MarchFault), marchFirst k n r = some f → f ∈ r ∧ faultShows k f = true ∧
    ∀ g ∈ r, faultShows k g = true → faultPlace n f ≤ faultPlace n g) ∧
  (∀ (q typ src stamp w : Nat) (d : List Byte) (s : State), s.march.waiting = [.rx q typ src stamp w d] →
    s.resumeDma = (State.rxStore { s with march := {} } q typ src stamp w d).1) ∧
  (∀ s : State, s.march.waiting = [.loc] → s.resumeDma = State.locRead { s with march := {} }) ∧
  (∀ s : State, s.accessible MEMCTL.MT_CTRL = true →
    (s.on MEMCTL.MT_STAT_BUSY = false → exec .marchAbort s = .next { s with bus := .ok 0 }) ∧
    (s.on MEMCTL.MT_STAT_BUSY = true → s.march.mode = 1 →
      exec .marchAbort s = .next { s with march := { s.march with aborting := true }, bus := .ok 0 }) ∧
    (s.on MEMCTL.MT_STAT_BUSY = true → s.march.mode ≠ 1 → s.march.waiting = [] → Yields .marchAbort s fun t =>
      t.get MEMCTL.MT_STAT_BUSY = 0 ∧ t.get MEMCTL.MT_STAT_ABORTED = 1 ∧ t.get MEMCTL.MT_STAT_DONE = 1 ∧ t.march = {})) ∧
  (∀ s : State, s.accessible VAULTCTL.CTRL = true → s.pwr.step ≠ .cold →
    (Yields (.vaultWipeCmd .app true) s fun t => t.get VAULTCTL.STAT_CAUSE_SW = 1 ∧ t.get VAULTCTL.STAT_WIPING = 1 ∧
      t.get VAULTCTL.STAT_WIPE_EV = 1 ∧ OnlyRegs [VAULTCTL.STAT_CAUSE_SW, VAULTCTL.STAT_WIPING, VAULTCTL.STAT_WIPE_EV] s t) ∧
    (∀ (m : Master) (mach : Bool), m = .app ∧ mach = false ∨ m = .cricket ∨ m = .scarab →
      exec (.vaultWipeCmd m mach) s = .next { s with bus := .ok 0 })) ∧
  (∀ s : State, s.on VAULTCTL.STAT_WIPING = true →
    (s.sc.tamperReset = false → Yields .vaultWipeComplete s fun t => (∀ a, 0x28003800 ≤ a → a < 0x28004000 → t.byte a = 0) ∧
      MemoryBut 0x28003800 0x800 s t ∧ t.get VAULTCTL.STAT_MCACHE_VALID = 0 ∧ t.get VAULTCTL.STAT_WIPING = 0 ∧
      t.get VAULTCTL.STAT_WIPE_EV = 1 ∧
      (s.get VAULTCTL.WIPE_CNT_COUNT < 0xFFFF → t.get VAULTCTL.WIPE_CNT_COUNT = s.get VAULTCTL.WIPE_CNT_COUNT + 1) ∧
      (s.get VAULTCTL.WIPE_CNT_COUNT = 0xFFFF → t.get VAULTCTL.WIPE_CNT_COUNT = 0xFFFF ∧ t.get VAULTCTL.WIPE_CNT_OVF = 1) ∧
      RegsOutside (fun a => a == VAULTCTL.STAT || a == VAULTCTL.WIPE_CNT) s t) ∧
    (s.sc.tamperReset = true → s.domOn .mgt = false ∨ (s.rs.cur = none ∧ s.rs.flushDue = false) → Yields .vaultWipeComplete s fun t => t.boot.code = 7 ∧ t.boot.released = false ∧
      t.sc.tamperReset = false ∧ t.get VAULTCTL.STAT_WIPING = 0)) ∧
  (∀ s : State, s.on VAULTCTL.STAT_WIPING = false → exec .vaultWipeComplete s = .next s)

/-- FLASHCTL: programming and erasing code flash. A command without GO only sets OP; GO is ignored while BUSY, is refused with
RESULT 1 in low-power mode, 5 during a download, 2 outside the inactive slot and 3 on words that are not erased, and else is
accepted, which clears MCACHE_VALID and returns the download to IDLE; its completion copies the source bytes or erases the
range and changes nothing else in memory; a word that fails ends it with RESULT 4. (16_reset_startup_update.md, R204, R283.) -/
def Obligations.FlashController : Prop :=
  (∀ (op : Nat) (mk : Word → Instr) (v : Word) (s : State),
    (op, mk) ∈ [(1, Instr.flashProgram), (2, Instr.flashEraseSector), (3, Instr.flashEraseSlot)] → s.accessible FLASHCTL.CMD = true →
    let addr := s.get FLASHCTL.ADDR_ADDR * 4
    let len := s.get FLASHCTL.LEN_LEN
    let lo := (flashSpan op addr len).1
    let n := (flashSpan op addr len).2
    let base := slotBase s.inactive
    let ends (r : Nat) : Prop := Yields (mk v) s fun t => t.get FLASHCTL.STATUS_BUSY = 0 ∧ t.get FLASHCTL.STATUS_DONE = 1 ∧
      t.get FLASHCTL.STATUS_RESULT = r ∧
      OnlyRegs [FLASHCTL.CMD_OP, FLASHCTL.STATUS_BUSY, FLASHCTL.STATUS_DONE, FLASHCTL.STATUS_RESULT] s t
    (getBit v.toNat 31 = false ∨ s.on FLASHCTL.STATUS_BUSY = true →
      exec (mk v) s = .next { s.set FLASHCTL.CMD_OP op with bus := .ok 0 }) ∧
    (getBit v.toNat 31 = true → s.on FLASHCTL.STATUS_BUSY = false →
      (s.regNormal = false → ends 1) ∧
      (s.regNormal = true → s.dl.st ≠ 0 → s.dl.st ≠ 5 → s.dl.st ≠ 6 → ends 5) ∧
      (s.regNormal = true → s.dl.st = 0 ∨ s.dl.st = 5 ∨ s.dl.st = 6 →
        (s.flashHeld = true ∨ lo < base ∨ base + 0x100000 < lo + n → ends 2) ∧
        (s.flashHeld = false → base ≤ lo → lo + n ≤ base + 0x100000 →
          (op = 1 → (∃ i, i < n ∧ s.byte (lo + i) ≠ 0xFF) → ends 3) ∧
          (op ≠ 1 ∨ (∀ i, i < n → s.byte (lo + i) = 0xFF) → Yields (mk v) s fun t => t.get FLASHCTL.STATUS_BUSY = 1 ∧
            t.flash = some ⟨op, addr, s.get FLASHCTL.SRC_SRC * 4, len⟩ ∧ t.dl.st = 0 ∧ t.get VAULTCTL.STAT_MCACHE_VALID = 0 ∧
            OnlyRegs [FLASHCTL.CMD_OP, FLASHCTL.STATUS_BUSY, VAULTCTL.STAT_MCACHE_VALID]
              { s with flash := t.flash, dl := t.dl } t))))) ∧
  (∀ (f : FlashOp) (s : State), s.flash = some f →
    let lo := (flashSpan f.op f.addr f.len).1
    let n := (flashSpan f.op f.addr f.len).2
    (Yields (.flashCommandDone none) s fun t => t.flash = none ∧ t.get FLASHCTL.STATUS_BUSY = 0 ∧
      t.get FLASHCTL.STATUS_DONE = 1 ∧ t.get FLASHCTL.STATUS_RESULT = 0 ∧ MemoryBut lo n s t ∧
      (f.op = 1 → ∀ i, i < n → t.byte (lo + i) = s.byte (f.src + i)) ∧
      (f.op ≠ 1 → 0x08000000 ≤ lo → lo + n ≤ 0x08210000 → ∀ i, i < n → t.byte (lo + i) = 0xFF)) ∧
    (∀ k, s.get (ERRAGG.SRC_POLICY 2) < 2 → Yields (.flashCommandDone (some k)) s fun t => t.flash = none ∧
      t.get FLASHCTL.STATUS_BUSY = 0 ∧ t.get FLASHCTL.STATUS_DONE = 1 ∧ t.get FLASHCTL.STATUS_RESULT = 4 ∧
      (f.op = 1 → ∀ i, i < n → i < 4 * k → t.byte (lo + i) = s.byte (f.src + i))))

/-- A channel's gate, software pulses and rising edges. GATE 0 opens a channel whatever GATE_INV holds and a reserved gate gives
0 before the inversion; a channel made inactive by containment is at 0; FIRE pulses the channels written whose gate is 1 and
over which the master has rights, counts a refusal once, and pulses no other; a rising edge, present or caught, sets the
channel's IRQ_STAT bit, and without one nothing happens. With the rights to the selection, a write of CHk_SEL takes its
producers and holds the output at 0, and a write of CHk_CFG takes the gate; without them nothing changes but DENIED, where
the write would have changed a field. OWN, SEC and MODE are the application core's in machine mode while LOCK is 0; LOCK is
set by writing 1; in locked Lock mode no master has the rights to a selection. (15_events_serial.md, R306, R308, R309, R310,
R311, R312, R315, R313, R314.) -/
def Obligations.EventChannels : Prop :=
  (∀ (k : Nat) (s : State),
    (s.get (EVROUTE.CH_CFG_GATE k) = 0 → s.gateOf k = true) ∧
    (s.get (EVROUTE.CH_CFG_GATE k) = 0x0C → s.gateOf k = (s.on AONCTL.MODE_DOCKED != s.on (EVROUTE.CH_CFG_GATE_INV k))) ∧
    (0x0C < s.get (EVROUTE.CH_CFG_GATE k) → s.get (EVROUTE.CH_CFG_GATE k) < 0x20 →
      s.gateOf k = s.on (EVROUTE.CH_CFG_GATE_INV k)) ∧
    (0x5B < s.get (EVROUTE.CH_CFG_GATE k) → s.gateOf k = s.on (EVROUTE.CH_CFG_GATE_INV k)) ∧
    (s.gateOf k = false → s.chanLevel k = false) ∧ (s.domOn .crk = false → s.chanLevel k = false) ∧
    (s.domOn .crk = true → s.held k = false → getBit s.ev.dead k = false → s.gateOf k = true → s.firing k = true →
      s.chanLevel k = true) ∧ (getBit s.ev.dead k = true → s.chanLevel k = false)) ∧
  (∀ (m : Master) (mach : Bool) (v : Word) (s : State), (m = .app ∨ m = .cricket) ∧ s.accessible EVROUTE.FIRE = true ∨
      m = .scarab ∧ s.domOn .crk = true →
    Yields (.fire m mach v) s fun t =>
      (∀ k : Fin 32, getBit v.toNat k = true → s.evOwner m mach k = true → s.gateOf k = true → t.firing k = true ∧
        (s.domOn .crk = true → s.held k = false → getBit s.ev.dead k = false → s.chanLevel k = false →
          getBit t.ev.caught k = true)) ∧
      (∀ k : Fin 32, getBit v.toNat k = false ∨ s.evOwner m mach k = false ∨ s.gateOf k = false →
        t.firing k = s.firing k ∧ t.chanLevel k = s.chanLevel k) ∧
      ((∀ k : Fin 32, getBit v.toNat k = true → s.evOwner m mach k = true) → t.regs = s.regs) ∧
      ((∃ k : Fin 32, getBit v.toNat k = true ∧ s.evOwner m mach k = false) →
        t.regs = (s.count EVROUTE.DENIED_COUNT EVROUTE.DENIED_OVF).regs) ∧
      SameMemory s t) ∧
  (∀ (k : Fin 32) (s : State),
    (s.domOn .crk = true → (s.chanLevel k = true ∧ getBit s.ev.seen k = false) ∨ getBit s.ev.caught k = true →
      Yields (.channelEdge k) s fun t => t.bit EVROUTE.IRQ_STAT_EDGE k = true ∧ getBit t.ev.caught k = false ∧
        (s.bit AONCTL.EVWAKE_MASK k = false → s.on RINGCTL.WAKE_EVT_EN = false → OnlyRegs [EVROUTE.IRQ_STAT_EDGE] { s with ev := t.ev } t)) ∧
    (s.domOn .crk = false ∨ (s.chanLevel k = false ∨ getBit s.ev.seen k = true) ∧ getBit s.ev.caught k = false →
      exec (.channelEdge k) s = .next s)) ∧
  (∀ (m : Master) (mach : Bool) (k : Fin 32) (v : Word) (s : State), m = .app ∨ m = .cricket →
    s.accessible (EVROUTE.CH_SEL k) = true →
    (s.evSelect m mach k = true → Yields (.channelConfigWrite m mach k false v) s fun t =>
      t.get (EVROUTE.CH_SEL_PSEL0 k) = bits v.toNat 7 0 ∧ t.get (EVROUTE.CH_SEL_PSEL1 k) = bits v.toNat 15 8 ∧
      t.get (EVROUTE.CH_SEL_PSEL2 k) = bits v.toNat 23 16 ∧ t.get (EVROUTE.CH_SEL_PSEL3 k) = bits v.toNat 31 24 ∧
      t.held k = true ∧ t.chanLevel k = false ∧ OnlyRegs [EVROUTE.CH_SEL_PSEL0 k, EVROUTE.CH_SEL_PSEL1 k,
        EVROUTE.CH_SEL_PSEL2 k, EVROUTE.CH_SEL_PSEL3 k] { s with ev := t.ev } t) ∧
    (s.evSelect m mach k = false → exec (.channelConfigWrite m mach k false v) s =
      .next { (if s.readReg (EVROUTE.CH_SEL k) = v.toNat then s else s.count EVROUTE.DENIED_COUNT EVROUTE.DENIED_OVF) with
        bus := .ok 0 })) ∧
  (∀ (m : Master) (mach : Bool) (k : Fin 32) (v : Word) (s : State), m = .app ∨ m = .cricket →
    s.accessible (EVROUTE.CH_CFG k) = true → Yields (.channelConfigWrite m mach k true v) s fun t =>
      (s.evSelect m mach k = true → t.get (EVROUTE.CH_CFG_GATE k) = bits v.toNat 6 0 ∧
        t.get (EVROUTE.CH_CFG_GATE_INV k) = bits v.toNat 7 7 ∧ t.chanLevel k = false) ∧
      (s.evSelect m mach k = false → t.get (EVROUTE.CH_CFG_GATE k) = s.get (EVROUTE.CH_CFG_GATE k) ∧
        t.get (EVROUTE.CH_CFG_GATE_INV k) = s.get (EVROUTE.CH_CFG_GATE_INV k) ∧ t.ev = s.ev) ∧
      (s.evAdmin m mach = true → t.get (EVROUTE.CH_CFG_SEC k) = bits v.toNat 29 29 ∧
        (bits v.toNat 31 30 ≠ 3 → t.get (EVROUTE.CH_CFG_OWN k) = bits v.toNat 31 30)) ∧
      (s.evAdmin m mach = false → t.get (EVROUTE.CH_CFG_SEC k) = s.get (EVROUTE.CH_CFG_SEC k) ∧
        t.get (EVROUTE.CH_CFG_OWN k) = s.get (EVROUTE.CH_CFG_OWN k)) ∧
      (s.evSelect m mach k = true → s.evAdmin m mach = true → t.get EVROUTE.DENIED_COUNT = s.get EVROUTE.DENIED_COUNT) ∧
      OnlyRegs [EVROUTE.CH_CFG_GATE k, EVROUTE.CH_CFG_GATE_INV k, EVROUTE.CH_CFG_SEC k, EVROUTE.CH_CFG_OWN k,
        EVROUTE.DENIED_COUNT, EVROUTE.DENIED_OVF] { s with ev := t.ev } t) ∧
  (∀ (m : Master) (mach : Bool) (v : Word) (s : State), m = .app ∨ m = .cricket → s.accessible EVROUTE.GCTL = true →
    Yields (.gctlWrite m mach v) s fun t =>
      (s.evAdmin m mach = true → t.get EVROUTE.GCTL_MODE = bits v.toNat 0 0 ∧ t.get EVROUTE.DENIED_COUNT = s.get EVROUTE.DENIED_COUNT) ∧
      (s.evAdmin m mach = false → t.get EVROUTE.GCTL_MODE = s.get EVROUTE.GCTL_MODE) ∧
      (getBit v.toNat 31 = true → t.get EVROUTE.GCTL_LOCK = 1) ∧ (getBit v.toNat 31 = false → t.get EVROUTE.GCTL_LOCK = s.get EVROUTE.GCTL_LOCK) ∧
      OnlyRegs [EVROUTE.GCTL_MODE, EVROUTE.GCTL_LOCK, EVROUTE.DENIED_COUNT, EVROUTE.DENIED_OVF] s t) ∧
  (∀ (m : Master) (mach : Bool) (k : Nat) (s : State),
    (s.on EVROUTE.GCTL_MODE = true → s.on EVROUTE.GCTL_LOCK = true → s.evSelect m mach k = false) ∧
    (s.on EVROUTE.GCTL_LOCK = true → s.evAdmin m mach = false) ∧ (s.evAdmin m mach = true → m = .app ∧ mach = true) ∧
    (s.on EVROUTE.GCTL_MODE = false → s.get (EVROUTE.CH_CFG_OWN k) = 0 → s.on (EVROUTE.CH_CFG_SEC k) = true →
      s.evOwner m mach k = true → m = .app ∧ mach = true) ∧
    (s.on EVROUTE.GCTL_MODE = false → s.get (EVROUTE.CH_CFG_OWN k) = 1 → (s.evOwner m mach k = true ↔ m = .cricket)))

/-- Envelopes and messages stand for each other. For every list of bytes e and every message m: e is accepted as an envelope of
m exactly if m has 12 to 512 bytes and e is the length of m, m, and the CRC-16 over both; so no message is lost by
enveloping it, and no other bytes are accepted. (15_events_serial.md, R322.) -/
def Obligations.EnvelopesRoundTrip : Prop :=
  ∀ e m : List Byte, unenvelope e = some m ↔ (12 ≤ m.length ∧ m.length ≤ 512 ∧ e = envelope m)

/-- The UARTs: reception and transmission. A false start counts as noise; the samples of a character's undisturbed bits are that
character, a line low throughout is a break, and a start bit of majority 1 a false start; a character goes into the FIFO
with its tags, or is lost with OVR when 16 wait; with address match an address character sets or clears MUTED and a muted
receiver drops data; a break is stored once; a read takes the oldest entry, or sets RX_UNDER, and makes room for a character
that the full FIFO turned away in the same clock; MUTE_REQ mutes from the next character; an envelope that stalls is dropped
and counted. A write of DATA is ignored with TX_OVR when the FIFO is full or DICTENG sends; else the character waits behind
those before it, or is taken at once by an idle transmitter; a character sent leaves as 8 or 9 bits, and the next follows or
the driver's lag begins; the lag's end releases the driver. (15_events_serial.md, R317, R318, R319, R320, R322, R321, R323.) -/
def Obligations.UartReceptionAndTransmission : Prop :=
  (∀ (n : Fin 2) (s : State), s.rxOpen n = true →
    exec (.uartCharReceived n .falseStart) s = .next (s.count (UART.NF_CNT_COUNT n) (UART.NF_CNT_OVF n)) ∧
    (∀ d : BitVec 9, d.toNat < 256 ∨ s.on (UART.CTRL_NINE n) = true →
      exec (.uartCharReceived n (.sampled ((s.charBits n d.toNat).map fun b => (b, b, b)))) s =
        exec (.uartCharReceived n (.char d false false false)) s) ∧
    (∀ k, 11 ≤ k → exec (.uartCharReceived n (.sampled (List.replicate k (false, false, false)))) s = exec (.uartBreak n) s) ∧
    (∀ x r, majority x = true → exec (.uartCharReceived n (.sampled (x :: r))) s = exec (.uartCharReceived n .falseStart) s) ∧
    (∀ (d : BitVec 9) (pe fe nf : Bool), (s.uart n).muteReq = false → s.uartDict n = false →
      let nine := s.on (UART.CTRL_NINE n)
      let x := if nine then d.toNat else d.toNat % 256
      let p := pe && !nine && s.get (UART.CTRL_PAR n) != 0
      let kept (u v : State) (p fe nf : Bool) : Prop :=
        (v.uart n).rx = (u.uart n).rx ++ [x + 512 * b2n p + 1024 * b2n fe + 2048 * b2n nf] ∧
        v.get (UART.FIFO_RX_LVL n) = (u.uart n).rx.length + 1
      ((nine && s.on (UART.CTRL_AM_EN n)) = false → (s.uart n).rx.length < 16 →
        Yields (.uartCharReceived n (.char d pe fe nf)) s fun t => kept s t p fe nf ∧ (t.uart n).brk = false ∧
          t.get (UART.PE_CNT_COUNT n) = (if p = true then s.count (UART.PE_CNT_COUNT n) (UART.PE_CNT_OVF n) else s).get (UART.PE_CNT_COUNT n) ∧
          t.get (UART.FE_CNT_COUNT n) = (if fe = true then s.count (UART.FE_CNT_COUNT n) (UART.FE_CNT_OVF n) else s).get (UART.FE_CNT_COUNT n) ∧
          t.get (UART.NF_CNT_COUNT n) = (if nf = true then s.count (UART.NF_CNT_COUNT n) (UART.NF_CNT_OVF n) else s).get (UART.NF_CNT_COUNT n)) ∧
      ((nine && s.on (UART.CTRL_AM_EN n)) = false → 16 ≤ (s.uart n).rx.length →
        Yields (.uartCharReceived n (.char d pe fe nf)) s fun t => (t.uart n).rx = (s.uart n).rx ∧ t.get (UART.STAT_OVR n) = 1 ∧
          t.get (UART.OVR_CNT_COUNT n) = (s.count (UART.OVR_CNT_COUNT n) (UART.OVR_CNT_OVF n)).get (UART.OVR_CNT_COUNT n)) ∧
      (nine = true → s.on (UART.CTRL_AM_EN n) = true →
        (256 ≤ d.toNat → fe = false → nf = false →
          (((d.toNat ^^^ s.get (UART.ADDR_ADDR n)) &&& s.get (UART.ADDR_MASK n)) = 0 → (s.uart n).rx.length < 16 →
            Yields (.uartCharReceived n (.char d pe fe nf)) s fun t => kept s t false false false ∧ t.get (UART.STAT_MUTED n) = 0) ∧
          (((d.toNat ^^^ s.get (UART.ADDR_ADDR n)) &&& s.get (UART.ADDR_MASK n)) ≠ 0 →
            Yields (.uartCharReceived n (.char d pe fe nf)) s fun t => (t.uart n).rx = (s.uart n).rx ∧ t.get (UART.STAT_MUTED n) = 1)) ∧
        (d.toNat < 256 → s.on (UART.STAT_MUTED n) = true → Yields (.uartCharReceived n (.char d pe fe nf)) s fun t =>
          (t.uart n).rx = (s.uart n).rx ∧ t.regs = s.regs)))) ∧
  (∀ (n : Fin 2) (s : State), s.rxOpen n = true →
    ((s.uart n).brk = true → exec (.uartBreak n) s = .next s) ∧
    ((s.uart n).brk = false → (Yields (.uartBreak n) s fun t => t.get (UART.STAT_BREAK n) = 1 ∧ (t.uart n).brk = true) ∧
      ((s.uart n).muteReq = false → s.uartDict n = false → s.on (UART.CTRL_AM_EN n) = false → (s.uart n).rx.length < 16 →
        Yields (.uartBreak n) s fun t => (t.uart n).rx = (s.uart n).rx ++ [1024]))) ∧
  (∀ (n : Fin 2) (s : State), s.accessible (UART.DATA n) = true →
    ((s.uart n).rx = [] → exec (.uartRxRead n) s = .next { s.set (UART.STAT_RX_UNDER n) 1 with bus := .ok 0 }) ∧
    (∀ e r x, (s.uart n).rx = e :: r → (s.uart n).overrun = some x → x.tick = s.tick → Yields (.uartRxRead n) s fun t => t.bus = .ok e ∧
      (t.uart n).rx = r ++ [x.d + 512 * b2n x.pe + 1024 * b2n x.fe + 2048 * b2n x.nf] ∧ (t.uart n).overrun = none ∧
      t.get (UART.STAT_OVR n) = x.ovr % 2 ∧ t.get (UART.OVR_CNT_COUNT n) = x.cnt % 2 ^ 16) ∧
    (∀ e r, (s.uart n).rx = e :: r → (∀ x, (s.uart n).overrun = some x → x.tick ≠ s.tick) →
      Yields (.uartRxRead n) s fun t => t.bus = .ok e ∧ (t.uart n).rx = r ∧
      (r.length < 32 → t.get (UART.FIFO_RX_LVL n) = r.length) ∧
      OnlyRegs [UART.FIFO_RX_LVL n, UART.STAT_RX_THR n] { s with uart0 := t.uart0, uart1 := t.uart1 } t)) ∧
  (∀ (n : Fin 2) (s : State), s.accessible (UART.CTRL n) = true → exec (.muteReq n) s =
    .next { s.setUart n fun u => { u with muteReq := true } with bus := .ok 0 }) ∧
  (∀ s : State, s.uart0.env.isSome = true → s.domOn .sys = true →
    s.uart0.envAt + s.uartTicks 0 (256 * (s.charBits 0 0).length) < s.tick → Yields .envelopeTimeout s fun t => t.uart0.env = none ∧
    t.get (UART.ENV_ERR_COUNT 0) = (s.count (UART.ENV_ERR_COUNT 0) (UART.ENV_ERR_OVF 0)).get (UART.ENV_ERR_COUNT 0) ∧
    OnlyRegs [UART.ENV_ERR_COUNT 0, UART.ENV_ERR_OVF 0] { s with uart0 := t.uart0 } t) ∧
  (∀ (n : Fin 2) (v : Word) (s : State), s.accessible (UART.DATA n) = true →
    (s.uartDict n = true ∨ 16 ≤ (s.uart n).tx.length →
      exec (.uartTxWrite n v) s = .next { s.set (UART.STAT_TX_OVR n) 1 with bus := .ok 0 }) ∧
    (s.uartDict n = false → (s.uart n).tx.length < 16 →
      ((s.uart n).shift.isSome = true → Yields (.uartTxWrite n v) s fun t => (t.uart n).tx = (s.uart n).tx ++ [v.toNat % 512] ∧
        (t.uart n).shift = (s.uart n).shift ∧ t.get (UART.STAT_TX_DONE n) = 0) ∧
      ((s.uart n).shift = none → (s.uart n).tx = [] → s.uartOn n = true → s.on (UART.CTRL_TX_EN n) = true →
        Yields (.uartTxWrite n v) s fun t => (t.uart n).tx = [] ∧ (t.uart n).shift = some (v.toNat % 512) ∧
          t.get (UART.STAT_TX_DONE n) = 0 ∧ (t.uart n).de = (n == 1 && s.on (UART.CTRL_DE_EN 1))) ∧
      ((s.uart n).shift = none → (s.uartOn n && s.on (UART.CTRL_TX_EN n)) = false → Yields (.uartTxWrite n v) s fun t =>
        (t.uart n).tx = (s.uart n).tx ++ [v.toNat % 512] ∧ (t.uart n).shift = none))) ∧
  (∀ (n : Fin 2) (s : State),
    ((s.uart n).shift = none → (s.uart n).tx = [] → exec (.uartCharSent n) s = .next s) ∧
    (∀ c, (s.uart n).shift = some c → s.uartOn n = true →
      let x := if s.on (UART.CTRL_NINE n) then c else c % 256
      ((s.uart n).tx = [] → Yields (.uartCharSent n) s fun t => t.sent = .uart n x :: s.sent ∧ (t.uart n).shift = none ∧
        (t.uart n).tx = [] ∧ (t.uart n).lag = (s.uart n).de ∧ t.get (UART.STAT_TX_DONE n) = 1) ∧
      (∀ d r, (s.uart n).tx = d :: r → s.on (UART.CTRL_TX_EN n) = true → Yields (.uartCharSent n) s fun t =>
        t.sent = .uart n x :: s.sent ∧ (t.uart n).shift = some d ∧ (t.uart n).tx = r ∧ (t.uart n).lag = false))) ∧
  (∀ s : State, let t := s.uart1.lagAt + s.uartTicks 1 (s.get (UART.DE_TIME_DE_LAG 1))
    (s.uart1.lag = true → t ≤ s.tick → exec .deLagEnd s = .next { s with uart1 := { s.uart1 with de := false, lag := false } }) ∧
    (s.uart1.lag = false ∨ s.tick < t → exec .deLagEnd s = .next s))

/-- The service wire: address match, writes, reads, stretching and responses by software. Another address is not acknowledged,
the device's own is and opens a transaction; a write whose address came while BUSY is refused with OVR, a valid envelope is
delivered to software with REQ (discarding an unread response), an invalid one sets ENV_EV; a read returns the status byte
first: 3 after an invalid envelope, 1 while BUSY, 0 with no response, 2 and the response, which is given up once it has been
read whole; SCL held too long ends the transaction; a response of software is held for reading. (15_events_serial.md, R324,
R325, R326, R327, R328.) -/
def Obligations.ServiceWireTransactions : Prop :=
  (∀ (addr : BitVec 7) (rd : Bool) (s : State), s.pwr.step ≠ .cold →
    (addr.toNat ≠ s.get SVCWIRE.ADDR_ADDR → exec (.svcAddressMatch addr rd) s = .next (s.emit (.ack false))) ∧
    (addr.toNat = s.get SVCWIRE.ADDR_ADDR → Yields (.svcAddressMatch addr rd) s fun t =>
      t.svc = { s.svc with xact := some rd, dead := false, refuse := !rd && s.on SVCWIRE.STAT_BUSY, heldAt := s.tick } ∧
      t.sent = .ack true :: (s.wakeSrc 1).sent)) ∧
  (∀ (d : List Byte) (s : State), s.svc.xact = some false → s.sclHeld = false →
    (s.svc.dead = true → Yields (.svcWriteTransaction d) s fun t => t.sent = .ack false :: s.sent ∧ t.svc.xact = none ∧ t.regs = s.regs) ∧
    (s.svc.dead = false → s.svc.refuse = true → Yields (.svcWriteTransaction d) s fun t =>
      t.sent = .ack false :: s.sent ∧ t.svc.xact = none ∧ t.get SVCWIRE.STAT_OVR = 1 ∧
      OnlyRegs [SVCWIRE.STAT_OVR] { s with svc := t.svc, sent := t.sent } t) ∧
    (s.svc.dead = false → s.svc.refuse = false →
      (unenvelope (d.take 516) = none → Yields (.svcWriteTransaction d) s fun t =>
        t.sent = .ack (decide (d.length ≤ 516)) :: s.sent ∧ t.svc.xact = none ∧ t.svc.envErr = true ∧
        t.get SVCWIRE.STAT_ENV_EV = 1 ∧ t.get SVCWIRE.STAT_BUSY = s.get SVCWIRE.STAT_BUSY) ∧
      (∀ m, unenvelope (d.take 516) = some m → s.on SVCWIRE.CTRL_ROUTE = true → Yields (.svcWriteTransaction d) s fun t =>
        t.sent = .ack (decide (d.length ≤ 516)) :: s.sent ∧ t.svc.xact = none ∧ t.get SVCWIRE.STAT_BUSY = 1 ∧
        t.get SVCWIRE.STAT_REQ = 1 ∧ t.get SVCWIRE.STAT_RX_LEN = m.length ∧ t.bytes 0x40006400 m.length = m ∧
        t.svc.resp = none ∧ (s.svc.resp.isSome = true → t.get SVCWIRE.STAT_DROP = 1 ∧ t.get SVCWIRE.STAT_RESP_RDY = 0) ∧
        MemoryBut 0x40006400 m.length s t))) ∧
  (∀ (d : List Byte) (n : Nat) (s : State),
    (s.svc.xact ≠ some false ∨ s.sclHeld = true → exec (.svcWriteTransaction d) s = .next s) ∧
    (s.svc.xact ≠ some true ∨ s.sclHeld = true → exec (.svcReadTransaction n) s = .next s)) ∧
  (∀ (n : Nat) (s : State), s.svc.xact = some true → s.sclHeld = false →
    let gives (l : List Byte) (t : State) : Prop := t.sent = .svc (fillFF n l) :: s.sent ∧ t.svc.xact = none
    (s.svc.dead = true → Yields (.svcReadTransaction n) s fun t => gives [] t ∧ t.regs = s.regs) ∧
    (s.svc.dead = false → s.svc.envErr = true → Yields (.svcReadTransaction n) s fun t => gives [3] t ∧ t.regs = s.regs ∧
      t.svc.envErr = decide (n = 0)) ∧
    (s.svc.dead = false → s.svc.envErr = false → s.on SVCWIRE.STAT_BUSY = true →
      Yields (.svcReadTransaction n) s fun t => gives [1] t ∧ t.regs = s.regs) ∧
    (s.svc.dead = false → s.svc.envErr = false → s.on SVCWIRE.STAT_BUSY = false →
      (s.svc.resp = none → Yields (.svcReadTransaction n) s fun t => gives [0] t ∧ t.regs = s.regs) ∧
      (∀ e, s.svc.resp = some e → Yields (.svcReadTransaction n) s fun t => gives (2 :: e) t ∧
        (n ≤ e.length → t.svc.resp = some e ∧ t.regs = s.regs) ∧
        (e.length < n → t.svc.resp = none ∧ t.get SVCWIRE.STAT_RESP_RDY = 0)))) ∧
  (∀ s : State, s.svc.xact.isSome = true → s.sclHeld = true → s.domOn .crk = true →
    s.svc.heldAt + s.get SVCWIRE.CTRL_STRETCH_LIM * 250000 ≤ s.tick → exec .svcStretchTimeout s =
    .next { s.set SVCWIRE.STAT_STRETCH_TO 1 with svc := { s.svc with dead := true } }) ∧
  (∀ (v : Word) (s : State), s.accessible SVCWIRE.RESP = true → s.on SVCWIRE.STAT_REQ = true →
    12 ≤ bits v.toNat 9 0 → bits v.toNat 9 0 ≤ 512 → Yields (.svcRespGo v) s fun t =>
      t.svc.resp = some (envelope (s.bytes 0x40006600 (bits v.toNat 9 0))) ∧ t.get SVCWIRE.STAT_RESP_RDY = 1 ∧
      t.get SVCWIRE.STAT_REQ = 0 ∧ t.get SVCWIRE.STAT_BUSY = 0 ∧ t.get SVCWIRE.RESP_LEN = bits v.toNat 9 0 ∧ SameMemory s t)

/-- A record that has been programmed is found by mounting's walk with its fields, its data and a right CRC. For every key, SEQ,
GID and data that a record can have, and every place in a sector where it fits: after its words are programmed there, the
walk of that sector from that place finds first a record with exactly these fields and a right CRC, and its data reads back;
the words are those of R269's layout, SEQ and KEY in word 0, HCHK and LEN in word 1, GID in word 2, the CRC-32C over every
preceding byte last. (13_memories.md, R268, R269, R273.) -/
def Obligations.RecordsReadBack : Prop :=
  ∀ (k o q n key seq gid : Nat) (d : List Byte) (s : State), k < 32 → 16 ≤ o → o + recSize d.length ≤ 2048 →
    1 ≤ key → key ≤ 0xFFF0 → seq < 65536 → gid < 65536 → d.length ≤ 1008 →
    let ws := recWords key seq gid d
    let t := s.recActs (progActs (secOff k + o) ws)
    let r : Rec := ⟨k, o, q, key, seq, d.length, gid, ws.getLastD 0, true⟩
    (t.walk k q (n + 1) o).1.head? = some r ∧ t.recData r = d ∧ 4 * ws.length = recSize d.length ∧
    ws[0]? = some (seq * 65536 + key) ∧
    ws[1]? = some ((((0xFFFF : Int) - (key + seq + d.length + gid)) % 65536).toNat * 65536 + 0xF800 + d.length) ∧
    ws[2]? = some (0xFFFF0000 + gid) ∧
    ws.getLastD 0 = crc32c (t.bytes (recAddr (secOff k + o)) (recSize d.length - 4)) ∧
    MemoryBut (recAddr (secOff k + o)) (recSize d.length) s t

/-- The record store's commands and what its plans write. On each channel each of the eight commands is ignored with CMD_IGN
while the channel is BUSY, waits for the other channel's command, or starts, channel S's before one of channel A of the same
clock; before mounting every command ends NOT_MOUNTED with nothing done; completion carries out the acts, leaves RESULT,
DONE and BUSY 0 and starts the waiting command; a word that reads back wrong ends it VERIFY_FAIL; an abort ends it ABORTED,
or sets TOO_LATE and changes nothing where nothing is in progress on the channel. The device's own groups wait for the
command in progress and are written when the store is free, and then a flush of the log and a reset that wait follow.
PROGRAM checks ADDR and LEN (BAD_ARG), roles (BAD_ROLE) and erased words (NOT_ERASED) and else programs the window; ERASE
refuses channel A a LOG sector and gives a DATA sector its header; APPEND checks the key and LEN, the group's owner and
size, and takes the next SEQ; FIND returns the winning record's SEQ, LEN and data address; GROUP_BEGIN, GROUP_CLOSE,
GROUP_ABORT and COMPACT keep R271's and R272's rules; every refusal does nothing to the store. (13_memories.md, R265, R272,
R273, R274, R297, R266, R267, R269, R270, R271.) -/
def Obligations.RecordStoreCommandsAndPlans : Prop :=
  (∀ (ch : Chan) (op : Nat) (mk : Chan → Instr) (s : State), (op, mk) ∈ [(1, Instr.program), (2, Instr.erase), (3, Instr.append),
      (4, Instr.find), (5, Instr.groupBegin), (6, Instr.groupClose), (7, Instr.groupAbort), (8, Instr.compact)] →
    s.accessible (RECSTORE.C_CMD (chanIdx ch)) = true →
    let u := s.set (RECSTORE.C_CMD_OP (chanIdx ch)) op
    let v := u.set (RECSTORE.C_STATUS_BUSY (chanIdx ch)) 1
    (s.on (RECSTORE.C_STATUS_BUSY (chanIdx ch)) = true →
      exec (mk ch) s = .next { u.set (RECSTORE.C_STATUS_CMD_IGN (chanIdx ch)) 1 with bus := .ok 0 }) ∧
    (s.on (RECSTORE.C_STATUS_BUSY (chanIdx ch)) = false →
      (∀ c, s.rs.cur = some c →
        (ch = .a ∨ c.ch = .s ∨ s.rs.queued ≠ none ∨ s.rs.askedAt ≠ some s.tick →
          exec (mk ch) s = .next { v with rs := { s.rs with queued := some (ch, op) }, bus := .ok 0 }) ∧
        (ch = .s → c.ch = .a → s.rs.queued = none → s.rs.askedAt = some s.tick → exec (mk ch) s = .next { v with
          rs := { s.rs with cur := some (v.recPlan ch op), queued := some (.a, c.op) }, bus := .ok 0 })) ∧
      (s.rs.cur = none → exec (mk ch) s = .next { v with
        rs := { s.rs with cur := some (v.recPlan ch op), askedAt := some s.tick }, bus := .ok 0 }))) ∧
  (∀ (ch : Chan) (op : Nat) (s : State), (s.recPlan ch op).ch = ch ∧ (s.rs.mounted = false →
    (s.recPlan ch op).acts = [] ∧ (s.recPlan ch op).result = 0x0B ∧ (s.recPlan ch op).group = s.rs.group)) ∧
  (∀ (c : RecCmd) (s : State), s.rs.cur = some c → s.rs.own = [] → s.rs.flushDue = false → s.rs.resetDue = none →
    let i := chanIdx c.ch
    (Yields (.recstoreCommandDone none) s fun t => t.get (RECSTORE.C_STATUS_BUSY i) = 0 ∧ t.get (RECSTORE.C_STATUS_DONE i) = 1 ∧
      t.get (RECSTORE.C_STATUS_RESULT i) = c.result % 2 ^ 8 ∧ t.rs.group = c.group ∧ t.rs.closed = c.closed ∧ t.rs.queued = none ∧
      (s.rs.queued = none → t.rs.cur = none) ∧ (∀ ch op, s.rs.queued = some (ch, op) → ∃ d, t.rs.cur = some d ∧ d.ch = ch) ∧
      t.mem = (s.recActs c.acts).mem ∧ (∀ a, t.byte a = (s.recActs c.acts).byte a) ∧
      (c.acts = [] → ∀ x, c.seq = some x → t.get (RECSTORE.C_KEY_SEQ i) = x % 2 ^ 16)) ∧
    (∀ k o w, c.acts[k]? = some (.word o w) → s.get (ERRAGG.SRC_POLICY 3) < 2 →
      Yields (.recstoreCommandDone (some k)) s fun t => t.get (RECSTORE.C_STATUS_BUSY i) = 0 ∧
        t.get (RECSTORE.C_STATUS_DONE i) = 1 ∧ t.get (RECSTORE.C_STATUS_RESULT i) = 9 ∧ t.rs.queued = none)) ∧
  (∀ (ch : Chan) (done : Nat) (s : State), s.accessible (RECSTORE.C_CMD (chanIdx ch)) = true →
    ((∀ c, s.rs.cur = some c → c.ch ≠ ch) →
      exec (.recstoreAbort ch done) s = .next { s.set (RECSTORE.C_STATUS_TOO_LATE (chanIdx ch)) 1 with bus := .ok 0 }) ∧
    (∀ c, s.rs.cur = some c → c.ch = ch → s.rs.own = [] → s.rs.flushDue = false → s.rs.resetDue = none → Yields (.recstoreAbort ch done) s fun t =>
      t.get (RECSTORE.C_STATUS_BUSY (chanIdx ch)) = 0 ∧ t.get (RECSTORE.C_STATUS_DONE (chanIdx ch)) = 1 ∧
      t.get (RECSTORE.C_STATUS_RESULT (chanIdx ch)) = 8 ∧ t.rs.queued = none ∧
      (∀ k, c.acts[done]? = some (.erase k) → k < 32 → t.bit RECSTORE.DIRTY_MASK_DIRTY k = true ∧ getBit t.rs.torn k = true) ∧
      (∀ o w, c.acts[done]? = some (.word o w) → ∀ a, t.byte a = (s.recActs (c.acts.take done)).byte a))) ∧
  (∀ (ms : List (Nat × List Byte)) (u : State) (s : State), ms ≠ [] → s.writeOwn ms = some u →
    (s.rs.cur.isSome = true → s.ownGroup ms = some { s with rs := { s.rs with own := s.rs.own ++ [ms] } }) ∧
    (s.rs.cur = none → s.ownGroup ms = some u)) ∧
  (∀ s : State, let u : State := { s with rs := { s.rs with cur := none, askedAt := none, own := [] } }
    (s.rs.flushDue = false → s.rs.resetDue = none → s.recFreed = s.rs.own.foldl (fun s ms => (s.writeOwn ms).getD s) u) ∧
    (∀ n, s.rs.own = [] → s.rs.flushDue = true → s.rs.resetDue = some n → s.recFreed = (State.flushLog { u with
      rs := { u.rs with flushDue := false, resetDue := none } }).fullReset n)) ∧
  (∀ (ch : Chan) (s : State), s.rs.mounted = true →
    let i := chanIdx ch
    let o := s.get (RECSTORE.C_ADDR_ADDR i) * 4
    let n := s.get (RECSTORE.C_LEN_LEN i)
    let key := s.get (RECSTORE.C_KEY_KEY i)
    let k := o / 0x800
    (∀ op, (s.recPlan ch op).result ≠ 0 → (s.recPlan ch op).acts = []) ∧
    ((s.recPlan ch 1).result = 0 → n % 4 = 0 ∧ 4 ≤ n ∧ n ≤ 1024 ∧ s.role k ≠ .data ∧ (s.role k = .log → ch = .s) ∧
      (s.recPlan ch 1).acts.length = n / 4 ∧ (∀ j, j < n / 4 → s.recWord (o + 4 * j) = 0xFFFFFFFF ∧
        (s.recPlan ch 1).acts[j]? = some (.word (o + 4 * j) (s.mem? (chanWindow ch + 4 * j) 4)))) ∧
    (4 ≤ n → n ≤ 1024 → n % 4 = 0 → o + n ≤ 0x10000 → s.role k = .data → (s.recPlan ch 1).result = 5) ∧
    (s.role k = .log → ch = .a → (s.recPlan ch 2).result = 5) ∧
    (s.role k ≠ .log ∨ ch = .s → (s.recPlan ch 2).result = 0 ∧ (s.recPlan ch 2).acts.head? = some (.erase k) ∧
      (s.role k = .data → (s.recPlan ch 2).acts[1]? = some (.word (secOff k) 0x53525351)) ∧
      (s.role k ≠ .data → (s.recPlan ch 2).acts = [.erase k])) ∧
    (keyOk ch key = false ∨ 1008 < n → (s.recPlan ch 3).result = 4) ∧
    (keyOk ch key = true → n ≤ 1008 →
      (∀ g, s.rs.group = some g → g.ch ≠ ch → (s.recPlan ch 3).result = 6) ∧
      (∀ g, s.rs.group = some g → g.ch = ch → s.indexFull key = false → g.reserved < g.used + recSize n + 24 →
        (s.recPlan ch 3).result = 7) ∧
      (s.rs.group = none → s.indexFull key = true → (s.recPlan ch 3).result = 0x0A) ∧
      ((s.recPlan ch 3).result = 0 → (s.recPlan ch 3).seq = some (s.nextSeq key) ∧
        (s.recPlan ch 3).acts.length ≥ recSize n / 4)) ∧
    (key = 0 ∨ 0xFFF0 < key → (s.recPlan ch 4).result = 4) ∧
    (1 ≤ key → key ≤ 0xFFF0 → s.winner key = none → (s.recPlan ch 4).result = 3) ∧
    (1 ≤ key → key ≤ 0xFFF0 → ∀ r, s.winner key = some r → r.key = key ∧ r ∈ s.found ∧ s.recValid s.found r = true ∧ (s.recPlan ch 4).result = 0 ∧
      (s.recPlan ch 4).acts = [] ∧ (s.recPlan ch 4).seq = some r.seq ∧ (s.recPlan ch 4).len = some r.len ∧
      (s.recPlan ch 4).addr = some (secOff r.sec + r.off + 12)) ∧
    (n < 24 ∨ 2032 < n → (s.recPlan ch 5).result = 4) ∧
    (24 ≤ n → n ≤ 2032 → s.rs.group.isSome = true → (s.recPlan ch 5).result = 6) ∧
    ((s.recPlan ch 5).result = 0 → (s.recPlan ch 5).group = some ⟨ch, s.nextGid, n, 0, []⟩ ∧
      (s.recPlan ch 5).gid = some s.nextGid) ∧
    (s.rs.group = none → (s.recPlan ch 6).result = 6 ∧ (s.recPlan ch 7).result = 6) ∧
    (∀ g, s.rs.group = some g → g.ch ≠ ch → (s.recPlan ch 6).result = 6 ∧ (s.recPlan ch 7).result = 6) ∧
    (∀ g, s.rs.group = some g → g.ch = ch → ((s.recPlan ch 6).group = if (s.recPlan ch 6).result = 0 then none else some g) ∧ (s.recPlan ch 7).result = 0 ∧
      (s.recPlan ch 7).acts = [] ∧ (s.recPlan ch 7).group = none) ∧
    (s.rs.group.isSome = true → (s.recPlan ch 8).result = 6) ∧
    (s.rs.group = none → s.role k ≠ .data → (s.recPlan ch 8).result = 5) ∧
    (s.rs.group = none → s.role k = .data → s.appendSector = some k → (s.recPlan ch 8).result = 4) ∧
    ((s.recPlan ch 8).result = 0 → .erase k ∈ (s.recPlan ch 8).acts))

/-- The store mounts once its domain is on, and the margin scan rewrites weak records. Mounting sets MOUNTED on both channels
and the interrupt bit, marks exactly the DATA sectors that are neither erased nor opened, and those cut off before, as
DIRTY, ends any group and leaves the store's bytes; the scan touches only the store's bytes and its counters, counts each
rewrite, and waits while a command or a group is open. (13_memories.md, R273, R275.) -/
def Obligations.MountingAndMarginScan : Prop :=
  (∀ s : State, s.rs.mounted = false → s.domOn .sys = true → Yields .mount s fun t => t.rs.mounted = true ∧
    t.get (RECSTORE.C_STATUS_MOUNTED 0) = 1 ∧ t.get (RECSTORE.C_STATUS_MOUNTED 1) = 1 ∧ t.get RECSTORE.IRQ_STAT_MOUNT = 1 ∧
    t.rs.group = none ∧ t.rs.closed = 0 ∧ SameMemory s t ∧ t.boot.loadPend = false ∧
    (∀ k : Fin 32, t.bit RECSTORE.DIRTY_MASK_DIRTY k = true ↔
      s.role k = .data ∧ (s.classify k = .dirty ∨ getBit s.rs.torn k = true))) ∧
  (∀ s : State, s.rs.mounted = true ∨ s.domOn .sys = false → exec .mount s = .next s) ∧
  (∀ (weak : List Nat) (s : State), s.on RECSTORE.CFG_SCAN_EN = true → s.rs.mounted = true → s.rs.cur = none → s.rs.group = none →
    s.domOn .sys = true → Yields (.marginScan weak) s fun t => t = { s with regs := t.regs, now := t.now, mem := t.mem } ∧
      (weak = [] → t.mem = s.mem) ∧ (∀ a, a < 0x0C000000 → t.byte a = s.byte a) ∧
      RegsOutside (fun a => blockOf a == some .recstore) s t) ∧
  (∀ (weak : List Nat) (s : State), s.rs.cur.isSome = true ∨ s.rs.group.isSome = true ∨ s.on RECSTORE.CFG_SCAN_EN = false →
    exec (.marginScan weak) s = .next s) ∧
  (∀ (o : Nat) (s : State), (s.refresh o).mem ≠ s.mem → (s.refresh o).get RECSTORE.REFRESH_CNT_COUNT =
    (s.count RECSTORE.REFRESH_CNT_COUNT RECSTORE.REFRESH_CNT_OVF).get RECSTORE.REFRESH_CNT_COUNT)

/-- Chip-level reports enter the log, repeats are counted, and the log is flushed into its sectors. The pending report of the
lowest source becomes the newest of at most 256 entries, or counts as a repeat of an equal unflushed newest entry, or waits
2 µs after the last entry; CHIP_POL = RESET makes it a full reset with the arbiter's code; an entry has 16 bytes; flushing
is due with 64 entries or after 10 s, waits for the store's command in progress, else leaves nothing unflushed where the
store is mounted and has a LOG sector, and changes no byte outside the LOG sectors; Scarab's resets follow the flush.
(14_management_trust.md, R22, R299, R300, R301, R302.) -/
def Obligations.EventLog : Prop :=
  (∀ (c : ChipPend) (s : State), s.nextChip = some c → c ∈ s.err.chip ∧ ∀ d ∈ s.err.chip, c.rep.src ≤ d.rep.src) ∧
  (∀ (c : ChipPend) (s : State), s.domOn .mgt = true → s.nextChip = some c →
    (s.sameAsNewest c.rep = false → s.log.lastNew ≠ 0 → s.tick + 1 < s.log.lastNew + 500 → exec .logReport s = .next s) ∧
    (s.get ERRAGG.CTRL_CHIP_POL ≠ 2 ∨ c.rep.info = true →
      (s.sameAsNewest c.rep = false → s.log.lastNew = 0 ∨ s.log.lastNew + 500 ≤ s.tick + 1 → Yields .logReport s fun t =>
        t.log.entries = (s.logEntry c.rep (min c.same 0xFFFF) :: s.log.entries).take 256 ∧
        t.log.unflushed = min 256 (s.log.unflushed + 1) ∧ t.log.lastNew = s.tick + 1 ∧ t.err.chip = s.err.chip.erase c ∧
        t = { s with log := t.log, err := t.err }) ∧
      (∀ e r, s.log.entries = e :: r → s.sameAsNewest c.rep = true → Yields .logReport s fun t =>
        t.log.entries = { e with rep := min (e.rep + (1 + c.same)) 0xFFFF } :: r ∧ t.log.unflushed = s.log.unflushed ∧
        t.err.chip = s.err.chip.erase c ∧ t = { s with log := t.log, err := t.err })) ∧
    (s.get ERRAGG.CTRL_CHIP_POL = 2 → c.rep.info = false → s.log.lastNew = 0 → s.rs.cur = none → s.rs.flushDue = false → Yields .logReport s fun t =>
      t.boot.code = 8 ∧ t.boot.released = false)) ∧
  (∀ (r : Report) (s : State), s.sameAsNewest r = true ↔ 0 < s.log.unflushed ∧ ∃ e, s.log.entries.head? = some e ∧
    e.src = r.src ∧ e.level = r.level ∧ e.cause = r.cause ∧ e.detail = r.detail) ∧
  (∀ e : LogEntry, (entryBytes e).length = 16 ∧ field (entryBytes e) 0 4 = e.calSec % 2 ^ 32 ∧ field (entryBytes e) 6 2 = e.rep % 2 ^ 16 ∧
    field (entryBytes e) 10 2 = e.cause % 2 ^ 16 ∧ field (entryBytes e) 12 4 = e.detail % 2 ^ 32) ∧
  (∀ s : State, s.log.unflushed < 64 → s.tick < s.log.flushedAt + 2500000000 → exec .logPeriodicFlush s = .next s) ∧
  (∀ s : State, s.domOn .mgt = true → 64 ≤ s.log.unflushed ∨ s.log.flushedAt + 2500000000 ≤ s.tick →
    let at_ := if s.log.flushedAt + 2500000000 ≤ s.tick then s.tick else s.log.flushedAt
    (s.rs.mounted = false ∨ s.logSectors = [] ∨ s.log.unflushed = 0 →
      exec .logPeriodicFlush s = .next { s with log := { s.log with flushedAt := at_ } }) ∧
    (s.rs.mounted = true → s.logSectors ≠ [] → s.log.unflushed ≠ 0 → s.rs.cur ≠ none →
      exec .logPeriodicFlush s = .next { s with rs := { s.rs with flushDue := true }, log := { s.log with flushedAt := at_ } }) ∧
    (s.rs.mounted = true → s.logSectors ≠ [] → s.rs.cur = none → Yields .logPeriodicFlush s fun t => t.log.unflushed = 0 ∧
      t.log.entries = s.log.entries ∧ (∀ a, a < 0x0C000000 ∨ 0x0C010000 ≤ a → t.byte a = s.byte a) ∧
      (∀ k j, k < 32 → j < 2048 → s.role k ≠ .log → t.byte (recAddr (secOff k) + j) = s.byte (recAddr (secOff k) + j)))) ∧
  (∀ (code : Nat) (s : State), let t := s.drainChip.flushLog
    (t.rs.flushDue = false → s.scarabReset code = t.fullReset code) ∧
    (t.rs.flushDue = true → s.scarabReset code = { t with rs := { t.rs with resetDue := some code } }))

/-- The Scarab mailbox's operations, and attestation. An operation starts unless the mailbox is BUSY; its end leaves RESULT,
DONE and BUSY 0: ATTEST checks the life cycle, a signature in progress and the address and writes the report, LOG_READ
returns an entry's four words, CHALLENGE returns a fresh challenge, an unknown operation ends 1; a nonce is answered with
the report of 180 bytes laid out as R285 says. (14_management_trust.md, R281, R284, R285.) -/
def Obligations.ScarabMailboxAndAttestation : Prop :=
  (∀ (op : Nat) (i : Instr) (s : State), (op, i) ∈ [(1, Instr.attest), (3, Instr.logRead), (4, Instr.challenge)] →
    s.accessible MBOX.CMD = true →
    (s.on MBOX.STAT_BUSY = true → exec i s = .next { s.set MBOX.CMD_OP op with bus := .ok 0 }) ∧
    (s.on MBOX.STAT_BUSY = false → exec i s =
      .next { (s.set MBOX.CMD_OP op).set MBOX.STAT_BUSY 1 with sc := { s.sc with op := some op }, bus := .ok 0 })) ∧
  (∀ s : State, s.accessible MBOX.CMD = true →
    (s.on MBOX.STAT_BUSY = true → exec .logFlush s = .next { s.set MBOX.CMD_OP 2 with bus := .ok 0 }) ∧
    (s.on MBOX.STAT_BUSY = false → Yields .logFlush s fun t => t.get MBOX.STAT_BUSY = 1 ∧ t.get MBOX.CMD_OP = 2 ∧
      t.sc = { s.sc with op := some 2 } ∧ (s.rs.mounted = true → s.logSectors ≠ [] → s.rs.cur = none → t.log.unflushed = 0))) ∧
  (∀ (op : Nat) (s : State), s.sc.op = some op → s.domOn .mgt = true →
    let ends (r : Nat) (t : State) : Prop := t.get MBOX.STAT_RESULT = r ∧ t.get MBOX.STAT_DONE = 1 ∧ t.get MBOX.STAT_BUSY = 0 ∧
      t.sc.op = none
    let a := s.get (MBOX.ARG_ARG 8)
    (op = 1 → s.marchHolds a 180 = true → exec .mailboxOperationDone s = .next s) ∧
    (op = 2 → s.rs.flushDue = true → exec .mailboxOperationDone s = .next s) ∧
    (op = 1 → s.marchHolds a 180 = false → s.lifeCycle = 0 ∨ s.lifeCycle = 4 → Yields .mailboxOperationDone s fun t => ends 3 t ∧ SameMemory s t) ∧
    (op = 1 → s.marchHolds a 180 = false → s.lifeCycle ≠ 0 → s.lifeCycle ≠ 4 → s.sc.attStatus = 1 →
      Yields .mailboxOperationDone s fun t => ends 4 t ∧ SameMemory s t) ∧
    (op = 1 → s.marchHolds a 180 = false → s.lifeCycle ≠ 0 → s.lifeCycle ≠ 4 → s.sc.attStatus ≠ 1 →
      (a < 0x20000000 ∨ 0x20080000 < a + 180 → Yields .mailboxOperationDone s fun t => ends 2 t ∧ SameMemory s t) ∧
      (0x20000000 ≤ a → a + 180 ≤ 0x20080000 → Yields .mailboxOperationDone s fun t => ends 0 t ∧ MemoryBut a 180 s t ∧
        t.bytes a 180 = s.attestReport ((List.range 8).flatMap fun i => leBytes 4 (s.get (MBOX.ARG_ARG i))))) ∧
    (op = 2 → s.rs.flushDue = false → Yields .mailboxOperationDone s fun t => ends 0 t ∧ SameMemory s t) ∧
    (op = 3 → ∀ e, s.log.entries[s.get (MBOX.ARG_ARG 0)]? = some e → Yields .mailboxOperationDone s fun t => ends 0 t ∧
      ∀ i : Fin 4, t.get (MBOX.ARG_ARG i) = field (entryBytes e) (4 * i) 4) ∧
    (op = 3 → s.log.entries.length ≤ s.get (MBOX.ARG_ARG 0) → Yields .mailboxOperationDone s fun t => ends 2 t ∧
      ∀ i, t.get (MBOX.ARG_ARG i) = s.get (MBOX.ARG_ARG i)) ∧
    (op = 4 → Yields .mailboxOperationDone s fun t => ends 0 t ∧ t.free = s.free + 1 ∧ ∃ c, t.sc.challenge = some c ∧
      c.length = 16 ∧ ∀ i : Fin 4, t.get (MBOX.ARG_ARG i) = field c (4 * i) 4) ∧
    (op = 0 ∨ 4 < op → Yields .mailboxOperationDone s fun t => ends 1 t ∧ SameMemory s t)) ∧
  (∀ s : State, s.sc.attStatus = 1 → s.domOn .mgt = true → exec .attestationSigned s =
    .next { s with sc := { s.sc with attStatus := 2, attReport := s.attestReport s.sc.attNonce } }) ∧
  (∀ (nonce : List Byte) (s : State), let r := s.attestReport nonce
    r.length = 180 ∧ field r 0 2 = 1 ∧ field r 2 1 = s.lifeCycle % 2 ^ 8 ∧ field r 4 8 = Config.uniqueId.toNat ∧
    (r.drop 20).take 32 = padTo 32 s.sc.mCfg ∧ (r.drop 52).take 32 = padTo 32 s.sc.mImg ∧ (r.drop 84).take 32 = padTo 32 nonce ∧
    r.drop 116 = padTo 64 (Config.ecdsaSign (r.take 116)))

/-- Temperature, supplies and the watchdog. A sample shows in TEMP; below 120 °C nothing is reported and at or below 115 °C the
report is armed again; at 120 °C a report is made pending once, at 135 °C every time, and every lane goes OFF; a low
supply's report, with the supply's number, is made pending, or counted as a repeat. A kick in its two halves, not too early,
starts a new period; a wrong value or an early kick expires the watchdog, the second half alone does nothing, and nothing
happens while it does not run; a warning is set when WARN_MS remain; expiry makes a full reset with the watchdog's code and
cause, where nothing of the record store delays it. (14_management_trust.md, R280, R297, R304, R305.) -/
def Obligations.SensorsSuppliesAndWatchdog : Prop :=
  (∀ (a b c : BitVec 10) (s : State), s.domOn .mgt = true →
    let l := [sgn 10 a.toNat, sgn 10 b.toNat, sgn 10 c.toNat]
    let u := ((s.set MBOX.TEMP_S0 a.toNat).set MBOX.TEMP_S1 b.toNat).set MBOX.TEMP_S2 c.toNat
    (Yields (.tempSample a b c) s fun t => t.get MBOX.TEMP_S0 = a.toNat ∧ t.get MBOX.TEMP_S1 = b.toNat ∧ t.get MBOX.TEMP_S2 = c.toNat) ∧
    ((∀ x ∈ l, x < 120) → exec (.tempSample a b c) s = .next { u with sc := { s.sc with
      tempArmed := s.sc.tempArmed || l.all fun x => decide (x ≤ 115) } }) ∧
    ((∃ x ∈ l, 120 ≤ x) → (∀ x ∈ l, x < 135) → s.sc.tempArmed = false → exec (.tempSample a b c) s = .next u) ∧
    ((∃ x ∈ l, 120 ≤ x) → s.sc.tempArmed = true ∨ (∃ x ∈ l, 135 ≤ x) → s.on (ERRAGG.SRC_PEND 48) = false →
      Yields (.tempSample a b c) s fun t => t.sc.tempArmed = false ∧ t.get (ERRAGG.SRC_PEND 48) = 1 ∧
        ∃ d, ⟨48, 8, d, 3, 0, false⟩ ∈ t.err.pend) ∧
    ((∃ x ∈ l, 135 ≤ x) → s.domOn .lane = true → Yields (.tempSample a b c) s fun t =>
      ∀ n : Fin 10, t.get (LANE.STAT_LSTATE n) = 0 ∧ t.get (LANE.CTRL_EN n) = 0)) ∧
  (∀ (vaon : Bool) (s : State), s.domOn .mgt = true →
    (s.on (ERRAGG.SRC_PEND 49) = false → exec (.supplyLow vaon) s = .next { s.set (ERRAGG.SRC_PEND 49) 1 with
      err := { s.err with pend := s.err.pend ++ [⟨49, 9, b2n vaon, 3, 0, false⟩] } }) ∧
    (s.on (ERRAGG.SRC_PEND 49) = true →
      exec (.supplyLow vaon) s = .next (s.count (ERRAGG.SRC_REPEAT 49) (ERRAGG.SRC_OVF 49)))) ∧
  (let free (s : State) : Prop := s.rs.flushDue = false ∧
    (s.rs.cur = none ∨ ∃ c, s.rs.cur = some c ∧ c.ch = .a ∧ s.rs.queued = none ∧ s.rs.own = [] ∧ s.rs.resetDue = none)
  (∀ (v : Word) (s : State), s.accessible MBOX.WDOG_KICK = true →
    (s.on MBOX.WDOG_CTRL_EN = false → exec (.wdogKick v) s = .next { s with bus := .ok 0 }) ∧
    (s.on MBOX.WDOG_CTRL_EN = true →
      (v.toNat = 0xA5A5 → exec (.wdogKick v) s = .next { s with sc := { s.sc with wdHalf := true }, bus := .ok 0 }) ∧
      (v.toNat = 0x5A5A → s.sc.wdHalf = false → exec (.wdogKick v) s = .next { s with bus := .ok 0 }) ∧
      (v.toNat = 0x5A5A → s.sc.wdHalf = true →
        s.get MBOX.WDOG_CTRL_WIN = 0 ∨ (∀ k, s.sc.wdLast = some k → k + 2 ^ (s.get MBOX.WDOG_CTRL_WIN - 1) * 250000 ≤ s.tick) →
        Yields (.wdogKick v) s fun t => t.get MBOX.WDOG_STAT_REMAIN = s.get MBOX.WDOG_CTRL_PERIOD % 2 ^ 16 ∧ t.sc.wdHalf = false ∧
          t.sc.wdLast = some s.tick ∧ OnlyRegs [MBOX.WDOG_STAT_REMAIN] { s with sc := t.sc } t) ∧
      (v.toNat ≠ 0xA5A5 → free s → v.toNat ≠ 0x5A5A ∨ (s.sc.wdHalf = true ∧ s.get MBOX.WDOG_CTRL_WIN ≠ 0 ∧
          ∃ k, s.sc.wdLast = some k ∧ s.tick < k + 2 ^ (s.get MBOX.WDOG_CTRL_WIN - 1) * 250000) →
        Yields (.wdogKick v) s fun t => t.boot.code = 4 ∧ t.boot.released = false ∧ t.get AONCTL.RST_CAUSE_WDOG = 1 ∧
          t.get MBOX.WDOG_CTRL_EN = 0))) ∧
  (∀ s : State, s.on MBOX.WDOG_CTRL_EN = true → s.domOn .mgt = true →
    (s.get MBOX.WDOG_STAT_REMAIN ≤ s.get MBOX.WDOG_CTRL_WARN_MS → exec .wdogWarn s = .next (s.set MBOX.WDOG_STAT_WARN 1)) ∧
    (s.get MBOX.WDOG_CTRL_WARN_MS < s.get MBOX.WDOG_STAT_REMAIN → exec .wdogWarn s = .next s)) ∧
  (∀ (pc : Word) (s : State), s.on MBOX.WDOG_CTRL_EN = true → s.domOn .mgt = true → s.get MBOX.WDOG_STAT_REMAIN = 0 →
    s.pwr.coldHold = false → free s → Yields (.wdogExpiry pc) s fun t => t.boot.code = 4 ∧ t.boot.released = false ∧ t.get AONCTL.RST_CAUSE_WDOG = 1 ∧
      t.get MBOX.WDOG_CTRL_EN = 0 ∧ t.mt = 0 ∧ t.get AONCTL.STEP_STEP = 0))

/-- The life cycle moves forward only, and debug unlock. R286's table permits only its changes, none backwards; the burned fuses
raise the state once the wipe has ended and a full reset follows, Scrapped burns the device key and Returned erases code
flash and boot configuration; an unlock attempt consumes the challenge, opens the permitted scopes when its signature
verifies, and counts a failure otherwise, the third in a row locking out; the life cycle gives the open scopes.
(14_management_trust.md, R286, R287, R288, R290.) -/
def Obligations.LifeCycleAndDebug : Prop :=
  (∀ a b : Nat, lcPermits a b = true ↔ (a, b) ∈ [(0, 1), (1, 2), (1, 4), (2, 3), (2, 4), (3, 4)]) ∧
  (∀ (t : Nat) (s : State), s.sc.lcTarget = some t →
    (s.on VAULTCTL.STAT_WIPING = true → exec .lifeCycleFusesBurned s = .next s) ∧
    (s.on VAULTCTL.STAT_WIPING = false → s.rs.cur = none → s.rs.flushDue = false → Yields .lifeCycleFusesBurned s fun u =>
      u.sc.fuse1 = max s.sc.fuse1 t ∧ u.sc.fuse2 = max s.sc.fuse2 t ∧ u.sc.fuse3 = max s.sc.fuse3 t ∧
      u.lifeCycle = max s.lifeCycle t ∧ u.sc.lcTarget = none ∧ u.sc.keyBurned = (s.sc.keyBurned || t == 4) ∧
      u.boot.code = 6 ∧ u.boot.released = false ∧
      (t = 3 → s.flash = none → (∀ tid, s.sc.lcReq ≠ some (.loc, tid)) →
        ∀ a, 0x08000000 ≤ a → a < 0x08210000 → u.byte a = 0xFF))) ∧
  (∀ s : State, s.sc.lcTarget = none → exec .lifeCycleFusesBurned s = .next s) ∧
  (∀ (d : List Byte) (s : State),
    (s.sc.lcTarget.isSome = true → s.unlockOp d = (Abort.state, s)) ∧
    (s.sc.lcTarget = none → s.sc.lockout = true → s.unlockOp d = (Abort.access, s)) ∧
    (s.sc.lcTarget = none → s.sc.lockout = false → (s.unlockOp d).2.sc.challenge = none ∧
      (s.unlockVerifies d = true → field d 0 1 &&& (255 - s.unlockScopes) = 0 → (s.unlockOp d).1 = 0 ∧
        (s.unlockOp d).2.sc = { s.sc with challenge := none, scopes := s.sc.scopes ||| field d 0 1, failRun := 0,
                                          debugEver := s.sc.debugEver || field d 0 1 != 0 }) ∧
      (s.unlockVerifies d = false ∨ field d 0 1 &&& (255 - s.unlockScopes) ≠ 0 → (s.unlockOp d).1 = Abort.access ∧
        (s.unlockOp d).2.sc = { s.sc with challenge := none, fails := s.sc.fails + 1, failRun := s.sc.failRun + 1,
                                          lockout := decide (3 ≤ s.sc.failRun + 1) })) ∧
    (s.sc.challenge = none → s.unlockVerifies d = false)) ∧
  (∀ s : State, (s.lifeCycle = 0 → s.openScopes = 7) ∧ (s.lifeCycle = 1 → s.openScopes = 3) ∧ (s.lifeCycle = 4 → s.openScopes = 0) ∧
    (s.lifeCycle = 2 ∨ s.lifeCycle = 3 → s.openScopes = s.sc.scopes))

/-- A tamper starts the wipe and is recorded; the TAP's instructions. A detector that is enabled and armed records a tamper once
until its level returns, the pair and the mesh once until their condition has been absent for 4 slow-clock periods; a tamper
starts the wipe with its cause, sets its event bit, counts, is remembered, and calls for a full reset where TMP_CFG.RESET
says so; a detector that is off records nothing; BYPASS, IDCODE and the boundary-scan instructions answer, a read of UNLOCK
gives a fresh challenge, a debug instruction at a closed scope shifts out zeros and one at an open scope is the one command
the model refuses. (14_management_trust.md, R289, R290, R292, R293, R294.) -/
def Obligations.CarapaceAndTap : Prop :=
  (∀ (d : Fin 4) (s : State), s.pwr.step ≠ .cold → let t := s.tamper d
    t.get VAULTCTL.STAT_CAUSE_TAMPER = 1 ∧ t.get VAULTCTL.STAT_WIPING = 1 ∧ t.bit VAULTCTL.TMP_STAT_EV d = true ∧
    t.get VAULTCTL.TMP_CNT_COUNT = (s.count VAULTCTL.TMP_CNT_COUNT VAULTCTL.TMP_CNT_OVF).get VAULTCTL.TMP_CNT_COUNT ∧
    t.sc.tamperEver = true ∧ t.sc.tamperReset = (s.sc.tamperReset || s.on VAULTCTL.TMP_CFG_RESET) ∧ SameMemory s t ∧
    (s.pwr.req = none → s.domOn .mgt = false → t.sc.tamperReports = s.sc.tamperReports ++ [d.1])) ∧
  (∀ (k : Fin 2) (level : Bool) (s : State), s.pwr.step ≠ .cold →
    let mode := s.on (if k = 0 then VAULTCTL.TMP_CFG_MODE0 else VAULTCTL.TMP_CFG_MODE1)
    let lvl := s.on (if k = 0 then VAULTCTL.TMP_CFG_LVL0 else VAULTCTL.TMP_CFG_LVL1)
    let arm (b : Bool) : State := { s with sc := { s.sc with detArmed := setBit s.sc.detArmed k b } }
    (mode = false ∨ s.on VAULTCTL.TMP_CFG_PAIR = true → exec (.staticTamper k level) s = .next s) ∧
    (mode = true → s.on VAULTCTL.TMP_CFG_PAIR = false →
      (level = lvl → exec (.staticTamper k level) s = .next (arm true)) ∧
      (level ≠ lvl → getBit s.sc.detArmed k = true → exec (.staticTamper k level) s = .next ((arm false).tamper k)) ∧
      (level ≠ lvl → getBit s.sc.detArmed k = false → exec (.staticTamper k level) s = .next s))) ∧
  (∀ s : State, s.pwr.step ≠ .cold →
    (s.on VAULTCTL.TMP_CFG_PAIR = true → let u : State := { s with sc := { s.sc with pairSeen := some s.slow } }
      ((∀ p, s.sc.pairSeen = some p → p + 35 < s.slow) → exec .pairTamper s = .next (u.tamper 2)) ∧
      (∀ p, s.sc.pairSeen = some p → s.slow ≤ p + 35 → exec .pairTamper s = .next u)) ∧
    (s.on VAULTCTL.TMP_CFG_PAIR = false → exec .pairTamper s = .next s) ∧
    (s.on VAULTCTL.TMP_CFG_MESH_EN = true ∨ s.lifeCycle = 2 ∨ s.lifeCycle = 3 →
      let u : State := { s with sc := { s.sc with meshSeen := some s.slow } }
      ((∀ p, s.sc.meshSeen = some p → p + 4 < s.slow) → exec .meshTamper s = .next (u.tamper 3)) ∧
      (∀ p, s.sc.meshSeen = some p → s.slow ≤ p + 4 → exec .meshTamper s = .next u)) ∧
    (s.on VAULTCTL.TMP_CFG_MESH_EN = false → s.lifeCycle ≠ 2 → s.lifeCycle ≠ 3 → exec .meshTamper s = .next s)) ∧
  (∀ (tdi : Bool) (s : State),
    (Yields (.tapAccess (.bypass tdi)) s fun t => t.sent = .tdo (2 * b2n tdi) :: s.sent ∧ t.sc = { s.sc with tapIr := 15 } ∧ t.regs = s.regs) ∧
    (Yields (.tapAccess .idcode) s fun t => t.sent = .tdo 0x21040C6B :: s.sent ∧ t.sc = { s.sc with tapIr := 1 } ∧ t.regs = s.regs) ∧
    (Yields (.tapAccess .samplePreload) s fun t => t.free = s.free + 1 ∧ t.sc = { s.sc with tapIr := 2 } ∧ t.regs = s.regs) ∧
    (Yields (.tapAccess .extest) s fun t => t.free = s.free + 1 ∧ t.sc = { s.sc with tapIr := 0 } ∧ t.regs = s.regs) ∧
    (s.domOn .mgt = true → Yields (.tapAccess .unlockRead) s fun t => ∃ c, t.sc.challenge = some c ∧ c.length = 16 ∧
      t.sent = .tdo (leNat c) :: s.sent) ∧
    (∀ d, s.domOn .mgt = true → exec (.tapAccess (.unlockWrite d)) s =
      .next { (s.unlockOp d).2 with sc := { (s.unlockOp d).2.sc with tapIr := 3 } }) ∧
    (∀ k : Fin 3, getBit s.openScopes k = false → Yields (.tapAccess (.debug k)) s fun t => t.sent = .tdo 0 :: s.sent ∧ t.regs = s.regs) ∧
    (∀ k : Fin 3, getBit s.openScopes k = true → exec (.tapAccess (.debug k)) s = .refused .debugInstruction))

/-- What a full reset and a power-on reset leave, and the commands that make them. A full reset puts every register outside
PD_AON at its reset value (SVCWIRE.ADDR and the mode's copy in PWRCTL apart), keeps PD_AON's registers (the step, the reset
cause and DISC_ACT apart), OTP but for what a cut life-cycle change had burned, and, with no work on a memory cut off, every
byte; a power-on reset puts every register but the mode's at its reset value and loses every memory but flash, boot
configuration and record store. RESET_N held low on a cold device is noted alone. RESET_N, SWRST with its key by the
application core in machine mode, and the dictionary's reset request make full resets with their codes.
(16_reset_startup_update.md, R179, R210, R224, R242, R329.) -/
def Obligations.FullAndPowerOnResets : Prop :=
  (∀ (code : Nat) (s : State), let t := s.fullReset code
    t.boot.code = code ∧ t.boot.released = false ∧ (s.pwr.coldHold = false → t.pwr.step = .run) ∧ t.mt = 0 ∧ t.timeValid = false ∧ t.cal = s.cal ∧
    t.rtc.sub = s.rtc.sub ∧ t.touch = {} ∧ t.engines = Vector.replicate 10 {} ∧ t.lanes = Vector.replicate 10 {} ∧
    (s.sc.lcTarget = none → (t.sc.fuse1, t.sc.fuse2, t.sc.fuse3, t.sc.keyBurned) =
      (s.sc.fuse1, s.sc.fuse2, s.sc.fuse3, s.sc.keyBurned)) ∧
    (∀ x, s.sc.lcTarget = some x → t.lifeCycle = s.lifeCycle ∨ t.lifeCycle = max s.lifeCycle x) ∧ t.sc.lcTarget = none ∧
    t.sc.ownerHash = s.sc.ownerHash ∧ t.sc.scopes = 0 ∧ t.sc.challenge = none ∧
    t.log = s.log ∧ t.pending = s.pending ∧
    (∀ (f : RF) (b : Block), f.lo < 32 → blockOf f.addr = some b → b.dom ≠ .aon → f.addr ≠ SVCWIRE.ADDR → f.addr ≠ PWRCTL.STAT →
      t.get f = fieldReset f.key) ∧
    (∀ (f : RF) (b : Block), f.lo < 32 → blockOf f.addr = some b → b.dom = .aon → f.addr ∉ [AONCTL.STEP, AONCTL.RST_CAUSE, RTC.STAT] →
      s.sc.lcTarget = none ∨ f.addr ≠ VAULTCTL.STAT → t.get f = s.get f) ∧
    (s.flash = none → s.on MEMCTL.MT_STAT_BUSY = false → s.rs.cur = none → s.dl.st ≠ 1 → s.sc.lcTarget = none → SameMemory s t)) ∧
  (∀ (vin : Bool) (s : State), exec (.powerOnReset vin) s = .next (s.coldReset vin) ∧ let t := s.coldReset vin
    t.boot = {} ∧ t.pwr = {} ∧ t.rtc = {} ∧ t.mt = 0 ∧ t.on AONCTL.MODE_DOCKED = vin ∧
    (s.sc.lcTarget = none → t.lifeCycle = s.lifeCycle) ∧
    (∀ x, s.sc.lcTarget = some x → t.lifeCycle = s.lifeCycle ∨ t.lifeCycle = max s.lifeCycle x) ∧
    t.sc.ownerHash = s.sc.ownerHash ∧
    (∀ f : RF, f.lo < 32 → f.addr ≠ AONCTL.MODE → f.addr ≠ PWRCTL.STAT → t.get f = fieldReset f.key) ∧
    (∀ a, memUnlisted a = none → Store.get memUnlisted a t.mem = none)) ∧
  (∀ s : State,
    (s.pwr.step ≠ .cold → Yields (.pinReset true) s fun t => t.boot.code = 2 ∧ t.boot.resetHeld = true ∧
      t.boot.released = false ∧ t.get AONCTL.RST_CAUSE_PIN = 1) ∧
    (s.pwr.step = .cold → exec (.pinReset true) s = .next { s with boot := { s.boot with resetHeld := true } }) ∧
    exec (.pinReset false) s = .next { s with boot := { s.boot with resetHeld := false } } ∧
    (s.dict.resetPend = true → s.dict.resetAt + 25000 ≤ s.tick → exec .dictFullReset s = .next (s.fullReset 3)) ∧
    (s.dict.resetPend = false ∨ s.tick < s.dict.resetAt + 25000 → exec .dictFullReset s = .next s)) ∧
  (∀ (m : Master) (mach : Bool) (v : Word) (s : State), s.accessible RSTCTL.SWRST = true →
    (m = .app → mach = true → bits v.toNat 15 0 = 0x0A5C → exec (.swrst m mach v) s = .next { s.fullReset 11 with bus := .ok 0 }) ∧
    (m = .app → mach = false ∨ bits v.toNat 15 0 ≠ 0x0A5C → exec (.swrst m mach v) s = .next { s with bus := .ok 0 }) ∧
    (m = .scarab → exec (.swrst m mach v) s = .next { s with bus := .ok 0 }) ∧
    (m = .cricket → Yields (.swrst m mach v) s fun t => t.bus = .error ∧ t.boot = s.boot))

/-- Start-up: the slot that is selected, and what the released core finds. The rules of R333 in their order: the strap, three
failed starts, a failed trial that rolls back, a pending image that passes goes on trial, the active image, the other one,
recovery; START_UP then clears the first SRAM bank it does not test, completes the fuses, counts the start, measures the
image, shows the selection, starts the watchdog as configured and releases the core unless the device is Scrapped.
(16_reset_startup_update.md, R288, R333, R341.) -/
def Obligations.StartUpSelectsTheImage : Prop :=
  (∀ s : State, let x := s.select
    let c := s.bootCfg
    (s.boot.strap = true → x.entry = 1 ∧ x.slot = c.active ∧ x.trial = s.boot.trial) ∧
    (s.boot.strap = false → 3 ≤ s.boot.bootFail → x.entry = 3 ∧ x.slot = c.active) ∧
    (s.boot.strap = false → s.boot.bootFail < 3 →
      (s.boot.trial = true → x.trial = false ∧ x.trialFail = true ∧ x.rolledBack = true) ∧
      (s.boot.trial = false → s.boot.trialFail = false → c.pend ≠ 0xFF → c.pend ≠ c.active → s.headerOk c.pend = true →
        x = ⟨c.pend, 0, true, false, false⟩) ∧
      (s.boot.trial = true ∨ s.boot.trialFail = true ∨ c.pend = 0xFF ∨ c.pend = c.active ∨ s.headerOk c.pend = false →
        x.trial = false ∧
        (s.headerOk c.active = true → x.slot = c.active ∧ x.entry = 0) ∧
        (s.headerOk c.active = false → s.headerOk (1 - c.active) = true → x.slot = 1 - c.active ∧ x.entry = 0) ∧
        (s.headerOk c.active = false → s.headerOk (1 - c.active) = false → x.entry = 2)))) ∧
  (∀ (strap : Bool) (fails : Byte) (s : State), s.boot.released = false → s.boot.resetHeld = false → s.pwr.coldHold = false →
    s.domOn .sys = true →
    let b : State := { s with boot := { s.boot with strap := strap } }
    let u := (b.completeFuses.fill 0x20000000 0x10000 0).startMarch fails.toNat
    Yields (.startUp strap fails) s fun t => t.boot.slot = u.select.slot ∧ t.boot.trial = u.select.trial ∧ t.boot.trialFail = u.select.trialFail ∧
      t.boot.withdraw = (s.boot.withdraw || u.select.rolledBack) ∧
      t.boot.bootFail = min 15 (s.boot.bootFail + 1) ∧ t.boot.released = decide (s.lifeCycle ≠ 4) ∧
      t.get RSTCTL.CAUSE_ENTRY = u.select.entry ∧ t.get VAULTCTL.STAT_MCACHE_VALID = 1 ∧ t.lifeCycle = s.lifeCycle ∧
      s.lifeCycle ≤ t.sc.fuse1 ∧ s.lifeCycle ≤ t.sc.fuse2 ∧ s.lifeCycle ≤ t.sc.fuse3 ∧
      (u.select.entry ≠ 0 → t.boot.startPc = 0) ∧
      (u.bootCfg.wdogMs ≠ 0 → t.get MBOX.WDOG_CTRL_EN = 1 ∧ t.get MBOX.WDOG_CTRL_PERIOD = u.bootCfg.wdogMs) ∧
      t.get MEMCTL.START_RES_TESTED = s.bootCfg.march ∧
      (getBit s.bootCfg.march 0 = false → ∀ a, 0x20000000 ≤ a → a < 0x20010000 → t.byte a = 0)) ∧
  (∀ (strap : Bool) (fails : Byte) (s : State), s.boot.released = true ∨ s.boot.resetHeld = true ∨ s.pwr.coldHold = true ∨
    s.domOn .sys = false → exec (.startUp strap fails) s = .next s)

/-- A written boot configuration is the one in force. For every state and every boot configuration whose fields fit: after
Scarab writes it, the configuration in force is the written one, with a SEQ one newer than the one before (1 where there was
none); the copy that was in force before is untouched, and only the other copy's flash changes. (16_reset_startup_update.md,
R18, R330, R331.) -/
def Obligations.BootConfigurationWrites : Prop :=
  ∀ (b : BootCfg) (s : State), b.active < 256 → b.pend < 256 → b.wdogMs < 65536 → b.march < 256 → b.keyHash.length = 32 →
    (s.writeBoot b).bootCfg = { b with seq := (s.bootInForce.map fun p => (p.2.seq + 1) % 65536).getD 1 } ∧
    (∀ k x, s.bootInForce = some (k, x) → (s.writeBoot b).bootCopy k = some x ∧
      MemoryBut (bootAddr (1 - k)) 0x8000 s (s.writeBoot b)) ∧
    (∀ p, p < 256 → (s.setPend p).bootCfg.pend = p ∧ (s.setPend p).bootCfg.active = s.bootCfg.active ∧
      (s.setPend p).bootCfg.keyHash = s.bootCfg.keyHash)

/-- A download: the erased slot, the data, the checks. BEGIN aims at the slot that is not running, in recovery at the one other
than ACTIVE or at ACTIVE's where its header fails; the erase leaves the inactive slot blank and asks for the header; DATA is
turned away by state, length, low-power mode and offset in this order, a word that reads back wrong refuses the download,
and bytes of the body go to the slot at their offset and are counted; verification ends VALID, or REFUSED with the first
failed check's reason, SIG last. (16_reset_startup_update.md, R332, R335, R336.) -/
def Obligations.DownloadsAndVerification : Prop :=
  (∀ s : State,
    (s.dl.st = 1 → s.inactive ≤ 1 → Yields .downloadSlotErased s fun t => t.dl = { s.dl with st := 2 } ∧
      (∀ a, slotBase s.inactive ≤ a → a < slotBase s.inactive + 0x100000 → t.byte a = 0xFF) ∧
      MemoryBut (slotBase s.inactive) 0x100000 s t ∧ t = { s with mem := t.mem, dl := t.dl }) ∧
    (s.dl.st ≠ 1 → exec .downloadSlotErased s = .next s)) ∧
  (∀ (d : List Byte) (ok : Bool) (s : State), let n := d.length
    (s.dl.st ≠ 2 → s.dl.st ≠ 3 → s.dlData d ok = (Abort.state, s)) ∧
    (s.dl.st = 2 ∨ s.dl.st = 3 →
      (n < 4 ∨ 256 < n ∨ n % 4 ≠ 0 → s.dlData d ok = (Abort.badLength, s)) ∧
      (4 ≤ n → n ≤ 256 → n % 4 = 0 →
        (s.regNormal = false → s.dlData d ok = (0, s.dlRefuse 0x0A)) ∧
        (s.regNormal = true → s.dl.offset ≠ s.dl.held → s.dlData d ok = (0, s.dlRefuse 0x09)) ∧
        (s.regNormal = true → s.dl.offset = s.dl.held →
          (ok = false → (s.dlData d ok).1 = 0 ∧ (s.dlData d ok).2.dl = { s.dl with st := 6, reason := 0x0B }) ∧
          (ok = true → s.dl.st = 3 → hdrLength (s.header s.inactive) < s.dl.held + n → s.dlData d ok = (Abort.range, s)) ∧
          (ok = true → s.dl.st = 3 → s.dl.held + n ≤ hdrLength (s.header s.inactive) → let t := (s.dlData d ok).2
            (s.dlData d ok).1 = 0 ∧ t.bytes (slotBase s.inactive + s.dl.held) n = d ∧
            t.dl = { s.dl with held := s.dl.held + n, offset := s.dl.offset + n } ∧ t.get VAULTCTL.STAT_MCACHE_VALID = 0 ∧
            MemoryBut (slotBase s.inactive + s.dl.held) n s t) ∧
          (ok = true → s.dl.st = 2 → s.dl.held + n < 192 → let t := (s.dlData d ok).2
            (s.dlData d ok).1 = 0 ∧ t.bytes (slotBase s.inactive + s.dl.held) n = d ∧
            t.dl = { s.dl with held := s.dl.held + n, offset := s.dl.offset + n }))))) ∧
  (∀ s : State, s.dl.st = 4 →
    (s.headerReason (s.header s.inactive) ≠ 0 →
      exec .downloadVerified s = .next (s.dlRefuse (s.headerReason (s.header s.inactive)))) ∧
    (s.headerReason (s.header s.inactive) = 0 → s.sigOk s.inactive = true →
      exec .downloadVerified s = .next { s with dl := { s.dl with st := 5 } }) ∧
    (s.headerReason (s.header s.inactive) = 0 → s.sigOk s.inactive = false → exec .downloadVerified s = .next (s.dlRefuse 0x08))) ∧
  (∀ s : State, s.dl.st ≠ 4 → exec .downloadVerified s = .next s) ∧
  (∀ s : State, s.dl.st = 0 ∨ s.dl.st = 5 ∨ s.dl.st = 6 →
    (s.regNormal = false → s.dlBegin = (0, s.dlRefuse 0x0A)) ∧
    (s.regNormal = true → let t := s.dlBegin.2
      let a := s.bootCfg.active
      s.dlBegin.1 = 0 ∧ t.dl = { s.dl with st := 1, offset := 0, held := 0 } ∧
      t.inactive = (if s.boot.recovery = false then 1 - s.boot.slot else if s.headerOk a = true then 1 - a else a))) ∧
  (∀ (r : Nat) (s : State), s.dlRefuse r = { s with dl := { s.dl with st := 6, reason := r } })

/-- An activation at its instant, a trial's confirmation, its time-out and deferred writes. At the committed instant a valid
time makes the activation's full reset, and a lost time withdraws it; a confirmation clears BOOTFAIL and ends a trial by
making the pending slot the active one, at once or when the regulator is next in normal mode; a trial that is not confirmed
in time makes a full reset; deferred promotions and withdrawals are written in normal mode only.
(16_reset_startup_update.md, R331, R338, R339.) -/
def Obligations.ActivationTrialAndRollback : Prop :=
  (∀ (t : Nat) (s : State), s.dl.armedAt = some t → s.dl.st = 7 →
    (s.due t = false → exec .activationInstant s = .next s) ∧
    (s.due t = true → s.timeValid = true → Yields .activationInstant s fun u => u.boot.code = 9 ∧ u.boot.released = false) ∧
    (s.due t = true → s.timeValid = false → Yields .activationInstant s fun u => u.dl.st = 5 ∧ u.dl.reason = 0x0C ∧
      u.dl.armedAt = none ∧ (s.regNormal = true → u.bootCfg.pend = 0xFF) ∧ (s.regNormal = false → u.boot.withdraw = true))) ∧
  (∀ s : State, s.dl.armedAt = none ∨ s.dl.st ≠ 7 → exec .activationInstant s = .next s) ∧
  (∀ s : State, s.accessible RSTCTL.HEALTH = true → Yields .healthConfirm s fun t => t.boot.bootFail = 0 ∧
    t.get RSTCTL.CAUSE_BOOTFAIL = 0 ∧ t.get RSTCTL.CAUSE_TRIAL = 0 ∧ t.get RSTCTL.HEALTH_REMAIN = 0 ∧ t.onTrial = false ∧
    (s.onTrial = false → SameMemory s t ∧ t.boot = { s.boot with bootFail := 0 }) ∧
    (s.onTrial = true → s.regNormal = true → t.bootCfg.active = s.bootCfg.pend ∧ t.bootCfg.pend = 0xFF) ∧
    (s.onTrial = true → s.regNormal = false → t.boot.promotePend = true ∧ SameMemory s t)) ∧
  (∀ s : State,
    (s.onTrial = true → s.boot.released = true → s.boot.releasedAt + 500000000 ≤ s.tick → s.rs.cur = none → s.rs.flushDue = false →
      Yields .trialTimeout s fun t => t.boot.code = 10 ∧ t.boot.released = false ∧
      t.boot.trial = true) ∧
    (s.onTrial = false ∨ s.boot.released = false ∨ s.tick < s.boot.releasedAt + 500000000 → exec .trialTimeout s = .next s)) ∧
  (∀ s : State,
    (s.regNormal = false ∨ s.domOn .mgt = false → exec .promotePendingWrite s = .next s) ∧
    (s.regNormal = true → s.domOn .mgt = true →
      (s.boot.promotePend = true → Yields .promotePendingWrite s fun t => t.bootCfg.active = s.bootCfg.pend ∧
        t.bootCfg.pend = 0xFF ∧ t.boot.promotePend = false) ∧
      (s.boot.promotePend = false → s.boot.withdraw = true → s.bootCfg.pend ≠ 0xFF →
        Yields .promotePendingWrite s fun t => t.bootCfg.pend = 0xFF ∧ t.bootCfg.active = s.bootCfg.active ∧ t.boot.withdraw = false) ∧
      (s.boot.promotePend = false → s.boot.withdraw = false ∨ s.bootCfg.pend = 0xFF →
        exec .promotePendingWrite s = .next s)))

/-- The machine at reset. At reset the registers and memories are in canonical form, nothing is listed in memory, no command
waits and nothing has been sent; every register field reads the reset value of its table's row; code flash, boot
configuration and record store read erased (the model's choice, log entry 4), and where a table says "see text" the value is
the model's choice (log entry 3). (00_scope.md, 01_architecture.md, R33, R329.) -/
def Obligations.ResetValues : Prop :=
  State.reset.Canonical ∧ State.reset.mem = [] ∧ State.reset.pending = [] ∧ State.reset.sent = [] ∧
  (∀ (a : Nat) (f : Fld), f ∈ fieldsAt a → State.reset.get ⟨a, f.hi, f.lo⟩ = f.rst) ∧
  (∀ a, 0x08000000 ≤ a → a < 0x08210000 → State.reset.byte a = 0xFF) ∧
  (∀ a, 0x0C000000 ≤ a → a < 0x0C010000 → State.reset.byte a = 0xFF)

/-- Every step keeps the registers and the memories in canonical form. For every state s whose registers and memories are in
canonical form (keys and addresses strictly rising, no entry equal to what an unlisted key or address reads as) and every
next state t of step s, whatever command is at the front of the queue or with none waiting: t's registers and memories are
in canonical form. (00_scope.md, R15.) -/
def Obligations.StepKeepsCanonicalForm : Prop :=
  ∀ s t : State, s.Canonical → step s = .next t → t.Canonical

/-- A step takes the front command and no other; what is burned in one-time programmable memory stays burned. For every state s
and every next state t of step s: the queue of t is that of s without its front command; the life-cycle fuses of t are at or
above those of s, an owner key hash that s holds t holds unchanged, and a burned device key stays burned.
(14_management_trust.md, R279.) -/
def Obligations.StepKeepsQueueAndOtp : Prop :=
  ∀ s t : State, step s = .next t → t.pending = s.pending.tail ∧
    s.sc.fuse1 ≤ t.sc.fuse1 ∧ s.sc.fuse2 ≤ t.sc.fuse2 ∧ s.sc.fuse3 ≤ t.sc.fuse3 ∧
    (∀ h, s.sc.ownerHash = some h → t.sc.ownerHash = some h) ∧ (s.sc.keyBurned = true → t.sc.keyBurned = true)

/-- Every command answers a next state in every state, but for a debug instruction whose scope is open. For every command c and
state s, exec answers a next state, except that a TAP debug instruction for a scope that is open is refused as
debugInstruction, because the spec does not give what debug instructions do. (14_management_trust.md, R290.) -/
def Obligations.EveryCommandCompletes : Prop :=
  (∀ (c : Instr) (s : State), (∀ k : Fin 3, c = .tapAccess (.debug k) → getBit s.openScopes k = false) → isNext (exec c s) = true) ∧
  (∀ (k : Fin 3) (s : State), getBit s.openScopes k = true → exec (.tapAccess (.debug k)) s = .refused .debugInstruction)

/-- A counter stops at its maximum, OVF says that an event was lost, and clearing OVF clears the counter. For every counter
field and every one-bit OVF field apart from it: below the maximum an increment adds 1 and leaves OVF; at the maximum it
leaves the counter, which goes on reading the maximum, and sets OVF; nothing else changes. For every OVF bit of the register
tables: a write of 1 to it clears the counter and the bit, whatever OVF held, but the increments of the same clock are
counted after the clear, so the counter then reads their number; a write of 0 changes neither, and an increment after the
clear reads 1. (R16.) -/
def Obligations.CountersSaturate : Prop :=
  (∀ (cnt ovf : RF) (s : State), cnt.key ≠ ovf.key → ovf.hi = ovf.lo →
    (s.get cnt < cnt.bound - 1 → (s.count cnt ovf).get cnt = s.get cnt + 1 ∧ (s.count cnt ovf).get ovf = s.get ovf) ∧
    (s.get cnt = cnt.bound - 1 → (s.count cnt ovf).get cnt = cnt.bound - 1 ∧ (s.count cnt ovf).get ovf = 1) ∧
    (s.count cnt ovf).now.counted = cnt.key :: s.now.counted ∧ OnlyRegs [cnt, ovf] s (s.count cnt ovf)) ∧
  (∀ (a v hi lo : Nat) (f : Fld) (p : Fld → Bool) (locked : Bool) (s : State), f ∈ fieldsAt a → f.acc = .ovf hi lo → p f = true →
    let t := s.writeFields p a v locked
    let c : RF := ⟨a, hi, lo⟩
    let n := s.now.counted.count c.key
    (getBit v f.lo = true → t.get c = min (c.bound - 1) n ∧ t.get ⟨a, f.hi, f.lo⟩ = 0 ∧
      (n = 0 → (t.count c ⟨a, f.hi, f.lo⟩).get c = 1)) ∧
    (getBit v f.lo = false → t.get ⟨a, hi, lo⟩ = s.get ⟨a, hi, lo⟩ ∧ t.get ⟨a, f.hi, f.lo⟩ = s.get ⟨a, f.hi, f.lo⟩)) ∧
  (∀ (m : Master) (mach : Bool) (a hi lo : Nat) (v : Word) (f : Fld) (s : State) (b : Block), blockOf a = some b →
    b ∈ [Block.memctl, .erragg, .schedld, .aonctl] → mayReg m true b a = true → a % 4 = 0 → s.accessible a = true →
    s.lockedAt b = false → f ∈ fieldsAt a → f.row = false → f.acc = .ovf hi lo → getBit v.toNat f.lo = true →
    Yields (.registerWrite m mach .word a v) s fun t =>
      t.get ⟨a, hi, lo⟩ = min (RF.bound ⟨a, hi, lo⟩ - 1) (s.now.counted.count (RF.key ⟨a, hi, lo⟩)) ∧ t.get ⟨a, f.hi, f.lo⟩ = 0)

end
end

