-- ==== Sys2Proof/Laws/Store.lean ====
section
/-!
SUPPORT. The sparse map: what a read gives after a write, and that every operation on it keeps the canonical form.
-/
namespace Sys2Proof.Machine.Store

variable {β : Type}

theorem find?_insert_self (k : Nat) (v : β) (m : List (Nat × β)) : find? k (insert k v m) = some v := by
  induction m with
  | nil => simp [insert, find?]
  | cons c t ih =>
    obtain ⟨k', v'⟩ := c
    simp only [insert]
    split
    · simp [find?]
    · split
      · simp [find?]
      · simp [find?, *]

theorem find?_insert_other {k g : Nat} (h : g ≠ k) (v : β) (m : List (Nat × β)) : find? g (insert k v m) = find? g m := by
  induction m with
  | nil => simp [insert, find?, Ne.symm h]
  | cons c t ih =>
    obtain ⟨k', v'⟩ := c
    simp only [insert]
    split
    · simp [find?, Ne.symm h]
    · split
      · subst_vars; simp [find?, Ne.symm h]
      · simp [find?, ih]

theorem find?_filter_pos {p : Nat × β → Bool} {g : Nat} (h : ∀ v, p (g, v) = true) (m : List (Nat × β)) :
    find? g (m.filter p) = find? g m := by
  induction m with
  | nil => rfl
  | cons c t ih =>
    obtain ⟨k', v'⟩ := c
    by_cases hk : k' = g
    · subst hk; simp [h, find?]
    · by_cases hp : p (k', v') = true <;> simp [hp, find?, hk, ih]

theorem find?_filter_neg {p : Nat × β → Bool} {g : Nat} (h : ∀ v, p (g, v) = false) (m : List (Nat × β)) :
    find? g (m.filter p) = none := by
  induction m with
  | nil => rfl
  | cons c t ih =>
    obtain ⟨k', v'⟩ := c
    by_cases hp : p (k', v') = true
    · have : k' ≠ g := by rintro rfl; simp [h] at hp
      simp [hp, find?, this, ih]
    · simp [hp, ih]

/-- A key reads as what was put under it. -/
theorem get_put_self [DecidableEq β] (d : Nat → Option β) (k : Nat) (v : β) (m : List (Nat × β)) :
    get d k (put d k v m) = some v := by
  by_cases h : d k = some v
  · rw [put, if_pos h, get, show find? k (erase k m) = none from find?_filter_neg (by simp) m]
    exact h
  · rw [put, if_neg h, get, find?_insert_self]

/-- Every other key reads as before. -/
theorem get_put_other [DecidableEq β] (d : Nat → Option β) {k g : Nat} (h : g ≠ k) (v : β) (m : List (Nat × β)) :
    get d g (put d k v m) = get d g m := by
  by_cases hd : d k = some v
  · rw [put, if_pos hd, get, show find? g (erase k m) = find? g m from find?_filter_pos (by simp [h]) m, get]
  · rw [put, if_neg hd, get, find?_insert_other h, get]

/-- A key that the filter keeps reads as before. -/
theorem get_filter_pos (d : Nat → Option β) {p : Nat × β → Bool} {g : Nat} (h : ∀ v, p (g, v) = true) (m : List (Nat × β)) :
    get d g (m.filter p) = get d g m := by
  simp [get, find?_filter_pos h]

/-- A key that the filter drops reads as one that is not listed. -/
theorem get_filter_neg (d : Nat → Option β) {p : Nat × β → Bool} {g : Nat} (h : ∀ v, p (g, v) = false) (m : List (Nat × β)) :
    get d g (m.filter p) = d g := by
  simp [get, find?_filter_neg h]

/-! ### The canonical form -/

theorem sorted_tail {c : Nat × β} {m : List (Nat × β)} (h : sorted (c :: m) = true) : sorted m = true := by
  obtain ⟨k, v⟩ := c
  cases m with
  | nil => rfl
  | cons a t => obtain ⟨k', v'⟩ := a; simp [sorted] at h; exact h.2

theorem sorted_iff {m : List (Nat × β)} : sorted m = true ↔ m.Pairwise fun a b => a.1 < b.1 := by
  induction m with
  | nil => simp [sorted]
  | cons c t ih =>
    obtain ⟨k, v⟩ := c
    cases t with
    | nil => simp [sorted]
    | cons a t =>
      obtain ⟨k', v'⟩ := a
      simp only [sorted, Bool.and_eq_true, decide_eq_true_eq, ih, List.pairwise_cons (a := (k, v)), List.mem_cons]
      constructor
      · rintro ⟨h1, h2⟩
        refine ⟨?_, h2⟩
        rintro x (rfl | hx)
        · exact h1
        · exact Nat.lt_trans h1 ((List.pairwise_cons.1 h2).1 x hx)
      · rintro ⟨h1, h2⟩
        exact ⟨h1 _ (.inl rfl), h2⟩

variable [DecidableEq β]

theorem wf_iff {d : Nat → Option β} {m : List (Nat × β)} :
    wf d m = true ↔ (m.Pairwise fun a b => a.1 < b.1) ∧ ∀ c ∈ m, d c.1 ≠ some c.2 := by
  simp [wf, sorted_iff]

theorem wf_filter {d : Nat → Option β} {m : List (Nat × β)} (p : Nat × β → Bool) (h : wf d m = true) :
    wf d (m.filter p) = true := by
  rw [wf_iff] at h ⊢
  exact ⟨h.1.filter p, fun c hc => h.2 c (List.mem_filter.1 hc).1⟩

omit [DecidableEq β] in
theorem mem_insert {k : Nat} {v : β} {m : List (Nat × β)} {c : Nat × β} (h : c ∈ insert k v m) : c = (k, v) ∨ c ∈ m := by
  induction m with
  | nil => simpa [insert] using h
  | cons a t ih =>
    obtain ⟨k', v'⟩ := a
    simp only [insert] at h
    split at h
    · simpa using h
    · split at h
      · rcases List.mem_cons.1 h with h | h
        · exact .inl h
        · exact .inr (.tail _ h)
      · rcases List.mem_cons.1 h with h | h
        · exact .inr (h ▸ .head _)
        · exact (ih h).imp id (.tail _)

omit [DecidableEq β] in
theorem pairwise_insert {k : Nat} {v : β} {m : List (Nat × β)} (h : m.Pairwise fun a b => a.1 < b.1) :
    (insert k v m).Pairwise fun a b => a.1 < b.1 := by
  induction m with
  | nil => simp [insert]
  | cons a t ih =>
    obtain ⟨k', v'⟩ := a
    obtain ⟨h1, h2⟩ := List.pairwise_cons.1 h
    simp only [insert]
    split
    · rename_i hk
      refine List.pairwise_cons.2 ⟨?_, h⟩
      intro c hc
      rcases List.mem_cons.1 hc with rfl | hc
      · exact hk
      · exact Nat.lt_trans hk (h1 c hc)
    · split
      · rename_i hk
        subst hk
        exact List.pairwise_cons.2 ⟨fun c hc => h1 c hc, h2⟩
      · rename_i h3 h4
        refine List.pairwise_cons.2 ⟨?_, ih h2⟩
        intro c hc
        rcases mem_insert hc with rfl | hc
        · simp only; omega
        · exact h1 c hc

/-- Putting a value keeps the canonical form. -/
theorem wf_put {d : Nat → Option β} {m : List (Nat × β)} (k : Nat) (v : β) (h : wf d m = true) : wf d (put d k v m) = true := by
  unfold put
  split
  · exact wf_filter _ h
  · rename_i hd
    rw [wf_iff] at h ⊢
    refine ⟨pairwise_insert h.1, fun c hc => ?_⟩
    rcases mem_insert hc with rfl | hc
    · exact hd
    · exact h.2 c hc

end Sys2Proof.Machine.Store
end

