-- ==== Sys2Proof/Laws/Keeps.lean ====
section
/-!
SUPPORT. What every operation keeps: registers and memories in canonical form, the queue of waiting commands as it is, and one-time
programmable memory that only gains bits. The files beside this one say so of each operation of the model.
-/
namespace Sys2Proof.Machine

/-- From `s` to `t`: the canonical form is kept, the queue is the same, and what is burned in OTP stays burned (R279). -/
structure Keeps (s t : State) : Prop where
  regs : regsWf s.regs = true → regsWf t.regs = true
  mem : Memory.wf s.mem = true → Memory.wf t.mem = true
  queue : t.pending = s.pending
  fuse1 : s.sc.fuse1 ≤ t.sc.fuse1
  fuse2 : s.sc.fuse2 ≤ t.sc.fuse2
  fuse3 : s.sc.fuse3 ≤ t.sc.fuse3
  owner : ∀ h, s.sc.ownerHash = some h → t.sc.ownerHash = some h
  burned : s.sc.keyBurned = true → t.sc.keyBurned = true

/-- The same of an answer: of the next state, where there is one. -/
structure KeepsAns (s : State) (a : Ans) : Prop where
  keeps : ∀ t, a = .next t → Keeps s t

/-- The same of an operation that may answer nothing. -/
structure KeepsOpt (s : State) (o : Option State) : Prop where
  keeps : ∀ t, o = some t → Keeps s t

variable {s₀ s t : State}

theorem Keeps.refl (s : State) : Keeps s s := ⟨id, id, rfl, Nat.le_refl _, Nat.le_refl _, Nat.le_refl _, fun _ h => h, id⟩

theorem Keeps.trans (a : Keeps s₀ s) (b : Keeps s t) : Keeps s₀ t :=
  ⟨b.regs ∘ a.regs, b.mem ∘ a.mem, b.queue.trans a.queue, Nat.le_trans a.fuse1 b.fuse1, Nat.le_trans a.fuse2 b.fuse2,
   Nat.le_trans a.fuse3 b.fuse3,
   fun h x => b.owner h (a.owner h x), b.burned ∘ a.burned⟩

/-- An update of other fields. -/
theorem Keeps.upd (h : Keeps s₀ s) (hr : t.regs = s.regs) (hm : t.mem = s.mem) (hq : t.pending = s.pending)
    (h1 : t.sc.fuse1 = s.sc.fuse1) (h2 : t.sc.fuse2 = s.sc.fuse2) (h3 : t.sc.fuse3 = s.sc.fuse3)
    (ho : t.sc.ownerHash = s.sc.ownerHash) (hb : t.sc.keyBurned = s.sc.keyBurned) : Keeps s₀ t :=
  h.trans ⟨fun x => hr ▸ x, fun x => hm ▸ x, hq, h1 ▸ Nat.le_refl _, h2 ▸ Nat.le_refl _, h3 ▸ Nat.le_refl _,
    fun _ x => ho.trans x, fun x => hb.trans x⟩

/-- An update of fields other than the registers, the memories and the queue. -/
theorem Keeps.fields {x_tick x_slow x_mt x_free x_epoch x_now x_bus x_abort x_sent x_balls x_drives x_tm x_sched x_copy x_lanes x_frame
      x_engines x_ss x_err x_log x_ev x_uart0 x_uart1 x_svc x_boot x_dl x_flash x_flashHeld x_sc x_ring x_dict x_pwr x_hv
      x_crk x_touch x_rtc x_march x_rs} (h : Keeps s₀ s)
    (h1 : x_sc.fuse1 = s.sc.fuse1) (h2 : x_sc.fuse2 = s.sc.fuse2) (h3 : x_sc.fuse3 = s.sc.fuse3)
    (ho : x_sc.ownerHash = s.sc.ownerHash) (hb : x_sc.keyBurned = s.sc.keyBurned) :
    Keeps s₀ (State.mk s.regs s.mem x_tick x_slow x_mt x_free x_epoch x_now x_bus x_abort x_sent x_balls x_drives x_tm x_sched x_copy x_lanes
      x_frame x_engines x_ss x_err x_log x_ev x_uart0 x_uart1 x_svc x_boot x_dl x_flash x_flashHeld x_sc x_ring x_dict x_pwr
      x_hv x_crk x_touch x_rtc x_march x_rs s.pending) :=
  h.upd rfl rfl rfl h1 h2 h3 ho hb

theorem Keeps.ite {c : Prop} [Decidable c] (hs : Keeps s₀ s) (ht : Keeps s₀ t) : Keeps s₀ (if c then s else t) := by
  split <;> assumption

theorem Keeps.foldl {α : Type} {f : State → α → State} (hf : ∀ t x, Keeps s₀ t → Keeps s₀ (f t x)) (l : List α)
    (h : Keeps s₀ s) : Keeps s₀ (l.foldl f s) := by
  induction l generalizing s with
  | nil => exact h
  | cons a l ih => exact ih (hf _ _ h)

theorem Keeps.foldr {α : Type} {f : α → State → State} (hf : ∀ t x, Keeps s₀ t → Keeps s₀ (f x t)) (l : List α)
    (h : Keeps s₀ s) : Keeps s₀ (l.foldr f s) := by
  induction l with
  | nil => exact h
  | cons a l ih => exact hf _ _ ih

theorem KeepsAns.next (h : Keeps s₀ s) : KeepsAns s₀ (.next s) := by
  constructor; rintro t ⟨⟩; exact h

theorem KeepsAns.refused (r : Refusal) : KeepsAns s₀ (.refused r) := by
  constructor; rintro t ⟨⟩

theorem KeepsAns.ite {c : Prop} [Decidable c] {a b : Ans} (ha : KeepsAns s₀ a) (hb : KeepsAns s₀ b) :
    KeepsAns s₀ (if c then a else b) := by
  split <;> assumption

theorem KeepsOpt.some (h : Keeps s₀ s) : KeepsOpt s₀ (some s) := by
  constructor; rintro t ⟨⟩; exact h

theorem KeepsOpt.none : KeepsOpt s₀ none := by
  constructor; rintro t ⟨⟩

/-! ### Operations that may answer nothing, with a value beside the state -/

theorem KeepsOpt.bind {α : Type} {o : Option (State × α)} {f : State × α → Option (State × α)}
    (h : KeepsOpt s₀ (o.map Prod.fst)) (hf : ∀ x, Keeps s₀ x.1 → KeepsOpt s₀ ((f x).map Prod.fst)) :
    KeepsOpt s₀ ((o.bind f).map Prod.fst) := by
  cases o with
  | none => exact .none
  | some x => exact hf x (h.keeps _ rfl)

theorem KeepsOpt.ite {c : Prop} [Decidable c] {a b : Option State} (ha : KeepsOpt s₀ a) (hb : KeepsOpt s₀ b) :
    KeepsOpt s₀ (if c then a else b) := by
  split <;> assumption

theorem KeepsOpt.foldBind {α β : Type} {f : β → State × α → Option (State × α)}
    (hf : ∀ b x, Keeps s₀ x.1 → KeepsOpt s₀ ((f b x).map Prod.fst)) (l : List β) (o : Option (State × α))
    (h : KeepsOpt s₀ (o.map Prod.fst)) : KeepsOpt s₀ ((l.foldl (fun o b => o.bind (f b)) o).map Prod.fst) := by
  induction l generalizing o with
  | nil => exact h
  | cons b l ih => exact ih _ (h.bind (hf b))

/-! ### What a match has taken apart -/

theorem Keeps.ofSnd {α : Type} {p : α × State} {a : α} (e : p = (a, t)) (h : Keeps s₀ p.2) : Keeps s₀ t := by
  rw [e] at h; exact h

theorem Keeps.ofFst {α : Type} {p : State × α} {a : α} (e : p = (t, a)) (h : Keeps s₀ p.1) : Keeps s₀ t := by
  rw [e] at h; exact h

theorem Keeps.ofThird {α β : Type} {p : α × β × State} {a : α} {b : β} (e : p = (a, b, t)) (h : Keeps s₀ p.2.2) :
    Keeps s₀ t := by
  rw [e] at h; exact h

theorem Keeps.ofSome {o : Option State} (e : o = some t) (h : KeepsOpt s₀ o) : Keeps s₀ t := h.keeps t e

/-! ### Registers and memories -/

theorem regsWf_set (h : regsWf s.regs = true) (f : RF) (v : Nat) : regsWf (s.set f v).regs = true := Store.wf_put _ _ h

theorem Keeps.put (h : Keeps s₀ s) (f : RF) (v : Nat) : Keeps s₀ (s.put f v) :=
  h.trans ⟨fun x => Store.wf_put _ _ x, id, rfl, Nat.le_refl _, Nat.le_refl _, Nat.le_refl _, fun _ h => h, id⟩

theorem Keeps.set (h : Keeps s₀ s) (f : RF) (v : Nat) : Keeps s₀ (s.set f v) :=
  h.trans ⟨fun x => regsWf_set x f v, id, rfl, Nat.le_refl _, Nat.le_refl _, Nat.le_refl _, fun _ h => h, id⟩

theorem Keeps.poke (h : Keeps s₀ s) (a : Nat) (v : Byte) : Keeps s₀ (s.poke a v) :=
  h.trans ⟨id, fun x => Store.wf_put a v x, rfl, Nat.le_refl _, Nat.le_refl _, Nat.le_refl _, fun _ h => h, id⟩

theorem Keeps.lose (h : Keeps s₀ s) (lo hi : Nat) : Keeps s₀ (s.lose lo hi) :=
  h.trans ⟨id, fun x => Store.wf_filter _ x, rfl, Nat.le_refl _, Nat.le_refl _, Nat.le_refl _, fun _ h => h, id⟩

theorem Keeps.eraseRange (h : Keeps s₀ s) (lo n : Nat) : Keeps s₀ (s.eraseRange lo n) :=
  h.trans ⟨id, fun x => Store.wf_filter _ x, rfl, Nat.le_refl _, Nat.le_refl _, Nat.le_refl _, fun _ h => h, id⟩

theorem Keeps.resetRegs (h : Keeps s₀ s) (p : Nat → Bool) : Keeps s₀ (s.resetRegs p) :=
  h.trans ⟨fun x => Store.wf_filter _ x, id, rfl, Nat.le_refl _, Nat.le_refl _, Nat.le_refl _, fun _ h => h, id⟩

/-- The bytes a fill lists are in canonical form and lie in the range. -/
theorem fill_wf (lo : Nat) (f : Nat → Byte) (n : Nat) :
    let l := (List.range n).filterMap fun i =>
      if memUnlisted (lo + i) = some (f (lo + i)) then none else some (lo + i, f (lo + i))
    Memory.wf l = true ∧ ∀ c ∈ l, lo ≤ c.1 ∧ c.1 < lo + n := by
  refine ⟨Store.wf_iff.2 ⟨?_, ?_⟩, ?_⟩
  · refine List.Pairwise.filterMap _ ?_ (List.pairwise_lt_range (n := n))
    intro a b hab x hx y hy
    split at hx <;> split at hy <;> simp_all
    subst_vars
    simp only
    omega
  · intro c hc
    obtain ⟨i, _, hi⟩ := List.mem_filterMap.1 hc
    split at hi <;> simp_all
    subst_vars
    assumption
  · intro c hc
    obtain ⟨i, hr, hi⟩ := List.mem_filterMap.1 hc
    have := List.mem_range.1 hr
    split at hi <;> simp_all
    subst_vars
    simp only
    omega

theorem Keeps.fillWith (h : Keeps s₀ s) (lo n : Nat) (f : Nat → Byte) : Keeps s₀ (s.fillWith lo n f) := by
  refine h.trans ⟨id, fun x => ?_, rfl, Nat.le_refl _, Nat.le_refl _, Nat.le_refl _, fun _ h => h, id⟩
  obtain ⟨hp, hd⟩ := Store.wf_iff.1 x
  obtain ⟨hw, hr⟩ := fill_wf lo f n
  obtain ⟨hwp, hwd⟩ := Store.wf_iff.1 hw
  refine Store.wf_iff.2 ⟨?_, ?_⟩
  · simp only [State.fillWith, List.pairwise_append]
    refine ⟨⟨hp.filter _, hwp, ?_⟩, hp.filter _, ?_⟩
    · intro a ha b hb
      have h1 := (List.mem_filter.1 ha).2
      have h2 := (hr b hb).1
      simp at h1; omega
    · intro a ha b hb
      have h2 := (List.mem_filter.1 hb).2
      simp at h2
      rcases List.mem_append.1 ha with ha | ha
      · have h1 := (List.mem_filter.1 ha).2
        simp at h1; omega
      · have := (hr a ha).2; omega
  · intro c hc
    simp only [State.fillWith, List.mem_append] at hc
    rcases hc with (hc | hc) | hc
    · exact hd c (List.mem_filter.1 hc).1
    · exact hwd c hc
    · exact hd c (List.mem_filter.1 hc).1

end Sys2Proof.Machine
end

