-- ==== Sys2Proof/Laws/KeepsShared.lean ====
section
/-!
SUPPORT. Canonical form, the queue and OTP are kept (Sys2Proof/Laws/Keeps.lean) by operations that several units share.
-/
namespace Sys2Proof.Machine

theorem keeps_noteRaised {s₀ s : State} (h : Keeps s₀ s) (f : RF) (bits : Nat) : Keeps s₀ (State.noteRaised s f bits) := by
  unfold State.noteRaised
  repeat' with_reducible first | exact h | fail_if_no_progress refine Keeps.fields ?_ rfl rfl rfl rfl rfl

theorem keeps_setI {s₀ s : State} (h : Keeps s₀ s) (f : RF) (x : Int) : Keeps s₀ (State.setI s f x) := by
  unfold State.setI
  repeat' with_reducible first | exact h | apply Keeps.set

theorem keeps_setF {s₀ s : State} (h : Keeps s₀ s) (f : RF) (b : Bool) : Keeps s₀ (State.setF s f b) := by
  unfold State.setF
  repeat' with_reducible first | exact h | apply Keeps.set

theorem keeps_setBit {s₀ s : State} (h : Keeps s₀ s) (f : RF) (i : Nat) (b : Bool) : Keeps s₀ (State.setBit s f i b) := by
  unfold State.setBit
  repeat' with_reducible first | exact h | apply keeps_noteRaised | apply Keeps.put

theorem keeps_orBits {s₀ s : State} (h : Keeps s₀ s) (f : RF) (m : Nat) : Keeps s₀ (State.orBits s f m) := by
  unfold State.orBits
  repeat' with_reducible first | exact h | apply keeps_noteRaised | apply Keeps.put

theorem keeps_clear {s₀ s : State} (h : Keeps s₀ s) (f : RF) : Keeps s₀ (State.clear s f) := by
  unfold State.clear
  repeat' with_reducible first | exact h | apply Keeps.set

theorem keeps_noteCounted {s₀ s : State} (h : Keeps s₀ s) (cnt : RF) : Keeps s₀ (State.noteCounted s cnt) := by
  unfold State.noteCounted
  repeat' with_reducible first | exact h | fail_if_no_progress refine Keeps.fields ?_ rfl rfl rfl rfl rfl

theorem keeps_count {s₀ s : State} (h : Keeps s₀ s) (cnt : RF) (ovf : RF) : Keeps s₀ (State.count s cnt ovf) := by
  unfold State.count
  repeat' with_reducible first | exact h | apply keeps_noteCounted | apply Keeps.put | apply Keeps.ite

theorem keeps_pokes {s₀ s : State} (h : Keeps s₀ s) (a : Nat) (y2 : List Byte) : Keeps s₀ (State.pokes s a y2) := by
  induction y2 generalizing s a with
  | nil => exact h
  | cons b t ih => exact ih (h.poke a b) _

theorem keeps_pokeWord {s₀ s : State} (h : Keeps s₀ s) (a : Nat) (w : Nat) : Keeps s₀ (State.pokeWord s a w) := by
  unfold State.pokeWord
  repeat' with_reducible first | exact h | apply keeps_pokes

theorem keeps_fill {s₀ s : State} (h : Keeps s₀ s) (lo : Nat) (n : Nat) (v : Byte) : Keeps s₀ (State.fill s lo n v) := by
  unfold State.fill
  repeat' with_reducible first | exact h | apply Keeps.fillWith

theorem keeps_garble {s₀ s : State} (h : Keeps s₀ s) (lo : Nat) (n : Nat) : Keeps s₀ (State.garble s lo n) := by
  unfold State.garble
  repeat' with_reducible first
    | exact h | apply Keeps.fillWith | fail_if_no_progress refine Keeps.fields ?_ rfl rfl rfl rfl rfl

theorem keeps_fresh {s₀ s : State} (h : Keeps s₀ s) : Keeps s₀ (State.fresh s).2 := by
  unfold State.fresh
  repeat' with_reducible first | exact h | fail_if_no_progress refine Keeps.fields ?_ rfl rfl rfl rfl rfl

theorem keeps_emit {s₀ s : State} (h : Keeps s₀ s) (o : Out) : Keeps s₀ (State.emit s o) := by
  unfold State.emit
  repeat' with_reducible first | exact h | fail_if_no_progress refine Keeps.fields ?_ rfl rfl rfl rfl rfl

theorem keeps_lane {s₀ s : State} (h : Keeps s₀ s) (n : Fin 10) (f : LaneSt → LaneSt) : Keeps s₀ (State.lane s n f) := by
  unfold State.lane
  repeat' with_reducible first | exact h | fail_if_no_progress refine Keeps.fields ?_ rfl rfl rfl rfl rfl

theorem keeps_schedOf {s₀ s : State} (h : Keeps s₀ s) (n : Fin 10) (f : SchedSt → SchedSt) : Keeps s₀ (State.schedOf s n f) := by
  unfold State.schedOf
  repeat' with_reducible first | exact h | fail_if_no_progress refine Keeps.fields ?_ rfl rfl rfl rfl rfl

theorem keeps_eng {s₀ s : State} (h : Keeps s₀ s) (n : Fin 10) (f : EngSt → EngSt) : Keeps s₀ (State.eng s n f) := by
  unfold State.eng
  repeat' with_reducible first | exact h | fail_if_no_progress refine Keeps.fields ?_ rfl rfl rfl rfl rfl

theorem keeps_forLanes {s₀ s : State} (h : Keeps s₀ s) (f : Fin 10 → State → State) (h_f : ∀ i t, Keeps s₀ t → Keeps s₀ (f i t)) :
    Keeps s₀ (State.forLanes s f) := by
  unfold State.forLanes
  repeat' with_reducible first | exact h | assumption | intro _ | apply h_f | apply Keeps.foldl

theorem keeps_busDo {s₀ s : State} (h : Keeps s₀ s) (a : Nat) (k : State → State) (h_k : ∀ t, Keeps s₀ t → Keeps s₀ (k t)) :
    KeepsAns s₀ (State.busDo s a k) := by
  unfold State.busDo
  repeat' with_reducible first
    | exact h | apply KeepsAns.next | apply KeepsAns.ite | apply h_k
    | fail_if_no_progress refine Keeps.fields ?_ rfl rfl rfl rfl rfl

theorem keeps_pulse {s₀ s : State} (h : Keeps s₀ s) (id : Nat) (ticks : Nat) : Keeps s₀ (State.pulse s id ticks) := by
  unfold State.pulse
  repeat' with_reducible first | exact h | fail_if_no_progress refine Keeps.fields ?_ rfl rfl rfl rfl rfl

theorem keeps_noteChannels {s₀ s : State} (h : Keeps s₀ s) : Keeps s₀ (State.noteChannels s) := by
  unfold State.noteChannels
  repeat' with_reducible first | exact h | fail_if_no_progress refine Keeps.fields ?_ rfl rfl rfl rfl rfl

theorem keeps_tickChannels {s₀ s : State} (h : Keeps s₀ s) : Keeps s₀ (State.tickChannels s) := by
  unfold State.tickChannels
  repeat' with_reducible first | exact h | apply Keeps.ite | fail_if_no_progress refine Keeps.fields ?_ rfl rfl rfl rfl rfl

theorem keeps_endWindow {s₀ s : State} (h : Keeps s₀ s) : Keeps s₀ (State.endWindow s) := by
  unfold State.endWindow
  repeat' with_reducible first | exact h | fail_if_no_progress refine Keeps.fields ?_ rfl rfl rfl rfl rfl

theorem keeps_showDisc {s₀ s : State} (h : Keeps s₀ s) : Keeps s₀ (State.showDisc s) := by
  unfold State.showDisc
  repeat' with_reducible first | exact h | apply keeps_setF | apply keeps_endWindow | apply Keeps.ite

theorem keeps_badWord {s₀ s : State} (h : Keeps s₀ s) (a : Nat) : Keeps s₀ (State.badWord s a) := by
  unfold State.badWord
  repeat' with_reducible first | exact h | apply keeps_garble

theorem keeps_recAct {s₀ s : State} (h : Keeps s₀ s) (a : RecAct) : Keeps s₀ (State.recAct s a) := by
  unfold State.recAct
  repeat' with_reducible first
    | exact h | apply Keeps.eraseRange | apply keeps_pokeWord | apply keeps_setBit
    | fail_if_no_progress refine Keeps.fields ?_ rfl rfl rfl rfl rfl | split

theorem keeps_recActs {s₀ s : State} (h : Keeps s₀ s) (l : List RecAct) : Keeps s₀ (State.recActs s l) := by
  unfold State.recActs
  repeat' with_reducible first | exact h | assumption | intro _ | apply keeps_recAct | apply Keeps.foldl

theorem keeps_tearSector {s₀ s : State} (h : Keeps s₀ s) (k : Nat) : Keeps s₀ (State.tearSector s k) := by
  unfold State.tearSector
  repeat' with_reducible first
    | exact h | apply keeps_setBit | fail_if_no_progress refine Keeps.fields ?_ rfl rfl rfl rfl rfl

theorem keeps_halfErased {s₀ s : State} (h : Keeps s₀ s) (k : Nat) : Keeps s₀ (State.halfErased s k) := by
  unfold State.halfErased
  repeat' with_reducible first | exact h | apply keeps_tearSector | apply keeps_garble

theorem keeps_halfWord {s₀ s : State} (h : Keeps s₀ s) (o : Nat) : Keeps s₀ (State.halfWord s o) := by
  unfold State.halfWord
  repeat' with_reducible first | exact h | apply keeps_tearSector | apply keeps_badWord | apply Keeps.ite

theorem keeps_stopRec {s₀ s : State} (h : Keeps s₀ s) (c : RecCmd) (n : Nat) : Keeps s₀ (State.stopRec s c n) := by
  unfold State.stopRec
  repeat' with_reducible first
    | exact h | assumption | intro _ | apply keeps_recActs | apply keeps_tearSector | apply Keeps.ite | apply Keeps.foldl
    | split

theorem keeps_cutRec {s₀ s : State} (h : Keeps s₀ s) : Keeps s₀ (State.cutRec s) := by
  unfold State.cutRec
  repeat' with_reducible first
    | exact h | apply keeps_fresh | apply keeps_halfWord | apply keeps_stopRec | apply keeps_halfErased | apply Keeps.ite
    | split

theorem keeps_resetRec {s₀ s : State} (h : Keeps s₀ s) : Keeps s₀ (State.resetRec s) := by
  unfold State.resetRec
  repeat' with_reducible first
    | exact h | apply keeps_cutRec | fail_if_no_progress refine Keeps.fields ?_ rfl rfl rfl rfl rfl

theorem keeps_resetFlash {s₀ s : State} (h : Keeps s₀ s) : Keeps s₀ (State.resetFlash s) := by
  unfold State.resetFlash
  repeat' with_reducible first
    | exact h | apply keeps_garble | fail_if_no_progress refine Keeps.fields ?_ rfl rfl rfl rfl rfl | split

theorem keeps_marchLoss {s₀ s : State} (h : Keeps s₀ s) : Keeps s₀ (State.marchLoss s) := by
  unfold State.marchLoss
  repeat' with_reducible first | exact h | apply keeps_garble

theorem keeps_resetMarch {s₀ s : State} (h : Keeps s₀ s) : Keeps s₀ (State.resetMarch s) := by
  unfold State.resetMarch
  repeat' with_reducible first
    | exact h | apply keeps_marchLoss | apply Keeps.ite | fail_if_no_progress refine Keeps.fields ?_ rfl rfl rfl rfl rfl

theorem keeps_resetBlockRegs {s₀ s : State} (h : Keeps s₀ s) (b : Block) : Keeps s₀ (State.resetBlockRegs s b) := by
  unfold State.resetBlockRegs
  repeat' with_reducible first | exact h | apply Keeps.resetRegs | apply Keeps.put | split

theorem keeps_resetLane {s₀ s : State} (h : Keeps s₀ s) (n : Fin 10) : Keeps s₀ (State.resetLane s n) := by
  unfold State.resetLane
  repeat' with_reducible first | exact h | apply keeps_resetBlockRegs | apply keeps_lane

theorem keeps_setAction {s₀ s : State} (h : Keeps s₀ s) (n : Fin 10) (a : Nat) : Keeps s₀ (State.setAction s n a) := by
  unfold State.setAction
  repeat' with_reducible first | exact h | apply Keeps.set | apply keeps_lane

theorem keeps_chipReport {s₀ s : State} (h : Keeps s₀ s) (r : Report) : Keeps s₀ (State.chipReport s r) := by
  unfold State.chipReport
  repeat' with_reducible first | exact h | apply Keeps.set | fail_if_no_progress refine Keeps.fields ?_ rfl rfl rfl rfl rfl

theorem keeps_report {s₀ s : State} (h : Keeps s₀ s) (r : Report) : Keeps s₀ (State.report s r) := by
  unfold State.report
  repeat' with_reducible first
    | exact h | apply Keeps.set | apply keeps_count | apply Keeps.ite
    | fail_if_no_progress refine Keeps.fields ?_ rfl rfl rfl rfl rfl

theorem keeps_setLstate {s₀ s : State} (h : Keeps s₀ s) (n : Nat) (st : Nat) : Keeps s₀ (State.setLstate s n st) := by
  unfold State.setLstate
  repeat' with_reducible first | exact h | apply Keeps.set | apply Keeps.ite

theorem keeps_suspend {s₀ s : State} (h : Keeps s₀ s) (n : Fin 10) (first : Nat) (action : Nat) (src : Nat) :
    Keeps s₀ (State.suspend s n first action src) := by
  unfold State.suspend
  repeat' with_reducible first
    | exact h | apply Keeps.set | apply keeps_lane | apply keeps_setLstate | apply keeps_setAction

theorem keeps_timeLost {s₀ s : State} (h : Keeps s₀ s) (n : Fin 10) : Keeps s₀ (State.timeLost s n) := by
  unfold State.timeLost
  repeat' with_reducible first | exact h | apply Keeps.set | apply keeps_suspend

theorem keeps_setLegal {s₀ s : State} (h : Keeps s₀ s) (f : RF) (l : Legal) (v : Nat) : Keeps s₀ (State.setLegal s f l v) := by
  unfold State.setLegal
  repeat' with_reducible first | exact h | apply Keeps.put | apply Keeps.ite

theorem keeps_clearBits {s₀ s : State} (h : Keeps s₀ s) (f : RF) (x : Nat) : Keeps s₀ (State.clearBits s f x) := by
  unfold State.clearBits
  repeat' with_reducible first | exact h | apply Keeps.put

theorem keeps_clearCount {s₀ s : State} (h : Keeps s₀ s) (cnt : RF) (ovf : RF) : Keeps s₀ (State.clearCount s cnt ovf) := by
  unfold State.clearCount
  repeat' with_reducible first | exact h | apply Keeps.put

theorem keeps_writeField {s₀ s : State} (h : Keeps s₀ s) (addr : Nat) (v : Nat) (locked : Bool) (f : Fld) :
    Keeps s₀ (State.writeField s addr v locked f) := by
  unfold State.writeField
  repeat' with_reducible first
    | exact h | apply keeps_setLegal | apply keeps_clearCount | apply Keeps.put | apply keeps_clearBits | apply Keeps.ite
    | split

theorem keeps_writeFields {s₀ s : State} (h : Keeps s₀ s) (p : Fld → Bool) (addr : Nat) (v : Nat) (locked : Bool) :
    Keeps s₀ (State.writeFields s p addr v locked) := by
  unfold State.writeFields
  repeat' with_reducible first | exact h | assumption | intro _ | apply keeps_writeField | apply Keeps.foldl

theorem keeps_noteDrives {s₀ s : State} (h : Keeps s₀ s) : Keeps s₀ (State.noteDrives s) := by
  unfold State.noteDrives
  repeat' with_reducible first | exact h | fail_if_no_progress refine Keeps.fields ?_ rfl rfl rfl rfl rfl

theorem keeps_peFresh {s₀ s : State} (h : Keeps s₀ s) (n : Fin 10) : Keeps s₀ (State.peFresh s n) := by
  unfold State.peFresh
  repeat' with_reducible first | exact h | apply Keeps.set | apply keeps_eng

theorem keeps_peError {s₀ s : State} (h : Keeps s₀ s) (n : Fin 10) (code : Nat) : Keeps s₀ (State.peError s n code) := by
  unfold State.peError
  repeat' with_reducible first
    | exact h | apply keeps_setBit | apply Keeps.set | apply keeps_report | apply keeps_peFresh | apply keeps_eng

theorem keeps_setBase {s₀ s : State} (h : Keeps s₀ s) (n : Fin 10) (v : Nat) : Keeps s₀ (State.setBase s n v) := by
  unfold State.setBase
  repeat' with_reducible first | exact h | apply Keeps.set | apply keeps_eng

theorem keeps_peCurrent {s₀ s : State} (h : Keeps s₀ s) (n : Fin 10) : Keeps s₀ (State.peCurrent s n) := by
  unfold State.peCurrent
  repeat' with_reducible first
    | exact h | apply Keeps.set | apply keeps_setBase | apply keeps_eng | apply keeps_peError | apply Keeps.ite | split

theorem keeps_peBegin {s₀ s : State} (h : Keeps s₀ s) (n : Fin 10) : Keeps s₀ (State.peBegin s n) := by
  unfold State.peBegin
  repeat' with_reducible first | exact h | apply keeps_peCurrent | apply Keeps.ite

theorem keeps_peGoto {s₀ s : State} (h : Keeps s₀ s) (n : Fin 10) (pc : Nat) : Keeps s₀ (State.peGoto s n pc) := by
  unfold State.peGoto
  repeat' with_reducible first | exact h | apply Keeps.set | apply keeps_peFresh | apply keeps_peError | apply Keeps.ite

theorem keeps_peDone {s₀ s : State} (h : Keeps s₀ s) (n : Fin 10) (pc : Nat) : Keeps s₀ (State.peDone s n pc) := by
  unfold State.peDone
  repeat' with_reducible first | exact h | apply keeps_peGoto | apply keeps_eng

theorem keeps_peLate {s₀ s : State} (h : Keeps s₀ s) (n : Nat) : Keeps s₀ (State.peLate s n) := by
  unfold State.peLate
  repeat' with_reducible first | exact h | apply Keeps.set | apply keeps_count

theorem keeps_peLevels {s₀ s : State} (h : Keeps s₀ s) (n : Fin 10) : Keeps s₀ (State.peLevels s n) := by
  unfold State.peLevels
  repeat' with_reducible first | exact h | apply Keeps.set

theorem keeps_rxMiss {s₀ s : State} (h : Keeps s₀ s) (n : Fin 10) (w : Nat) : Keeps s₀ (State.rxMiss s n w) := by
  unfold State.rxMiss
  repeat' with_reducible first | exact h | apply keeps_eng

theorem keeps_pushRx {s₀ s : State} (h : Keeps s₀ s) (n : Fin 10) (w : Nat) : Keeps s₀ (State.pushRx s n w) := by
  unfold State.pushRx
  repeat' with_reducible first
    | exact h | apply keeps_rxMiss | apply Keeps.set | apply keeps_peLevels | apply keeps_eng | apply keeps_count
    | apply Keeps.ite

theorem keeps_rxRemoved {s₀ s : State} (h : Keeps s₀ s) (n : Fin 10) : Keeps s₀ (State.rxRemoved s n) := by
  unfold State.rxRemoved
  repeat' with_reducible first
    | exact h | assumption | intro _ | apply Keeps.set | apply Keeps.put | apply keeps_peLevels | apply keeps_eng
    | apply keeps_count | apply Keeps.foldl | split

theorem keeps_txMiss {s₀ s : State} (h : Keeps s₀ s) (n : Fin 10) (w : Nat) : Keeps s₀ (State.txMiss s n w) := by
  unfold State.txMiss
  repeat' with_reducible first | exact h | apply keeps_eng

theorem keeps_txRemoved {s₀ s : State} (h : Keeps s₀ s) (n : Fin 10) : Keeps s₀ (State.txRemoved s n) := by
  unfold State.txRemoved
  repeat' with_reducible first | exact h | apply Keeps.put | apply keeps_peLevels | apply keeps_eng | split

theorem keeps_slotTake {s₀ s : State} (h : Keeps s₀ s) (n : Fin 10) (t : SlotTrig) : Keeps s₀ (State.slotTake s n t) := by
  unfold State.slotTake
  repeat' with_reducible first | exact h | apply keeps_setBit | apply keeps_peDone | apply keeps_setBase | apply keeps_eng

theorem keeps_byDone {s₀ s : State} (h : Keeps s₀ s) (n : Fin 10) (w : Nat) : Keeps s₀ (State.byDone s n w) := by
  unfold State.byDone
  repeat' with_reducible first | exact h | apply Keeps.set | apply keeps_setBase | apply Keeps.ite

theorem keeps_syncTake {s₀ s : State} (h : Keeps s₀ s) (n : Fin 10) : Keeps s₀ (State.syncTake s n) := by
  unfold State.syncTake
  repeat' with_reducible first | exact h | apply Keeps.set | apply keeps_slotTake | apply Keeps.ite | split

theorem keeps_showConflict {s₀ s : State} (h : Keeps s₀ s) : Keeps s₀ (State.showConflict s) := by
  unfold State.showConflict
  repeat' with_reducible first | exact h | apply Keeps.set

theorem keeps_endClock {s₀ s : State} (h : Keeps s₀ s) (n : Fin 10) : Keeps s₀ (State.endClock s n) := by
  unfold State.endClock
  repeat' with_reducible first | exact h | apply keeps_eng | split

theorem keeps_midBit {s₀ s : State} (h : Keeps s₀ s) (n : Fin 10) : Keeps s₀ (State.midBit s n) := by
  unfold State.midBit
  repeat' with_reducible first | exact h | apply keeps_eng | apply Keeps.ite | split

theorem keeps_tickEngines {s₀ s : State} (h : Keeps s₀ s) : Keeps s₀ (State.tickEngines s) := by
  unfold State.tickEngines
  repeat' with_reducible first
    | exact h | assumption | intro _ | apply keeps_showConflict | apply keeps_peBegin | apply keeps_endClock
    | apply keeps_midBit | apply Keeps.foldl

theorem keeps_startSeg {s₀ s : State} (h : Keeps s₀ s) (n : Fin 10) (i : Nat) (full : Nat) :
    Keeps s₀ (State.startSeg s n i full) := by
  unfold State.startSeg
  repeat' with_reducible first | exact h | apply Keeps.set | apply keeps_lane | apply Keeps.ite

theorem keeps_advanceN {s₀ s : State} (h : Keeps s₀ s) (n : Fin 10) (t : Nat) (y2 : Nat) :
    Keeps s₀ (State.advanceN n t y2 s) := by
  induction y2 generalizing s with
  | zero => exact h
  | succ k ih =>
    unfold State.advanceN
    split
    · split
      · exact ih (keeps_startSeg h _ _ _)
      · exact h
    · exact h

theorem keeps_advance {s₀ s : State} (h : Keeps s₀ s) (n : Fin 10) (t : Nat) : Keeps s₀ (State.advance s n t) := by
  unfold State.advance
  repeat' with_reducible first | exact h | apply keeps_advanceN | apply Keeps.ite

theorem keeps_loseTime {s₀ s : State} (h : Keeps s₀ s) (n : Fin 10) : Keeps s₀ (State.loseTime s n) := by
  unfold State.loseTime
  repeat' with_reducible first | exact h | apply keeps_timeLost | apply keeps_advance | apply Keeps.ite

theorem keeps_syncoutCut {s₀ s : State} (h : Keeps s₀ s) : Keeps s₀ (State.syncoutCut s) := by
  unfold State.syncoutCut
  repeat' with_reducible first
    | exact h | apply keeps_emit | fail_if_no_progress refine Keeps.fields ?_ rfl rfl rfl rfl rfl | split

theorem keeps_timeFall {s₀ s : State} (h : Keeps s₀ s) : Keeps s₀ (State.timeFall s) := by
  unfold State.timeFall
  repeat' with_reducible first
    | exact h | assumption | intro _ | apply keeps_syncoutCut | apply keeps_forLanes | apply Keeps.set | apply keeps_showDisc
    | apply keeps_loseTime | apply Keeps.ite

theorem keeps_timeHold {s₀ s : State} (h : Keeps s₀ s) (n : Fin 10) : Keeps s₀ (State.timeHold s n) := by
  unfold State.timeHold
  repeat' with_reducible first | exact h | apply keeps_lane | apply Keeps.ite

theorem keeps_slotTrigger {s₀ s : State} (h : Keeps s₀ s) (n : Fin 10) (k : Nat) (inst : Nat) :
    Keeps s₀ (State.slotTrigger s n k inst) := by
  unfold State.slotTrigger
  repeat' with_reducible first
    | exact h | apply keeps_setBit | apply Keeps.set | apply keeps_syncTake | apply keeps_eng | apply Keeps.ite

theorem keeps_fireActs {s₀ s : State} (h : Keeps s₀ s) (n : Fin 10) (a : SegAct) : Keeps s₀ (State.fireActs s n a) := by
  unfold State.fireActs
  repeat' with_reducible first
    | exact h | assumption | intro _ | apply keeps_pulse | apply keeps_slotTrigger | apply Keeps.ite | apply Keeps.foldl

theorem keeps_setWidths {s₀ s : State} (h : Keeps s₀ s) (n : Fin 10) (vA : Int) (vB : Int) (vC : Int) (off : Nat) :
    Keeps s₀ (State.setWidths s n vA vB vC off) := by
  unfold State.setWidths
  repeat' with_reducible first | exact h | apply keeps_lane | apply Keeps.ite

theorem keeps_holdWidths {s₀ s : State} (h : Keeps s₀ s) (n : Fin 10) : Keeps s₀ (State.holdWidths s n) := by
  unfold State.holdWidths
  repeat' with_reducible first | exact h | apply keeps_setWidths

theorem keeps_widthsInForce {s₀ s : State} (h : Keeps s₀ s) (n : Fin 10) : Keeps s₀ (State.widthsInForce s n) := by
  unfold State.widthsInForce
  repeat' with_reducible first | exact h | apply Keeps.set | apply keeps_lane

theorem keeps_widthsDue {s₀ s : State} (h : Keeps s₀ s) (n : Fin 10) : Keeps s₀ (State.widthsDue s n) := by
  unfold State.widthsDue
  repeat' with_reducible first | exact h | apply keeps_widthsInForce | split

theorem keeps_outputsLow {s₀ s : State} (h : Keeps s₀ s) (n : Fin 10) : Keeps s₀ (State.outputsLow s n) := by
  unfold State.outputsLow
  repeat' with_reducible first | exact h | apply Keeps.set | apply keeps_lane

theorem keeps_actionOutputs {s₀ s : State} (h : Keeps s₀ s) (n : Fin 10) (act : Nat) :
    Keeps s₀ (State.actionOutputs s n act) := by
  unfold State.actionOutputs
  repeat' with_reducible first | exact h | apply Keeps.set | apply keeps_lane | apply Keeps.ite

theorem keeps_stopPartners {s₀ s : State} (h : Keeps s₀ s) (n : Fin 10) : Keeps s₀ (State.stopPartners s n) := by
  unfold State.stopPartners
  repeat' with_reducible first
    | exact h | assumption | intro _ | apply keeps_forLanes | apply Keeps.set | apply keeps_suspend | apply keeps_lane
    | apply keeps_actionOutputs | apply Keeps.ite

theorem keeps_faultSuspend {s₀ s : State} (h : Keeps s₀ s) (n : Fin 10) (c : FaultClass) (phase : Nat) :
    Keeps s₀ (State.faultSuspend s n c phase) := by
  unfold State.faultSuspend
  repeat' with_reducible first
    | exact h | apply keeps_holdWidths | apply keeps_pulse | apply keeps_stopPartners | apply Keeps.set | apply keeps_report
    | apply keeps_suspend | apply keeps_lane | apply keeps_count | apply keeps_actionOutputs | apply Keeps.ite

theorem keeps_faultAtResume {s₀ s : State} (h : Keeps s₀ s) (n : Fin 10) : Keeps s₀ (State.faultAtResume s n) := by
  unfold State.faultAtResume
  repeat' with_reducible first | exact h | apply Keeps.set | apply keeps_lane | split

theorem keeps_ungroup {s₀ s : State} (h : Keeps s₀ s) (n : Fin 10) : Keeps s₀ (State.ungroup s n) := by
  unfold State.ungroup
  repeat' with_reducible first | exact h | apply Keeps.set | apply keeps_lane | apply Keeps.put | split

theorem keeps_detect {s₀ s : State} (h : Keeps s₀ s) (n : Fin 10) (cs : List (FaultClass × Nat)) :
    Keeps s₀ (State.detect s n cs) := by
  unfold State.detect
  repeat' with_reducible first
    | exact h | assumption | intro _ | apply keeps_faultSuspend | apply Keeps.set | apply keeps_report
    | apply keeps_faultAtResume | apply keeps_ungroup | apply keeps_actionOutputs | apply keeps_setAction | apply Keeps.ite
    | apply Keeps.foldl | split

theorem keeps_setSubs {s₀ s : State} (h : Keeps s₀ s) (n : Fin 10) : Keeps s₀ (State.setSubs s n) := by
  unfold State.setSubs
  repeat' with_reducible first | exact h | apply Keeps.set | apply Keeps.ite

theorem keeps_detectTick {s₀ s : State} (h : Keeps s₀ s) (n : Fin 10) (also : List (FaultClass × Nat)) :
    Keeps s₀ (State.detectTick s n also) := by
  unfold State.detectTick
  repeat' with_reducible first | exact h | apply keeps_detect | apply keeps_lane | apply keeps_setSubs

theorem keeps_detectIf {s₀ s : State} (h : Keeps s₀ s) (n : Fin 10) (p : Bool) : KeepsAns s₀ (State.detectIf s n p) := by
  unfold State.detectIf
  repeat' with_reducible first | exact h | apply KeepsAns.next | apply KeepsAns.ite | apply keeps_detectTick

theorem keeps_execOcTrip {s₀ s : State} (h : Keeps s₀ s) (n : Fin 10) : KeepsAns s₀ (execOcTrip n s) := by
  unfold execOcTrip
  repeat' with_reducible first
    | exact h | apply KeepsAns.next | apply KeepsAns.ite | apply Keeps.set | apply keeps_faultAtResume | apply keeps_lane
    | apply keeps_outputsLow | apply keeps_detectTick

theorem keeps_execDrvFault {s₀ s : State} (h : Keeps s₀ s) (n : Fin 10) : KeepsAns s₀ (execDrvFault n s) := by
  unfold execDrvFault
  repeat' with_reducible first
    | exact h | apply KeepsAns.next | apply KeepsAns.ite | apply Keeps.set | apply keeps_lane | apply keeps_detectTick

theorem keeps_execOpenDetect {s₀ s : State} (h : Keeps s₀ s) (n : Fin 10) : KeepsAns s₀ (execOpenDetect n s) := by
  unfold execOpenDetect
  repeat' with_reducible first | exact h | apply keeps_detectIf

theorem keeps_execSenseStuckDetect {s₀ s : State} (h : Keeps s₀ s) (n : Fin 10) : KeepsAns s₀ (execSenseStuckDetect n s) := by
  unfold execSenseStuckDetect
  repeat' with_reducible first | exact h | apply keeps_detectIf

theorem keeps_execSensePlausDetect {s₀ s : State} (h : Keeps s₀ s) (n : Fin 10) : KeepsAns s₀ (execSensePlausDetect n s) := by
  unfold execSensePlausDetect
  repeat' with_reducible first | exact h | apply keeps_detectIf

theorem keeps_execSenseSumDetect {s₀ s : State} (h : Keeps s₀ s) (n : Fin 10) : KeepsAns s₀ (execSenseSumDetect n s) := by
  unfold execSenseSumDetect
  repeat' with_reducible first | exact h | apply keeps_detectIf

theorem keeps_execFeDetect {s₀ s : State} (h : Keeps s₀ s) (n : Fin 10) : KeepsAns s₀ (execFeDetect n s) := by
  unfold execFeDetect
  repeat' with_reducible first | exact h | apply keeps_detectIf

theorem keeps_execHoldSafeEnd {s₀ s : State} (h : Keeps s₀ s) (n : Fin 10) : KeepsAns s₀ (execHoldSafeEnd n s) := by
  unfold execHoldSafeEnd
  repeat' with_reducible first
    | exact h | apply KeepsAns.next | apply KeepsAns.ite | apply Keeps.set | apply keeps_actionOutputs | apply keeps_setAction

theorem keeps_resDone {s₀ s : State} (h : Keeps s₀ s) (n : Nat) (code : Nat) : Keeps s₀ (State.resDone s n code) := by
  unfold State.resDone
  repeat' with_reducible first | exact h | apply Keeps.set

theorem keeps_resume {s₀ s : State} (h : Keeps s₀ s) (n : Fin 10) : Keeps s₀ (State.resume s n) := by
  unfold State.resume
  generalize State.stamp40 s _ = p
  obtain ⟨full, past⟩ := p
  repeat' with_reducible first | exact h | apply keeps_resDone | apply Keeps.set | apply keeps_lane | apply Keeps.ite

theorem keeps_execResume {s₀ s : State} (h : Keeps s₀ s) (n : Fin 10) (v : Word) : KeepsAns s₀ (execResume n v s) := by
  unfold execResume
  repeat' with_reducible first | exact h | assumption | intro _ | apply keeps_resume | apply Keeps.set | apply keeps_busDo

theorem keeps_execResumeAt {s₀ s : State} (h : Keeps s₀ s) (n : Fin 10) : KeepsAns s₀ (execResumeAt n s) := by
  unfold execResumeAt
  repeat' with_reducible first
    | exact h | fail_if_no_progress extract_lets | apply KeepsAns.next | apply keeps_resDone | apply Keeps.set
    | apply keeps_lane | apply keeps_setLstate | apply Keeps.ite | split

theorem keeps_setSync {s₀ s : State} (h : Keeps s₀ s) (st : Nat) : Keeps s₀ (State.setSync s st) := by
  unfold State.setSync
  repeat' with_reducible first | exact h | apply Keeps.set | apply Keeps.ite

theorem keeps_callStep {s₀ s : State} (h : Keeps s₀ s) (v : Nat) (t : Nat) : Keeps s₀ (State.callStep s v t) := by
  unfold State.callStep
  repeat' with_reducible first | exact h | fail_if_no_progress refine Keeps.fields ?_ rfl rfl rfl rfl rfl

theorem keeps_servoUpdate {s₀ s : State} (h : Keeps s₀ s) (track : Bool) (e : Int) (tArr : Nat) :
    Keeps s₀ (State.servoUpdate s track e tArr) := by
  unfold State.servoUpdate
  repeat' with_reducible first | exact h | apply keeps_setI | fail_if_no_progress refine Keeps.fields ?_ rfl rfl rfl rfl rfl

theorem keeps_timeRise {s₀ s : State} (h : Keeps s₀ s) : Keeps s₀ (State.timeRise s) := by
  unfold State.timeRise
  repeat' with_reducible first
    | exact h | apply Keeps.set | apply keeps_showDisc | fail_if_no_progress refine Keeps.fields ?_ rfl rfl rfl rfl rfl

theorem keeps_freqHold {s₀ s : State} (h : Keeps s₀ s) : Keeps s₀ (State.freqHold s) := by
  unfold State.freqHold
  repeat' with_reducible first | exact h | apply Keeps.set | fail_if_no_progress refine Keeps.fields ?_ rfl rfl rfl rfl rfl

theorem keeps_servoAccept {s₀ s : State} (h : Keeps s₀ s) (tm : Nat) (dpath : Nat) (tArr : Nat) :
    Keeps s₀ (State.servoAccept s tm dpath tArr) := by
  unfold State.servoAccept
  repeat' with_reducible first
    | exact h | fail_if_no_progress extract_lets | apply keeps_setSync | apply Keeps.set | apply keeps_timeRise
    | apply keeps_callStep | apply keeps_servoUpdate | apply keeps_timeFall | apply Keeps.ite
    | fail_if_no_progress refine Keeps.fields ?_ rfl rfl rfl rfl rfl | split

theorem keeps_fireCmp {s₀ s : State} (h : Keeps s₀ s) (c : Nat) (late : Bool) : Keeps s₀ (State.fireCmp s c late) := by
  unfold State.fireCmp
  repeat' with_reducible first | exact h | apply keeps_pulse | apply keeps_setBit | apply Keeps.ite

theorem keeps_syncoutFrom {s₀ s : State} (h : Keeps s₀ s) (t : Nat) : Keeps s₀ (State.syncoutFrom s t) := by
  unfold State.syncoutFrom
  repeat' with_reducible first | exact h | fail_if_no_progress refine Keeps.fields ?_ rfl rfl rfl rfl rfl

theorem keeps_moveMt {s₀ s : State} (h : Keeps s₀ s) (m : Nat) : Keeps s₀ (State.moveMt s m) := by
  unfold State.moveMt
  repeat' with_reducible first
    | exact h | assumption | intro _ | apply keeps_forLanes | apply Keeps.set | apply keeps_syncoutFrom | apply keeps_endWindow
    | apply keeps_fireCmp | apply keeps_timeHold | apply Keeps.ite | apply Keeps.foldl
    | fail_if_no_progress refine Keeps.fields ?_ rfl rfl rfl rfl rfl

theorem keeps_applyStep {s₀ s : State} (h : Keeps s₀ s) (d : Int) : Keeps s₀ (State.applyStep s d) := by
  unfold State.applyStep
  repeat' with_reducible first
    | exact h | apply keeps_count | apply keeps_moveMt | fail_if_no_progress refine Keeps.fields ?_ rfl rfl rfl rfl rfl

theorem keeps_restoreMt {s₀ s : State} (h : Keeps s₀ s) (saved : Nat × Nat) : Keeps s₀ (State.restoreMt s saved) := by
  unfold State.restoreMt
  repeat' with_reducible first
    | exact h | apply keeps_setSync | apply Keeps.set | apply keeps_timeFall | apply keeps_moveMt | apply Keeps.ite
    | fail_if_no_progress refine Keeps.fields ?_ rfl rfl rfl rfl rfl

theorem keeps_tickTime {s₀ s : State} (h : Keeps s₀ s) : Keeps s₀ (State.tickTime s) := by
  unfold State.tickTime
  repeat' first
    | with_reducible exact h | with_reducible apply keeps_applyStep | with_reducible apply Keeps.set
    | (fail_if_no_progress with_reducible refine Keeps.fields ?_ rfl rfl rfl rfl rfl) | split
    | refine Keeps.ofSome (by with_reducible assumption) ?_ | (with_reducible conv => arg 2; whnf)

theorem keeps_tickSlow {s₀ s : State} (h : Keeps s₀ s) : Keeps s₀ (State.tickSlow s) := by
  unfold State.tickSlow
  repeat' with_reducible first | exact h | fail_if_no_progress refine Keeps.fields ?_ rfl rfl rfl rfl rfl

theorem keeps_noteHalt {s₀ s : State} (h : Keeps s₀ s) : Keeps s₀ (State.noteHalt s) := by
  unfold State.noteHalt
  exact h.fields rfl rfl rfl rfl rfl

theorem keeps_tickMs {s₀ s : State} (h : Keeps s₀ s) : Keeps s₀ (State.tickMs s) := by
  unfold State.tickMs
  repeat' with_reducible first | exact h | apply Keeps.set | apply keeps_noteHalt | apply Keeps.ite

theorem keeps_execCycleStartMissed {s₀ s : State} (h : Keeps s₀ s) : KeepsAns s₀ (execCycleStartMissed s) := by
  unfold execCycleStartMissed
  repeat' with_reducible first
    | exact h | apply KeepsAns.next | apply keeps_setSync | apply Keeps.set | apply keeps_freqHold
    | fail_if_no_progress refine Keeps.fields ?_ rfl rfl rfl rfl rfl | split

theorem keeps_execHoldoverExpiry {s₀ s : State} (h : Keeps s₀ s) : KeepsAns s₀ (execHoldoverExpiry s) := by
  unfold execHoldoverExpiry
  repeat' with_reducible first
    | exact h | apply KeepsAns.next | apply KeepsAns.ite | apply keeps_count | apply keeps_timeFall
    | fail_if_no_progress refine Keeps.fields ?_ rfl rfl rfl rfl rfl

theorem keeps_servoRestart {s₀ s : State} (h : Keeps s₀ s) : Keeps s₀ (State.servoRestart s) := by
  unfold State.servoRestart
  repeat' with_reducible first | exact h | apply keeps_setSync | apply Keeps.set | apply keeps_timeFall | apply Keeps.ite

theorem keeps_execServoRestart {s₀ s : State} (h : Keeps s₀ s) : KeepsAns s₀ (execServoRestart s) := by
  unfold execServoRestart
  repeat' with_reducible first | exact h | assumption | apply keeps_busDo | apply keeps_servoRestart

theorem keeps_clampField {s₀ s : State} (h : Keeps s₀ s) (f : RF) (l : Nat) : Keeps s₀ (State.clampField s f l) := by
  unfold State.clampField
  repeat' with_reducible first | exact h | apply keeps_setI

theorem keeps_execPullLimWrite {s₀ s : State} (h : Keeps s₀ s) (v : Word) : KeepsAns s₀ (execPullLimWrite v s) := by
  unfold execPullLimWrite
  repeat' with_reducible first
    | exact h | assumption | intro _ | apply Keeps.set | apply keeps_busDo | apply keeps_clampField
    | fail_if_no_progress refine Keeps.fields ?_ rfl rfl rfl rfl rfl

theorem keeps_showDelay {s₀ s : State} (h : Keeps s₀ s) (p : Fin 2) : Keeps s₀ (State.showDelay s p) := by
  unfold State.showDelay
  repeat' with_reducible first | exact h | apply keeps_setI | apply Keeps.ite

theorem keeps_addSample {s₀ s : State} (h : Keeps s₀ s) (p : Fin 2) (q : Int) : Keeps s₀ (State.addSample s p q) := by
  unfold State.addSample
  repeat' with_reducible first
    | exact h | apply keeps_setF | apply Keeps.set | apply keeps_showDelay | apply Keeps.ite
    | fail_if_no_progress refine Keeps.fields ?_ rfl rfl rfl rfl rfl

theorem keeps_dropSamples {s₀ s : State} (h : Keeps s₀ s) (p : Fin 2) : Keeps s₀ (State.dropSamples s p) := by
  unfold State.dropSamples
  repeat' with_reducible first
    | exact h | apply Keeps.set | apply Keeps.ite | fail_if_no_progress refine Keeps.fields ?_ rfl rfl rfl rfl rfl

theorem keeps_steer {s₀ s : State} (h : Keeps s₀ s) (delta : Int) : Keeps s₀ (State.steer s delta) := by
  unfold State.steer
  repeat' with_reducible first | exact h | apply keeps_setI

theorem keeps_syncinMaster {s₀ s : State} (h : Keeps s₀ s) (t : Nat) : Keeps s₀ (State.syncinMaster s t) := by
  unfold State.syncinMaster
  repeat' with_reducible first
    | exact h | apply Keeps.set | apply keeps_count | apply keeps_steer | apply Keeps.ite
    | fail_if_no_progress refine Keeps.fields ?_ rfl rfl rfl rfl rfl | split

theorem keeps_execMtSyncInEdge {s₀ s : State} (h : Keeps s₀ s) (t : Nat) (rising : Bool) :
    KeepsAns s₀ (execMtSyncInEdge t rising s) := by
  unfold execMtSyncInEdge
  repeat' with_reducible first
    | exact h | apply KeepsAns.next | apply KeepsAns.ite | apply keeps_pulse | apply keeps_syncinMaster | apply Keeps.set
    | fail_if_no_progress refine Keeps.fields ?_ rfl rfl rfl rfl rfl

theorem keeps_execSyncinTimeout {s₀ s : State} (h : Keeps s₀ s) : KeepsAns s₀ (execSyncinTimeout s) := by
  unfold execSyncinTimeout
  repeat' with_reducible first
    | exact h | apply KeepsAns.next | apply KeepsAns.ite | apply Keeps.set
    | fail_if_no_progress refine Keeps.fields ?_ rfl rfl rfl rfl rfl

theorem keeps_execMtReadCapture {s₀ s : State} (h : Keeps s₀ s) : KeepsAns s₀ (execMtReadCapture s) := by
  unfold execMtReadCapture
  repeat' with_reducible first
    | exact h | apply KeepsAns.next | apply KeepsAns.ite | fail_if_no_progress refine Keeps.fields ?_ rfl rfl rfl rfl rfl

theorem keeps_execCaptRead {s₀ s : State} (h : Keeps s₀ s) (hi : Bool) : KeepsAns s₀ (execCaptRead hi s) := by
  unfold execCaptRead
  repeat' with_reducible first
    | exact h | apply KeepsAns.next | apply KeepsAns.ite | fail_if_no_progress refine Keeps.fields ?_ rfl rfl rfl rfl rfl

theorem keeps_execSyncoutArm {s₀ s : State} (h : Keeps s₀ s) (hi : Word) : KeepsAns s₀ (execSyncoutArm hi s) := by
  unfold execSyncoutArm
  repeat' with_reducible first
    | exact h | assumption | intro _ | apply Keeps.set | apply keeps_busDo
    | fail_if_no_progress refine Keeps.fields ?_ rfl rfl rfl rfl rfl

theorem keeps_execMtSyncOutPulse {s₀ s : State} (h : Keeps s₀ s) : KeepsAns s₀ (execMtSyncOutPulse s) := by
  unfold execMtSyncOutPulse
  repeat' with_reducible first
    | exact h | apply KeepsAns.next | apply keeps_syncoutFrom | apply keeps_emit
    | fail_if_no_progress refine Keeps.fields ?_ rfl rfl rfl rfl rfl | split

theorem keeps_execCmpArm {s₀ s : State} (h : Keeps s₀ s) (c : Fin 4) (hi : Word) : KeepsAns s₀ (execCmpArm c hi s) := by
  unfold execCmpArm
  repeat' with_reducible first
    | exact h | assumption | intro _ | apply keeps_setBit | apply Keeps.set | apply keeps_busDo | apply keeps_fireCmp
    | apply Keeps.ite | fail_if_no_progress refine Keeps.fields ?_ rfl rfl rfl rfl rfl

theorem keeps_execCmpDisarm {s₀ s : State} (h : Keeps s₀ s) (mask : BitVec 4) : KeepsAns s₀ (execCmpDisarm mask s) := by
  unfold execCmpDisarm
  repeat' with_reducible first | exact h | assumption | intro _ | apply Keeps.set | apply keeps_busDo

theorem keeps_execCmpFire {s₀ s : State} (h : Keeps s₀ s) (c : Fin 4) : KeepsAns s₀ (execCmpFire c s) := by
  unfold execCmpFire
  repeat' with_reducible first | exact h | apply KeepsAns.next | apply KeepsAns.ite | apply keeps_fireCmp

theorem keeps_resetDomRegs {s₀ s : State} (h : Keeps s₀ s) (d : Dom) : Keeps s₀ (State.resetDomRegs s d) := by
  unfold State.resetDomRegs
  repeat' with_reducible first | exact h | apply Keeps.resetRegs

theorem keeps_resetPdLane {s₀ s : State} (h : Keeps s₀ s) : Keeps s₀ (State.resetPdLane s) := by
  unfold State.resetPdLane
  repeat' with_reducible first
    | exact h | apply keeps_resetDomRegs | fail_if_no_progress refine Keeps.fields ?_ rfl rfl rfl rfl rfl

theorem keeps_resetPdLink {s₀ s : State} (h : Keeps s₀ s) : Keeps s₀ (State.resetPdLink s) := by
  unfold State.resetPdLink
  repeat' with_reducible first
    | exact h | apply keeps_dropSamples | apply keeps_resetDomRegs
    | fail_if_no_progress refine Keeps.fields ?_ rfl rfl rfl rfl rfl

theorem keeps_showMode {s₀ s : State} (h : Keeps s₀ s) : Keeps s₀ (State.showMode s) := by
  unfold State.showMode
  repeat' with_reducible first | exact h | apply keeps_setF

theorem keeps_cutErase {s₀ s : State} (h : Keeps s₀ s) : Keeps s₀ (State.cutErase s) := by
  unfold State.cutErase
  exact Keeps.ite (keeps_garble h _ _) h

theorem keeps_resetPdSys {s₀ s : State} (h : Keeps s₀ s) : Keeps s₀ (State.resetPdSys s) := by
  unfold State.resetPdSys
  repeat' with_reducible first
    | exact h | apply keeps_resetRec | apply keeps_cutErase | apply keeps_resetDomRegs | apply keeps_resetFlash | apply keeps_showMode
    | apply keeps_showDisc | apply keeps_resetMarch | fail_if_no_progress refine Keeps.fields ?_ rfl rfl rfl rfl rfl

theorem keeps_dropMcache {s₀ s : State} (h : Keeps s₀ s) : Keeps s₀ (State.dropMcache s) := by
  unfold State.dropMcache
  repeat' with_reducible first | exact h | apply Keeps.set

theorem keeps_eraseStore {s₀ s : State} (h : Keeps s₀ s) : Keeps s₀ (State.eraseStore s) := by
  unfold State.eraseStore
  repeat' with_reducible first
    | exact h | assumption | intro _ | apply keeps_recActs | apply Keeps.foldl
    | fail_if_no_progress refine Keeps.fields ?_ rfl rfl rfl rfl rfl

theorem keeps_eraseForReturn {s₀ s : State} (h : Keeps s₀ s) : Keeps s₀ (State.eraseForReturn s) := by
  unfold State.eraseForReturn
  exact keeps_eraseStore (keeps_dropMcache (h.eraseRange _ _))

theorem keeps_burnFuses {s₀ s : State} (h : Keeps s₀ s) (t n : Nat) (key : Bool) : Keeps s₀ (State.burnFuses s t n key) := by
  refine h.trans ⟨id, id, rfl, ?_, ?_, ?_, fun _ h => h, fun hb => by simp [State.burnFuses, hb]⟩ <;>
    simp only [State.burnFuses] <;> split <;> omega

theorem keeps_cutChange {s₀ s : State} (h : Keeps s₀ s) : Keeps s₀ (State.cutChange s) := by
  unfold State.cutChange
  repeat' with_reducible first
    | exact h | assumption | intro _ | fail_if_no_progress extract_lets | apply keeps_burnFuses | apply keeps_eraseForReturn
    | apply keeps_halfErased
    | apply keeps_dropMcache | apply keeps_garble | apply keeps_fresh | apply Keeps.foldl
    | fail_if_no_progress refine Keeps.fields ?_ rfl rfl rfl rfl rfl | split

theorem keeps_resetPdMgt {s₀ s : State} (h : Keeps s₀ s) : Keeps s₀ (State.resetPdMgt s) := by
  unfold State.resetPdMgt
  repeat' with_reducible first
    | exact h | apply keeps_resetDomRegs | apply keeps_cutChange | fail_if_no_progress refine Keeps.fields ?_ rfl rfl rfl rfl rfl

theorem keeps_resetPdCrk {s₀ s : State} (h : Keeps s₀ s) : Keeps s₀ (State.resetPdCrk s) := by
  unfold State.resetPdCrk
  repeat' with_reducible first
    | exact h | apply keeps_resetDomRegs | fail_if_no_progress refine Keeps.fields ?_ rfl rfl rfl rfl rfl

theorem keeps_offLane {s₀ s : State} (h : Keeps s₀ s) : Keeps s₀ (State.offLane s) := by
  unfold State.offLane
  repeat' with_reducible first | exact h | apply Keeps.lose | apply keeps_resetPdLane

theorem keeps_offLink {s₀ s : State} (h : Keeps s₀ s) : Keeps s₀ (State.offLink s) := by
  unfold State.offLink
  repeat' with_reducible first | exact h | apply keeps_resetPdLink

theorem keeps_loseBanks {s₀ s : State} (h : Keeps s₀ s) (keep : Nat) : Keeps s₀ (State.loseBanks s keep) := by
  unfold State.loseBanks
  repeat' with_reducible first | exact h | assumption | intro _ | apply Keeps.lose | apply Keeps.ite | apply Keeps.foldl

theorem keeps_offSys {s₀ s : State} (h : Keeps s₀ s) (keep : Nat) : Keeps s₀ (State.offSys s keep) := by
  unfold State.offSys
  repeat' with_reducible first | exact h | apply keeps_resetPdSys | apply keeps_loseBanks | apply Keeps.lose

theorem keeps_offMgt {s₀ s : State} (h : Keeps s₀ s) : Keeps s₀ (State.offMgt s) := by
  unfold State.offMgt
  repeat' with_reducible first
    | exact h | apply keeps_resetPdMgt | fail_if_no_progress refine Keeps.fields ?_ rfl rfl rfl rfl rfl

theorem keeps_offCrk {s₀ s : State} (h : Keeps s₀ s) : Keeps s₀ (State.offCrk s) := by
  unfold State.offCrk
  repeat' with_reducible first | exact h | apply keeps_resetPdCrk | apply Keeps.lose

theorem keeps_rstCause {s₀ s : State} (h : Keeps s₀ s) (code : Nat) : Keeps s₀ (State.rstCause s code) := by
  unfold State.rstCause
  repeat' with_reducible first | exact h | apply Keeps.set | split

theorem keeps_startMain {s₀ s : State} (h : Keeps s₀ s) (code : Nat) : Keeps s₀ (State.startMain s code) := by
  unfold State.startMain
  repeat' with_reducible first | exact h | apply Keeps.set | fail_if_no_progress refine Keeps.fields ?_ rfl rfl rfl rfl rfl

theorem keeps_fullReset {s₀ s : State} (h : Keeps s₀ s) (code : Nat) : Keeps s₀ (State.fullReset s code) := by
  unfold State.fullReset
  repeat' with_reducible first
    | exact h | apply keeps_resetPdSys | apply keeps_resetPdCrk | apply keeps_startMain | apply keeps_resetPdLane
    | apply keeps_resetPdMgt | apply keeps_rstCause | apply keeps_resetPdLink

theorem keeps_powerCycleMain {s₀ s : State} (h : Keeps s₀ s) (code : Nat) : Keeps s₀ (State.powerCycleMain s code) := by
  unfold State.powerCycleMain
  repeat' with_reducible first
    | exact h | apply keeps_offLink | apply keeps_startMain | apply keeps_offMgt | apply keeps_offLane | apply keeps_rstCause
    | apply keeps_offSys

theorem keeps_coldReset {s₀ s : State} (h : Keeps s₀ s) (docked : Bool) : Keeps s₀ (State.coldReset s docked) := by
  unfold State.coldReset
  extract_lets s1 s2 s3
  have h1 : Keeps s₀ s1 := keeps_resetRec (keeps_resetFlash (keeps_resetMarch (keeps_cutErase (keeps_cutChange h))))
  have h2 : Keeps s₀ s2 := h1.trans ⟨fun _ => rfl, fun x => Store.wf_filter _ x, rfl, Nat.le_refl _, Nat.le_refl _,
    Nat.le_refl _, fun _ h => h, id⟩
  exact keeps_showMode (keeps_setF (keeps_setF h2 _ _) _ _)

theorem keeps_showClocks {s₀ s : State} (h : Keeps s₀ s) : Keeps s₀ (State.showClocks s) := by
  unfold State.showClocks
  repeat' with_reducible first | exact h | apply keeps_setF | apply Keeps.set

theorem keeps_pllOff {s₀ s : State} (h : Keeps s₀ s) : Keeps s₀ (State.pllOff s) := by
  unfold State.pllOff
  repeat' with_reducible first
    | exact h | apply keeps_showClocks | apply Keeps.set | fail_if_no_progress refine Keeps.fields ?_ rfl rfl rfl rfl rfl

theorem keeps_relockSys {s₀ s : State} (h : Keeps s₀ s) (mulChanged : Bool) : Keeps s₀ (State.relockSys s mulChanged) := by
  unfold State.relockSys
  repeat' with_reducible first
    | exact h | apply keeps_showClocks | apply Keeps.set | apply keeps_pllOff | apply Keeps.ite
    | fail_if_no_progress refine Keeps.fields ?_ rfl rfl rfl rfl rfl

theorem keeps_setStep {s₀ s : State} (h : Keeps s₀ s) (t : PStep) : Keeps s₀ (State.setStep s t) := by
  unfold State.setStep
  repeat' with_reducible first | exact h | apply Keeps.set | fail_if_no_progress refine Keeps.fields ?_ rfl rfl rfl rfl rfl

theorem keeps_portWake {s₀ s : State} (h : Keeps s₀ s) (srcs : Nat) : Keeps s₀ (State.portWake s srcs) := by
  unfold State.portWake
  repeat' with_reducible first | exact h | apply Keeps.ite | fail_if_no_progress refine Keeps.fields ?_ rfl rfl rfl rfl rfl

theorem keeps_recordWake {s₀ s : State} (h : Keeps s₀ s) (first : Nat) (srcs : Nat) (fromStep : PStep) :
    Keeps s₀ (State.recordWake s first srcs fromStep) := by
  unfold State.recordWake
  repeat' with_reducible first
    | exact h | apply keeps_portWake | apply Keeps.set | apply keeps_orBits
    | fail_if_no_progress refine Keeps.fields ?_ rfl rfl rfl rfl rfl

theorem keeps_joinWake {s₀ s : State} (h : Keeps s₀ s) (en : Nat) : Keeps s₀ (State.joinWake s en) := by
  unfold State.joinWake
  repeat' with_reducible first | exact h | apply keeps_portWake | apply Keeps.set | apply keeps_orBits | apply Keeps.ite

theorem keeps_wakeSrc {s₀ s : State} (h : Keeps s₀ s) (srcs : Nat) : Keeps s₀ (State.wakeSrc s srcs) := by
  unfold State.wakeSrc
  repeat' with_reducible first
    | exact h | apply keeps_joinWake | apply keeps_setStep | apply Keeps.set | apply keeps_recordWake | apply keeps_emit
    | apply Keeps.ite | fail_if_no_progress refine Keeps.fields ?_ rfl rfl rfl rfl rfl | split

end Sys2Proof.Machine
end

