-- ==== Sys2Proof/Laws/KeepsRing.lean ====
section
/-!
SUPPORT. Canonical form, the queue and OTP are kept (Sys2Proof/Laws/Keeps.lean) by the bus map, DICTENG, the DMA masters, the ring and the error tree.
-/
namespace Sys2Proof.Machine

theorem keeps_violation {s₀ s : State} (h : Keeps s₀ s) (m : Master) (a : Nat) : Keeps s₀ (State.violation s m a) := by
  unfold State.violation
  repeat' with_reducible first
    | exact h | apply keeps_report | fail_if_no_progress refine Keeps.fields ?_ rfl rfl rfl rfl rfl

theorem keeps_busBy {s₀ s : State} (h : Keeps s₀ s) (m : Master) (wr : Bool) (a : Nat) (k : State → State)
    (h_k : ∀ t, Keeps s₀ t → Keeps s₀ (k t)) : KeepsAns s₀ (State.busBy s m wr a k) := by
  unfold State.busBy
  repeat' with_reducible first
    | exact h | assumption | apply KeepsAns.next | apply keeps_busDo | apply keeps_violation | apply h_k
    | fail_if_no_progress refine Keeps.fields ?_ rfl rfl rfl rfl rfl | split

theorem keeps_showTx {s₀ s : State} (h : Keeps s₀ s) (n : Nat) (tx : List Nat) (busy : Bool) :
    Keeps s₀ (State.showTx s n tx busy) := by
  unfold State.showTx
  repeat' with_reducible first | exact h | apply keeps_setF | apply Keeps.set

theorem keeps_sendFrame {s₀ s : State} (h : Keeps s₀ s) (f : AcyclicFrame) : Keeps s₀ (State.sendFrame s f) := by
  unfold State.sendFrame
  repeat' with_reducible first | exact h | fail_if_no_progress refine Keeps.fields ?_ rfl rfl rfl rfl rfl

theorem keeps_sendNumbered {s₀ s : State} (h : Keeps s₀ s) (f : AcyclicFrame) : Keeps s₀ (State.sendNumbered s f) := by
  unfold State.sendNumbered
  repeat' with_reducible first | exact h | fail_if_no_progress refine Keeps.fields ?_ rfl rfl rfl rfl rfl

theorem keeps_sendBack {s₀ s : State} (h : Keeps s₀ s) (via : Via) (msg : List Byte) : Keeps s₀ (State.sendBack s via msg) := by
  unfold State.sendBack
  repeat' with_reducible first
    | exact h | apply keeps_sendFrame | apply keeps_pokes | apply keeps_showTx | apply Keeps.set | apply keeps_emit
    | fail_if_no_progress refine Keeps.fields ?_ rfl rfl rfl rfl rfl | split

theorem keeps_answer {s₀ s : State} (h : Keeps s₀ s) (op : Nat) (m : DictMsg) (status : Nat) (data : List Byte) :
    Keeps s₀ (State.answer s op m status data) := by
  unfold State.answer
  repeat' with_reducible first
    | exact h | apply keeps_sendBack | apply keeps_count | apply Keeps.ite
    | fail_if_no_progress refine Keeps.fields ?_ rfl rfl rfl rfl rfl

theorem keeps_serveBad {s₀ s : State} (h : Keeps s₀ s) (y0 : Nat) : Keeps s₀ (State.serveBad y0 s) := by
  induction y0 generalizing s with
  | zero => exact h
  | succ k ih =>
    unfold State.serveBad
    split
    · exact h
    · split
      · exact h
      · split
        · exact h
        · exact ih (keeps_answer (h.fields rfl rfl rfl rfl rfl) _ _ _ _)

theorem keeps_acceptReq {s₀ s : State} (h : Keeps s₀ s) (via : Via) (l : List Byte) : Keeps s₀ (State.acceptReq s via l) := by
  unfold State.acceptReq
  repeat' with_reducible first
    | exact h | apply keeps_serveBad | fail_if_no_progress refine Keeps.fields ?_ rfl rfl rfl rfl rfl

theorem keeps_dictReturn {s₀ s : State} (h : Keeps s₀ s) (src : Nat) (l : List Byte) : Keeps s₀ (State.dictReturn s src l) := by
  unfold State.dictReturn
  repeat' with_reducible first
    | exact h | apply keeps_sendBack | fail_if_no_progress refine Keeps.fields ?_ rfl rfl rfl rfl rfl | split

theorem keeps_endReq {s₀ s : State} (h : Keeps s₀ s) (r : HeldReq) (status : Nat) : Keeps s₀ (State.endReq s r status) := by
  unfold State.endReq
  repeat' with_reducible first | exact h | apply keeps_answer

theorem keeps_endBarrier {s₀ s : State} (h : Keeps s₀ s) (status : Nat) : Keeps s₀ (State.endBarrier s status) := by
  unfold State.endBarrier
  repeat' with_reducible first
    | exact h | apply keeps_endReq | fail_if_no_progress refine Keeps.fields ?_ rfl rfl rfl rfl rfl | split

theorem keeps_dictFrameBack {s₀ s : State} (h : Keeps s₀ s) (f : DictFrame) (res : Nat) :
    Keeps s₀ (State.dictFrameBack s f res) := by
  unfold State.dictFrameBack
  repeat' with_reducible first
    | exact h | apply keeps_endBarrier | apply keeps_endReq | fail_if_no_progress refine Keeps.fields ?_ rfl rfl rfl rfl rfl
    | split

theorem keeps_publishObj {s₀ s : State} (h : Keeps s₀ s) (src : Nat) (index : Nat) (sub : Nat) (v : List Byte) :
    Keeps s₀ (State.publishObj s src index sub v) := by
  unfold State.publishObj
  repeat' with_reducible first | exact h | fail_if_no_progress refine Keeps.fields ?_ rfl rfl rfl rfl rfl | split

theorem keeps_publishSeen {s₀ s : State} (h : Keeps s₀ s) (src : Nat) (l : List Byte) : Keeps s₀ (State.publishSeen s src l) := by
  unfold State.publishSeen
  repeat' with_reducible first | exact h | apply keeps_publishObj

theorem keeps_publish {s₀ s : State} (h : Keeps s₀ s) (index : Nat) (sub : Nat) (v : List Byte) :
    Keeps s₀ (State.publish s index sub v) := by
  unfold State.publish
  repeat' with_reducible first | exact h | apply keeps_publishObj | apply keeps_sendFrame

theorem keeps_execCalendarPublish {s₀ s : State} (h : Keeps s₀ s) : KeepsAns s₀ (execCalendarPublish s) := by
  unfold execCalendarPublish
  repeat' with_reducible first
    | exact h | apply KeepsAns.next | apply keeps_publish | split
    | fail_if_no_progress refine Keeps.fields ?_ rfl rfl rfl rfl rfl

theorem keeps_setWs {s₀ s : State} (h : Keeps s₀ s) (w : Fin 4) (x : WriteSet) : Keeps s₀ (State.setWs s w x) := by
  unfold State.setWs
  repeat' with_reducible first
    | exact h | apply keeps_setBit | fail_if_no_progress refine Keeps.fields ?_ rfl rfl rfl rfl rfl

theorem keeps_emptyWs {s₀ s : State} (h : Keeps s₀ s) (w : Fin 4) (outcome : Nat) : Keeps s₀ (State.emptyWs s w outcome) := by
  unfold State.emptyWs
  repeat' with_reducible first | exact h | apply keeps_setWs

theorem keeps_setSnap {s₀ s : State} (h : Keeps s₀ s) (st : Nat) : Keeps s₀ (State.setSnap s st) := by
  unfold State.setSnap
  repeat' with_reducible first | exact h | apply Keeps.set | fail_if_no_progress refine Keeps.fields ?_ rfl rfl rfl rfl rfl

theorem keeps_showSnap {s₀ s : State} (h : Keeps s₀ s) (st : Nat) : Keeps s₀ (State.showSnap s st) := by
  unfold State.showSnap
  repeat' with_reducible first | exact h | apply keeps_setSnap | apply Keeps.ite

theorem keeps_snapPhase {s₀ s : State} (h : Keeps s₀ s) (k : Nat) : Keeps s₀ (State.snapPhase s k) := by
  unfold State.snapPhase
  repeat' with_reducible first | exact h | fail_if_no_progress refine Keeps.fields ?_ rfl rfl rfl rfl rfl

theorem keeps_snapIncomplete {s₀ s : State} (h : Keeps s₀ s) : Keeps s₀ (State.snapIncomplete s) := by
  unfold State.snapIncomplete
  repeat' with_reducible first | exact h | apply Keeps.set | apply keeps_showSnap | apply keeps_snapPhase

theorem keeps_snapFinish {s₀ s : State} (h : Keeps s₀ s) : Keeps s₀ (State.snapFinish s) := by
  unfold State.snapFinish
  repeat' with_reducible first | exact h | apply Keeps.set | apply keeps_showSnap | apply keeps_snapPhase | apply Keeps.ite

theorem keeps_snapCycle {s₀ s : State} (h : Keeps s₀ s) (cyc : Nat) : Keeps s₀ (State.snapCycle s cyc) := by
  unfold State.snapCycle
  repeat' with_reducible first
    | exact h | fail_if_no_progress extract_lets | apply keeps_pokes | apply keeps_snapIncomplete | apply keeps_showSnap
    | apply keeps_snapFinish | apply keeps_snapPhase | fail_if_no_progress refine Keeps.fields ?_ rfl rfl rfl rfl rfl | split

theorem keeps_snapCollect {s₀ s : State} (h : Keeps s₀ s) (src : Nat) (data : List Byte) :
    Keeps s₀ (State.snapCollect s src data) := by
  unfold State.snapCollect
  repeat' with_reducible first
    | exact h | apply keeps_pokes | apply keeps_snapFinish | apply Keeps.ite
    | fail_if_no_progress refine Keeps.fields ?_ rfl rfl rfl rfl rfl

theorem keeps_dictRingReset {s₀ s : State} (h : Keeps s₀ s) : Keeps s₀ (State.dictRingReset s) := by
  unfold State.dictRingReset
  repeat' with_reducible first
    | exact h | assumption | intro _ | apply keeps_endBarrier | apply keeps_snapIncomplete | apply keeps_emptyWs
    | apply Keeps.ite | apply Keeps.foldl | fail_if_no_progress refine Keeps.fields ?_ rfl rfl rfl rfl rfl

theorem keeps_sramSingle {s₀ s : State} (h : Keeps s₀ s) : Keeps s₀ (State.sramSingle s) := by
  unfold State.sramSingle
  repeat' with_reducible first | exact h | apply Keeps.set | apply keeps_count

theorem keeps_sramDouble {s₀ s : State} (h : Keeps s₀ s) (a : Nat) : Keeps s₀ (State.sramDouble s a) := by
  unfold State.sramDouble
  repeat' with_reducible first | exact h | apply Keeps.set | apply keeps_report | apply keeps_count

theorem keeps_freeBytes {s₀ s : State} (h : Keeps s₀ s) (n : Nat) : Keeps s₀ (State.freeBytes s n).1 := by
  unfold State.freeBytes
  repeat' with_reducible first | exact h | apply keeps_fresh

theorem keeps_dmaRead {s₀ s : State} (h : Keeps s₀ s) (m : Master) (a : Nat) (n : Nat) :
    Keeps s₀ (State.dmaRead s m a n).1 := by
  unfold State.dmaRead
  repeat' with_reducible first
    | exact h | apply keeps_freeBytes | apply keeps_sramSingle | apply keeps_report | apply keeps_sramDouble | split

theorem keeps_dmaWrite {s₀ s : State} (h : Keeps s₀ s) (m : Master) (a : Nat) (d : List Byte) :
    Keeps s₀ (State.dmaWrite s m a d) := by
  unfold State.dmaWrite
  repeat' with_reducible first | exact h | apply keeps_pokes | apply keeps_report | apply Keeps.ite

theorem keeps_finishEntry {s₀ s : State} (h : Keeps s₀ s) (q : Nat) (i : Nat) (stamp : Nat) (word3 : Nat) :
    Keeps s₀ (State.finishEntry s q i stamp word3) := by
  unfold State.finishEntry
  repeat' with_reducible first | exact h | apply keeps_setBit | apply keeps_dmaWrite

theorem keeps_advanceHead {s₀ s : State} (h : Keeps s₀ s) (q : Nat) : Keeps s₀ (State.advanceHead s q) := by
  unfold State.advanceHead
  repeat' with_reducible first | exact h | apply Keeps.set

theorem keeps_rxWrite {s₀ s : State} (h : Keeps s₀ s) (q : Nat) (typ : Nat) (src : Nat) (stamp : Nat) (word3 : Nat)
    (data : List Byte) : Keeps s₀ (State.rxWrite s q typ src stamp word3 data) := by
  unfold State.rxWrite
  repeat' with_reducible first | exact h | apply keeps_finishEntry | apply keeps_dmaWrite | apply keeps_advanceHead

theorem keeps_rxStore {s₀ s : State} (h : Keeps s₀ s) (q : Nat) (typ : Nat) (src : Nat) (stamp : Nat) (word3 : Nat)
    (data : List Byte) : Keeps s₀ (State.rxStore s q typ src stamp word3 data).1 := by
  unfold State.rxStore
  repeat' with_reducible first
    | exact h | fail_if_no_progress extract_lets | apply keeps_setBit | apply keeps_rxWrite | apply keeps_count
    | fail_if_no_progress refine Keeps.fields ?_ rfl rfl rfl rfl rfl | split

theorem keeps_locRead {s₀ s : State} (h : Keeps s₀ s) : Keeps s₀ (State.locRead s) := by
  unfold State.locRead
  repeat' with_reducible first
    | exact h | apply keeps_acceptReq | apply keeps_dmaRead | fail_if_no_progress refine Keeps.fields ?_ rfl rfl rfl rfl rfl

theorem keeps_resumeDma {s₀ s : State} (h : Keeps s₀ s) : Keeps s₀ (State.resumeDma s) := by
  unfold State.resumeDma
  repeat' with_reducible first
    | exact h | assumption | intro _ | apply keeps_locRead | apply keeps_rxStore | apply Keeps.foldl
    | fail_if_no_progress refine Keeps.fields ?_ rfl rfl rfl rfl rfl | split

theorem keeps_hear {s₀ s : State} (h : Keeps s₀ s) : Keeps s₀ (State.hear s) := by
  unfold State.hear
  repeat' with_reducible first | exact h | fail_if_no_progress refine Keeps.fields ?_ rfl rfl rfl rfl rfl

theorem keeps_setRstate {s₀ s : State} (h : Keeps s₀ s) (st : Nat) : Keeps s₀ (State.setRstate s st) := by
  unfold State.setRstate
  repeat' with_reducible first
    | exact h | apply keeps_hear | apply Keeps.set | apply Keeps.ite
    | fail_if_no_progress refine Keeps.fields ?_ rfl rfl rfl rfl rfl

theorem keeps_setLoops {s₀ s : State} (h : Keeps s₀ s) : Keeps s₀ (State.setLoops s) := by
  unfold State.setLoops
  repeat' with_reducible first | exact h | apply keeps_setF

theorem keeps_setBypass {s₀ s : State} (h : Keeps s₀ s) : Keeps s₀ (State.setBypass s) := by
  unfold State.setBypass
  repeat' with_reducible first | exact h | apply keeps_setF

theorem keeps_cutStream {s₀ s : State} (h : Keeps s₀ s) (p : Fin 2) : Keeps s₀ (State.cutStream s p) := by
  unfold State.cutStream
  repeat' with_reducible first | exact h | apply keeps_emit | apply Keeps.ite

theorem keeps_losePort {s₀ s : State} (h : Keeps s₀ s) (p : Fin 2) : Keeps s₀ (State.losePort s p) := by
  unfold State.losePort
  repeat' with_reducible first
    | exact h | apply keeps_setLoops | apply keeps_cutStream | apply Keeps.set | apply keeps_count | apply Keeps.ite

theorem keeps_loseSignal {s₀ s : State} (h : Keeps s₀ s) (p : Fin 2) : Keeps s₀ (State.loseSignal s p) := by
  unfold State.loseSignal
  repeat' with_reducible first | exact h | apply keeps_dropSamples | apply Keeps.set | apply keeps_count

theorem keeps_codeErrors {s₀ s : State} (h : Keeps s₀ s) (p : Fin 2) : Keeps s₀ (State.codeErrors s p) := by
  unfold State.codeErrors
  repeat' with_reducible first | exact h | assumption | intro _ | apply keeps_count | apply Keeps.foldl

theorem keeps_execPortLost {s₀ s : State} (h : Keeps s₀ s) (p : Fin 2) (why : LostCause) :
    KeepsAns s₀ (execPortLost p why s) := by
  unfold execPortLost
  repeat' with_reducible first
    | exact h | apply KeepsAns.next | apply keeps_codeErrors | apply Keeps.set | apply keeps_losePort | apply keeps_loseSignal
    | split

theorem keeps_execPortSignalGained {s₀ s : State} (h : Keeps s₀ s) (p : Fin 2) : KeepsAns s₀ (execPortSignalGained p s) := by
  unfold execPortSignalGained
  repeat' with_reducible first | exact h | apply KeepsAns.next | apply KeepsAns.ite | apply Keeps.set

theorem keeps_execDelayRequestSend {s₀ s : State} (h : Keeps s₀ s) (p : Fin 2) (t1 : Nat) :
    KeepsAns s₀ (execDelayRequestSend p t1 s) := by
  unfold execDelayRequestSend
  repeat' with_reducible first
    | exact h | apply KeepsAns.next | apply KeepsAns.ite | apply keeps_emit | apply Keeps.ite
    | fail_if_no_progress refine Keeps.fields ?_ rfl rfl rfl rfl rfl

theorem keeps_execDlyFrameReceived {s₀ s : State} (h : Keeps s₀ s) (p : Fin 2) (f : DlyFrame) (r : Arrival)
    (t3 : Nat) : KeepsAns s₀ (execDlyFrameReceived p f r t3 s) := by
  unfold execDlyFrameReceived
  repeat' first
    | with_reducible exact h | with_reducible apply KeepsAns.next | with_reducible apply keeps_setF
    | with_reducible apply keeps_addSample | with_reducible apply Keeps.set | with_reducible apply keeps_losePort
    | with_reducible apply keeps_count | with_reducible apply keeps_emit | split
    | refine Keeps.ofSome (by with_reducible assumption) ?_ | (with_reducible conv => arg 2; whnf)

theorem keeps_healPort {s₀ s : State} (h : Keeps s₀ s) (p : Fin 2) : Keeps s₀ (State.healPort s p) := by
  unfold State.healPort
  repeat' with_reducible first | exact h | apply keeps_setLoops | apply Keeps.set

theorem keeps_execLinkUsable {s₀ s : State} (h : Keeps s₀ s) (p : Fin 2) : KeepsAns s₀ (execLinkUsable p s) := by
  unfold execLinkUsable
  repeat' with_reducible first | exact h | apply KeepsAns.next | apply KeepsAns.ite | apply Keeps.set | apply keeps_healPort

theorem keeps_execLinkHeal {s₀ s : State} (h : Keeps s₀ s) (p : Fin 2) : KeepsAns s₀ (execLinkHeal p s) := by
  unfold execLinkHeal
  repeat' with_reducible first | exact h | apply KeepsAns.next | apply KeepsAns.ite | apply keeps_healPort

theorem keeps_execQueueTailWrite {s₀ s : State} (h : Keeps s₀ s) (q : Fin 8) (v : Word) :
    KeepsAns s₀ (execQueueTailWrite q v s) := by
  unfold execQueueTailWrite
  repeat' with_reducible first | exact h | assumption | intro _ | apply Keeps.set | apply keeps_busDo

theorem keeps_newCycle {s₀ s : State} (h : Keeps s₀ s) (b : Nat) (cyc : Nat) : Keeps s₀ (State.newCycle s b cyc) := by
  unfold State.newCycle
  repeat' with_reducible first
    | exact h | apply keeps_pulse | apply keeps_snapCycle | apply Keeps.set
    | fail_if_no_progress refine Keeps.fields ?_ rfl rfl rfl rfl rfl

theorem keeps_slotMute {s₀ s : State} (h : Keeps s₀ s) (e : Int) : Keeps s₀ (State.slotMute s e) := by
  unfold State.slotMute
  repeat' with_reducible first | exact h | apply Keeps.set | apply keeps_count | apply Keeps.ite

theorem keeps_seeSleep {s₀ s : State} (h : Keeps s₀ s) (f : CycleStart) : Keeps s₀ (State.seeSleep s f) := by
  unfold State.seeSleep
  repeat' with_reducible first
    | exact h | apply Keeps.set | apply Keeps.ite | fail_if_no_progress refine Keeps.fields ?_ rfl rfl rfl rfl rfl

theorem keeps_unseated {s₀ s : State} (h : Keeps s₀ s) : Keeps s₀ (State.unseated s) := by
  unfold State.unseated
  repeat' with_reducible first
    | exact h | apply keeps_setSync | apply Keeps.set | apply keeps_freqHold | apply Keeps.ite
    | fail_if_no_progress refine Keeps.fields ?_ rfl rfl rfl rfl rfl

theorem keeps_clearReasons {s₀ s : State} (h : Keeps s₀ s) (f : CycleStart) : Keeps s₀ (State.clearReasons s f) := by
  unfold State.clearReasons
  repeat' with_reducible first | exact h | apply Keeps.set | apply Keeps.ite

theorem keeps_acceptCs {s₀ s : State} (h : Keeps s₀ s) (p : Fin 2) (t : Nat) (f : CycleStart) :
    Keeps s₀ (State.acceptCs s p t f) := by
  unfold State.acceptCs
  repeat' with_reducible first
    | exact h | apply keeps_servoAccept | apply keeps_setF | apply keeps_unseated | apply Keeps.set | apply keeps_setRstate
    | apply keeps_slotMute | apply keeps_newCycle | apply keeps_seeSleep | apply keeps_clearReasons | apply Keeps.ite
    | fail_if_no_progress refine Keeps.fields ?_ rfl rfl rfl rfl rfl

theorem keeps_forwardCs {s₀ s : State} (h : Keeps s₀ s) (p : Fin 2) (f : CycleStart) : Keeps s₀ (State.forwardCs s p f) := by
  unfold State.forwardCs
  repeat' with_reducible first | exact h | apply keeps_emit

theorem keeps_badFrame {s₀ s : State} (h : Keeps s₀ s) (p : Fin 2) (forwarded : Bool) :
    Keeps s₀ (State.badFrame s p forwarded) := by
  unfold State.badFrame
  repeat' with_reducible first | exact h | apply keeps_count | apply keeps_emit | apply Keeps.ite

theorem keeps_execCycleStartReceived {s₀ s : State} (h : Keeps s₀ s) (p : Fin 2) (t : Nat) (f : CycleStart) (crcOk : Bool) :
    KeepsAns s₀ (execCycleStartReceived p t f crcOk s) := by
  unfold execCycleStartReceived
  repeat' with_reducible first
    | exact h | apply KeepsAns.next | apply KeepsAns.ite | apply keeps_setF | apply keeps_hear | apply keeps_badFrame
    | apply keeps_setRstate | apply keeps_forwardCs | apply keeps_acceptCs | apply Keeps.ite

theorem keeps_sleepCancel {s₀ s : State} (h : Keeps s₀ s) : Keeps s₀ (State.sleepCancel s) := by
  unfold State.sleepCancel
  repeat' with_reducible first
    | exact h | apply Keeps.set | fail_if_no_progress refine Keeps.fields ?_ rfl rfl rfl rfl rfl | split

theorem keeps_execCycleStartSend {s₀ s : State} (h : Keeps s₀ s) : KeepsAns s₀ (execCycleStartSend s) := by
  unfold execCycleStartSend
  repeat' with_reducible first
    | exact h | apply KeepsAns.next | apply keeps_sleepCancel | apply keeps_setSync | apply Keeps.set | apply keeps_timeRise
    | apply keeps_newCycle | apply keeps_emit | fail_if_no_progress refine Keeps.fields ?_ rfl rfl rfl rfl rfl | split

theorem keeps_takePayload {s₀ s : State} (h : Keeps s₀ s) (n : Nat) : Keeps s₀ (State.takePayload s n).1 := by
  unfold State.takePayload
  repeat' with_reducible first | exact h | fail_if_no_progress extract_lets | apply keeps_dmaRead | split

theorem keeps_execSlotPayloadFetch {s₀ s : State} (h : Keeps s₀ s) : KeepsAns s₀ (execSlotPayloadFetch s) := by
  unfold execSlotPayloadFetch
  repeat' with_reducible first
    | exact h | apply KeepsAns.next | apply keeps_takePayload | fail_if_no_progress refine Keeps.fields ?_ rfl rfl rfl rfl rfl
    | split

theorem keeps_slotPayload {s₀ s : State} (h : Keeps s₀ s) (n : Nat) : Keeps s₀ (State.slotPayload s n).1 := by
  unfold State.slotPayload
  repeat' with_reducible first | exact h | apply keeps_takePayload | split

theorem keeps_sendSlot {s₀ s : State} (h : Keeps s₀ s) (t : Nat) (x : SlotPay) : Keeps s₀ (State.sendSlot s t x) := by
  unfold State.sendSlot
  repeat' with_reducible first
    | exact h | apply keeps_finishEntry | apply keeps_advanceHead | apply keeps_emit
    | fail_if_no_progress refine Keeps.fields ?_ rfl rfl rfl rfl rfl | split

theorem keeps_execSlotSend {s₀ s : State} (h : Keeps s₀ s) (busy : Bool) : KeepsAns s₀ (execSlotSend busy s) := by
  unfold execSlotSend
  repeat' with_reducible first
    | exact h | apply KeepsAns.next | apply keeps_slotPayload | apply keeps_sendSlot | apply keeps_count
    | fail_if_no_progress refine Keeps.fields ?_ rfl rfl rfl rfl rfl | split

theorem keeps_execSlotReceived {s₀ s : State} (h : Keeps s₀ s) (p : Fin 2) (f : SlotFrame) (r : Arrival) :
    KeepsAns s₀ (execSlotReceived p f r s) := by
  unfold execSlotReceived
  repeat' with_reducible first
    | exact h | apply KeepsAns.next | apply KeepsAns.ite | apply keeps_sleepCancel | apply keeps_badFrame | apply keeps_rxStore
    | apply keeps_snapCollect | apply keeps_emit | apply Keeps.ite
    | fail_if_no_progress refine Keeps.fields ?_ rfl rfl rfl rfl rfl

theorem keeps_txFrame {s₀ s : State} (h : Keeps s₀ s) (q : Nat) (i : Nat) : Keeps s₀ (State.txFrame s q i).1 := by
  unfold State.txFrame
  repeat' with_reducible first | exact h | apply keeps_dmaRead

theorem keeps_sendAcyclic {s₀ s : State} (h : Keeps s₀ s) (p : Fin 2) (pos : Nat) :
    KeepsOpt s₀ (State.sendAcyclic s p pos) := by
  unfold State.sendAcyclic
  repeat' first
    | with_reducible exact h | (fail_if_no_progress extract_lets) | with_reducible apply KeepsOpt.some
    | with_reducible apply KeepsOpt.none | with_reducible apply keeps_txFrame | with_reducible apply keeps_emit
    | (fail_if_no_progress with_reducible refine Keeps.fields ?_ rfl rfl rfl rfl rfl) | split
    | refine Keeps.ofFst (by with_reducible assumption) ?_

theorem keeps_execTokSend {s₀ s : State} (h : Keeps s₀ s) : KeepsAns s₀ (execTokSend s) := by
  unfold execTokSend
  repeat' with_reducible first
    | exact h | apply KeepsAns.next | apply keeps_emit | fail_if_no_progress refine Keeps.fields ?_ rfl rfl rfl rfl rfl | split

theorem keeps_execTokReceived {s₀ s : State} (h : Keeps s₀ s) (p : Fin 2) (pos : Nat) :
    KeepsAns s₀ (execTokReceived p pos s) := by
  unfold execTokReceived
  repeat' first
    | with_reducible exact h | (fail_if_no_progress extract_lets) | with_reducible apply KeepsAns.next
    | with_reducible apply keeps_sendAcyclic | with_reducible apply keeps_emit | split
    | refine Keeps.ofSome (by with_reducible assumption) ?_

theorem keeps_completeTx {s₀ s : State} (h : Keeps s₀ s) (ack : Nat) (res : Nat) : Keeps s₀ (State.completeTx s ack res) := by
  unfold State.completeTx
  repeat' with_reducible first
    | exact h | apply keeps_finishEntry | apply keeps_advanceHead
    | fail_if_no_progress refine Keeps.fields ?_ rfl rfl rfl rfl rfl | split

theorem keeps_storeFrame {s₀ s : State} (h : Keeps s₀ s) (p : Fin 2) (t : Nat) (f : AcyclicFrame) :
    Keeps s₀ (State.storeFrame s p t f).1 := by
  unfold State.storeFrame
  repeat' with_reducible first
    | exact h | apply keeps_publishSeen | apply keeps_dictReturn | apply keeps_rxStore | apply keeps_acceptReq | split

theorem keeps_frameBack {s₀ s : State} (h : Keeps s₀ s) (ack : Nat) (res : Nat) : Keeps s₀ (State.frameBack s ack res) := by
  unfold State.frameBack
  repeat' with_reducible first
    | exact h | apply keeps_dictFrameBack | apply keeps_completeTx
    | fail_if_no_progress refine Keeps.fields ?_ rfl rfl rfl rfl rfl | split

theorem keeps_dropQueue {s₀ s : State} (h : Keeps s₀ s) (q : Nat) (y1 : Nat) : Keeps s₀ (State.dropQueue q y1 s) := by
  induction y1 generalizing s with
  | zero => exact h
  | succ k ih =>
    unfold State.dropQueue
    split
    · exact ih (keeps_advanceHead (keeps_finishEntry h _ _ _ _) _)
    · exact h

theorem keeps_dropTx {s₀ s : State} (h : Keeps s₀ s) : Keeps s₀ (State.dropTx s) := by
  unfold State.dropTx
  repeat' with_reducible first
    | exact h | assumption | intro _ | apply keeps_frameBack | apply keeps_dropQueue | apply Keeps.foldl

theorem keeps_execAcyclicFrameReceived {s₀ s : State} (h : Keeps s₀ s) (p : Fin 2) (f : AcyclicFrame) (r : Arrival) :
    KeepsAns s₀ (execAcyclicFrameReceived p f r s) := by
  unfold execAcyclicFrameReceived
  repeat' with_reducible first
    | exact h | apply KeepsAns.next | apply KeepsAns.ite | apply keeps_frameBack | apply keeps_badFrame | apply keeps_count
    | apply keeps_storeFrame | apply keeps_emit | apply Keeps.ite

theorem keeps_execAcyclicTxLost {s₀ s : State} (h : Keeps s₀ s) : KeepsAns s₀ (execAcyclicTxLost s) := by
  unfold execAcyclicTxLost
  repeat' with_reducible first | exact h | apply KeepsAns.next | apply keeps_frameBack | split

theorem keeps_noteEn {s₀ s : State} (h : Keeps s₀ s) (was : Bool) : Keeps s₀ (State.noteEn s was) := by
  unfold State.noteEn
  repeat' with_reducible first | exact h | apply Keeps.ite | fail_if_no_progress refine Keeps.fields ?_ rfl rfl rfl rfl rfl

theorem keeps_execRingEnable {s₀ s : State} (h : Keeps s₀ s) (v : Word) : KeepsAns s₀ (execRingEnable v s) := by
  unfold execRingEnable
  repeat' with_reducible first
    | exact h | assumption | intro _ | apply keeps_setBypass | apply keeps_noteEn | apply Keeps.set | apply keeps_setRstate
    | apply keeps_busDo | apply keeps_writeFields | apply Keeps.ite

theorem keeps_execRingDisable {s₀ s : State} (h : Keeps s₀ s) (v : Word) : KeepsAns s₀ (execRingDisable v s) := by
  unfold execRingDisable
  repeat' with_reducible first
    | exact h | assumption | intro _ | apply keeps_setBypass | apply Keeps.set | apply keeps_setRstate | apply keeps_busDo
    | apply keeps_writeFields

theorem keeps_execListenTimeout {s₀ s : State} (h : Keeps s₀ s) : KeepsAns s₀ (execListenTimeout s) := by
  unfold execListenTimeout
  repeat' with_reducible first | exact h | apply KeepsAns.next | apply KeepsAns.ite | apply keeps_setRstate

theorem keeps_execFollowerTimeout {s₀ s : State} (h : Keeps s₀ s) : KeepsAns s₀ (execFollowerTimeout s) := by
  unfold execFollowerTimeout
  repeat' with_reducible first | exact h | apply KeepsAns.next | apply keeps_setRstate | split

theorem keeps_execClmSend {s₀ s : State} (h : Keeps s₀ s) : KeepsAns s₀ (execClmSend s) := by
  unfold execClmSend
  repeat' with_reducible first
    | exact h | apply KeepsAns.next | apply KeepsAns.ite | apply keeps_emit
    | fail_if_no_progress refine Keeps.fields ?_ rfl rfl rfl rfl rfl

theorem keeps_setWinner {s₀ s : State} (h : Keeps s₀ s) (prio : Nat) (uid : Nat) : Keeps s₀ (State.setWinner s prio uid) := by
  unfold State.setWinner
  repeat' with_reducible first | exact h | apply Keeps.set

theorem keeps_trimElected {s₀ s : State} (h : Keeps s₀ s) : Keeps s₀ (State.trimElected s) := by
  unfold State.trimElected
  repeat' with_reducible first
    | exact h | apply Keeps.set | apply Keeps.ite | fail_if_no_progress refine Keeps.fields ?_ rfl rfl rfl rfl rfl

theorem keeps_elected {s₀ s : State} (h : Keeps s₀ s) : Keeps s₀ (State.elected s) := by
  unfold State.elected
  repeat' with_reducible first
    | exact h | apply keeps_setSync | apply keeps_trimElected | apply Keeps.set | apply keeps_setRstate | apply keeps_setWinner
    | apply Keeps.ite | fail_if_no_progress refine Keeps.fields ?_ rfl rfl rfl rfl rfl

theorem keeps_noteClaim {s₀ s : State} (h : Keeps s₀ s) (prio : Nat) (uid : Nat) : Keeps s₀ (State.noteClaim s prio uid) := by
  unfold State.noteClaim
  repeat' with_reducible first
    | exact h | apply keeps_setWinner | apply Keeps.ite | fail_if_no_progress refine Keeps.fields ?_ rfl rfl rfl rfl rfl

theorem keeps_execClmReceived {s₀ s : State} (h : Keeps s₀ s) (p : Fin 2) (uid : BitVec 64) (prio : BitVec 8) (run : Bool)
    (crcOk : Bool) : KeepsAns s₀ (execClmReceived p uid prio run crcOk s) := by
  unfold execClmReceived
  repeat' with_reducible first
    | exact h | apply KeepsAns.next | apply KeepsAns.ite | apply keeps_elected | apply keeps_hear | apply keeps_unseated
    | apply keeps_badFrame | apply keeps_noteClaim | apply keeps_setRstate | apply keeps_emit

theorem keeps_ringReset {s₀ s : State} (h : Keeps s₀ s) : Keeps s₀ (State.ringReset s) := by
  unfold State.ringReset
  repeat' with_reducible first
    | exact h | assumption | intro _ | apply keeps_dictRingReset | apply keeps_dropTx | apply keeps_setSync
    | apply keeps_forLanes | apply Keeps.set | apply keeps_setRstate | apply keeps_freqHold | apply keeps_syncoutFrom
    | apply keeps_timeFall | apply keeps_timeHold | apply Keeps.ite
    | fail_if_no_progress refine Keeps.fields ?_ rfl rfl rfl rfl rfl

theorem keeps_execRingResetWrite {s₀ s : State} (h : Keeps s₀ s) : KeepsAns s₀ (execRingResetWrite s) := by
  unfold execRingResetWrite
  repeat' with_reducible first
    | exact h | assumption | intro _ | apply keeps_busDo | apply keeps_ringReset | apply keeps_emit | apply Keeps.ite
    | fail_if_no_progress refine Keeps.fields ?_ rfl rfl rfl rfl rfl

theorem keeps_execRstReceived {s₀ s : State} (h : Keeps s₀ s) (p : Fin 2) : KeepsAns s₀ (execRstReceived p s) := by
  unfold execRstReceived
  repeat' with_reducible first
    | exact h | apply KeepsAns.next | apply KeepsAns.ite | apply keeps_ringReset | apply keeps_emit
    | fail_if_no_progress refine Keeps.fields ?_ rfl rfl rfl rfl rfl

theorem keeps_execSleepGo {s₀ s : State} (h : Keeps s₀ s) (v : Word) : KeepsAns s₀ (execSleepGo v s) := by
  unfold execSleepGo
  repeat' with_reducible first
    | exact h | assumption | intro _ | apply Keeps.set | apply keeps_busDo | apply keeps_writeFields | apply Keeps.ite
    | fail_if_no_progress refine Keeps.fields ?_ rfl rfl rfl rfl rfl

theorem keeps_execSleepCancel {s₀ s : State} (h : Keeps s₀ s) : KeepsAns s₀ (execSleepCancel s) := by
  unfold execSleepCancel
  repeat' with_reducible first | exact h | assumption | apply keeps_sleepCancel | apply keeps_busDo

theorem keeps_execRingSleep {s₀ s : State} (h : Keeps s₀ s) : KeepsAns s₀ (execRingSleep s) := by
  unfold execRingSleep
  repeat' with_reducible first
    | exact h | apply KeepsAns.next | apply KeepsAns.ite | apply Keeps.set | apply keeps_setRstate
    | fail_if_no_progress refine Keeps.fields ?_ rfl rfl rfl rfl rfl | split

theorem keeps_ringPark {s₀ s : State} (h : Keeps s₀ s) : Keeps s₀ (State.ringPark s) := by
  unfold State.ringPark
  repeat' with_reducible first | exact h | apply Keeps.put | fail_if_no_progress refine Keeps.fields ?_ rfl rfl rfl rfl rfl

theorem keeps_ringWake {s₀ s : State} (h : Keeps s₀ s) : Keeps s₀ (State.ringWake s) := by
  unfold State.ringWake
  repeat' with_reducible first | exact h | apply keeps_setRstate | apply keeps_emit

theorem keeps_execHeldWake {s₀ s : State} (h : Keeps s₀ s) : KeepsAns s₀ (execHeldWake s) := by
  unfold execHeldWake
  repeat' with_reducible first
    | exact h | fail_if_no_progress extract_lets | apply KeepsAns.next | apply keeps_ringWake | apply Keeps.ite
    | fail_if_no_progress refine Keeps.fields ?_ rfl rfl rfl rfl rfl | split

theorem keeps_wakeRing {s₀ s : State} (h : Keeps s₀ s) : Keeps s₀ (State.wakeRing s) := by
  unfold State.wakeRing
  repeat' with_reducible first | exact h | apply keeps_ringWake | apply Keeps.set | apply Keeps.ite

theorem keeps_ringUnpark {s₀ s : State} (h : Keeps s₀ s) : Keeps s₀ (State.ringUnpark s) := by
  unfold State.ringUnpark
  repeat' with_reducible first
    | exact h | apply keeps_setBypass | apply keeps_wakeRing | apply keeps_ringWake | apply Keeps.put | apply Keeps.ite
    | fail_if_no_progress refine Keeps.fields ?_ rfl rfl rfl rfl rfl

theorem keeps_wakeByEvent {s₀ s : State} (h : Keeps s₀ s) (k : Nat) : Keeps s₀ (State.wakeByEvent s k) := by
  unfold State.wakeByEvent
  repeat' with_reducible first
    | exact h | apply keeps_wakeRing | apply Keeps.ite | fail_if_no_progress refine Keeps.fields ?_ rfl rfl rfl rfl rfl

theorem keeps_execWakeReq {s₀ s : State} (h : Keeps s₀ s) (v : Word) : KeepsAns s₀ (execWakeReq v s) := by
  unfold execWakeReq
  repeat' with_reducible first
    | exact h | assumption | intro _ | apply keeps_wakeRing | apply keeps_busDo | apply keeps_writeFields

theorem keeps_execRingActivityWake {s₀ s : State} (h : Keeps s₀ s) (p : Fin 2) : KeepsAns s₀ (execRingActivityWake p s) := by
  unfold execRingActivityWake
  repeat' with_reducible first | exact h | apply KeepsAns.next | apply KeepsAns.ite | apply keeps_ringWake

theorem keeps_resetTime {s₀ s : State} (h : Keeps s₀ s) : Keeps s₀ (State.resetTime s) := by
  unfold State.resetTime
  repeat' with_reducible first
    | exact h | assumption | intro _ | apply keeps_resetBlockRegs | apply keeps_forLanes | apply Keeps.set
    | apply keeps_showDisc | apply keeps_timeFall | apply keeps_timeHold
    | fail_if_no_progress refine Keeps.fields ?_ rfl rfl rfl rfl rfl

theorem keeps_resetHarvest {s₀ s : State} (h : Keeps s₀ s) : Keeps s₀ (State.resetHarvest s) := by
  unfold State.resetHarvest
  repeat' with_reducible first
    | exact h | apply keeps_resetBlockRegs | apply Keeps.put | fail_if_no_progress refine Keeps.fields ?_ rfl rfl rfl rfl rfl

theorem keeps_restartCricket {s₀ s : State} (h : Keeps s₀ s) : Keeps s₀ (State.restartCricket s) := by
  unfold State.restartCricket
  repeat' with_reducible first | exact h | apply Keeps.set | fail_if_no_progress refine Keeps.fields ?_ rfl rfl rfl rfl rfl

theorem keeps_resetSource {s₀ s : State} (h : Keeps s₀ s) (src : Nat) : Keeps s₀ (State.resetSource s src) := by
  unfold State.resetSource
  repeat' with_reducible first
    | exact h | apply keeps_restartCricket | apply keeps_resetRec | apply keeps_resetBlockRegs | apply keeps_resetTime
    | apply keeps_showClocks | apply keeps_resetLane | apply keeps_resetFlash | apply Keeps.resetRegs | apply Keeps.put
    | apply keeps_showDisc | apply keeps_resetMarch | apply keeps_resetHarvest
    | fail_if_no_progress refine Keeps.fields ?_ rfl rfl rfl rfl rfl | split

theorem keeps_resetLaneRegion {s₀ s : State} (h : Keeps s₀ s) : Keeps s₀ (State.resetLaneRegion s) := by
  unfold State.resetLaneRegion
  repeat' with_reducible first
    | exact h | assumption | intro _ | apply keeps_resetSource | apply keeps_forLanes | apply keeps_resetLane

theorem keeps_resetLinkRegion {s₀ s : State} (h : Keeps s₀ s) : Keeps s₀ (State.resetLinkRegion s) := by
  unfold State.resetLinkRegion
  repeat' with_reducible first | exact h | apply keeps_resetSource

theorem keeps_regionReport {s₀ s : State} (h : Keeps s₀ s) (r : Report) (info : Bool) :
    Keeps s₀ (State.regionReport s r info) := by
  unfold State.regionReport
  repeat' with_reducible first
    | exact h | fail_if_no_progress extract_lets | apply keeps_chipReport | apply keeps_resetLaneRegion
    | apply keeps_resetLinkRegion | apply keeps_setBit | apply Keeps.set | apply keeps_count | apply Keeps.ite | split

theorem keeps_coastAll {s₀ s : State} (h : Keeps s₀ s) : Keeps s₀ (State.coastAll s) := by
  unfold State.coastAll
  repeat' with_reducible first
    | exact h | assumption | intro _ | apply keeps_forLanes | apply keeps_lane | apply keeps_setLstate
    | apply keeps_actionOutputs | apply keeps_setAction | apply Keeps.ite

theorem keeps_containSource {s₀ s : State} (h : Keeps s₀ s) (r : Report) : Keeps s₀ (State.containSource s r) := by
  unfold State.containSource
  repeat' with_reducible first
    | exact h | apply keeps_coastAll | apply Keeps.set | apply keeps_setRstate | apply keeps_pllOff | apply keeps_losePort
    | apply keeps_servoRestart | fail_if_no_progress refine Keeps.fields ?_ rfl rfl rfl rfl rfl | split

theorem keeps_acceptReport {s₀ s : State} (h : Keeps s₀ s) (r : Report) : Keeps s₀ (State.acceptReport s r) := by
  unfold State.acceptReport
  repeat' with_reducible first
    | exact h | apply keeps_containSource | apply keeps_regionReport | apply keeps_chipReport | apply keeps_resetSource
    | apply Keeps.set | apply Keeps.ite | fail_if_no_progress refine Keeps.fields ?_ rfl rfl rfl rfl rfl | split

theorem keeps_takeReport {s₀ s : State} (h : Keeps s₀ s) (g : Nat) : Keeps s₀ (State.takeReport s g) := by
  unfold State.takeReport
  repeat' with_reducible first
    | exact h | apply keeps_acceptReport | apply Keeps.set | fail_if_no_progress refine Keeps.fields ?_ rfl rfl rfl rfl rfl
    | split

theorem keeps_takeReports {s₀ s : State} (h : Keeps s₀ s) : Keeps s₀ (State.takeReports s) := by
  unfold State.takeReports
  repeat' with_reducible first
    | exact h | assumption | intro _ | apply keeps_takeReport | apply Keeps.ite | apply Keeps.foldl

theorem keeps_execPendingReportAccept {s₀ s : State} (h : Keeps s₀ s) (g : Fin 5) :
    KeepsAns s₀ (execPendingReportAccept g s) := by
  unfold execPendingReportAccept
  repeat' with_reducible first | exact h | apply KeepsAns.next | apply keeps_takeReport

end Sys2Proof.Machine
end

