-- ==== Sys2Proof/Laws/KeepsStores.lean ====
section
/-!
SUPPORT. Canonical form, the queue and OTP are kept (Sys2Proof/Laws/Keeps.lean) by the record store, the real-time clock, the event log, the persisted settings and starting up.
-/
namespace Sys2Proof.Machine

theorem keeps_showRec {s₀ s : State} (h : Keeps s₀ s) : Keeps s₀ (State.showRec s) := by
  unfold State.showRec
  repeat' with_reducible first | exact h | apply Keeps.set

theorem keeps_recGo {s₀ s : State} (h : Keeps s₀ s) (ch : Chan) (op : Nat) : KeepsAns s₀ (State.recGo s ch op) := by
  unfold State.recGo
  repeat' with_reducible first
    | exact h | assumption | intro _ | fail_if_no_progress extract_lets | apply Keeps.set | apply keeps_busDo
    | fail_if_no_progress refine Keeps.fields ?_ rfl rfl rfl rfl rfl | split

theorem keeps_execProgram {s₀ s : State} (h : Keeps s₀ s) (ch : Chan) : KeepsAns s₀ (execProgram ch s) := by
  unfold execProgram
  repeat' with_reducible first | exact h | apply keeps_recGo

theorem keeps_execErase {s₀ s : State} (h : Keeps s₀ s) (ch : Chan) : KeepsAns s₀ (execErase ch s) := by
  unfold execErase
  repeat' with_reducible first | exact h | apply keeps_recGo

theorem keeps_execAppend {s₀ s : State} (h : Keeps s₀ s) (ch : Chan) : KeepsAns s₀ (execAppend ch s) := by
  unfold execAppend
  repeat' with_reducible first | exact h | apply keeps_recGo

theorem keeps_execFind {s₀ s : State} (h : Keeps s₀ s) (ch : Chan) : KeepsAns s₀ (execFind ch s) := by
  unfold execFind
  repeat' with_reducible first | exact h | apply keeps_recGo

theorem keeps_execGroupBegin {s₀ s : State} (h : Keeps s₀ s) (ch : Chan) : KeepsAns s₀ (execGroupBegin ch s) := by
  unfold execGroupBegin
  repeat' with_reducible first | exact h | apply keeps_recGo

theorem keeps_execGroupClose {s₀ s : State} (h : Keeps s₀ s) (ch : Chan) : KeepsAns s₀ (execGroupClose ch s) := by
  unfold execGroupClose
  repeat' with_reducible first | exact h | apply keeps_recGo

theorem keeps_execGroupAbort {s₀ s : State} (h : Keeps s₀ s) (ch : Chan) : KeepsAns s₀ (execGroupAbort ch s) := by
  unfold execGroupAbort
  repeat' with_reducible first | exact h | apply keeps_recGo

theorem keeps_execCompact {s₀ s : State} (h : Keeps s₀ s) (ch : Chan) : KeepsAns s₀ (execCompact ch s) := by
  unfold execCompact
  repeat' with_reducible first | exact h | apply keeps_recGo

theorem keeps_recEnd {s₀ s : State} (h : Keeps s₀ s) (ch : Chan) (result : Nat) : Keeps s₀ (State.recEnd s ch result) := by
  unfold State.recEnd
  repeat' first
    | with_reducible exact h | with_reducible apply keeps_showRec | with_reducible apply keeps_setF
    | with_reducible apply Keeps.set | split | refine Keeps.ofSome (by with_reducible assumption) ?_

theorem keeps_recResults {s₀ s : State} (h : Keeps s₀ s) (c : RecCmd) : Keeps s₀ (State.recResults s c) := by
  unfold State.recResults
  repeat' first
    | with_reducible exact h | with_reducible apply Keeps.set | split | refine Keeps.ofSome (by with_reducible assumption) ?_

theorem keeps_mountStore {s₀ s : State} (h : Keeps s₀ s) : Keeps s₀ (State.mountStore s) := by
  unfold State.mountStore
  repeat' with_reducible first
    | exact h | apply keeps_showRec | apply Keeps.set | fail_if_no_progress refine Keeps.fields ?_ rfl rfl rfl rfl rfl

theorem keeps_placeRecord {s₀ : State} {x : State × List RecAct} (h : Keeps s₀ x.1) (key seq gid : Nat) (d : List Byte) :
    KeepsOpt s₀ ((placeRecord key seq gid d x).map Prod.fst) := by
  obtain ⟨s, acts⟩ := x
  unfold placeRecord
  simp only
  split
  · exact .none
  · exact .some (keeps_recActs h _)

theorem keeps_placeAll {s₀ : State} {x : State × List RecAct} (h : Keeps s₀ x.1) (l : List (Nat × Nat × Nat × List Byte)) :
    KeepsOpt s₀ ((placeAll l x).map Prod.fst) :=
  KeepsOpt.foldBind (fun _ _ hx => keeps_placeRecord hx _ _ _ _) l _ (.some h)

theorem keeps_placeGroup {s₀ : State} {x : State × List RecAct} (h : Keeps s₀ x.1) (ms : List (Nat × Nat × List Byte)) :
    KeepsOpt s₀ ((placeGroup ms x).map Prod.fst) := by
  obtain ⟨s, acts⟩ := x
  unfold placeGroup
  simp only
  split
  · exact .none
  · exact keeps_placeAll (x := (_, _)) (keeps_recActs h _) _

theorem keeps_refresh {s₀ s : State} (h : Keeps s₀ s) (o : Nat) : Keeps s₀ (State.refresh s o) := by
  unfold State.refresh
  extract_lets rs
  split
  · exact h
  · next r _ =>
    extract_lets x
    have hx : KeepsOpt s₀ (x.map Prod.fst) := by
      simp only [x]
      split
      · exact keeps_placeRecord (x := (s, [])) h _ _ _ _
      · exact keeps_placeGroup (x := (s, [])) h _
    cases e : x with
    | none => exact h.set _ _
    | some y => rw [e] at hx; exact keeps_count (hx.keeps _ rfl) _ _

theorem keeps_execMarginScan {s₀ s : State} (h : Keeps s₀ s) (weak : List Nat) : KeepsAns s₀ (execMarginScan weak s) := by
  unfold execMarginScan
  repeat' with_reducible first
    | exact h | assumption | intro _ | apply KeepsAns.next | apply KeepsAns.ite | apply keeps_showRec | apply keeps_refresh
    | apply Keeps.foldl

theorem keeps_writeOwn {s₀ s : State} (h : Keeps s₀ s) (ms : List (Nat × List Byte)) : KeepsOpt s₀ (State.writeOwn s ms) := by
  unfold State.writeOwn
  refine KeepsOpt.ite (.some h) (KeepsOpt.ite .none ?_)
  have := keeps_placeGroup (x := (s, [])) h (ms.map fun m => (m.1, s.nextSeq m.1, m.2))
  cases e : placeGroup (ms.map fun m => (m.1, s.nextSeq m.1, m.2)) (s, []) with
  | none => exact .none
  | some x => rw [e] at this; exact .some (keeps_showRec (this.keeps _ rfl))

theorem keeps_ownGroup {s₀ s : State} (h : Keeps s₀ s) (ms : List (Nat × List Byte)) : KeepsOpt s₀ (State.ownGroup s ms) := by
  unfold State.ownGroup
  split
  · cases e : s.writeOwn ms with
    | none => exact .none
    | some x => exact .some (h.fields rfl rfl rfl rfl rfl)
  · exact keeps_writeOwn h ms

theorem keeps_setCal {s₀ s : State} (h : Keeps s₀ s) (c : Cal) : Keeps s₀ (State.setCal s c) := by
  unfold State.setCal
  repeat' with_reducible first | exact h | apply Keeps.set

theorem keeps_noteAlarm {s₀ s : State} (h : Keeps s₀ s) (a : Nat) : Keeps s₀ (State.noteAlarm s a) := by
  unfold State.noteAlarm
  repeat' with_reducible first | exact h | fail_if_no_progress refine Keeps.fields ?_ rfl rfl rfl rfl rfl

theorem keeps_alarmView {s₀ s : State} (h : Keeps s₀ s) : Keeps s₀ (State.alarmView s) := by
  unfold State.alarmView
  repeat' with_reducible first
    | exact h | assumption | intro _ | apply keeps_writeFields | apply Keeps.ite | apply Keeps.foldl

theorem keeps_alarm {s₀ s : State} (h : Keeps s₀ s) (a : Nat) (en : RF) (stat : RF) : Keeps s₀ (State.alarm s a en stat) := by
  unfold State.alarm
  repeat' with_reducible first
    | exact h | apply keeps_pulse | apply Keeps.set | apply keeps_wakeSrc | apply keeps_alarmView | apply Keeps.ite

theorem keeps_discBoundary {s₀ s : State} (h : Keeps s₀ s) (set : Bool) : Keeps s₀ (State.discBoundary s set) := by
  unfold State.discBoundary
  repeat' with_reducible first
    | exact h | apply keeps_showDisc | apply Keeps.ite | fail_if_no_progress refine Keeps.fields ?_ rfl rfl rfl rfl rfl | split

theorem keeps_boundaryTime {s₀ s : State} (h : Keeps s₀ s) : Keeps s₀ (State.boundaryTime s).1 := by
  unfold State.boundaryTime
  repeat' with_reducible first
    | exact h | fail_if_no_progress extract_lets | apply Keeps.set | apply keeps_setCal | apply Keeps.ite
    | fail_if_no_progress refine Keeps.fields ?_ rfl rfl rfl rfl rfl | split

theorem keeps_execRtcSecondBoundary {s₀ s : State} (h : Keeps s₀ s) : KeepsAns s₀ (execRtcSecondBoundary s) := by
  unfold execRtcSecondBoundary
  repeat' with_reducible first
    | exact h | apply KeepsAns.next | apply KeepsAns.ite | apply keeps_pulse | apply keeps_boundaryTime | apply Keeps.set
    | apply keeps_discBoundary | apply keeps_alarm | apply keeps_count | apply Keeps.ite
    | fail_if_no_progress refine Keeps.fields ?_ rfl rfl rfl rfl rfl

theorem keeps_setShadow {s₀ s : State} (h : Keeps s₀ s) (m : RtcMaster) (x : Option Shadow) :
    Keeps s₀ (State.setShadow s m x) := by
  unfold State.setShadow
  repeat' with_reducible first | exact h | fail_if_no_progress refine Keeps.fields ?_ rfl rfl rfl rfl rfl | split

theorem keeps_execRtcShadowRead {s₀ s : State} (h : Keeps s₀ s) (m : RtcMaster) (r : Fin 4) :
    KeepsAns s₀ (execRtcShadowRead m r s) := by
  unfold execRtcShadowRead
  repeat' with_reducible first
    | exact h | apply KeepsAns.next | apply keeps_setShadow | fail_if_no_progress refine Keeps.fields ?_ rfl rfl rfl rfl rfl
    | split

theorem keeps_execRtcShadowExpiry {s₀ s : State} (h : Keeps s₀ s) (m : RtcMaster) : KeepsAns s₀ (execRtcShadowExpiry m s) := by
  unfold execRtcShadowExpiry
  repeat' with_reducible first | exact h | apply KeepsAns.next | apply keeps_setShadow | apply Keeps.set | split

theorem keeps_rtcSet {s₀ s : State} (h : Keeps s₀ s) : Keeps s₀ (State.rtcSet s) := by
  unfold State.rtcSet
  repeat' with_reducible first | exact h | apply Keeps.set | fail_if_no_progress refine Keeps.fields ?_ rfl rfl rfl rfl rfl

theorem keeps_execRtcSet {s₀ s : State} (h : Keeps s₀ s) : KeepsAns s₀ (execRtcSet s) := by
  unfold execRtcSet
  repeat' with_reducible first | exact h | assumption | apply keeps_busDo | apply keeps_rtcSet

theorem keeps_execRtcSetCancel {s₀ s : State} (h : Keeps s₀ s) : KeepsAns s₀ (execRtcSetCancel s) := by
  unfold execRtcSetCancel
  repeat' with_reducible first | exact h | assumption | intro _ | apply Keeps.set | apply keeps_busDo | apply Keeps.ite

theorem keeps_rtcShift {s₀ s : State} (h : Keeps s₀ s) (x : Int) : Keeps s₀ (State.rtcShift s x) := by
  unfold State.rtcShift
  repeat' with_reducible first | exact h | apply keeps_setI | apply Keeps.set | apply keeps_endWindow | apply Keeps.ite

theorem keeps_execRtcShift {s₀ s : State} (h : Keeps s₀ s) (v : Word) : KeepsAns s₀ (execRtcShift v s) := by
  unfold execRtcShift
  repeat' with_reducible first | exact h | assumption | intro _ | apply keeps_busDo | apply keeps_rtcShift

theorem keeps_execShiftCountStep {s₀ s : State} (h : Keeps s₀ s) : KeepsAns s₀ (execShiftCountStep s) := by
  unfold execShiftCountStep
  repeat' with_reducible first
    | exact h | apply KeepsAns.next | apply KeepsAns.ite | apply keeps_setF | apply keeps_setI | apply keeps_endWindow
    | fail_if_no_progress refine Keeps.fields ?_ rfl rfl rfl rfl rfl

theorem keeps_execDisciplineWindowEnd {s₀ s : State} (h : Keeps s₀ s) : KeepsAns s₀ (execDisciplineWindowEnd s) := by
  unfold execDisciplineWindowEnd
  repeat' with_reducible first
    | exact h | apply KeepsAns.next | apply keeps_setI | fail_if_no_progress refine Keeps.fields ?_ rfl rfl rfl rfl rfl | split

theorem keeps_execTrimWrite {s₀ s : State} (h : Keeps s₀ s) (v : Word) : KeepsAns s₀ (execTrimWrite v s) := by
  unfold execTrimWrite
  repeat' with_reducible first
    | exact h | assumption | intro _ | apply keeps_setI | apply Keeps.set | apply keeps_busDo | apply Keeps.ite

theorem keeps_execTrimAccumulatorCarry {s₀ s : State} (h : Keeps s₀ s) : KeepsAns s₀ (execTrimAccumulatorCarry s) := by
  unfold execTrimAccumulatorCarry
  repeat' with_reducible first
    | exact h | apply KeepsAns.next | apply KeepsAns.ite | fail_if_no_progress refine Keeps.fields ?_ rfl rfl rfl rfl rfl

theorem keeps_setMoisture {s₀ s : State} (h : Keeps s₀ s) (n : Nat) (x : Nat) : Keeps s₀ (State.setMoisture s n x) := by
  unfold State.setMoisture
  repeat' with_reducible first | exact h | apply keeps_setBit | apply Keeps.set | apply Keeps.ite

theorem keeps_mcAdd {s₀ s : State} (h : Keeps s₀ s) (n : Nat) (w : Nat) : Keeps s₀ (State.mcAdd s n w) := by
  unfold State.mcAdd
  repeat' with_reducible first | exact h | apply Keeps.set | apply keeps_setMoisture | apply Keeps.ite

theorem keeps_moistOne {s₀ s : State} (h : Keeps s₀ s) (w : Nat) (n : Nat) : Keeps s₀ (State.moistOne s w n) := by
  unfold State.moistOne
  repeat' with_reducible first | exact h | apply keeps_mcAdd | apply Keeps.ite

theorem keeps_execMoistureTick {s₀ s : State} (h : Keeps s₀ s) : KeepsAns s₀ (execMoistureTick s) := by
  unfold execMoistureTick
  repeat' with_reducible first
    | exact h | assumption | intro _ | apply KeepsAns.next | apply KeepsAns.ite | apply keeps_moistOne | apply Keeps.set
    | apply Keeps.foldl | fail_if_no_progress refine Keeps.fields ?_ rfl rfl rfl rfl rfl

theorem keeps_mcWrite {s₀ s : State} (h : Keeps s₀ s) (n : Nat) (x : Nat) : Keeps s₀ (State.mcWrite s n x) := by
  unfold State.mcWrite
  repeat' with_reducible first | exact h | apply Keeps.set | apply keeps_setMoisture | apply keeps_mcAdd | apply Keeps.ite

theorem keeps_execMcCountWrite {s₀ s : State} (h : Keeps s₀ s) (n : Fin 10) (v : Word) :
    KeepsAns s₀ (execMcCountWrite n v s) := by
  unfold execMcCountWrite
  repeat' with_reducible first | exact h | assumption | intro _ | apply keeps_mcWrite | apply keeps_busDo

theorem keeps_loseReports {s₀ s : State} (h : Keeps s₀ s) (c : Nat) (n : Nat) : Keeps s₀ (State.loseReports s c n) := by
  unfold State.loseReports
  repeat' with_reducible first | exact h | fail_if_no_progress refine Keeps.fields ?_ rfl rfl rfl rfl rfl

theorem keeps_newEntry {s₀ s : State} (h : Keeps s₀ s) (e : LogEntry) : Keeps s₀ (State.newEntry s e) := by
  unfold State.newEntry
  repeat' with_reducible first
    | exact h | apply keeps_loseReports | apply Keeps.ite | fail_if_no_progress refine Keeps.fields ?_ rfl rfl rfl rfl rfl

theorem keeps_repeatNewest {s₀ s : State} (h : Keeps s₀ s) (n : Nat) : Keeps s₀ (State.repeatNewest s n) := by
  unfold State.repeatNewest
  repeat' with_reducible first
    | exact h | apply keeps_loseReports | apply Keeps.ite | fail_if_no_progress refine Keeps.fields ?_ rfl rfl rfl rfl rfl
    | split

theorem keeps_openLog {s₀ s : State} (h : Keeps s₀ s) (k : Nat) (seq : Nat) : Keeps s₀ (State.openLog s k seq) := by
  unfold State.openLog
  repeat' with_reducible first | exact h | apply Keeps.eraseRange | apply keeps_pokeWord | apply Keeps.ite

theorem keeps_putEntry {s₀ s : State} (h : Keeps s₀ s) (e : LogEntry) : Keeps s₀ (State.putEntry s e) := by
  unfold State.putEntry
  repeat' with_reducible first | exact h | apply keeps_pokes | apply keeps_openLog | split

theorem keeps_flushLog {s₀ s : State} (h : Keeps s₀ s) : Keeps s₀ (State.flushLog s) := by
  unfold State.flushLog
  repeat' with_reducible first
    | exact h | assumption | intro _ | apply keeps_recEnd | apply keeps_putEntry | apply Keeps.set | apply Keeps.ite
    | apply Keeps.foldl | fail_if_no_progress refine Keeps.fields ?_ rfl rfl rfl rfl rfl

theorem keeps_logPend {s₀ s : State} (h : Keeps s₀ s) (c : ChipPend) : Keeps s₀ (State.logPend s c) := by
  unfold State.logPend
  repeat' with_reducible first
    | exact h | apply keeps_newEntry | apply keeps_loseReports | apply keeps_repeatNewest | apply Keeps.ite
    | fail_if_no_progress refine Keeps.fields ?_ rfl rfl rfl rfl rfl

theorem keeps_drainChip {s₀ s : State} (h : Keeps s₀ s) : Keeps s₀ (State.drainChip s) := by
  unfold State.drainChip
  repeat' with_reducible first | exact h | assumption | intro _ | apply keeps_logPend | apply Keeps.foldl | split

theorem keeps_scarabReset {s₀ s : State} (h : Keeps s₀ s) (code : Nat) : Keeps s₀ (State.scarabReset s code) := by
  unfold State.scarabReset
  repeat' with_reducible first
    | exact h | apply keeps_flushLog | apply keeps_drainChip | apply keeps_fullReset | apply Keeps.ite
    | fail_if_no_progress refine Keeps.fields ?_ rfl rfl rfl rfl rfl

theorem keeps_recFreed {s₀ s : State} (h : Keeps s₀ s) : Keeps s₀ (State.recFreed s) := by
  unfold State.recFreed
  extract_lets x s1 due y s2
  have h1 : Keeps s₀ s1 := by
    refine Keeps.foldl (fun t ms ht => ?_) _ (h.fields rfl rfl rfl rfl rfl)
    cases e : t.writeOwn ms with
    | none => exact ht
    | some y => exact (keeps_writeOwn ht ms).keeps y e
  have h2 : Keeps s₀ s2 := Keeps.ite (keeps_flushLog (h1.fields rfl rfl rfl rfl rfl)) h1
  clear_value due
  cases due with
  | none => exact h2
  | some c => exact keeps_fullReset h2 c

theorem keeps_recNext {s₀ s : State} (h : Keeps s₀ s) : Keeps s₀ (State.recNext s) := by
  unfold State.recNext
  repeat' with_reducible first
    | exact h | fail_if_no_progress extract_lets | apply keeps_recFreed
    | fail_if_no_progress refine Keeps.fields ?_ rfl rfl rfl rfl rfl | split

theorem keeps_execRecstoreCommandDone {s₀ s : State} (h : Keeps s₀ s) (bad : Option Nat) :
    KeepsAns s₀ (execRecstoreCommandDone bad s) := by
  unfold execRecstoreCommandDone
  repeat' with_reducible first
    | exact h | apply KeepsAns.next | apply keeps_badWord | apply keeps_recEnd | apply keeps_report | apply keeps_recNext
    | apply keeps_recActs | apply keeps_recResults | fail_if_no_progress refine Keeps.fields ?_ rfl rfl rfl rfl rfl | split

theorem keeps_dropGroup {s₀ s : State} (h : Keeps s₀ s) (ch : Chan) : Keeps s₀ (State.dropGroup s ch) := by
  unfold State.dropGroup
  repeat' with_reducible first
    | exact h | apply Keeps.set | fail_if_no_progress refine Keeps.fields ?_ rfl rfl rfl rfl rfl

theorem keeps_recAbort {s₀ s : State} (h : Keeps s₀ s) (ch : Chan) (done : Nat) : Keeps s₀ (State.recAbort s ch done) := by
  unfold State.recAbort
  repeat' first
    | with_reducible exact h | with_reducible apply keeps_recEnd | with_reducible apply Keeps.set
    | with_reducible apply keeps_recNext | with_reducible apply keeps_dropGroup | apply keeps_stopRec | with_reducible apply keeps_halfErased | split
    | refine Keeps.ofSome (by with_reducible assumption) ?_

theorem keeps_execRecstoreAbort {s₀ s : State} (h : Keeps s₀ s) (ch : Chan) (done : Nat) :
    KeepsAns s₀ (execRecstoreAbort ch done s) := by
  unfold execRecstoreAbort
  repeat' with_reducible first | exact h | assumption | intro _ | apply keeps_recAbort | apply keeps_busDo

theorem keeps_chipPolicy {s₀ s : State} (h : Keeps s₀ s) (r : Report) : Keeps s₀ (State.chipPolicy s r) := by
  unfold State.chipPolicy
  repeat' with_reducible first | exact h | apply keeps_scarabReset | apply Keeps.ite

theorem keeps_execLogReport {s₀ s : State} (h : Keeps s₀ s) : KeepsAns s₀ (execLogReport s) := by
  unfold execLogReport
  repeat' with_reducible first | exact h | apply KeepsAns.next | apply keeps_logPend | apply keeps_chipPolicy | split

theorem keeps_execLogPeriodicFlush {s₀ s : State} (h : Keeps s₀ s) : KeepsAns s₀ (execLogPeriodicFlush s) := by
  unfold execLogPeriodicFlush
  repeat' with_reducible first
    | exact h | apply KeepsAns.next | apply KeepsAns.ite | apply keeps_flushLog
    | fail_if_no_progress extract_lets | apply Keeps.ite | fail_if_no_progress refine Keeps.fields ?_ rfl rfl rfl rfl rfl

theorem keeps_clearLost {s₀ s : State} (h : Keeps s₀ s) : Keeps s₀ (State.clearLost s) := by
  unfold State.clearLost
  repeat' with_reducible first | exact h | fail_if_no_progress refine Keeps.fields ?_ rfl rfl rfl rfl rfl

theorem keeps_mboxGo {s₀ s : State} (h : Keeps s₀ s) (op : Nat) (k : State → State) (h_k : ∀ t, Keeps s₀ t → Keeps s₀ (k t)) :
    KeepsAns s₀ (State.mboxGo s op k) := by
  unfold State.mboxGo
  repeat' with_reducible first
    | exact h | assumption | intro _ | apply Keeps.set | apply keeps_busDo | apply h_k | apply Keeps.ite
    | fail_if_no_progress refine Keeps.fields ?_ rfl rfl rfl rfl rfl

theorem keeps_execAttest {s₀ s : State} (h : Keeps s₀ s) : KeepsAns s₀ (execAttest s) := by
  exact keeps_mboxGo h _ _ fun _ ht => ht

theorem keeps_execLogFlush {s₀ s : State} (h : Keeps s₀ s) : KeepsAns s₀ (execLogFlush s) := by
  unfold execLogFlush
  repeat' with_reducible first | exact h | assumption | apply keeps_flushLog | apply keeps_mboxGo

theorem keeps_execLogRead {s₀ s : State} (h : Keeps s₀ s) : KeepsAns s₀ (execLogRead s) := by
  exact keeps_mboxGo h _ _ fun _ ht => ht

theorem keeps_newChallenge {s₀ s : State} (h : Keeps s₀ s) : Keeps s₀ (State.newChallenge s).1 := by
  unfold State.newChallenge
  repeat' with_reducible first
    | exact h | apply keeps_fresh | fail_if_no_progress refine Keeps.fields ?_ rfl rfl rfl rfl rfl

theorem keeps_execChallenge {s₀ s : State} (h : Keeps s₀ s) : KeepsAns s₀ (execChallenge s) := by
  exact keeps_mboxGo h _ _ fun _ ht => ht

theorem keeps_setPersisted {s₀ s : State} (h : Keeps s₀ s) (p : PObj) (v : Nat) : Keeps s₀ (State.setPersisted s p v) := by
  unfold State.setPersisted
  repeat' with_reducible first | exact h | apply Keeps.set | apply keeps_showDisc | apply keeps_writeFields | split

theorem keeps_loadPersisted {s₀ s : State} (h : Keeps s₀ s) : Keeps s₀ (State.loadPersisted s) := by
  unfold State.loadPersisted
  repeat' with_reducible first
    | exact h | assumption | intro _ | apply keeps_setPersisted | apply Keeps.ite | apply Keeps.foldl
    | fail_if_no_progress refine Keeps.fields ?_ rfl rfl rfl rfl rfl

theorem keeps_startPersisted {s₀ s : State} (h : Keeps s₀ s) : Keeps s₀ (State.startPersisted s) := by
  unfold State.startPersisted
  repeat' with_reducible first
    | exact h | apply keeps_loadPersisted | apply Keeps.ite | fail_if_no_progress refine Keeps.fields ?_ rfl rfl rfl rfl rfl

theorem keeps_storePersisted {s₀ s : State} (h : Keeps s₀ s) : KeepsOpt s₀ (State.storePersisted s) := by
  unfold State.storePersisted
  repeat' with_reducible first | exact h | apply keeps_ownGroup

theorem keeps_eraseStored {s₀ s : State} (h : Keeps s₀ s) : KeepsOpt s₀ (State.eraseStored s) := by
  unfold State.eraseStored
  repeat' with_reducible first | exact h | apply keeps_ownGroup

theorem keeps_execMount {s₀ s : State} (h : Keeps s₀ s) : KeepsAns s₀ (execMount s) := by
  unfold execMount
  repeat' with_reducible first
    | exact h | apply KeepsAns.next | apply KeepsAns.ite | apply keeps_loadPersisted | apply keeps_mountStore | apply Keeps.ite

theorem keeps_writeBoot {s₀ s : State} (h : Keeps s₀ s) (b : BootCfg) : Keeps s₀ (State.writeBoot s b) := by
  unfold State.writeBoot
  repeat' with_reducible first | exact h | apply Keeps.eraseRange | apply keeps_pokes | apply keeps_dropMcache

theorem keeps_measureFull {s₀ s : State} (h : Keeps s₀ s) : Keeps s₀ (State.measureFull s) := by
  unfold State.measureFull
  repeat' with_reducible first
    | exact h | apply keeps_pokes | apply Keeps.set | fail_if_no_progress refine Keeps.fields ?_ rfl rfl rfl rfl rfl

theorem keeps_measureExit {s₀ s : State} (h : Keeps s₀ s) : Keeps s₀ (State.measureExit s) := by
  unfold State.measureExit
  repeat' with_reducible first
    | exact h | apply keeps_measureFull | apply Keeps.ite | fail_if_no_progress refine Keeps.fields ?_ rfl rfl rfl rfl rfl

theorem keeps_showBoot {s₀ s : State} (h : Keeps s₀ s) : Keeps s₀ (State.showBoot s) := by
  unfold State.showBoot
  repeat' with_reducible first | exact h | apply keeps_setF | apply Keeps.set

theorem keeps_startWdog {s₀ s : State} (h : Keeps s₀ s) : Keeps s₀ (State.startWdog s) := by
  unfold State.startWdog
  repeat' with_reducible first
    | exact h | apply Keeps.set | apply Keeps.ite | fail_if_no_progress refine Keeps.fields ?_ rfl rfl rfl rfl rfl

theorem keeps_startMarch {s₀ s : State} (h : Keeps s₀ s) (fails : Nat) : Keeps s₀ (State.startMarch s fails) := by
  unfold State.startMarch
  repeat' with_reducible first
    | exact h | assumption | intro _ | apply keeps_chipReport | apply Keeps.lose | apply Keeps.set | apply keeps_fill
    | apply Keeps.ite | apply Keeps.foldl

theorem keeps_recoverySetup {s₀ s : State} (h : Keeps s₀ s) : Keeps s₀ (State.recoverySetup s) := by
  unfold State.recoverySetup
  repeat' with_reducible first | exact h | apply keeps_setBypass | apply Keeps.set | apply keeps_setRstate | apply Keeps.ite

theorem keeps_aimDownload {s₀ s : State} (h : Keeps s₀ s) : Keeps s₀ (State.aimDownload s) := by
  unfold State.aimDownload
  exact h.fields rfl rfl rfl rfl rfl

theorem keeps_applySelection {s₀ s : State} (h : Keeps s₀ s) (x : Selection) : Keeps s₀ (State.applySelection s x) := by
  unfold State.applySelection
  repeat' with_reducible first
    | exact h | apply keeps_startWdog | apply keeps_showBoot | apply Keeps.set | apply keeps_measureFull
    | apply keeps_recoverySetup | apply Keeps.ite | fail_if_no_progress refine Keeps.fields ?_ rfl rfl rfl rfl rfl
    | apply keeps_aimDownload

theorem keeps_completeFuses {s₀ s : State} (h : Keeps s₀ s) : Keeps s₀ (State.completeFuses s) := by
  unfold State.completeFuses
  exact Keeps.ite ((keeps_burnFuses h _ _ _).set _ _) (keeps_burnFuses h _ _ _)

theorem keeps_tamperReport {s₀ s : State} (h : Keeps s₀ s) : Keeps s₀ (State.tamperReport s) := by
  unfold State.tamperReport
  repeat' with_reducible first
    | exact h | assumption | intro _ | apply keeps_report | apply Keeps.foldl
    | fail_if_no_progress refine Keeps.fields ?_ rfl rfl rfl rfl rfl

theorem keeps_execStartUp {s₀ s : State} (h : Keeps s₀ s) (strap : Bool) (marchFail : Byte) :
    KeepsAns s₀ (execStartUp strap marchFail s) := by
  unfold execStartUp
  repeat' with_reducible first
    | exact h | apply KeepsAns.next | apply KeepsAns.ite | apply keeps_startPersisted | apply keeps_tamperReport
    | apply keeps_completeFuses | apply keeps_applySelection | apply keeps_startMarch | apply keeps_fill
    | fail_if_no_progress refine Keeps.fields ?_ rfl rfl rfl rfl rfl

theorem keeps_execPowerOnReset {s₀ s : State} (h : Keeps s₀ s) (vin : Bool) : KeepsAns s₀ (execPowerOnReset vin s) := by
  unfold execPowerOnReset
  repeat' with_reducible first | exact h | apply KeepsAns.next | apply keeps_coldReset

theorem keeps_execPinReset {s₀ s : State} (h : Keeps s₀ s) (low : Bool) : KeepsAns s₀ (execPinReset low s) := by
  unfold execPinReset
  repeat' with_reducible first
    | exact h | apply KeepsAns.next | apply KeepsAns.ite | apply keeps_fullReset | apply Keeps.ite
    | fail_if_no_progress refine Keeps.fields ?_ rfl rfl rfl rfl rfl

theorem keeps_execSwrst {s₀ s : State} (h : Keeps s₀ s) (m : Master) (mach : Bool) (v : Word) :
    KeepsAns s₀ (execSwrst m mach v s) := by
  unfold execSwrst
  repeat' with_reducible first
    | exact h | assumption | intro _ | apply keeps_busBy | apply keeps_fullReset | apply Keeps.ite

theorem keeps_execDictFullReset {s₀ s : State} (h : Keeps s₀ s) : KeepsAns s₀ (execDictFullReset s) := by
  unfold execDictFullReset
  repeat' with_reducible first | exact h | apply KeepsAns.next | apply KeepsAns.ite | apply keeps_fullReset

theorem keeps_dlTo {s₀ s : State} (h : Keeps s₀ s) (st : Nat) : Keeps s₀ (State.dlTo s st) := by
  unfold State.dlTo
  repeat' with_reducible first | exact h | fail_if_no_progress refine Keeps.fields ?_ rfl rfl rfl rfl rfl

theorem keeps_dlRefuse {s₀ s : State} (h : Keeps s₀ s) (reason : Nat) : Keeps s₀ (State.dlRefuse s reason) := by
  unfold State.dlRefuse
  repeat' with_reducible first | exact h | fail_if_no_progress refine Keeps.fields ?_ rfl rfl rfl rfl rfl

theorem keeps_dlBegin {s₀ s : State} (h : Keeps s₀ s) : Keeps s₀ (State.dlBegin s).2 := by
  unfold State.dlBegin
  repeat' with_reducible first
    | exact h | apply keeps_dropMcache | apply keeps_dlRefuse | fail_if_no_progress refine Keeps.fields ?_ rfl rfl rfl rfl rfl
    | split
    | apply keeps_aimDownload

theorem keeps_execDownloadSlotErased {s₀ s : State} (h : Keeps s₀ s) : KeepsAns s₀ (execDownloadSlotErased s) := by
  unfold execDownloadSlotErased
  repeat' with_reducible first
    | exact h | apply KeepsAns.next | apply KeepsAns.ite | apply keeps_dlTo | apply Keeps.eraseRange

theorem keeps_dlProgram {s₀ s : State} (h : Keeps s₀ s) (d : List Byte) : Keeps s₀ (State.dlProgram s d) := by
  unfold State.dlProgram
  repeat' with_reducible first
    | exact h | apply keeps_pokes | apply keeps_dropMcache | fail_if_no_progress refine Keeps.fields ?_ rfl rfl rfl rfl rfl

theorem keeps_dlHeader {s₀ s : State} (h : Keeps s₀ s) (d : List Byte) : Keeps s₀ (State.dlHeader s d) := by
  unfold State.dlHeader
  repeat' with_reducible first | exact h | apply keeps_dlTo | apply keeps_dlProgram | apply keeps_dlRefuse | apply Keeps.ite

theorem keeps_dlData {s₀ s : State} (h : Keeps s₀ s) (d : List Byte) (ok : Bool) : Keeps s₀ (State.dlData s d ok).2 := by
  unfold State.dlData
  repeat' with_reducible first
    | exact h | fail_if_no_progress extract_lets | apply keeps_dlProgram | apply keeps_garble | apply keeps_dlHeader
    | apply keeps_dlRefuse | split

theorem keeps_dlFinish {s₀ s : State} (h : Keeps s₀ s) : Keeps s₀ (State.dlFinish s).2 := by
  unfold State.dlFinish
  repeat' with_reducible first | exact h | apply keeps_dlTo | split

theorem keeps_execDownloadVerified {s₀ s : State} (h : Keeps s₀ s) : KeepsAns s₀ (execDownloadVerified s) := by
  unfold execDownloadVerified
  repeat' with_reducible first
    | exact h | apply KeepsAns.next | apply KeepsAns.ite | apply keeps_dlTo | apply keeps_dlRefuse

theorem keeps_setPend {s₀ s : State} (h : Keeps s₀ s) (p : Nat) : Keeps s₀ (State.setPend s p) := by
  unfold State.setPend
  repeat' with_reducible first
    | exact h | apply keeps_writeBoot | fail_if_no_progress refine Keeps.fields ?_ rfl rfl rfl rfl rfl

theorem keeps_dlActivate {s₀ s : State} (h : Keeps s₀ s) : Keeps s₀ (State.dlActivate s).2 := by
  unfold State.dlActivate
  repeat' with_reducible first
    | exact h | apply Keeps.set | apply keeps_setPend | apply keeps_writeBoot
    | fail_if_no_progress refine Keeps.fields ?_ rfl rfl rfl rfl rfl | split

theorem keeps_dlAbort {s₀ s : State} (h : Keeps s₀ s) : Keeps s₀ (State.dlAbort s).2 := by
  unfold State.dlAbort
  repeat' with_reducible first
    | exact h | apply keeps_setPend | fail_if_no_progress refine Keeps.fields ?_ rfl rfl rfl rfl rfl | split
    | apply keeps_cutErase

theorem keeps_activateAt {s₀ s : State} (h : Keeps s₀ s) (v : Nat) : Keeps s₀ (State.activateAt s v) := by
  unfold State.activateAt
  repeat' with_reducible first
    | exact h | apply keeps_setPend | fail_if_no_progress refine Keeps.fields ?_ rfl rfl rfl rfl rfl

theorem keeps_withdrawPend {s₀ s : State} (h : Keeps s₀ s) : Keeps s₀ (State.withdrawPend s) := by
  unfold State.withdrawPend
  repeat' with_reducible first
    | exact h | apply keeps_setPend | apply Keeps.ite | fail_if_no_progress refine Keeps.fields ?_ rfl rfl rfl rfl rfl

theorem keeps_execActivationInstant {s₀ s : State} (h : Keeps s₀ s) : KeepsAns s₀ (execActivationInstant s) := by
  unfold execActivationInstant
  repeat' with_reducible first
    | exact h | apply KeepsAns.next | apply keeps_withdrawPend | apply keeps_scarabReset
    | fail_if_no_progress refine Keeps.fields ?_ rfl rfl rfl rfl rfl | split
    | apply keeps_fullReset | apply keeps_flushLog | apply keeps_drainChip

theorem keeps_promote {s₀ s : State} (h : Keeps s₀ s) : Keeps s₀ (State.promote s) := by
  unfold State.promote
  repeat' first
    | with_reducible exact h | with_reducible apply keeps_ownGroup | with_reducible apply keeps_writeBoot
    | (fail_if_no_progress with_reducible refine Keeps.fields ?_ rfl rfl rfl rfl rfl) | split
    | refine Keeps.ofSome (by with_reducible assumption) ?_

theorem keeps_confirm {s₀ s : State} (h : Keeps s₀ s) : Keeps s₀ (State.confirm s) := by
  unfold State.confirm
  repeat' with_reducible first
    | exact h | apply Keeps.set | apply keeps_promote | apply Keeps.ite
    | fail_if_no_progress refine Keeps.fields ?_ rfl rfl rfl rfl rfl

theorem keeps_execHealthConfirm {s₀ s : State} (h : Keeps s₀ s) : KeepsAns s₀ (execHealthConfirm s) := by
  unfold execHealthConfirm
  repeat' with_reducible first | exact h | assumption | apply keeps_busDo | apply keeps_confirm

theorem keeps_execTrialTimeout {s₀ s : State} (h : Keeps s₀ s) : KeepsAns s₀ (execTrialTimeout s) := by
  unfold execTrialTimeout
  repeat' with_reducible first | exact h | apply KeepsAns.next | apply KeepsAns.ite | apply keeps_scarabReset

theorem keeps_execPromotePendingWrite {s₀ s : State} (h : Keeps s₀ s) : KeepsAns s₀ (execPromotePendingWrite s) := by
  unfold execPromotePendingWrite
  repeat' with_reducible first
    | exact h | apply KeepsAns.next | apply KeepsAns.ite | apply keeps_setPend | apply keeps_promote
    | fail_if_no_progress refine Keeps.fields ?_ rfl rfl rfl rfl rfl

theorem keeps_flashEnd {s₀ s : State} (h : Keeps s₀ s) (result : Nat) : Keeps s₀ (State.flashEnd s result) := by
  unfold State.flashEnd
  repeat' with_reducible first | exact h | apply Keeps.set

theorem keeps_flashGo {s₀ s : State} (h : Keeps s₀ s) (op : Nat) : KeepsAns s₀ (State.flashGo s op) := by
  unfold State.flashGo
  repeat' with_reducible first
    | exact h | assumption | intro _ | apply Keeps.set | apply keeps_busDo | apply keeps_dropMcache | apply keeps_flashEnd
    | apply Keeps.ite | fail_if_no_progress refine Keeps.fields ?_ rfl rfl rfl rfl rfl

theorem keeps_flashWrite {s₀ s : State} (h : Keeps s₀ s) (op : Nat) (v : Word) : KeepsAns s₀ (State.flashWrite s op v) := by
  unfold State.flashWrite
  repeat' with_reducible first
    | exact h | assumption | intro _ | apply KeepsAns.ite | apply Keeps.set | apply keeps_busDo | apply keeps_flashGo

theorem keeps_execFlashProgram {s₀ s : State} (h : Keeps s₀ s) (v : Word) : KeepsAns s₀ (execFlashProgram v s) := by
  unfold execFlashProgram
  repeat' with_reducible first | exact h | apply keeps_flashWrite

theorem keeps_execFlashEraseSector {s₀ s : State} (h : Keeps s₀ s) (v : Word) : KeepsAns s₀ (execFlashEraseSector v s) := by
  unfold execFlashEraseSector
  repeat' with_reducible first | exact h | apply keeps_flashWrite

theorem keeps_execFlashEraseSlot {s₀ s : State} (h : Keeps s₀ s) (v : Word) : KeepsAns s₀ (execFlashEraseSlot v s) := by
  unfold execFlashEraseSlot
  repeat' with_reducible first | exact h | apply keeps_flashWrite

theorem keeps_execFlashCommandDone {s₀ s : State} (h : Keeps s₀ s) (bad : Option Nat) :
    KeepsAns s₀ (execFlashCommandDone bad s) := by
  unfold execFlashCommandDone
  repeat' with_reducible first
    | exact h | apply KeepsAns.next | apply Keeps.eraseRange | apply keeps_badWord | apply keeps_pokes | apply keeps_garble
    | apply keeps_report | apply keeps_flashEnd | fail_if_no_progress refine Keeps.fields ?_ rfl rfl rfl rfl rfl | split

end Sys2Proof.Machine
end

