-- ==== Sys2Proof/Laws/KeepsLanes.lean ====
section
/-!
SUPPORT. Canonical form, the queue and OTP are kept (Sys2Proof/Laws/Keeps.lean) by the lanes, schedules, memories, Scarab and the touch pads.
-/
namespace Sys2Proof.Machine

theorem keeps_setBack {s₀ s : State} (h : Keeps s₀ s) (n : Fin 10) (st : Nat) : Keeps s₀ (State.setBack s n st) := by
  unfold State.setBack
  repeat' with_reducible first | exact h | apply Keeps.set | apply Keeps.ite

theorem keeps_swDone {s₀ s : State} (h : Keeps s₀ s) (n : Fin 10) (code : Nat) : Keeps s₀ (State.swDone s n code) := by
  unfold State.swDone
  repeat' with_reducible first | exact h | apply keeps_setBit | apply Keeps.set

theorem keeps_cmdIgn {s₀ s : State} (h : Keeps s₀ s) (n : Fin 10) : Keeps s₀ (State.cmdIgn s n) := by
  unfold State.cmdIgn
  repeat' with_reducible first | exact h | apply Keeps.set

theorem keeps_switchBanks {s₀ s : State} (h : Keeps s₀ s) (n : Fin 10) : Keeps s₀ (State.switchBanks s n) := by
  unfold State.switchBanks
  repeat' with_reducible first
    | exact h | apply Keeps.set | apply keeps_lane | apply keeps_setLstate | apply keeps_setBack | apply keeps_swDone
    | apply Keeps.ite

theorem keeps_switchAt {s₀ s : State} (h : Keeps s₀ s) (n : Fin 10) : Keeps s₀ (State.switchAt s n) := by
  unfold State.switchAt
  repeat' with_reducible first
    | exact h | fail_if_no_progress extract_lets | apply keeps_setBack | apply keeps_switchBanks | apply keeps_advance
    | apply keeps_swDone | split

theorem keeps_verify {s₀ s : State} (h : Keeps s₀ s) (n : Fin 10) : Keeps s₀ (State.verify s n) := by
  unfold State.verify
  repeat' with_reducible first | exact h | apply keeps_cmdIgn | apply keeps_schedOf | apply keeps_setBack | apply Keeps.ite

theorem keeps_invalidate {s₀ s : State} (h : Keeps s₀ s) (n : Fin 10) : Keeps s₀ (State.invalidate s n) := by
  unfold State.invalidate
  repeat' with_reducible first | exact h | apply keeps_cmdIgn | apply keeps_setBack | apply Keeps.ite

theorem keeps_arm {s₀ s : State} (h : Keeps s₀ s) (n : Fin 10) : Keeps s₀ (State.arm s n) := by
  unfold State.arm
  repeat' with_reducible first
    | exact h | apply keeps_cmdIgn | apply Keeps.set | apply keeps_schedOf | apply keeps_setBack | apply keeps_swDone
    | apply Keeps.ite

theorem keeps_cancel {s₀ s : State} (h : Keeps s₀ s) (n : Fin 10) : Keeps s₀ (State.cancel s n) := by
  unfold State.cancel
  repeat' with_reducible first | exact h | apply Keeps.set | apply keeps_setBack | apply keeps_swDone | apply Keeps.ite

theorem keeps_putSwRegs {s₀ s : State} (h : Keeps s₀ s) (n : Fin 10) (r : SwRegs) : Keeps s₀ (State.putSwRegs s n r) := by
  unfold State.putSwRegs
  repeat' with_reducible first | exact h | apply keeps_setBit | apply Keeps.put

theorem keeps_loaderDo {s₀ s : State} (h : Keeps s₀ s) (n : Fin 10) (y2 : SwCmd) : Keeps s₀ (State.loaderDo s n y2) := by
  unfold State.loaderDo
  repeat' with_reducible first
    | exact h | apply keeps_invalidate | apply keeps_verify | apply keeps_arm | apply keeps_cancel | split

theorem keeps_loader {s₀ s : State} (h : Keeps s₀ s) (n : Fin 10) (c : SwCmd) (set : Bool) :
    Keeps s₀ (State.loader s n c set) := by
  unfold State.loader
  repeat' with_reducible first
    | exact h | assumption | intro _ | fail_if_no_progress extract_lets | apply keeps_loaderDo | apply keeps_putSwRegs
    | apply keeps_switchAt | apply keeps_schedOf | apply Keeps.foldl | split

theorem keeps_execCopyStart {s₀ s : State} (h : Keeps s₀ s) (v : Word) : KeepsAns s₀ (execCopyStart v s) := by
  unfold execCopyStart
  repeat' first
    | with_reducible exact h | with_reducible assumption | intro _ | with_reducible apply Keeps.set
    | with_reducible apply keeps_busDo | with_reducible apply keeps_setBack | with_reducible apply keeps_writeFields
    | (fail_if_no_progress with_reducible refine Keeps.fields ?_ rfl rfl rfl rfl rfl) | split
    | refine Keeps.ofSome (by with_reducible assumption) ?_ | (with_reducible conv => arg 2; whnf)

theorem keeps_execCopyDone {s₀ s : State} (h : Keeps s₀ s) : KeepsAns s₀ (execCopyDone s) := by
  unfold execCopyDone
  repeat' with_reducible first
    | exact h | fail_if_no_progress extract_lets | apply KeepsAns.next | apply keeps_pokes | apply Keeps.set
    | apply keeps_setBack | apply keeps_dmaRead | apply keeps_loader | split

theorem keeps_execVerify {s₀ s : State} (h : Keeps s₀ s) (n : Fin 10) : KeepsAns s₀ (execVerify n s) := by
  unfold execVerify
  repeat' with_reducible first | exact h | assumption | intro _ | apply keeps_busDo | apply keeps_loader

theorem keeps_execVerifyDone {s₀ s : State} (h : Keeps s₀ s) (n : Fin 10) : KeepsAns s₀ (execVerifyDone n s) := by
  unfold execVerifyDone
  repeat' with_reducible first
    | exact h | apply KeepsAns.next | apply KeepsAns.ite | apply keeps_setBit | apply Keeps.set | apply keeps_setBack

theorem keeps_execArm {s₀ s : State} (h : Keeps s₀ s) (n : Fin 10) : KeepsAns s₀ (execArm n s) := by
  unfold execArm
  repeat' with_reducible first | exact h | assumption | intro _ | apply keeps_busDo | apply keeps_loader

theorem keeps_execCancel {s₀ s : State} (h : Keeps s₀ s) (n : Fin 10) : KeepsAns s₀ (execCancel n s) := by
  unfold execCancel
  repeat' with_reducible first | exact h | assumption | intro _ | apply keeps_busDo | apply keeps_loader

theorem keeps_execInvalidate {s₀ s : State} (h : Keeps s₀ s) (n : Fin 10) : KeepsAns s₀ (execInvalidate n s) := by
  unfold execInvalidate
  repeat' with_reducible first | exact h | assumption | intro _ | apply keeps_busDo | apply keeps_loader

theorem keeps_execEpochSwitch {s₀ s : State} (h : Keeps s₀ s) (n : Fin 10) : KeepsAns s₀ (execEpochSwitch n s) := by
  unfold execEpochSwitch
  repeat' with_reducible first | exact h | apply KeepsAns.next | apply keeps_switchAt

theorem keeps_loadData {s₀ s : State} (h : Keeps s₀ s) (n : Fin 10) (d : List Byte) : Keeps s₀ (State.loadData s n d) := by
  unfold State.loadData
  repeat' with_reducible first | exact h | apply keeps_pokes | apply keeps_schedOf | apply keeps_setBack

theorem keeps_execLoadData {s₀ s : State} (h : Keeps s₀ s) (n : Fin 10) (d : List Byte) : KeepsAns s₀ (execLoadData n d s) := by
  unfold execLoadData
  repeat' with_reducible first
    | exact h | apply KeepsAns.next | apply KeepsAns.ite | apply keeps_loadData
    | fail_if_no_progress refine Keeps.fields ?_ rfl rfl rfl rfl rfl

theorem keeps_execSegmentActionsFire {s₀ s : State} (h : Keeps s₀ s) (n : Fin 10) : KeepsAns s₀ (execSegmentActionsFire n s) := by
  unfold execSegmentActionsFire
  repeat' with_reducible first
    | exact h | assumption | intro _ | apply KeepsAns.next | apply KeepsAns.ite | apply keeps_switchAt | apply keeps_lane
    | apply keeps_fireActs | apply keeps_advance | apply Keeps.foldl

theorem keeps_laneApply {s₀ s : State} (h : Keeps s₀ s) (n : Fin 10) (off : Nat) (v : Nat) :
    Keeps s₀ (State.laneApply s n off v) := by
  unfold State.laneApply
  repeat' with_reducible first
    | exact h | assumption | intro _ | apply keeps_showConflict | apply Keeps.set | apply keeps_writeField | apply Keeps.ite
    | apply Keeps.foldl

theorem keeps_laneW1c {s₀ s : State} (h : Keeps s₀ s) (n : Fin 10) (off : Nat) (v : Nat) :
    Keeps s₀ (State.laneW1c s n off v) := by
  unfold State.laneW1c
  repeat' with_reducible first | exact h | apply Keeps.set | apply keeps_writeFields | apply Keeps.ite

theorem keeps_clearFirst {s₀ s : State} (h : Keeps s₀ s) (n : Nat) : Keeps s₀ (State.clearFirst s n) := by
  unfold State.clearFirst
  repeat' with_reducible first | exact h | apply Keeps.set

theorem keeps_enableLane {s₀ s : State} (h : Keeps s₀ s) (n : Fin 10) : Keeps s₀ (State.enableLane s n) := by
  unfold State.enableLane
  repeat' with_reducible first
    | exact h | apply keeps_clearFirst | apply Keeps.set | apply keeps_lane | apply keeps_setLstate | apply Keeps.ite

theorem keeps_laneStaged {s₀ s : State} (h : Keeps s₀ s) (n : Fin 10) (p : Nat → Bool) : Keeps s₀ (State.laneStaged s n p) := by
  unfold State.laneStaged
  repeat' with_reducible first
    | exact h | assumption | intro _ | apply keeps_enableLane | apply keeps_laneApply | apply keeps_lane | apply Keeps.ite
    | apply Keeps.foldl

theorem keeps_laneLand {s₀ s : State} (h : Keeps s₀ s) (n : Fin 10) (off : Nat) (v : Word) :
    Keeps s₀ (State.laneLand s n off v) := by
  unfold State.laneLand
  repeat' with_reducible first | exact h | apply keeps_laneApply | apply keeps_lane | apply Keeps.ite

theorem keeps_landEnable {s₀ s : State} (h : Keeps s₀ s) (n : Fin 10) : Keeps s₀ (State.landEnable s n) := by
  unfold State.landEnable
  repeat' with_reducible first | exact h | apply keeps_enableLane | apply keeps_lane | apply Keeps.ite

theorem keeps_execLaneRegisterWrite {s₀ s : State} (h : Keeps s₀ s) (n : Fin 10) (off : Nat) (v : Word) :
    KeepsAns s₀ (execLaneRegisterWrite n off v s) := by
  unfold execLaneRegisterWrite
  repeat' with_reducible first
    | exact h | assumption | intro _ | apply KeepsAns.next | apply KeepsAns.ite | apply keeps_laneW1c | apply keeps_laneLand
    | apply keeps_busDo | fail_if_no_progress refine Keeps.fields ?_ rfl rfl rfl rfl rfl

theorem keeps_measure {s₀ s : State} (h : Keeps s₀ s) (n : Fin 10) (hold : Bool) : Keeps s₀ (State.measure s n hold) := by
  unfold State.measure
  repeat' with_reducible first | exact h | apply Keeps.set | apply keeps_lane | apply Keeps.ite

theorem keeps_countFaults {s₀ s : State} (h : Keeps s₀ s) (n : Fin 10) (v : Int × Int × Int) (i : Int × Int) (r : Int × Int)
    (codeA : Nat) (codeB : Nat) : Keeps s₀ (State.countFaults s n v i r codeA codeB) := by
  unfold State.countFaults
  repeat' with_reducible first | exact h | apply keeps_lane

theorem keeps_showLoops {s₀ s : State} (h : Keeps s₀ s) (n : Fin 10) (v : Int × Int) (i : Int × Int) (r : Int × Int)
    (id : Int) (iq : Int) : Keeps s₀ (State.showLoops s n v i r id iq) := by
  unfold State.showLoops
  repeat' with_reducible first | exact h | apply keeps_setI

theorem keeps_runLoops {s₀ s : State} (h : Keeps s₀ s) (n : Fin 10) (r : Int × Int) (id : Int) (iq : Int) (codeA : Nat)
    (codeB : Nat) : Keeps s₀ (State.runLoops s n r id iq codeA codeB) := by
  unfold State.runLoops
  repeat' with_reducible first
    | exact h | apply keeps_setWidths | apply keeps_lane | apply keeps_countFaults | apply keeps_showLoops

theorem keeps_noLoops {s₀ s : State} (h : Keeps s₀ s) (n : Fin 10) : Keeps s₀ (State.noLoops s n) := by
  unfold State.noLoops
  repeat' with_reducible first | exact h | apply keeps_lane

theorem keeps_turn {s₀ s : State} (h : Keeps s₀ s) (n : Fin 10) : Keeps s₀ (State.turn s n) := by
  unfold State.turn
  repeat' with_reducible first | exact h | apply Keeps.set | apply keeps_lane

theorem keeps_restTick {s₀ s : State} (h : Keeps s₀ s) (n : Fin 10) (codeA : Nat) (codeB : Nat) :
    Keeps s₀ (State.restTick s n codeA codeB) := by
  unfold State.restTick
  repeat' with_reducible first
    | exact h | apply keeps_turn | apply keeps_setI | apply Keeps.set | apply keeps_lane | apply keeps_noLoops
    | apply keeps_measure | apply Keeps.ite

theorem keeps_command {s₀ s : State} (h : Keeps s₀ s) (n : Fin 10) (c : Nat) : Keeps s₀ (State.command s n c) := by
  unfold State.command
  repeat' with_reducible first | exact h | apply Keeps.set | apply Keeps.ite

theorem keeps_driveTick {s₀ s : State} (h : Keeps s₀ s) (n : Fin 10) (c : Nat) (codeA : Nat) (codeB : Nat) :
    Keeps s₀ (State.driveTick s n c codeA codeB) := by
  unfold State.driveTick
  repeat' with_reducible first
    | exact h | apply keeps_turn | apply keeps_command | apply keeps_setF | apply keeps_setI | apply Keeps.set
    | apply keeps_lane | apply keeps_noLoops | apply keeps_measure | apply keeps_runLoops | apply keeps_actionOutputs
    | apply keeps_outputsLow | apply keeps_advance | apply Keeps.ite

theorem keeps_convert {s₀ s : State} (h : Keeps s₀ s) (n : Fin 10) (codeA : Nat) (codeB : Nat) :
    Keeps s₀ (State.convert s n codeA codeB) := by
  unfold State.convert
  repeat' with_reducible first | exact h | apply Keeps.set | apply Keeps.ite

theorem keeps_completeTick {s₀ s : State} (h : Keeps s₀ s) (n : Fin 10) : Keeps s₀ (State.completeTick s n) := by
  unfold State.completeTick
  repeat' with_reducible first | exact h | apply keeps_lane

theorem keeps_completeDue {s₀ s : State} (h : Keeps s₀ s) (n : Fin 10) : Keeps s₀ (State.completeDue s n) := by
  unfold State.completeDue
  repeat' with_reducible first | exact h | apply keeps_completeTick | split

theorem keeps_laneLater {s₀ s : State} (h : Keeps s₀ s) (n : Fin 10) (ct : Nat) (shown : List Nat) :
    Keeps s₀ (State.laneLater s n ct shown) := by
  unfold State.laneLater
  repeat' with_reducible first | exact h | apply keeps_widthsDue | apply keeps_completeDue | apply keeps_lane

theorem keeps_laneTick {s₀ s : State} (h : Keeps s₀ s) (n : Fin 10) (isa : Nat) (isb : Nat) (oc : Bool) (flt : Bool) :
    Keeps s₀ (State.laneTick s n isa isb oc flt) := by
  unfold State.laneTick
  repeat' with_reducible first
    | exact h | apply keeps_restTick | apply keeps_setF | apply keeps_laneStaged | apply keeps_driveTick | apply keeps_lane
    | apply keeps_convert | apply keeps_laneLater | apply keeps_detectTick | apply Keeps.ite
    | fail_if_no_progress refine Keeps.fields ?_ rfl rfl rfl rfl rfl

theorem keeps_execLaneTick {s₀ s : State} (h : Keeps s₀ s) (n : Fin 10) (isa : BitVec 12) (isb : BitVec 12) (oc : Bool)
    (flt : Bool) : KeepsAns s₀ (execLaneTick n isa isb oc flt s) := by
  unfold execLaneTick
  repeat' with_reducible first | exact h | apply KeepsAns.next | apply KeepsAns.ite | apply keeps_laneTick

theorem keeps_writeSlotEn {s₀ s : State} (h : Keeps s₀ s) (v : Nat) : Keeps s₀ (State.writeSlotEn s v) := by
  unfold State.writeSlotEn
  repeat' with_reducible first | exact h | apply Keeps.set | apply Keeps.ite

theorem keeps_startFrame {s₀ s : State} (h : Keeps s₀ s) : Keeps s₀ (State.startFrame s) := by
  unfold State.startFrame
  repeat' with_reducible first | exact h | apply Keeps.set | fail_if_no_progress refine Keeps.fields ?_ rfl rfl rfl rfl rfl

theorem keeps_tickFrames {s₀ s : State} (h : Keeps s₀ s) : Keeps s₀ (State.tickFrames s) := by
  unfold State.tickFrames
  repeat' with_reducible first | exact h | apply Keeps.set | apply keeps_startFrame | split

theorem keeps_tickLanes {s₀ s : State} (h : Keeps s₀ s) : Keeps s₀ (State.tickLanes s) := by
  unfold State.tickLanes
  repeat' with_reducible first
    | exact h | assumption | intro _ | apply keeps_widthsDue | apply keeps_forLanes | apply keeps_completeDue | apply Keeps.ite

theorem keeps_holdFrames {s₀ s : State} (h : Keeps s₀ s) : Keeps s₀ (State.holdFrames s) := by
  unfold State.holdFrames
  repeat' with_reducible first
    | exact h | apply Keeps.set | apply Keeps.ite | fail_if_no_progress refine Keeps.fields ?_ rfl rfl rfl rfl rfl

theorem keeps_execAdcseqRunStart {s₀ s : State} (h : Keeps s₀ s) (v : Word) : KeepsAns s₀ (execAdcseqRunStart v s) := by
  unfold execAdcseqRunStart
  repeat' with_reducible first
    | exact h | assumption | intro _ | apply keeps_writeSlotEn | apply Keeps.set | apply keeps_busDo | apply keeps_startFrame
    | apply Keeps.ite | fail_if_no_progress refine Keeps.fields ?_ rfl rfl rfl rfl rfl

theorem keeps_execAdcseqRunStop {s₀ s : State} (h : Keeps s₀ s) (v : Word) : KeepsAns s₀ (execAdcseqRunStop v s) := by
  unfold execAdcseqRunStop
  repeat' with_reducible first
    | exact h | assumption | intro _ | apply keeps_forLanes | apply keeps_writeSlotEn | apply keeps_laneStaged | apply Keeps.set
    | apply keeps_busDo | apply Keeps.ite | fail_if_no_progress refine Keeps.fields ?_ rfl rfl rfl rfl rfl

theorem keeps_execAdcseqPeriodWrite {s₀ s : State} (h : Keeps s₀ s) (v : Word) : KeepsAns s₀ (execAdcseqPeriodWrite v s) := by
  unfold execAdcseqPeriodWrite
  repeat' with_reducible first
    | exact h | assumption | intro _ | apply keeps_setLegal | apply Keeps.set | apply keeps_busDo | apply Keeps.ite

theorem keeps_setQcnt {s₀ s : State} (h : Keeps s₀ s) (n : Fin 10) (v : Nat) : Keeps s₀ (State.setQcnt s n v) := by
  unfold State.setQcnt
  repeat' with_reducible first | exact h | apply Keeps.set | apply Keeps.ite

theorem keeps_countQuad {s₀ s : State} (h : Keeps s₀ s) (n : Fin 10) (d : Int) : Keeps s₀ (State.countQuad s n d) := by
  unfold State.countQuad
  repeat' with_reducible first | exact h | apply keeps_lane | apply keeps_setQcnt

theorem keeps_execQuadEdgeAccepted {s₀ s : State} (h : Keeps s₀ s) (n : Fin 10) (a : Bool) (b : Bool) :
    KeepsAns s₀ (execQuadEdgeAccepted n a b s) := by
  unfold execQuadEdgeAccepted
  repeat' with_reducible first
    | exact h | apply KeepsAns.next | apply KeepsAns.ite | apply keeps_countQuad | apply keeps_lane | apply keeps_count

theorem keeps_execIndexEdge {s₀ s : State} (h : Keeps s₀ s) (n : Fin 10) : KeepsAns s₀ (execIndexEdge n s) := by
  unfold execIndexEdge
  repeat' with_reducible first
    | exact h | apply KeepsAns.next | apply KeepsAns.ite | apply Keeps.set | apply keeps_lane | apply Keeps.ite

theorem keeps_execQcntWrite {s₀ s : State} (h : Keeps s₀ s) (n : Fin 10) (v : Word) : KeepsAns s₀ (execQcntWrite n v s) := by
  unfold execQcntWrite
  repeat' with_reducible first
    | exact h | assumption | intro _ | apply Keeps.set | apply keeps_busDo | apply keeps_setQcnt | apply Keeps.ite

theorem keeps_execLaneEnable {s₀ s : State} (h : Keeps s₀ s) (n : Fin 10) (v : Word) : KeepsAns s₀ (execLaneEnable n v s) := by
  unfold execLaneEnable
  repeat' with_reducible first
    | exact h | assumption | intro _ | apply keeps_laneLand | apply keeps_busDo | apply keeps_landEnable

theorem keeps_resumeUndone {s₀ s : State} (h : Keeps s₀ s) (n : Fin 10) : Keeps s₀ (State.resumeUndone s n) := by
  unfold State.resumeUndone
  repeat' with_reducible first | exact h | apply Keeps.set | apply Keeps.put | split

theorem keeps_disableLane {s₀ s : State} (h : Keeps s₀ s) (n : Fin 10) : Keeps s₀ (State.disableLane s n) := by
  unfold State.disableLane
  repeat' with_reducible first
    | exact h | apply keeps_clearFirst | apply Keeps.set | apply keeps_switchAt | apply keeps_lane | apply keeps_setLstate
    | apply keeps_noLoops | apply keeps_resumeUndone | apply keeps_outputsLow | apply Keeps.ite

theorem keeps_execLaneDisable {s₀ s : State} (h : Keeps s₀ s) (n : Fin 10) (v : Word) : KeepsAns s₀ (execLaneDisable n v s) := by
  unfold execLaneDisable
  repeat' with_reducible first
    | exact h | assumption | intro _ | apply keeps_laneLand | apply keeps_disableLane | apply keeps_busDo

theorem keeps_execCalEnd {s₀ s : State} (h : Keeps s₀ s) (n : Fin 10) : KeepsAns s₀ (execCalEnd n s) := by
  unfold execCalEnd
  repeat' with_reducible first
    | exact h | apply KeepsAns.next | apply KeepsAns.ite | apply Keeps.set | apply keeps_report | apply keeps_lane
    | apply keeps_setLstate

theorem keeps_marchStart {s₀ s : State} (h : Keeps s₀ s) : Keeps s₀ (State.marchStart s) := by
  unfold State.marchStart
  repeat' with_reducible first
    | exact h | apply Keeps.set | apply Keeps.ite | fail_if_no_progress refine Keeps.fields ?_ rfl rfl rfl rfl rfl

theorem keeps_marchEnd {s₀ s : State} (h : Keeps s₀ s) : Keeps s₀ (State.marchEnd s) := by
  unfold State.marchEnd
  repeat' with_reducible first | exact h | apply Keeps.set | apply keeps_resumeDma

theorem keeps_marchAbort {s₀ s : State} (h : Keeps s₀ s) : Keeps s₀ (State.marchAbort s) := by
  unfold State.marchAbort
  repeat' with_reducible first
    | exact h | apply Keeps.set | apply keeps_marchEnd | apply keeps_marchLoss | apply Keeps.ite
    | fail_if_no_progress refine Keeps.fields ?_ rfl rfl rfl rfl rfl

theorem keeps_execMarchGo {s₀ s : State} (h : Keeps s₀ s) (v : Word) : KeepsAns s₀ (execMarchGo v s) := by
  unfold execMarchGo
  repeat' with_reducible first
    | exact h | assumption | intro _ | apply keeps_busDo | apply keeps_marchStart | apply keeps_writeFields

theorem keeps_execMarchAbort {s₀ s : State} (h : Keeps s₀ s) : KeepsAns s₀ (execMarchAbort s) := by
  unfold execMarchAbort
  repeat' with_reducible first | exact h | assumption | apply keeps_marchAbort | apply keeps_busDo

theorem keeps_marchFail {s₀ s : State} (h : Keeps s₀ s) (t : Nat) (f : MarchFault) : Keeps s₀ (State.marchFail s t f) := by
  unfold State.marchFail
  repeat' with_reducible first | exact h | apply Keeps.set

theorem keeps_preserveFail {s₀ s : State} (h : Keeps s₀ s) (t : Nat) (n : Nat) (r : List MarchFault) :
    Keeps s₀ (State.preserveFail s t n r) := by
  unfold State.preserveFail
  repeat' with_reducible first | exact h | apply Keeps.set | split

theorem keeps_marchDoubt {s₀ s : State} (h : Keeps s₀ s) (t : Nat) (r : List MarchFault) : Keeps s₀ (State.marchDoubt s t r) := by
  unfold State.marchDoubt
  repeat' with_reducible first | exact h | assumption | intro _ | apply keeps_garble | apply Keeps.foldl

theorem keeps_execMarchComplete {s₀ s : State} (h : Keeps s₀ s) (r : List MarchFault) : KeepsAns s₀ (execMarchComplete r s) := by
  unfold execMarchComplete
  repeat' with_reducible first
    | exact h | apply KeepsAns.next | apply KeepsAns.ite | apply keeps_marchFail | apply Keeps.set | apply keeps_marchEnd
    | apply keeps_marchLoss | apply keeps_preserveFail | apply keeps_fill | apply keeps_marchDoubt | split

theorem keeps_startWipe {s₀ s : State} (h : Keeps s₀ s) (cause : RF) : Keeps s₀ (State.startWipe s cause) := by
  unfold State.startWipe
  repeat' with_reducible first | exact h | apply Keeps.set | apply Keeps.ite

theorem keeps_execVaultWipeCmd {s₀ s : State} (h : Keeps s₀ s) (m : Master) (mach : Bool) :
    KeepsAns s₀ (execVaultWipeCmd m mach s) := by
  unfold execVaultWipeCmd
  repeat' with_reducible first
    | exact h | assumption | intro _ | apply keeps_busBy | apply keeps_startWipe | apply Keeps.ite

theorem keeps_tamperFullReset {s₀ s : State} (h : Keeps s₀ s) : Keeps s₀ (State.tamperFullReset s) := by
  unfold State.tamperFullReset
  repeat' with_reducible first
    | exact h | apply keeps_scarabReset | apply keeps_fullReset | apply Keeps.ite
    | fail_if_no_progress refine Keeps.fields ?_ rfl rfl rfl rfl rfl

theorem keeps_execVaultWipeComplete {s₀ s : State} (h : Keeps s₀ s) : KeepsAns s₀ (execVaultWipeComplete s) := by
  unfold execVaultWipeComplete
  repeat' with_reducible first
    | exact h | apply KeepsAns.next | apply KeepsAns.ite | apply Keeps.set | apply keeps_fill | apply keeps_tamperFullReset
    | apply keeps_count | apply Keeps.ite

theorem keeps_nonceOp {s₀ s : State} (h : Keeps s₀ s) (d : List Byte) : Keeps s₀ (State.nonceOp s d).2 := by
  unfold State.nonceOp
  repeat' with_reducible first | exact h | fail_if_no_progress refine Keeps.fields ?_ rfl rfl rfl rfl rfl | split

theorem keeps_execAttestationSigned {s₀ s : State} (h : Keeps s₀ s) : KeepsAns s₀ (execAttestationSigned s) := by
  unfold execAttestationSigned
  repeat' with_reducible first
    | exact h | apply KeepsAns.next | apply KeepsAns.ite | fail_if_no_progress refine Keeps.fields ?_ rfl rfl rfl rfl rfl

theorem keeps_mgtReport {s₀ s : State} (h : Keeps s₀ s) (src : Nat) (cause : Nat) (detail : Nat) :
    Keeps s₀ (State.mgtReport s src cause detail) := by
  unfold State.mgtReport
  repeat' with_reducible first | exact h | apply keeps_report

theorem keeps_tempReport {s₀ s : State} (h : Keeps s₀ s) (x_h : Option (Nat × Int)) : Keeps s₀ (State.tempReport s x_h) := by
  unfold State.tempReport
  repeat' with_reducible first | exact h | apply keeps_mgtReport | split

theorem keeps_execTempSample {s₀ s : State} (h : Keeps s₀ s) (s0 : BitVec 10) (s1 : BitVec 10) (s2 : BitVec 10) :
    KeepsAns s₀ (execTempSample s0 s1 s2 s) := by
  unfold execTempSample
  repeat' with_reducible first
    | exact h | assumption | intro _ | apply KeepsAns.next | apply KeepsAns.ite | apply keeps_tempReport | apply keeps_forLanes
    | apply keeps_disableLane | apply Keeps.set | apply Keeps.ite
    | fail_if_no_progress refine Keeps.fields ?_ rfl rfl rfl rfl rfl

theorem keeps_execSupplyLow {s₀ s : State} (h : Keeps s₀ s) (vaon : Bool) : KeepsAns s₀ (execSupplyLow vaon s) := by
  unfold execSupplyLow
  repeat' with_reducible first | exact h | apply KeepsAns.next | apply KeepsAns.ite | apply keeps_mgtReport

theorem keeps_lifeCycleOp {s₀ s : State} (h : Keeps s₀ s) (via : Via) (tid : Nat) (d : List Byte) :
    Keeps s₀ (State.lifeCycleOp s via tid d).2 := by
  unfold State.lifeCycleOp
  repeat' with_reducible first
    | exact h | fail_if_no_progress extract_lets | apply keeps_startWipe | apply Keeps.ite
    | fail_if_no_progress refine Keeps.fields ?_ rfl rfl rfl rfl rfl | split

theorem keeps_execLifeCycleFusesBurned {s₀ s : State} (h : Keeps s₀ s) : KeepsAns s₀ (execLifeCycleFusesBurned s) := by
  unfold execLifeCycleFusesBurned
  split
  · exact .next h
  · next t _ =>
    split
    · exact .next h
    · extract_lets old req s1 x s2 s3 s4
      have h1 : Keeps s₀ s1 := keeps_burnFuses (Keeps.ite (keeps_eraseForReturn h) h) _ _ _
      have h2 : Keeps s₀ s2 := h1.fields rfl rfl rfl rfl rfl
      refine .next (keeps_scarabReset (keeps_mgtReport ?_ _ _ _) _)
      have h3 : Keeps s₀ s3 := Keeps.ite (h2.set _ _) h2
      simp only [s4]
      cases req
      · exact h3
      · exact keeps_answer h3 _ _ _ _

theorem keeps_ownerHashOp {s₀ s : State} (h : Keeps s₀ s) (d : List Byte) : Keeps s₀ (State.ownerHashOp s d).2 := by
  unfold State.ownerHashOp
  split
  · exact h
  · split
    · exact h
    · next hn =>
      have hn : s.sc.ownerHash = none := by simpa using (not_or.1 hn).2
      exact h.trans ⟨id, id, rfl, Nat.le_refl _, Nat.le_refl _, Nat.le_refl _, fun _ x => by simp [hn] at x, id⟩

theorem keeps_unlockOp {s₀ s : State} (h : Keeps s₀ s) (d : List Byte) : Keeps s₀ (State.unlockOp s d).2 := by
  unfold State.unlockOp
  repeat' with_reducible first
    | exact h | fail_if_no_progress extract_lets | apply keeps_mgtReport
    | fail_if_no_progress refine Keeps.fields ?_ rfl rfl rfl rfl rfl | split

theorem keeps_tamper {s₀ s : State} (h : Keeps s₀ s) (d : Nat) : Keeps s₀ (State.tamper s d) := by
  unfold State.tamper
  repeat' with_reducible first
    | exact h | apply keeps_setBit | apply keeps_mgtReport | apply keeps_wakeSrc | apply keeps_count | apply keeps_startWipe
    | apply Keeps.ite | fail_if_no_progress refine Keeps.fields ?_ rfl rfl rfl rfl rfl

theorem keeps_execStaticTamper {s₀ s : State} (h : Keeps s₀ s) (k : Fin 2) (level : Bool) :
    KeepsAns s₀ (execStaticTamper k level s) := by
  unfold execStaticTamper
  repeat' with_reducible first
    | exact h | apply KeepsAns.next | apply KeepsAns.ite | apply keeps_tamper
    | fail_if_no_progress refine Keeps.fields ?_ rfl rfl rfl rfl rfl

theorem keeps_execPairTamper {s₀ s : State} (h : Keeps s₀ s) : KeepsAns s₀ (execPairTamper s) := by
  unfold execPairTamper
  repeat' with_reducible first
    | exact h | fail_if_no_progress extract_lets | apply KeepsAns.next | apply KeepsAns.ite | apply keeps_tamper | apply Keeps.ite
    | fail_if_no_progress refine Keeps.fields ?_ rfl rfl rfl rfl rfl

theorem keeps_execMeshTamper {s₀ s : State} (h : Keeps s₀ s) : KeepsAns s₀ (execMeshTamper s) := by
  unfold execMeshTamper
  repeat' with_reducible first
    | exact h | fail_if_no_progress extract_lets | apply KeepsAns.next | apply KeepsAns.ite | apply keeps_tamper | apply Keeps.ite
    | fail_if_no_progress refine Keeps.fields ?_ rfl rfl rfl rfl rfl

theorem keeps_wdogExpire {s₀ s : State} (h : Keeps s₀ s) (pc : Nat) : Keeps s₀ (State.wdogExpire s pc) := by
  unfold State.wdogExpire
  repeat' with_reducible first
    | exact h | apply keeps_recAbort | apply keeps_fresh | apply Keeps.set | apply keeps_mgtReport | apply keeps_scarabReset

theorem keeps_wdogExpireNow {s₀ s : State} (h : Keeps s₀ s) : Keeps s₀ (State.wdogExpireNow s) := by
  unfold State.wdogExpireNow
  repeat' with_reducible first | exact h | apply keeps_fresh | apply keeps_wdogExpire

theorem keeps_wdogKick {s₀ s : State} (h : Keeps s₀ s) (v : Nat) : Keeps s₀ (State.wdogKick s v) := by
  unfold State.wdogKick
  repeat' with_reducible first
    | exact h | apply keeps_wdogExpireNow | apply Keeps.set | apply Keeps.ite
    | fail_if_no_progress refine Keeps.fields ?_ rfl rfl rfl rfl rfl

theorem keeps_execWdogKick {s₀ s : State} (h : Keeps s₀ s) (v : Word) : KeepsAns s₀ (execWdogKick v s) := by
  unfold execWdogKick
  repeat' with_reducible first | exact h | assumption | intro _ | apply keeps_wdogKick | apply keeps_busDo | apply Keeps.ite

theorem keeps_execWdogWarn {s₀ s : State} (h : Keeps s₀ s) : KeepsAns s₀ (execWdogWarn s) := by
  unfold execWdogWarn
  repeat' with_reducible first | exact h | apply KeepsAns.next | apply KeepsAns.ite | apply Keeps.set

theorem keeps_execWdogExpiry {s₀ s : State} (h : Keeps s₀ s) (pc : Word) : KeepsAns s₀ (execWdogExpiry pc s) := by
  unfold execWdogExpiry
  repeat' with_reducible first | exact h | apply KeepsAns.next | apply KeepsAns.ite | apply keeps_wdogExpire

theorem keeps_setArgs {s₀ s : State} (h : Keeps s₀ s) (l : List Byte) : Keeps s₀ (State.setArgs s l) := by
  unfold State.setArgs
  repeat' with_reducible first | exact h | assumption | intro _ | apply Keeps.set | apply Keeps.foldl

theorem keeps_mboxResult {s₀ s : State} (h : Keeps s₀ s) (op : Nat) : Keeps s₀ (State.mboxResult s op).2 := by
  unfold State.mboxResult
  repeat' with_reducible first
    | exact h | fail_if_no_progress extract_lets | apply keeps_setArgs | apply keeps_pokes | apply keeps_newChallenge | split

theorem keeps_execMailboxOperationDone {s₀ s : State} (h : Keeps s₀ s) : KeepsAns s₀ (execMailboxOperationDone s) := by
  unfold execMailboxOperationDone
  repeat' with_reducible first
    | exact h | apply KeepsAns.next | apply keeps_mboxResult | apply Keeps.set
    | fail_if_no_progress refine Keeps.fields ?_ rfl rfl rfl rfl rfl | split

theorem keeps_execTapAccess {s₀ s : State} (h : Keeps s₀ s) (a : TapAccess) : KeepsAns s₀ (execTapAccess a s) := by
  unfold execTapAccess
  repeat' with_reducible first
    | exact h | apply KeepsAns.next | apply KeepsAns.refused | apply keeps_unlockOp | apply keeps_fresh
    | apply keeps_newChallenge | apply keeps_emit | fail_if_no_progress refine Keeps.fields ?_ rfl rfl rfl rfl rfl | split

theorem keeps_setTouched {s₀ s : State} (h : Keeps s₀ s) (k : Nat) (b : Bool) : Keeps s₀ (State.setTouched s k b) := by
  unfold State.setTouched
  repeat' with_reducible first | exact h | apply keeps_setBit | apply Keeps.ite

theorem keeps_reportKey {s₀ s : State} (h : Keeps s₀ s) (k : Nat) : Keeps s₀ (State.reportKey s k) := by
  unfold State.reportKey
  repeat' with_reducible first
    | exact h | apply keeps_pulse | apply keeps_setBit | apply Keeps.set | apply Keeps.ite
    | fail_if_no_progress refine Keeps.fields ?_ rfl rfl rfl rfl rfl

theorem keeps_key {s₀ s : State} (h : Keeps s₀ s) (k : Fin 64) (f : KeySt → KeySt) : Keeps s₀ (State.key s k f) := by
  unfold State.key
  repeat' with_reducible first | exact h | fail_if_no_progress refine Keeps.fields ?_ rfl rfl rfl rfl rfl

theorem keeps_countRecal {s₀ s : State} (h : Keeps s₀ s) : Keeps s₀ (State.countRecal s) := by
  unfold State.countRecal
  repeat' with_reducible first | exact h | apply keeps_count

theorem keeps_showAcq {s₀ s : State} (h : Keeps s₀ s) : Keeps s₀ (State.showAcq s) := by
  unfold State.showAcq
  repeat' with_reducible first | exact h | apply keeps_setF

theorem keeps_acquire {s₀ s : State} (h : Keeps s₀ s) (m : Nat) : Keeps s₀ (State.acquire s m) := by
  unfold State.acquire
  repeat' with_reducible first
    | exact h | assumption | intro _ | apply keeps_showAcq | apply keeps_key | apply keeps_setTouched | apply Keeps.ite
    | apply Keeps.foldl | fail_if_no_progress refine Keeps.fields ?_ rfl rfl rfl rfl rfl

theorem keeps_dropKeys {s₀ s : State} (h : Keeps s₀ s) (m : Nat) : Keeps s₀ (State.dropKeys s m) := by
  unfold State.dropKeys
  repeat' with_reducible first
    | exact h | assumption | intro _ | apply keeps_key | apply keeps_setTouched | apply Keeps.ite | apply Keeps.foldl
    | fail_if_no_progress refine Keeps.fields ?_ rfl rfl rfl rfl rfl

theorem keeps_takeTouchCfg {s₀ s : State} (h : Keeps s₀ s) : Keeps s₀ (State.takeTouchCfg s) := by
  unfold State.takeTouchCfg
  repeat' with_reducible first
    | exact h | apply keeps_acquire | apply keeps_dropKeys | fail_if_no_progress refine Keeps.fields ?_ rfl rfl rfl rfl rfl

theorem keeps_scanAfter {s₀ s : State} (h : Keeps s₀ s) (st : Nat) : Keeps s₀ (State.scanAfter s st) := by
  unfold State.scanAfter
  repeat' with_reducible first | exact h | fail_if_no_progress refine Keeps.fields ?_ rfl rfl rfl rfl rfl

theorem keeps_nextScan {s₀ s : State} (h : Keeps s₀ s) (st : Nat) : Keeps s₀ (State.nextScan s st) := by
  unfold State.nextScan
  repeat' with_reducible first
    | exact h | apply keeps_scanAfter | apply Keeps.set | fail_if_no_progress refine Keeps.fields ?_ rfl rfl rfl rfl rfl

theorem keeps_execTouchScanStart {s₀ s : State} (h : Keeps s₀ s) : KeepsAns s₀ (execTouchScanStart s) := by
  unfold execTouchScanStart
  repeat' with_reducible first
    | exact h | assumption | intro _ | apply KeepsAns.next | apply KeepsAns.ite | apply keeps_key | apply Keeps.set
    | apply keeps_takeTouchCfg | apply Keeps.ite | apply Keeps.foldl
    | fail_if_no_progress refine Keeps.fields ?_ rfl rfl rfl rfl rfl

theorem keeps_processKey {s₀ s : State} (h : Keeps s₀ s) (k : Fin 64) (m : Nat) : Keeps s₀ (State.processKey s k m) := by
  unfold State.processKey
  repeat' with_reducible first
    | exact h | apply keeps_key | apply Keeps.set | apply keeps_setTouched | apply keeps_reportKey | apply keeps_countRecal
    | apply Keeps.ite

theorem keeps_acquireKey {s₀ s : State} (h : Keeps s₀ s) (k : Fin 64) (m : Nat) (n : Nat) (sum : Nat) :
    Keeps s₀ (State.acquireKey s k m n sum) := by
  unfold State.acquireKey
  repeat' with_reducible first | exact h | apply keeps_key | apply Keeps.ite

theorem keeps_recalKey {s₀ s : State} (h : Keeps s₀ s) (k : Fin 64) (m : Nat) : Keeps s₀ (State.recalKey s k m) := by
  unfold State.recalKey
  repeat' with_reducible first
    | exact h | apply keeps_key | apply keeps_setTouched | apply keeps_reportKey | apply keeps_countRecal | apply Keeps.ite

theorem keeps_processKeys {s₀ s : State} (h : Keeps s₀ s) (q : List Int) : Keeps s₀ (State.processKeys s q) := by
  unfold State.processKeys
  repeat' with_reducible first
    | exact h | assumption | intro _ | apply keeps_processKey | apply keeps_key | apply keeps_acquireKey | apply keeps_recalKey
    | apply Keeps.foldl | split

theorem keeps_execTouchScanEnd {s₀ s : State} (h : Keeps s₀ s) (q : List Int) : KeepsAns s₀ (execTouchScanEnd q s) := by
  unfold execTouchScanEnd
  repeat' with_reducible first
    | exact h | apply KeepsAns.next | apply KeepsAns.ite | apply keeps_showAcq | apply keeps_nextScan | apply keeps_processKeys
    | apply Keeps.set | apply keeps_wakeSrc | apply Keeps.ite | fail_if_no_progress refine Keeps.fields ?_ rfl rfl rfl rfl rfl

theorem keeps_recalCmd {s₀ s : State} (h : Keeps s₀ s) (k : Nat) : Keeps s₀ (State.recalCmd s k) := by
  unfold State.recalCmd
  repeat' with_reducible first
    | exact h | apply Keeps.set | apply Keeps.ite | fail_if_no_progress refine Keeps.fields ?_ rfl rfl rfl rfl rfl

theorem keeps_recalAll {s₀ s : State} (h : Keeps s₀ s) : Keeps s₀ (State.recalAll s) := by
  unfold State.recalAll
  repeat' with_reducible first | exact h | apply keeps_acquire | apply keeps_nextScan | apply Keeps.ite

theorem keeps_touchOn {s₀ s : State} (h : Keeps s₀ s) : Keeps s₀ (State.touchOn s) := by
  unfold State.touchOn
  repeat' with_reducible first
    | exact h | apply keeps_acquire | apply Keeps.set | apply Keeps.ite
    | fail_if_no_progress refine Keeps.fields ?_ rfl rfl rfl rfl rfl

theorem keeps_touchOff {s₀ s : State} (h : Keeps s₀ s) : Keeps s₀ (State.touchOff s) := by
  unfold State.touchOff
  repeat' with_reducible first | exact h | apply Keeps.set | fail_if_no_progress refine Keeps.fields ?_ rfl rfl rfl rfl rfl

theorem keeps_touchCtrl {s₀ s : State} (h : Keeps s₀ s) (v : Nat) : Keeps s₀ (State.touchCtrl s v) := by
  unfold State.touchCtrl
  repeat' with_reducible first
    | exact h | apply keeps_recalCmd | apply Keeps.set | apply keeps_touchOn | apply keeps_recalAll | apply keeps_touchOff
    | apply Keeps.ite

theorem keeps_execTouchEnable {s₀ s : State} (h : Keeps s₀ s) (v : Word) : KeepsAns s₀ (execTouchEnable v s) := by
  unfold execTouchEnable
  repeat' with_reducible first | exact h | assumption | intro _ | apply keeps_touchCtrl | apply keeps_busDo

theorem keeps_execTouchDisable {s₀ s : State} (h : Keeps s₀ s) (v : Word) : KeepsAns s₀ (execTouchDisable v s) := by
  unfold execTouchDisable
  repeat' with_reducible first | exact h | assumption | intro _ | apply keeps_touchCtrl | apply keeps_busDo

theorem keeps_execRecalAll {s₀ s : State} (h : Keeps s₀ s) (v : Word) : KeepsAns s₀ (execRecalAll v s) := by
  unfold execRecalAll
  repeat' with_reducible first | exact h | assumption | intro _ | apply keeps_touchCtrl | apply keeps_busDo

theorem keeps_execRecal {s₀ s : State} (h : Keeps s₀ s) (v : Word) : KeepsAns s₀ (execRecal v s) := by
  unfold execRecal
  repeat' with_reducible first | exact h | assumption | intro _ | apply keeps_touchCtrl | apply keeps_busDo

theorem keeps_touchSetting {s₀ s : State} (h : Keeps s₀ s) : Keeps s₀ (State.touchSetting s) := by
  unfold State.touchSetting
  repeat' with_reducible first | exact h | apply keeps_scanAfter | apply keeps_takeTouchCfg | apply Keeps.ite

theorem keeps_execKeymaskWrite {s₀ s : State} (h : Keeps s₀ s) (hi : Bool) (v : Word) :
    KeepsAns s₀ (execKeymaskWrite hi v s) := by
  unfold execKeymaskWrite
  repeat' with_reducible first
    | exact h | assumption | intro _ | apply KeepsAns.ite | apply Keeps.set | apply keeps_busDo | apply keeps_touchSetting

theorem keeps_touchEnter {s₀ s : State} (h : Keeps s₀ s) : Keeps s₀ (State.touchEnter s) := by
  unfold State.touchEnter
  repeat' with_reducible first | exact h | apply Keeps.set | apply Keeps.ite

theorem keeps_touchExit {s₀ s : State} (h : Keeps s₀ s) : Keeps s₀ (State.touchExit s) := by
  unfold State.touchExit
  repeat' with_reducible first | exact h | apply keeps_nextScan | apply Keeps.set | apply Keeps.ite

end Sys2Proof.Machine
end

