-- ==== Sys2Proof/Laws/KeepsPins.lean ====
section
/-!
SUPPORT. Canonical form, the queue and OTP are kept (Sys2Proof/Laws/Keeps.lean) by the dictionary objects, event routing, UARTs, pin engines and the harvester.
-/
namespace Sys2Proof.Machine

theorem keeps_objRead {s₀ s : State} (h : Keeps s₀ s) (i : Nat) (sub : Nat) : Keeps s₀ (State.objRead s i sub).2.2 := by
  unfold State.objRead
  repeat' with_reducible first | exact h | apply keeps_newChallenge | split

theorem keeps_writeDiscEn {s₀ s : State} (h : Keeps s₀ s) (v : Nat) : Keeps s₀ (State.writeDiscEn s v) := by
  unfold State.writeDiscEn
  repeat' with_reducible first | exact h | apply Keeps.set | apply keeps_showDisc

theorem keeps_setLaneObj {s₀ s : State} (h : Keeps s₀ s) (n : Fin 10) (g : Nat) (sub : Nat) (x : Nat) :
    Keeps s₀ (State.setLaneObj s n g sub x) := by
  unfold State.setLaneObj
  repeat' with_reducible first
    | exact h | apply keeps_resume | apply keeps_disableLane | apply Keeps.set | apply keeps_schedOf | apply keeps_landEnable
    | apply keeps_loader | split

theorem keeps_setWsObj {s₀ s : State} (h : Keeps s₀ s) (w : Fin 4) (sub : Nat) (x : Nat) :
    Keeps s₀ (State.setWsObj s w sub x) := by
  unfold State.setWsObj
  repeat' with_reducible first | exact h | apply keeps_setWs | apply Keeps.ite

theorem keeps_setCalendar {s₀ s : State} (h : Keeps s₀ s) (x : Nat) : Keeps s₀ (State.setCalendar s x) := by
  unfold State.setCalendar
  repeat' with_reducible first | exact h | apply Keeps.set | apply keeps_rtcSet

theorem keeps_setSysObj {s₀ s : State} (h : Keeps s₀ s) (i : Nat) (sub : Nat) (x : Nat) :
    Keeps s₀ (State.setSysObj s i sub x) := by
  unfold State.setSysObj
  repeat' with_reducible first
    | exact h | apply keeps_recalCmd | apply keeps_setCalendar | apply keeps_flushLog | apply keeps_writeDiscEn
    | apply Keeps.set | apply keeps_rtcShift | apply keeps_touchSetting | apply keeps_clearLost | apply keeps_confirm
    | apply keeps_recalAll | apply keeps_writeFields | apply keeps_writeBoot | apply keeps_activateAt
    | fail_if_no_progress refine Keeps.fields ?_ rfl rfl rfl rfl rfl | split

theorem keeps_setObj {s₀ s : State} (h : Keeps s₀ s) (i : Nat) (sub : Nat) (x : Nat) : Keeps s₀ (State.setObj s i sub x) := by
  unfold State.setObj
  repeat' with_reducible first
    | exact h | apply keeps_mcWrite | apply keeps_setLaneObj | apply keeps_setSysObj | apply keeps_setWsObj
    | apply keeps_writeFields | apply Keeps.ite

theorem keeps_objWrite {s₀ s : State} (h : Keeps s₀ s) (via : Via) (tid : Nat) (i : Nat) (sub : Nat) (d : List Byte) (ok : Bool) :
    Keeps s₀ (State.objWrite s via tid i sub d ok).2 := by
  unfold State.objWrite
  repeat' first
    | with_reducible exact h | (fail_if_no_progress extract_lets) | with_reducible apply keeps_unlockOp
    | with_reducible apply keeps_dlData | with_reducible apply keeps_dlFinish | with_reducible apply keeps_dlActivate
    | with_reducible apply keeps_dlAbort | with_reducible apply keeps_nonceOp | with_reducible apply keeps_loadData
    | with_reducible apply keeps_setObj | with_reducible apply keeps_storePersisted | with_reducible apply keeps_dlBegin
    | with_reducible apply keeps_ownerHashOp | with_reducible apply keeps_lifeCycleOp | with_reducible apply keeps_eraseStored
    | with_reducible apply keeps_writeBoot | split | refine Keeps.ofSome (by with_reducible assumption) ?_

theorem keeps_deny {s₀ s : State} (h : Keeps s₀ s) (b : Bool) : Keeps s₀ (State.deny s b) := by
  unfold State.deny
  repeat' with_reducible first | exact h | apply keeps_count | apply Keeps.ite

theorem keeps_fireChan {s₀ s : State} (h : Keeps s₀ s) (k : Nat) : Keeps s₀ (State.fireChan s k) := by
  unfold State.fireChan
  repeat' with_reducible first | exact h | apply Keeps.ite | fail_if_no_progress refine Keeps.fields ?_ rfl rfl rfl rfl rfl

theorem keeps_fireMask {s₀ s : State} (h : Keeps s₀ s) (m : Master) (mach : Bool) (v : Nat) :
    Keeps s₀ (State.fireMask s m mach v) := by
  unfold State.fireMask
  repeat' with_reducible first
    | exact h | assumption | intro _ | apply keeps_deny | apply keeps_fireChan | apply Keeps.foldl

theorem keeps_execFire {s₀ s : State} (h : Keeps s₀ s) (m : Master) (mach : Bool) (v : Word) :
    KeepsAns s₀ (execFire m mach v s) := by
  unfold execFire
  repeat' with_reducible first
    | exact h | assumption | intro _ | apply KeepsAns.next | apply KeepsAns.ite | apply keeps_fireMask | apply keeps_busBy
    | apply Keeps.ite

theorem keeps_chanEdge {s₀ s : State} (h : Keeps s₀ s) (k : Nat) : Keeps s₀ (State.chanEdge s k) := by
  unfold State.chanEdge
  repeat' with_reducible first
    | exact h | apply keeps_setBit | apply keeps_wakeByEvent | apply keeps_wakeSrc | apply Keeps.ite

theorem keeps_execChannelEdge {s₀ s : State} (h : Keeps s₀ s) (k : Fin 32) : KeepsAns s₀ (execChannelEdge k s) := by
  unfold execChannelEdge
  repeat' with_reducible first
    | exact h | apply KeepsAns.next | apply KeepsAns.ite | apply keeps_chanEdge
    | fail_if_no_progress refine Keeps.fields ?_ rfl rfl rfl rfl rfl

theorem keeps_blankChan {s₀ s : State} (h : Keeps s₀ s) (k : Nat) : Keeps s₀ (State.blankChan s k) := by
  unfold State.blankChan
  repeat' with_reducible first | exact h | fail_if_no_progress refine Keeps.fields ?_ rfl rfl rfl rfl rfl

theorem keeps_evField {s₀ s : State} (h : Keeps s₀ s) (ok : Bool) (f : RF) (v : Nat) : Keeps s₀ (State.evField s ok f v) := by
  unfold State.evField
  repeat' with_reducible first | exact h | apply Keeps.set | apply Keeps.ite

theorem keeps_writeSel {s₀ s : State} (h : Keeps s₀ s) (m : Master) (mach : Bool) (k : Nat) (v : Nat) :
    Keeps s₀ (State.writeSel s m mach k v) := by
  unfold State.writeSel
  repeat' with_reducible first
    | exact h | apply keeps_blankChan | apply keeps_deny | apply keeps_writeFields | apply Keeps.ite

theorem keeps_writeChCfg {s₀ s : State} (h : Keeps s₀ s) (m : Master) (mach : Bool) (k : Nat) (v : Nat) :
    Keeps s₀ (State.writeChCfg s m mach k v) := by
  unfold State.writeChCfg
  repeat' with_reducible first | exact h | apply keeps_blankChan | apply keeps_deny | apply keeps_evField | apply Keeps.ite

theorem keeps_execChannelConfigWrite {s₀ s : State} (h : Keeps s₀ s) (m : Master) (mach : Bool) (k : Fin 32) (cfg : Bool)
    (v : Word) : KeepsAns s₀ (execChannelConfigWrite m mach k cfg v s) := by
  unfold execChannelConfigWrite
  repeat' with_reducible first
    | exact h | assumption | intro _ | apply KeepsAns.ite | apply keeps_writeSel | apply keeps_busBy | apply keeps_writeChCfg

theorem keeps_writeGctl {s₀ s : State} (h : Keeps s₀ s) (m : Master) (mach : Bool) (v : Nat) :
    Keeps s₀ (State.writeGctl s m mach v) := by
  unfold State.writeGctl
  repeat' with_reducible first | exact h | apply Keeps.set | apply keeps_deny | apply keeps_evField | apply Keeps.ite

theorem keeps_execGctlWrite {s₀ s : State} (h : Keeps s₀ s) (m : Master) (mach : Bool) (v : Word) :
    KeepsAns s₀ (execGctlWrite m mach v s) := by
  unfold execGctlWrite
  repeat' with_reducible first | exact h | assumption | intro _ | apply keeps_writeGctl | apply keeps_busBy

theorem keeps_writeEvStat {s₀ s : State} (h : Keeps s₀ s) (m : Master) (mach : Bool) (v : Nat) :
    Keeps s₀ (State.writeEvStat s m mach v) := by
  unfold State.writeEvStat
  repeat' with_reducible first | exact h | apply keeps_clearBits | apply keeps_deny

theorem keeps_writeEvEn {s₀ s : State} (h : Keeps s₀ s) (f : RF) (v : Nat) : Keeps s₀ (State.writeEvEn s f v) := by
  unfold State.writeEvEn
  repeat' with_reducible first | exact h | apply Keeps.set | apply keeps_deny | apply Keeps.ite

theorem keeps_setUart {s₀ s : State} (h : Keeps s₀ s) (n : Fin 2) (f : UartSt → UartSt) : Keeps s₀ (State.setUart s n f) := by
  unfold State.setUart
  repeat' with_reducible first | exact h | apply Keeps.ite | fail_if_no_progress refine Keeps.fields ?_ rfl rfl rfl rfl rfl

theorem keeps_showRx {s₀ s : State} (h : Keeps s₀ s) (n : Fin 2) : Keeps s₀ (State.showRx s n) := by
  unfold State.showRx
  repeat' with_reducible first | exact h | apply keeps_setF | apply Keeps.set

theorem keeps_showTxNow {s₀ s : State} (h : Keeps s₀ s) (n : Fin 2) : Keeps s₀ (State.showTxNow s n) := by
  unfold State.showTxNow
  repeat' with_reducible first | exact h | apply keeps_showTx

theorem keeps_uartLoad {s₀ s : State} (h : Keeps s₀ s) (n : Fin 2) : Keeps s₀ (State.uartLoad s n) := by
  unfold State.uartLoad
  repeat' with_reducible first
    | exact h | fail_if_no_progress extract_lets | apply keeps_setUart | apply keeps_showTxNow | split

theorem keeps_countTags {s₀ s : State} (h : Keeps s₀ s) (n : Fin 2) (pe : Bool) (fe : Bool) (nf : Bool) :
    Keeps s₀ (State.countTags s n pe fe nf) := by
  unfold State.countTags
  repeat' with_reducible first | exact h | apply keeps_count | apply Keeps.ite

theorem keeps_takeChar {s₀ s : State} (h : Keeps s₀ s) (n : Fin 2) (d : Nat) (pe : Bool) (fe : Bool) (nf : Bool) :
    Keeps s₀ (State.takeChar s n d pe fe nf) := by
  unfold State.takeChar
  repeat' with_reducible first | exact h | apply keeps_showRx | apply keeps_countTags | apply keeps_setUart

theorem keeps_storeRx {s₀ s : State} (h : Keeps s₀ s) (n : Fin 2) (d : Nat) (pe : Bool) (fe : Bool) (nf : Bool) :
    Keeps s₀ (State.storeRx s n d pe fe nf) := by
  unfold State.storeRx
  repeat' with_reducible first
    | exact h | apply Keeps.set | apply keeps_setUart | apply keeps_count | apply keeps_takeChar | apply Keeps.ite

theorem keeps_rxFreed {s₀ s : State} (h : Keeps s₀ s) (n : Fin 2) : Keeps s₀ (State.rxFreed s n) := by
  unfold State.rxFreed
  repeat' with_reducible first | exact h | apply keeps_setUart | apply Keeps.put | apply keeps_takeChar | split

theorem keeps_dropEnv {s₀ s : State} (h : Keeps s₀ s) : Keeps s₀ (State.dropEnv s) := by
  unfold State.dropEnv
  repeat' with_reducible first
    | exact h | apply keeps_count | fail_if_no_progress refine Keeps.fields ?_ rfl rfl rfl rfl rfl

theorem keeps_parseEnv {s₀ s : State} (h : Keeps s₀ s) (b : Nat) (tag : Bool) : Keeps s₀ (State.parseEnv s b tag) := by
  unfold State.parseEnv
  repeat' with_reducible first
    | exact h | apply keeps_acceptReq | apply keeps_dropEnv | apply Keeps.ite
    | fail_if_no_progress refine Keeps.fields ?_ rfl rfl rfl rfl rfl | split

theorem keeps_noteEnv {s₀ s : State} (h : Keeps s₀ s) : Keeps s₀ (State.noteEnv s) := by
  unfold State.noteEnv
  exact h.fields rfl rfl rfl rfl rfl

theorem keeps_matchChar {s₀ s : State} (h : Keeps s₀ s) (n : Fin 2) (d : Nat) (fe : Bool) (nf : Bool) :
    Keeps s₀ (State.matchChar s n d fe nf) := by
  unfold State.matchChar
  repeat' with_reducible first | exact h | apply Keeps.set | apply keeps_storeRx | apply Keeps.ite

theorem keeps_recvChar {s₀ s : State} (h : Keeps s₀ s) (n : Fin 2) (d : Nat) (pe : Bool) (fe : Bool) (nf : Bool) :
    Keeps s₀ (State.recvChar s n d pe fe nf) := by
  unfold State.recvChar
  repeat' with_reducible first
    | exact h | apply keeps_countTags | apply keeps_matchChar | apply Keeps.set | apply keeps_storeRx | apply keeps_setUart
    | apply keeps_parseEnv | apply Keeps.ite
    | apply keeps_noteEnv

theorem keeps_uartChar {s₀ s : State} (h : Keeps s₀ s) (n : Fin 2) (d : Nat) (pe fe nf : Bool) :
    Keeps s₀ (State.uartChar s n d pe fe nf) := by
  unfold State.uartChar
  exact keeps_recvChar (keeps_setUart h _ _) _ _ _ _ _

theorem keeps_uartBreak {s₀ s : State} (h : Keeps s₀ s) (n : Fin 2) : Keeps s₀ (State.uartBreak s n) := by
  unfold State.uartBreak
  repeat' with_reducible first
    | exact h | apply keeps_recvChar | apply Keeps.set | apply keeps_setUart | apply Keeps.ite

theorem keeps_uartSamples {s₀ s : State} (h : Keeps s₀ s) (n : Fin 2) (l : List (Bool × Bool × Bool)) :
    Keeps s₀ (State.uartSamples s n l) := by
  unfold State.uartSamples
  repeat' with_reducible first
    | exact h | fail_if_no_progress extract_lets | apply keeps_count | apply keeps_uartBreak | apply keeps_uartChar | apply Keeps.ite

theorem keeps_execUartCharReceived {s₀ s : State} (h : Keeps s₀ s) (n : Fin 2) (c : RxChar) :
    KeepsAns s₀ (execUartCharReceived n c s) := by
  unfold execUartCharReceived
  repeat' with_reducible first
    | exact h | apply KeepsAns.next | apply keeps_recvChar | apply keeps_setUart | apply keeps_count | split
    | apply keeps_uartChar | apply keeps_uartSamples

theorem keeps_execUartBreak {s₀ s : State} (h : Keeps s₀ s) (n : Fin 2) : KeepsAns s₀ (execUartBreak n s) := by
  unfold execUartBreak
  repeat' with_reducible first
    | exact h | apply KeepsAns.next | apply KeepsAns.ite | apply keeps_recvChar | apply Keeps.set | apply keeps_setUart
    | apply keeps_uartBreak

theorem keeps_execUartRxRead {s₀ s : State} (h : Keeps s₀ s) (n : Fin 2) : KeepsAns s₀ (execUartRxRead n s) := by
  unfold execUartRxRead
  repeat' with_reducible first
    | exact h | apply KeepsAns.next | apply keeps_rxFreed | apply keeps_showRx | apply Keeps.set | apply keeps_setUart
    | fail_if_no_progress refine Keeps.fields ?_ rfl rfl rfl rfl rfl | split

theorem keeps_execMuteReq {s₀ s : State} (h : Keeps s₀ s) (n : Fin 2) : KeepsAns s₀ (execMuteReq n s) := by
  unfold execMuteReq
  repeat' with_reducible first | exact h | assumption | intro _ | apply keeps_busDo | apply keeps_setUart

theorem keeps_execEnvelopeTimeout {s₀ s : State} (h : Keeps s₀ s) : KeepsAns s₀ (execEnvelopeTimeout s) := by
  unfold execEnvelopeTimeout
  repeat' with_reducible first | exact h | apply KeepsAns.next | apply KeepsAns.ite | apply keeps_dropEnv

theorem keeps_execUartTxWrite {s₀ s : State} (h : Keeps s₀ s) (n : Fin 2) (v : Word) : KeepsAns s₀ (execUartTxWrite n v s) := by
  unfold execUartTxWrite
  repeat' with_reducible first
    | exact h | assumption | intro _ | apply Keeps.set | apply keeps_busDo | apply keeps_setUart | apply keeps_uartLoad
    | apply keeps_showTxNow | apply Keeps.ite

theorem keeps_execUartCharSent {s₀ s : State} (h : Keeps s₀ s) (n : Fin 2) : KeepsAns s₀ (execUartCharSent n s) := by
  unfold execUartCharSent
  repeat' with_reducible first
    | exact h | fail_if_no_progress extract_lets | apply KeepsAns.next | apply keeps_setUart | apply keeps_uartLoad
    | apply keeps_showTxNow | apply keeps_emit | split

theorem keeps_execDeLagEnd {s₀ s : State} (h : Keeps s₀ s) : KeepsAns s₀ (execDeLagEnd s) := by
  unfold execDeLagEnd
  repeat' with_reducible first
    | exact h | apply KeepsAns.next | apply KeepsAns.ite | fail_if_no_progress refine Keeps.fields ?_ rfl rfl rfl rfl rfl

theorem keeps_peTimed {s₀ s : State} (h : Keeps s₀ s) (n : Fin 10) (w : Nat) : Keeps s₀ (State.peTimed s n w) := by
  unfold State.peTimed
  repeat' with_reducible first | exact h | apply keeps_peLate | apply keeps_setBase | apply Keeps.ite | split

theorem keeps_withBalls {s₀ s : State} (h : Keeps s₀ s) (balls : Nat) : Keeps s₀ (State.withBalls s balls) := by
  unfold State.withBalls
  repeat' with_reducible first | exact h | fail_if_no_progress refine Keeps.fields ?_ rfl rfl rfl rfl rfl

theorem keeps_act {s₀ s : State} (h : Keeps s₀ s) (n : Fin 10) (w : Nat) (ns : Nat) : Keeps s₀ (State.act s n w ns) := by
  unfold State.act
  repeat' with_reducible first | exact h | apply keeps_eng

theorem keeps_sample {s₀ s : State} (h : Keeps s₀ s) (n : Fin 10) (w : Nat) : Keeps s₀ (State.sample s n w) := by
  unfold State.sample
  repeat' with_reducible first | exact h | apply keeps_setF | apply keeps_eng

theorem keeps_evt {s₀ s : State} (h : Keeps s₀ s) (n : Fin 10) (w : Nat) : Keeps s₀ (State.evt s n w) := by
  unfold State.evt
  repeat' with_reducible first
    | exact h | assumption | intro _ | apply keeps_pulse | apply keeps_setBit | apply Keeps.ite | apply Keeps.foldl

theorem keeps_putPos {s₀ s : State} (h : Keeps s₀ s) (n : Fin 10) (x : Nat) : Keeps s₀ (State.putPos s n x) := by
  unfold State.putPos
  repeat' with_reducible first | exact h | apply Keeps.set | apply keeps_eng

theorem keeps_push {s₀ s : State} (h : Keeps s₀ s) (n : Fin 10) (w : Nat) : Keeps s₀ (State.push s n w) := by
  unfold State.push
  repeat' with_reducible first
    | exact h | apply keeps_putPos | apply keeps_pushRx | apply Keeps.set | apply keeps_eng | apply Keeps.ite

theorem keeps_pull {s₀ s : State} (h : Keeps s₀ s) (n : Fin 10) (w : Nat) : Keeps s₀ (State.pull s n w) := by
  unfold State.pull
  repeat' first
    | with_reducible exact h | with_reducible apply Keeps.set | with_reducible apply keeps_peLevels
    | with_reducible apply keeps_eng | with_reducible apply keeps_txRemoved | split
    | refine Keeps.ofSome (by with_reducible assumption) ?_

theorem keeps_peWait {s₀ s : State} (h : Keeps s₀ s) (n : Fin 10) (x : EWait) : Keeps s₀ (State.peWait s n x) := by
  unfold State.peWait
  repeat' with_reducible first | exact h | apply Keeps.set | apply keeps_eng

theorem keeps_injected {s₀ s : State} (h : Keeps s₀ s) (n : Fin 10) (i : Inject) : Keeps s₀ (State.injected s n i) := by
  unfold State.injected
  repeat' with_reducible first
    | exact h | apply keeps_sample | apply keeps_pull | apply keeps_evt | apply keeps_push | apply keeps_act | split

theorem keeps_injectStep {s₀ s : State} (h : Keeps s₀ s) (n : Fin 10) : Keeps s₀ (State.injectStep s n) := by
  unfold State.injectStep
  repeat' with_reducible first
    | exact h | apply keeps_injected | apply Keeps.set | apply keeps_peLate | apply keeps_eng | apply Keeps.ite | split

theorem keeps_peRun {s₀ s : State} (h : Keeps s₀ s) (n : Fin 10) (op : Nat) (k : Nat → State → State)
    (h_k : ∀ i t, Keeps s₀ t → Keeps s₀ (k i t)) : Keeps s₀ (State.peRun s n op k) := by
  unfold State.peRun
  repeat' with_reducible first | exact h | apply keeps_peTimed | apply keeps_injectStep | apply h_k | apply Keeps.ite

theorem keeps_execAct {s₀ s : State} (h : Keeps s₀ s) (n : Fin 10) : KeepsAns s₀ (execAct n s) := by
  unfold execAct
  repeat' with_reducible first
    | exact h | assumption | intro _ | apply KeepsAns.next | apply keeps_peDone | apply keeps_peRun | apply keeps_act

theorem keeps_execSample {s₀ s : State} (h : Keeps s₀ s) (n : Fin 10) (balls : Nat) : KeepsAns s₀ (execSample n balls s) := by
  unfold execSample
  repeat' with_reducible first
    | exact h | assumption | intro _ | apply KeepsAns.next | apply keeps_sample | apply keeps_peDone | apply keeps_peRun
    | apply keeps_withBalls

theorem keeps_execWaitpin {s₀ s : State} (h : Keeps s₀ s) (n : Fin 10) (balls : Nat) : KeepsAns s₀ (execWaitpin n balls s) := by
  unfold execWaitpin
  repeat' with_reducible first
    | exact h | assumption | intro _ | apply KeepsAns.next | apply keeps_peRun | apply keeps_withBalls | apply keeps_peWait

theorem keeps_execWaitpinComplete {s₀ s : State} (h : Keeps s₀ s) (n : Fin 10) (balls : Nat) :
    KeepsAns s₀ (execWaitpinComplete n balls s) := by
  unfold execWaitpinComplete
  repeat' with_reducible first
    | exact h | fail_if_no_progress extract_lets | apply KeepsAns.next | apply keeps_injectStep | apply keeps_pushRx
    | apply keeps_peDone | apply keeps_withBalls | apply keeps_byDone | apply Keeps.ite | split

theorem keeps_noteWaits {s₀ s : State} (h : Keeps s₀ s) : Keeps s₀ (State.noteWaits s) := by
  unfold State.noteWaits
  repeat' with_reducible first | exact h | assumption | intro _ | apply keeps_forLanes | apply keeps_eng | split

theorem keeps_execShift {s₀ s : State} (h : Keeps s₀ s) (n : Fin 10) : KeepsAns s₀ (execShift n s) := by
  unfold execShift
  repeat' with_reducible first
    | exact h | assumption | intro _ | apply KeepsAns.next | apply Keeps.set | apply keeps_peRun | apply keeps_eng
    | apply Keeps.ite

theorem keeps_execShiftComplete {s₀ s : State} (h : Keeps s₀ s) (n : Fin 10) (din : Nat) :
    KeepsAns s₀ (execShiftComplete n din s) := by
  unfold execShiftComplete
  repeat' with_reducible first
    | exact h | apply KeepsAns.next | apply KeepsAns.ite | apply keeps_injectStep | apply keeps_peDone | apply keeps_eng | split

theorem keeps_cutShift {s₀ s : State} (h : Keeps s₀ s) (n : Fin 10) : Keeps s₀ (State.cutShift s n) := by
  unfold State.cutShift
  repeat' with_reducible first | exact h | apply keeps_eng | split

theorem keeps_execPush {s₀ s : State} (h : Keeps s₀ s) (n : Fin 10) : KeepsAns s₀ (execPush n s) := by
  unfold execPush
  repeat' with_reducible first
    | exact h | assumption | intro _ | apply KeepsAns.next | apply keeps_peDone | apply keeps_peRun | apply keeps_peWait
    | apply keeps_byDone | apply keeps_push | apply Keeps.ite

theorem keeps_execPushStallEnd {s₀ s : State} (h : Keeps s₀ s) (n : Fin 10) : KeepsAns s₀ (execPushStallEnd n s) := by
  unfold execPushStallEnd
  repeat' with_reducible first
    | exact h | apply KeepsAns.next | apply KeepsAns.ite | apply keeps_injectStep | apply keeps_peDone | apply keeps_byDone
    | apply keeps_push

theorem keeps_execPull {s₀ s : State} (h : Keeps s₀ s) (n : Fin 10) : KeepsAns s₀ (execPull n s) := by
  unfold execPull
  repeat' with_reducible first
    | exact h | assumption | intro _ | apply KeepsAns.next | apply keeps_peDone | apply keeps_peRun | apply keeps_peWait
    | apply keeps_pull | apply keeps_byDone | apply Keeps.ite

theorem keeps_execPullStallEnd {s₀ s : State} (h : Keeps s₀ s) (n : Fin 10) : KeepsAns s₀ (execPullStallEnd n s) := by
  unfold execPullStallEnd
  repeat' with_reducible first
    | exact h | apply KeepsAns.next | apply KeepsAns.ite | apply keeps_injectStep | apply keeps_peDone | apply keeps_pull
    | apply keeps_byDone

theorem keeps_execJmp {s₀ s : State} (h : Keeps s₀ s) (n : Fin 10) : KeepsAns s₀ (execJmp n s) := by
  unfold execJmp
  repeat' with_reducible first
    | exact h | assumption | intro _ | apply KeepsAns.next | apply keeps_peDone | apply keeps_peRun

theorem keeps_execDjnz {s₀ s : State} (h : Keeps s₀ s) (n : Fin 10) : KeepsAns s₀ (execDjnz n s) := by
  unfold execDjnz
  repeat' with_reducible first
    | exact h | assumption | intro _ | apply KeepsAns.next | apply Keeps.set | apply keeps_peDone | apply keeps_peRun

theorem keeps_execEvt {s₀ s : State} (h : Keeps s₀ s) (n : Fin 10) : KeepsAns s₀ (execEvt n s) := by
  unfold execEvt
  repeat' with_reducible first
    | exact h | assumption | intro _ | apply KeepsAns.next | apply keeps_peDone | apply keeps_peRun | apply keeps_evt

theorem keeps_execSync {s₀ s : State} (h : Keeps s₀ s) (n : Fin 10) : KeepsAns s₀ (execSync n s) := by
  unfold execSync
  repeat' with_reducible first
    | exact h | assumption | intro _ | apply KeepsAns.next | apply keeps_syncTake | apply keeps_peRun | apply keeps_peWait

theorem keeps_execByDeadlineTimeout {s₀ s : State} (h : Keeps s₀ s) (n : Fin 10) : KeepsAns s₀ (execByDeadlineTimeout n s) := by
  unfold execByDeadlineTimeout
  repeat' with_reducible first
    | exact h | apply KeepsAns.next | apply KeepsAns.ite | apply keeps_injectStep | apply Keeps.set | apply keeps_peDone
    | apply keeps_peLate | apply keeps_setBase | split

theorem keeps_execBaseStale {s₀ s : State} (h : Keeps s₀ s) (n : Fin 10) : KeepsAns s₀ (execBaseStale n s) := by
  unfold execBaseStale
  repeat' with_reducible first | exact h | apply KeepsAns.next | apply KeepsAns.ite | apply Keeps.set

theorem keeps_peCtrl {s₀ s : State} (h : Keeps s₀ s) (n : Fin 10) (v : Nat) : Keeps s₀ (State.peCtrl s n v) := by
  unfold State.peCtrl
  repeat' with_reducible first | exact h | apply keeps_setLegal | apply Keeps.set | apply Keeps.ite

theorem keeps_peStart {s₀ s : State} (h : Keeps s₀ s) (n : Fin 10) (base : Nat) (ref : Nat) :
    Keeps s₀ (State.peStart s n base ref) := by
  unfold State.peStart
  repeat' with_reducible first
    | exact h | apply keeps_peBegin | apply Keeps.set | apply keeps_setBase | apply keeps_peFresh | apply keeps_eng

theorem keeps_execEngineStart {s₀ s : State} (h : Keeps s₀ s) (n : Fin 10) (v : Word) : KeepsAns s₀ (execEngineStart n v s) := by
  unfold execEngineStart
  repeat' with_reducible first
    | exact h | assumption | intro _ | apply Keeps.set | apply keeps_busDo | apply keeps_peCtrl | apply keeps_peStart
    | apply Keeps.ite

theorem keeps_execEngineArm {s₀ s : State} (h : Keeps s₀ s) (n : Fin 10) (v : Word) : KeepsAns s₀ (execEngineArm n v s) := by
  unfold execEngineArm
  repeat' with_reducible first
    | exact h | assumption | intro _ | apply Keeps.set | apply keeps_busDo | apply keeps_peCtrl | apply keeps_peFresh
    | apply keeps_eng | apply Keeps.ite

theorem keeps_execEngineStop {s₀ s : State} (h : Keeps s₀ s) (n : Fin 10) (v : Word) : KeepsAns s₀ (execEngineStop n v s) := by
  unfold execEngineStop
  repeat' with_reducible first
    | exact h | assumption | intro _ | apply keeps_cutShift | apply Keeps.set | apply keeps_busDo | apply keeps_peLevels
    | apply keeps_peCtrl | apply keeps_peFresh | apply keeps_eng

theorem keeps_execProgramStoreWrite {s₀ s : State} (h : Keeps s₀ s) (w : Fin 512) (v : Word) :
    KeepsAns s₀ (execProgramStoreWrite w v s) := by
  unfold execProgramStoreWrite
  repeat' with_reducible first
    | exact h | apply KeepsAns.next | apply KeepsAns.ite | apply keeps_pokeWord
    | fail_if_no_progress refine Keeps.fields ?_ rfl rfl rfl rfl rfl

theorem keeps_execInject {s₀ s : State} (h : Keeps s₀ s) (n : Fin 10) (v : Word) : KeepsAns s₀ (execInject n v s) := by
  unfold execInject
  repeat' with_reducible first
    | exact h | assumption | intro _ | apply Keeps.set | apply keeps_busDo | apply keeps_eng | apply Keeps.ite

theorem keeps_execInjectedExecute {s₀ s : State} (h : Keeps s₀ s) (n : Fin 10) (balls : Nat) :
    KeepsAns s₀ (execInjectedExecute n balls s) := by
  unfold execInjectedExecute
  repeat' with_reducible first | exact h | apply KeepsAns.next | apply keeps_injectStep | apply keeps_withBalls

theorem keeps_execTxfifoWrite {s₀ s : State} (h : Keeps s₀ s) (n : Fin 10) (v : Word) : KeepsAns s₀ (execTxfifoWrite n v s) := by
  unfold execTxfifoWrite
  repeat' with_reducible first
    | exact h | assumption | intro _ | apply keeps_txMiss | apply Keeps.set | apply keeps_busDo | apply keeps_peLevels
    | apply keeps_eng | apply Keeps.ite

theorem keeps_execRxfifoRead {s₀ s : State} (h : Keeps s₀ s) (n : Fin 10) : KeepsAns s₀ (execRxfifoRead n s) := by
  unfold execRxfifoRead
  repeat' with_reducible first
    | exact h | apply KeepsAns.next | apply Keeps.set | apply keeps_peLevels | apply keeps_rxRemoved | apply keeps_eng
    | fail_if_no_progress refine Keeps.fields ?_ rfl rfl rfl rfl rfl | split

theorem keeps_ssGo {s₀ s : State} (h : Keeps s₀ s) : Keeps s₀ (State.ssGo s) := by
  simp only [State.ssGo]
  refine Keeps.ite h ?_
  cases s.class32 (s.get PINENG.SS_AT_AT) with
  | none => exact h.set _ _
  | some t => exact Keeps.ite (h.set _ _) ((h.set _ _).fields rfl rfl rfl rfl rfl)

theorem keeps_ssCancel {s₀ s : State} (h : Keeps s₀ s) : Keeps s₀ (State.ssCancel s) := by
  unfold State.ssCancel
  repeat' with_reducible first | exact h | apply Keeps.set | apply Keeps.ite

theorem keeps_execSsGo {s₀ s : State} (h : Keeps s₀ s) (v : Word) : KeepsAns s₀ (execSsGo v s) := by
  unfold execSsGo
  repeat' with_reducible first
    | exact h | assumption | intro _ | apply keeps_ssCancel | apply keeps_ssGo | apply keeps_busDo | apply keeps_writeFields
    | apply Keeps.ite

theorem keeps_execSsCancel {s₀ s : State} (h : Keeps s₀ s) : KeepsAns s₀ (execSsCancel s) := by
  unfold execSsCancel
  repeat' with_reducible first | exact h | assumption | apply keeps_ssCancel | apply keeps_busDo

theorem keeps_ssEngine {s₀ s : State} (h : Keeps s₀ s) (n : Fin 10) : Keeps s₀ (State.ssEngine s n) := by
  unfold State.ssEngine
  repeat' with_reducible first
    | exact h | apply keeps_peBegin | apply keeps_setBit | apply keeps_peDone | apply keeps_byDone | apply keeps_setBase
    | apply keeps_eng | apply keeps_peStart | apply Keeps.ite

theorem keeps_execSyncStartInstant {s₀ s : State} (h : Keeps s₀ s) : KeepsAns s₀ (execSyncStartInstant s) := by
  unfold execSyncStartInstant
  repeat' with_reducible first
    | exact h | assumption | intro _ | apply KeepsAns.next | apply KeepsAns.ite | apply keeps_forLanes | apply Keeps.set
    | apply keeps_ssEngine | apply Keeps.ite

theorem keeps_setTarget {s₀ s : State} (h : Keeps s₀ s) : Keeps s₀ (State.setTarget s) := by
  unfold State.setTarget
  repeat' with_reducible first | exact h | apply Keeps.set

theorem keeps_goCold {s₀ s : State} (h : Keeps s₀ s) : Keeps s₀ (State.goCold s) := by
  unfold State.goCold
  repeat' with_reducible first
    | exact h | apply Keeps.set | apply keeps_coldReset | fail_if_no_progress refine Keeps.fields ?_ rfl rfl rfl rfl rfl

theorem keeps_keepVoc {s₀ s : State} (h : Keeps s₀ s) (old : State) : Keeps s₀ (State.keepVoc s old) := by
  unfold State.keepVoc
  repeat' with_reducible first | exact h | apply Keeps.set | fail_if_no_progress refine Keeps.fields ?_ rfl rfl rfl rfl rfl

theorem keeps_startSample {s₀ s : State} (h : Keeps s₀ s) : Keeps s₀ (State.startSample s) := by
  unfold State.startSample
  exact (h.set _ _).fields rfl rfl rfl rfl rfl

theorem keeps_execVocSampleStart {s₀ s : State} (h : Keeps s₀ s) : KeepsAns s₀ (execVocSampleStart s) := by
  unfold execVocSampleStart
  repeat' with_reducible first
    | exact h | apply KeepsAns.next | apply KeepsAns.ite | apply Keeps.set
    | apply keeps_startSample

theorem keeps_execVocSampleEnd {s₀ s : State} (h : Keeps s₀ s) (pvMv : BitVec 12) : KeepsAns s₀ (execVocSampleEnd pvMv s) := by
  unfold execVocSampleEnd
  repeat' with_reducible first
    | exact h | apply KeepsAns.next | apply KeepsAns.ite | apply keeps_setTarget | apply Keeps.set
    | fail_if_no_progress refine Keeps.fields ?_ rfl rfl rfl rfl rfl

theorem keeps_execHarvestSampleCmd {s₀ s : State} (h : Keeps s₀ s) : KeepsAns s₀ (execHarvestSampleCmd s) := by
  unfold execHarvestSampleCmd
  repeat' with_reducible first
    | exact h | assumption | intro _ | apply Keeps.set | apply keeps_busDo | apply Keeps.ite
    | apply keeps_startSample

theorem keeps_execFracWrite {s₀ s : State} (h : Keeps s₀ s) (v : Word) : KeepsAns s₀ (execFracWrite v s) := by
  unfold execFracWrite
  repeat' with_reducible first
    | exact h | assumption | intro _ | apply keeps_setTarget | apply keeps_busDo | apply keeps_writeFields | apply Keeps.ite

theorem keeps_warn {s₀ s : State} (h : Keeps s₀ s) (bat : Nat) : Keeps s₀ (State.warn s bat) := by
  unfold State.warn
  repeat' with_reducible first | exact h | apply Keeps.set | apply keeps_wakeSrc | apply Keeps.ite

theorem keeps_chargeNow {s₀ s : State} (h : Keeps s₀ s) (bat : Nat) : Keeps s₀ (State.chargeNow s bat) := by
  unfold State.chargeNow
  repeat' with_reducible first | exact h | apply Keeps.set | apply Keeps.ite

theorem keeps_coldCell {s₀ s : State} (h : Keeps s₀ s) (vstore : Nat) : Keeps s₀ (State.coldCell s vstore) := by
  unfold State.coldCell
  repeat' with_reducible first | exact h | apply Keeps.set | apply Keeps.ite

theorem keeps_execBatComparison {s₀ s : State} (h : Keeps s₀ s) (batMv : BitVec 12) (vstoreMv : BitVec 12) :
    KeepsAns s₀ (execBatComparison batMv vstoreMv s) := by
  unfold execBatComparison
  repeat' with_reducible first
    | exact h | apply KeepsAns.next | apply KeepsAns.ite | apply keeps_warn | apply keeps_chargeNow | apply Keeps.set
    | apply keeps_goCold | apply keeps_coldCell | apply Keeps.ite
    | fail_if_no_progress refine Keeps.fields ?_ rfl rfl rfl rfl rfl

theorem keeps_execNtcMeasure {s₀ s : State} (h : Keeps s₀ s) (r : Byte) : KeepsAns s₀ (execNtcMeasure r s) := by
  unfold execNtcMeasure
  repeat' with_reducible first | exact h | apply KeepsAns.next | apply KeepsAns.ite | apply keeps_setF | apply Keeps.set

theorem keeps_execCellShortCircuit {s₀ s : State} (h : Keeps s₀ s) : KeepsAns s₀ (execCellShortCircuit s) := by
  unfold execCellShortCircuit
  repeat' with_reducible first
    | exact h | apply KeepsAns.next | apply KeepsAns.ite | apply Keeps.set | apply keeps_goCold | apply keeps_count
    | apply Keeps.ite | fail_if_no_progress refine Keeps.fields ?_ rfl rfl rfl rfl rfl

theorem keeps_execScRecovery {s₀ s : State} (h : Keeps s₀ s) : KeepsAns s₀ (execScRecovery s) := by
  unfold execScRecovery
  repeat' with_reducible first
    | exact h | apply KeepsAns.next | apply KeepsAns.ite | apply Keeps.set
    | fail_if_no_progress refine Keeps.fields ?_ rfl rfl rfl rfl rfl

theorem keeps_endScLatch {s₀ s : State} (h : Keeps s₀ s) : Keeps s₀ (State.endScLatch s) := by
  unfold State.endScLatch
  repeat' with_reducible first
    | exact h | apply Keeps.set | apply Keeps.ite | fail_if_no_progress refine Keeps.fields ?_ rfl rfl rfl rfl rfl

theorem keeps_execStarterHandover {s₀ s : State} (h : Keeps s₀ s) : KeepsAns s₀ (execStarterHandover s) := by
  unfold execStarterHandover
  repeat' with_reducible first
    | exact h | apply KeepsAns.next | apply KeepsAns.ite | apply Keeps.set
    | fail_if_no_progress refine Keeps.fields ?_ rfl rfl rfl rfl rfl
    | apply keeps_startSample

theorem keeps_execBoostDropout {s₀ s : State} (h : Keeps s₀ s) : KeepsAns s₀ (execBoostDropout s) := by
  unfold execBoostDropout
  repeat' with_reducible first
    | exact h | apply KeepsAns.next | apply KeepsAns.ite | apply Keeps.set
    | fail_if_no_progress refine Keeps.fields ?_ rfl rfl rfl rfl rfl

theorem keeps_execColdStartResetRelease {s₀ s : State} (h : Keeps s₀ s) : KeepsAns s₀ (execColdStartResetRelease s) := by
  unfold execColdStartResetRelease
  repeat' with_reducible first
    | exact h | apply KeepsAns.next | apply KeepsAns.ite | apply keeps_keepVoc | apply Keeps.set | apply keeps_coldReset
    | fail_if_no_progress refine Keeps.fields ?_ rfl rfl rfl rfl rfl

theorem keeps_execColdStartPorReassert {s₀ s : State} (h : Keeps s₀ s) : KeepsAns s₀ (execColdStartPorReassert s) := by
  unfold execColdStartPorReassert
  repeat' with_reducible first
    | exact h | apply KeepsAns.next | apply KeepsAns.ite | apply keeps_keepVoc | apply keeps_goCold
    | fail_if_no_progress refine Keeps.fields ?_ rfl rfl rfl rfl rfl

theorem keeps_coldMain {s₀ s : State} (h : Keeps s₀ s) : Keeps s₀ (State.coldMain s) := by
  unfold State.coldMain
  repeat' with_reducible first
    | exact h | apply keeps_startMain | apply keeps_showMode | fail_if_no_progress refine Keeps.fields ?_ rfl rfl rfl rfl rfl

theorem keeps_execCellConnect {s₀ s : State} (h : Keeps s₀ s) : KeepsAns s₀ (execCellConnect s) := by
  unfold execCellConnect
  repeat' with_reducible first
    | exact h | apply KeepsAns.next | apply KeepsAns.ite | apply Keeps.set | apply keeps_coldMain | apply Keeps.ite

end Sys2Proof.Machine
end

