-- ==== Sys2Proof/Laws/KeepsBus.lean ====
section
/-!
SUPPORT. Canonical form, the queue and OTP are kept (Sys2Proof/Laws/Keeps.lean) by the bus, Cricket, the dictionary, power, the service wire and the tick.
-/
namespace Sys2Proof.Machine

theorem keeps_plainWrite {s₀ s : State} (h : Keeps s₀ s) (b : Block) (a : Nat) (v : Nat) :
    Keeps s₀ (State.plainWrite s b a v) := by
  unfold State.plainWrite
  repeat' with_reducible first | exact h | apply keeps_report | apply keeps_writeFields | apply Keeps.ite

theorem keeps_writeUart {s₀ s : State} (h : Keeps s₀ s) (n : Fin 2) (a : Nat) (v : Nat) : Keeps s₀ (State.writeUart s n a v) := by
  unfold State.writeUart
  repeat' with_reducible first
    | exact h | apply keeps_showRx | apply Keeps.set | apply keeps_plainWrite | apply keeps_uartLoad | apply keeps_showTxNow
    | apply keeps_writeFields | apply Keeps.ite | fail_if_no_progress refine Keeps.fields ?_ rfl rfl rfl rfl rfl

theorem keeps_writePineng {s₀ s : State} (h : Keeps s₀ s) (a : Nat) (v : Nat) : Keeps s₀ (State.writePineng s a v) := by
  unfold State.writePineng
  repeat' with_reducible first
    | exact h | fail_if_no_progress extract_lets | apply keeps_showConflict | apply Keeps.set | apply keeps_plainWrite
    | apply keeps_peCtrl | split

theorem keeps_writeMtime {s₀ s : State} (h : Keeps s₀ s) (a : Nat) (v : Nat) : Keeps s₀ (State.writeMtime s a v) := by
  unfold State.writeMtime
  repeat' with_reducible first
    | exact h | apply keeps_setI | apply keeps_plainWrite | apply keeps_showDelay | apply Keeps.ite
    | fail_if_no_progress refine Keeps.fields ?_ rfl rfl rfl rfl rfl

theorem keeps_writeTouch {s₀ s : State} (h : Keeps s₀ s) (m : Master) (a : Nat) (v : Nat) :
    Keeps s₀ (State.writeTouch s m a v) := by
  unfold State.writeTouch
  repeat' with_reducible first
    | exact h | apply keeps_showClocks | apply keeps_touchSetting | apply keeps_plainWrite | apply Keeps.ite

theorem keeps_writeVaultctl {s₀ s : State} (h : Keeps s₀ s) (a : Nat) (v : Nat) : Keeps s₀ (State.writeVaultctl s a v) := by
  unfold State.writeVaultctl
  repeat' with_reducible first | exact h | apply keeps_plainWrite | apply keeps_writeFields | apply Keeps.ite

theorem keeps_writeRecstore {s₀ s : State} (h : Keeps s₀ s) (m : Master) (a : Nat) (v : Nat) :
    Keeps s₀ (State.writeRecstore s m a v) := by
  unfold State.writeRecstore
  repeat' with_reducible first | exact h | apply keeps_pokeWord | apply keeps_plainWrite | apply Keeps.ite

theorem keeps_writeLinkq {s₀ s : State} (h : Keeps s₀ s) (a : Nat) (v : Nat) : Keeps s₀ (State.writeLinkq s a v) := by
  unfold State.writeLinkq
  repeat' with_reducible first | exact h | apply Keeps.set | apply keeps_plainWrite | apply Keeps.ite

theorem keeps_writeMbox {s₀ s : State} (h : Keeps s₀ s) (a : Nat) (v : Nat) : Keeps s₀ (State.writeMbox s a v) := by
  unfold State.writeMbox
  repeat' with_reducible first
    | exact h | apply Keeps.set | apply keeps_plainWrite | apply Keeps.ite
    | fail_if_no_progress refine Keeps.fields ?_ rfl rfl rfl rfl rfl

theorem keeps_writeHarvest {s₀ s : State} (h : Keeps s₀ s) (a : Nat) (v : Nat) : Keeps s₀ (State.writeHarvest s a v) := by
  unfold State.writeHarvest
  repeat' with_reducible first | exact h | apply Keeps.set | apply keeps_plainWrite | apply Keeps.ite

theorem keeps_blockWrite {s₀ s : State} (h : Keeps s₀ s) (m : Master) (mach : Bool) (b : Block) (a : Nat) (v : Nat) :
    Keeps s₀ (State.blockWrite s m mach b a v) := by
  unfold State.blockWrite
  repeat' with_reducible first
    | exact h | apply keeps_setBypass | apply keeps_writeVaultctl | apply keeps_noteAlarm | apply keeps_writeEvEn
    | apply keeps_pokeWord | apply keeps_writeMtime | apply keeps_writeSlotEn | apply keeps_writeMbox | apply keeps_writeUart
    | apply keeps_writeDiscEn | apply keeps_writeTouch | apply keeps_plainWrite | apply keeps_writePineng | apply keeps_losePort
    | apply keeps_writeLinkq | apply keeps_writeEvStat | apply keeps_writeHarvest | apply keeps_writeRecstore | apply Keeps.ite
    | split

theorem keeps_execRegisterWrite {s₀ s : State} (h : Keeps s₀ s) (m : Master) (mach : Bool) (sz : Size) (a : Nat) (v : Word) :
    KeepsAns s₀ (execRegisterWrite m mach sz a v s) := by
  unfold execRegisterWrite
  repeat' with_reducible first
    | exact h | assumption | intro _ | apply KeepsAns.next | apply keeps_execProgramStoreWrite
    | apply keeps_execLaneRegisterWrite | apply keeps_busDo | apply keeps_violation | apply keeps_blockWrite
    | fail_if_no_progress refine Keeps.fields ?_ rfl rfl rfl rfl rfl | split

theorem keeps_eccSingle {s₀ s : State} (h : Keeps s₀ s) (k : MemKind) : Keeps s₀ (State.eccSingle s k) := by
  unfold State.eccSingle
  repeat' with_reducible first | exact h | apply keeps_sramSingle | apply Keeps.set | apply keeps_count | apply Keeps.ite

theorem keeps_eccDouble {s₀ s : State} (h : Keeps s₀ s) (k : MemKind) (a : Nat) : Keeps s₀ (State.eccDouble s k a) := by
  unfold State.eccDouble
  repeat' with_reducible first
    | exact h | apply Keeps.set | apply keeps_report | apply keeps_sramDouble | apply keeps_count | apply Keeps.ite
    | fail_if_no_progress refine Keeps.fields ?_ rfl rfl rfl rfl rfl

theorem keeps_schedWrite {s₀ s : State} (h : Keeps s₀ s) (a : Nat) : KeepsOpt s₀ (State.schedWrite s a) := by
  unfold State.schedWrite
  repeat' with_reducible first
    | exact h | fail_if_no_progress extract_lets | apply KeepsOpt.some | apply KeepsOpt.none | apply keeps_setBack | split

theorem keeps_memWrite {s₀ s : State} (h : Keeps s₀ s) (k : MemKind) (sz : Size) (a : Nat) (v : Nat) (e : Ecc) :
    Keeps s₀ (State.memWrite s k sz a v e) := by
  unfold State.memWrite
  repeat' with_reducible first
    | exact h | apply keeps_pokes | apply keeps_eccSingle | apply keeps_eccDouble | apply Keeps.ite
    | fail_if_no_progress refine Keeps.fields ?_ rfl rfl rfl rfl rfl

theorem keeps_memRead {s₀ s : State} (h : Keeps s₀ s) (k : MemKind) (sz : Size) (a : Nat) (e : Ecc) :
    Keeps s₀ (State.memRead s k sz a e) := by
  unfold State.memRead
  repeat' with_reducible first
    | exact h | apply keeps_eccSingle | apply keeps_eccDouble | apply Keeps.ite
    | fail_if_no_progress refine Keeps.fields ?_ rfl rfl rfl rfl rfl

theorem keeps_memWriteOr {s₀ s : State} (h : Keeps s₀ s) (o : Option State) (ho : KeepsOpt s₀ o) (k : MemKind) (sz : Size)
    (a v : Nat) (e : Ecc) : Keeps s₀ (State.memWriteOr s o k sz a v e) := by
  cases o with
  | none => exact h.upd rfl rfl rfl rfl rfl rfl rfl rfl
  | some s' => exact keeps_memWrite (ho.keeps _ rfl) _ _ _ _ _

theorem keeps_memDo {s₀ s : State} (h : Keeps s₀ s) (m : Master) (k : MemKind) (sz : Size) (a : Nat) (wr : Option Word)
    (e : Ecc) : Keeps s₀ (State.memDo s m k sz a wr e) := by
  unfold State.memDo
  refine Keeps.ite (h.upd rfl rfl rfl rfl rfl rfl rfl rfl) ?_
  cases wr with
  | none => exact keeps_memRead h _ _ _ _
  | some v =>
    cases k <;> first
      | with_reducible exact keeps_memWriteOr h _ (keeps_schedWrite h a) _ _ _ _ _
      | with_reducible exact keeps_memWrite h _ _ _ _ _
      | with_reducible exact h.upd rfl rfl rfl rfl rfl rfl rfl rfl

theorem keeps_vaultHold {s₀ s : State} (h : Keeps s₀ s) : Keeps s₀ (State.vaultHold s) := by
  unfold State.vaultHold
  repeat' with_reducible first
    | exact h | apply Keeps.set | fail_if_no_progress refine Keeps.fields ?_ rfl rfl rfl rfl rfl | split

theorem keeps_execRegisterRead {s₀ s : State} (h : Keeps s₀ s) (m : Master) (b : Block) (a : Nat) :
    KeepsAns s₀ (execRegisterRead m b a s) := by
  unfold execRegisterRead
  repeat' with_reducible first
    | exact h | apply KeepsAns.next | apply keeps_execRtcShadowRead | apply keeps_execRxfifoRead | apply keeps_execMtReadCapture
    | apply keeps_execUartRxRead | apply keeps_execCaptRead | fail_if_no_progress refine Keeps.fields ?_ rfl rfl rfl rfl rfl
    | split

theorem keeps_execMemoryAccess {s₀ s : State} (h : Keeps s₀ s) (m : Master) (mach : Bool) (sz : Size) (a : Nat)
    (wr : Option Word) (e : Ecc) (grant : Bool) : KeepsAns s₀ (execMemoryAccess m mach sz a wr e grant s) := by
  unfold execMemoryAccess
  repeat' with_reducible first
    | exact h | apply KeepsAns.next | apply keeps_execRegisterRead | apply Keeps.set | apply keeps_violation
    | apply keeps_execRegisterWrite | apply keeps_memDo | apply keeps_vaultHold
    | fail_if_no_progress refine Keeps.fields ?_ rfl rfl rfl rfl rfl | split

theorem keeps_execLivenessRecheck {s₀ s : State} (h : Keeps s₀ s) (i : Fin 64) (fails : Bool) :
    KeepsAns s₀ (execLivenessRecheck i fails s) := by
  unfold execLivenessRecheck
  repeat' with_reducible first
    | exact h | apply KeepsAns.next | apply KeepsAns.ite | apply keeps_chipReport | apply Keeps.set | apply keeps_scarabReset
    | apply Keeps.ite | fail_if_no_progress refine Keeps.fields ?_ rfl rfl rfl rfl rfl

theorem keeps_execBusTimeout {s₀ s : State} (h : Keeps s₀ s) (a : Nat) : KeepsAns s₀ (execBusTimeout a s) := by
  unfold execBusTimeout
  repeat' with_reducible first
    | exact h | apply KeepsAns.next | apply keeps_report | fail_if_no_progress refine Keeps.fields ?_ rfl rfl rfl rfl rfl
    | split

theorem keeps_execLivenessTimeout {s₀ s : State} (h : Keeps s₀ s) (i : Fin 64) : KeepsAns s₀ (execLivenessTimeout i s) := by
  unfold execLivenessTimeout
  repeat' with_reducible first | exact h | apply KeepsAns.next | apply KeepsAns.ite | apply keeps_report

theorem keeps_crkLevels {s₀ s : State} (h : Keeps s₀ s) : Keeps s₀ (State.crkLevels s) := by
  unfold State.crkLevels
  repeat' with_reducible first | exact h | apply keeps_setF

theorem keeps_execCricketRun {s₀ s : State} (h : Keeps s₀ s) : KeepsAns s₀ (execCricketRun s) := by
  unfold execCricketRun
  repeat' with_reducible first
    | exact h | assumption | intro _ | apply Keeps.set | apply keeps_busDo | apply Keeps.ite
    | fail_if_no_progress refine Keeps.fields ?_ rfl rfl rfl rfl rfl

theorem keeps_execCricketWakeIrq {s₀ s : State} (h : Keeps s₀ s) : KeepsAns s₀ (execCricketWakeIrq s) := by
  unfold execCricketWakeIrq
  repeat' with_reducible first
    | exact h | apply KeepsAns.next | apply KeepsAns.ite | apply keeps_crkLevels | apply Keeps.set

theorem keeps_adcStart {s₀ s : State} (h : Keeps s₀ s) : Keeps s₀ (State.adcStart s) := by
  unfold State.adcStart
  repeat' with_reducible first
    | exact h | apply Keeps.set | apply Keeps.ite | fail_if_no_progress refine Keeps.fields ?_ rfl rfl rfl rfl rfl

theorem keeps_execAdcStart {s₀ s : State} (h : Keeps s₀ s) (trig : AdcTrig) : KeepsAns s₀ (execAdcStart trig s) := by
  unfold execAdcStart
  repeat' with_reducible first
    | exact h | assumption | apply KeepsAns.next | apply keeps_adcStart | apply keeps_busDo | split

theorem keeps_adcResults {s₀ s : State} (h : Keeps s₀ s) (mask : Nat) (codes : List (BitVec 10)) :
    Keeps s₀ (State.adcResults s mask codes) := by
  unfold State.adcResults
  repeat' with_reducible first | exact h | assumption | intro _ | apply Keeps.set | apply Keeps.foldl

theorem keeps_execAdcSequenceDone {s₀ s : State} (h : Keeps s₀ s) (codes : List (BitVec 10)) :
    KeepsAns s₀ (execAdcSequenceDone codes s) := by
  unfold execAdcSequenceDone
  repeat' with_reducible first
    | exact h | apply KeepsAns.next | apply KeepsAns.ite | apply Keeps.set | apply keeps_adcResults

theorem keeps_execMbSend {s₀ s : State} (h : Keeps s₀ s) (m : Master) (a2c : Bool) : KeepsAns s₀ (execMbSend m a2c s) := by
  unfold execMbSend
  repeat' with_reducible first | exact h | assumption | intro _ | apply Keeps.set | apply keeps_busBy | apply Keeps.ite

theorem keeps_execMbAck {s₀ s : State} (h : Keeps s₀ s) (m : Master) (a2c : Bool) : KeepsAns s₀ (execMbAck m a2c s) := by
  unfold execMbAck
  repeat' with_reducible first | exact h | assumption | intro _ | apply Keeps.set | apply keeps_busBy | apply Keeps.ite

theorem keeps_takeReq {s₀ s : State} (h : Keeps s₀ s) (op : Nat) (m : DictMsg) : KeepsOpt s₀ (State.takeReq s op m) := by
  unfold State.takeReq
  repeat' with_reducible first
    | exact h | apply KeepsOpt.some | apply KeepsOpt.none | fail_if_no_progress refine Keeps.fields ?_ rfl rfl rfl rfl rfl
    | split

theorem keeps_holdReq {s₀ s : State} (h : Keeps s₀ s) (op : Nat) (m : DictMsg) : Keeps s₀ (State.holdReq s op m) := by
  unfold State.holdReq
  repeat' with_reducible first | exact h | apply Keeps.ite | fail_if_no_progress refine Keeps.fields ?_ rfl rfl rfl rfl rfl

theorem keeps_forward {s₀ s : State} (h : Keeps s₀ s) (op : Nat) (m : DictMsg) : Keeps s₀ (State.forward s op m) := by
  unfold State.forward
  repeat' with_reducible first
    | exact h | apply keeps_answer | apply keeps_sendNumbered | apply Keeps.ite
    | fail_if_no_progress refine Keeps.fields ?_ rfl rfl rfl rfl rfl

theorem keeps_toAll {s₀ s : State} (h : Keeps s₀ s) (op : Nat) (m : DictMsg) : Keeps s₀ (State.toAll s op m) := by
  unfold State.toAll
  repeat' with_reducible first
    | exact h | apply keeps_sendFrame | apply keeps_sendNumbered | apply Keeps.ite
    | fail_if_no_progress refine Keeps.fields ?_ rfl rfl rfl rfl rfl

theorem keeps_request {s₀ s : State} (h : Keeps s₀ s) (op : Nat) (m : DictMsg) (run : State → State)
    (h_run : ∀ t, Keeps s₀ t → Keeps s₀ (run t)) : KeepsAns s₀ (State.request op m run s) := by
  unfold State.request
  repeat' first
    | with_reducible exact h | with_reducible apply KeepsAns.next | with_reducible apply KeepsAns.ite
    | with_reducible apply keeps_answer | with_reducible apply keeps_holdReq | with_reducible apply keeps_forward
    | with_reducible apply keeps_serveBad | with_reducible apply keeps_toAll | with_reducible apply keeps_takeReq
    | with_reducible apply h_run | split | refine Keeps.ofSome (by with_reducible assumption) ?_

theorem keeps_toApp {s₀ s : State} (h : Keeps s₀ s) (op : Nat) (m : DictMsg) : Keeps s₀ (State.toApp s op m) := by
  unfold State.toApp
  repeat' with_reducible first
    | exact h | apply keeps_answer | apply keeps_pokes | apply Keeps.set | apply Keeps.ite
    | fail_if_no_progress refine Keeps.fields ?_ rfl rfl rfl rfl rfl

theorem keeps_withObject {s₀ s : State} (h : Keeps s₀ s) (op : Nat) (m : DictMsg) (run : Obj → State) (h_run : ∀ i, Keeps s₀
    (run i)) : Keeps s₀ (State.withObject s op m run) := by
  unfold State.withObject
  repeat' with_reducible first | exact h | apply keeps_answer | apply keeps_toApp | apply h_run | split

theorem keeps_dictRead {s₀ s : State} (h : Keeps s₀ s) (m : DictMsg) : Keeps s₀ (State.dictRead m s) := by
  unfold State.dictRead
  repeat' with_reducible first
    | exact h | intro _ | apply keeps_answer | apply keeps_objRead | apply keeps_withObject | apply Keeps.ite

theorem keeps_dictWrite {s₀ s : State} (h : Keeps s₀ s) (m : DictMsg) (ok : Bool) : Keeps s₀ (State.dictWrite m ok s) := by
  unfold State.dictWrite
  repeat' first
    | with_reducible exact h | intro _ | with_reducible apply keeps_answer | with_reducible apply keeps_objWrite
    | with_reducible apply keeps_withObject | with_reducible apply Keeps.ite | split
    | refine Keeps.ofSnd (by with_reducible assumption) ?_

theorem keeps_dictDescribe {s₀ s : State} (h : Keeps s₀ s) (m : DictMsg) : Keeps s₀ (State.dictDescribe m s) := by
  unfold State.dictDescribe
  repeat' with_reducible first | exact h | intro _ | apply keeps_answer | apply keeps_withObject

theorem keeps_execRead {s₀ s : State} (h : Keeps s₀ s) (m : DictMsg) : KeepsAns s₀ (execRead m s) := by
  unfold execRead
  repeat' with_reducible first | exact h | assumption | intro _ | apply keeps_dictRead | apply keeps_request

theorem keeps_execWrite {s₀ s : State} (h : Keeps s₀ s) (m : DictMsg) : KeepsAns s₀ (execWrite m s) := by
  unfold execWrite
  repeat' with_reducible first | exact h | assumption | intro _ | apply keeps_dictWrite | apply keeps_request

theorem keeps_execDescribe {s₀ s : State} (h : Keeps s₀ s) (m : DictMsg) : KeepsAns s₀ (execDescribe m s) := by
  unfold execDescribe
  repeat' with_reducible first | exact h | assumption | intro _ | apply keeps_request | apply keeps_dictDescribe

theorem keeps_withWs {s₀ s : State} (h : Keeps s₀ s) (op : Nat) (m : DictMsg) (run : Fin 4 → State) (h_run : ∀ i, Keeps s₀
    (run i)) : Keeps s₀ (State.withWs s op m run) := by
  unfold State.withWs
  repeat' with_reducible first | exact h | apply keeps_answer | apply h_run | split

theorem keeps_dictStage {s₀ s : State} (h : Keeps s₀ s) (m : DictMsg) : Keeps s₀ (State.dictStage m s) := by
  unfold State.dictStage
  repeat' with_reducible first
    | exact h | intro _ | apply keeps_answer | apply keeps_setWs | apply keeps_withWs | apply Keeps.ite | split

theorem keeps_failWs {s₀ s : State} (h : Keeps s₀ s) (w : Fin 4) (outcome : Nat) : Keeps s₀ (State.failWs s w outcome) := by
  unfold State.failWs
  repeat' with_reducible first | exact h | apply keeps_setBit | apply keeps_setWs

theorem keeps_dictCommit {s₀ s : State} (h : Keeps s₀ s) (m : DictMsg) : Keeps s₀ (State.dictCommit m s) := by
  refine keeps_withWs h _ _ _ fun i => ?_
  extract_lets x
  generalize State.stamp40 s _ = p
  obtain ⟨full, past⟩ := p
  repeat' with_reducible first
    | exact h | apply keeps_answer | apply keeps_failWs | apply keeps_setWs | apply keeps_count | apply keeps_withWs
    | apply Keeps.ite

theorem keeps_dictDiscard {s₀ s : State} (h : Keeps s₀ s) (m : DictMsg) : Keeps s₀ (State.dictDiscard m s) := by
  unfold State.dictDiscard
  repeat' with_reducible first
    | exact h | intro _ | apply keeps_answer | apply keeps_setWs | apply keeps_emptyWs | apply keeps_withWs | apply Keeps.ite

theorem keeps_execStage {s₀ s : State} (h : Keeps s₀ s) (m : DictMsg) : KeepsAns s₀ (execStage m s) := by
  unfold execStage
  repeat' with_reducible first | exact h | assumption | intro _ | apply keeps_request | apply keeps_dictStage

theorem keeps_execCommit {s₀ s : State} (h : Keeps s₀ s) (m : DictMsg) : KeepsAns s₀ (execCommit m s) := by
  unfold execCommit
  repeat' with_reducible first | exact h | assumption | intro _ | apply keeps_dictCommit | apply keeps_request

theorem keeps_execDiscard {s₀ s : State} (h : Keeps s₀ s) (m : DictMsg) : KeepsAns s₀ (execDiscard m s) := by
  unfold execDiscard
  repeat' with_reducible first | exact h | assumption | intro _ | apply keeps_dictDiscard | apply keeps_request

theorem keeps_applyWs {s₀ s : State} (h : Keeps s₀ s) (w : Fin 4) : Keeps s₀ (State.applyWs s w) := by
  unfold State.applyWs
  repeat' with_reducible first
    | exact h | assumption | intro _ | apply keeps_setBit | apply keeps_failWs | apply keeps_setObj | apply keeps_setWs
    | apply Keeps.ite | apply Keeps.foldl | split

theorem keeps_execWriteSetApply {s₀ s : State} (h : Keeps s₀ s) (w : Fin 4) : KeepsAns s₀ (execWriteSetApply w s) := by
  unfold execWriteSetApply
  repeat' with_reducible first
    | exact h | assumption | intro _ | apply KeepsAns.next | apply KeepsAns.ite | apply keeps_applyWs | apply Keeps.foldl

theorem keeps_dictSnap {s₀ s : State} (h : Keeps s₀ s) (m : DictMsg) : Keeps s₀ (State.dictSnap m s) := by
  unfold State.dictSnap
  repeat' with_reducible first
    | exact h | apply keeps_answer | apply keeps_setSnap | apply keeps_count | apply Keeps.ite
    | fail_if_no_progress refine Keeps.fields ?_ rfl rfl rfl rfl rfl

theorem keeps_execSnap {s₀ s : State} (h : Keeps s₀ s) (m : DictMsg) : KeepsAns s₀ (execSnap m s) := by
  unfold execSnap
  repeat' with_reducible first | exact h | assumption | intro _ | apply keeps_request | apply keeps_dictSnap

theorem keeps_captureSnap {s₀ s : State} (h : Keeps s₀ s) : Keeps s₀ (State.captureSnap s) := by
  unfold State.captureSnap
  repeat' with_reducible first
    | exact h | apply Keeps.set | apply keeps_setSnap | apply Keeps.ite
    | fail_if_no_progress refine Keeps.fields ?_ rfl rfl rfl rfl rfl

theorem keeps_execSnapshotCapture {s₀ s : State} (h : Keeps s₀ s) : KeepsAns s₀ (execSnapshotCapture s) := by
  unfold execSnapshotCapture
  repeat' with_reducible first | exact h | apply KeepsAns.next | apply keeps_captureSnap

theorem keeps_tickDue {s₀ s : State} (h : Keeps s₀ s) : Keeps s₀ (State.tickDue s) := by
  unfold State.tickDue
  repeat' with_reducible first
    | exact h | assumption | intro _ | apply keeps_captureSnap | apply keeps_forLanes | apply keeps_switchAt
    | apply keeps_applyWs | apply Keeps.ite | apply Keeps.foldl

theorem keeps_execCollectionWindowEnd {s₀ s : State} (h : Keeps s₀ s) : KeepsAns s₀ (execCollectionWindowEnd s) := by
  unfold execCollectionWindowEnd
  repeat' with_reducible first
    | exact h | apply KeepsAns.next | apply KeepsAns.ite | apply keeps_snapIncomplete | apply keeps_snapFinish
    | apply keeps_snapPhase | apply Keeps.ite

theorem keeps_dictRecollect {s₀ s : State} (h : Keeps s₀ s) (m : DictMsg) : Keeps s₀ (State.dictRecollect m s) := by
  unfold State.dictRecollect
  repeat' with_reducible first
    | exact h | apply keeps_answer | apply Keeps.ite | fail_if_no_progress refine Keeps.fields ?_ rfl rfl rfl rfl rfl

theorem keeps_execRecollect {s₀ s : State} (h : Keeps s₀ s) (m : DictMsg) : KeepsAns s₀ (execRecollect m s) := by
  unfold execRecollect
  repeat' with_reducible first | exact h | assumption | intro _ | apply keeps_request | apply keeps_dictRecollect

theorem keeps_dictBarrier {s₀ s : State} (h : Keeps s₀ s) (m : DictMsg) : Keeps s₀ (State.dictBarrier m s) := by
  unfold State.dictBarrier
  repeat' with_reducible first
    | exact h | apply keeps_answer | apply Keeps.ite | fail_if_no_progress refine Keeps.fields ?_ rfl rfl rfl rfl rfl

theorem keeps_execBarrier {s₀ s : State} (h : Keeps s₀ s) (m : DictMsg) : KeepsAns s₀ (execBarrier m s) := by
  unfold execBarrier
  repeat' with_reducible first
    | exact h | assumption | intro _ | apply KeepsAns.next | apply KeepsAns.ite | apply keeps_holdReq | apply keeps_dictBarrier
    | apply keeps_request

theorem keeps_execPublish {s₀ s : State} (h : Keeps s₀ s) (src : BitVec 7) (index : BitVec 16) (sub : Byte) (value : List Byte) :
    KeepsAns s₀ (execPublish src index sub value s) := by
  unfold execPublish
  repeat' with_reducible first | exact h | apply KeepsAns.next | apply KeepsAns.ite | apply keeps_publishObj

theorem keeps_execRequestForwardTimeout {s₀ s : State} (h : Keeps s₀ s) : KeepsAns s₀ (execRequestForwardTimeout s) := by
  unfold execRequestForwardTimeout
  repeat' with_reducible first
    | exact h | apply KeepsAns.next | apply keeps_endReq | fail_if_no_progress refine Keeps.fields ?_ rfl rfl rfl rfl rfl
    | split

theorem keeps_endApp {s₀ s : State} (h : Keeps s₀ s) (r : HeldReq) (status : Nat) (d : List Byte) :
    Keeps s₀ (State.endApp s r status d) := by
  unfold State.endApp
  repeat' with_reducible first
    | exact h | apply keeps_answer | apply Keeps.set | fail_if_no_progress refine Keeps.fields ?_ rfl rfl rfl rfl rfl

theorem keeps_execAppResponse {s₀ s : State} (h : Keeps s₀ s) (v : Word) : KeepsAns s₀ (execAppResponse v s) := by
  unfold execAppResponse
  repeat' with_reducible first
    | exact h | assumption | intro _ | fail_if_no_progress extract_lets | apply keeps_busDo | apply keeps_endApp
    | apply keeps_writeFields | split

theorem keeps_execAppTimeout {s₀ s : State} (h : Keeps s₀ s) : KeepsAns s₀ (execAppTimeout s) := by
  unfold execAppTimeout
  repeat' with_reducible first | exact h | apply KeepsAns.next | apply keeps_endApp | apply keeps_count | split

theorem keeps_execLocGo {s₀ s : State} (h : Keeps s₀ s) : KeepsAns s₀ (execLocGo s) := by
  unfold execLocGo
  repeat' with_reducible first
    | exact h | assumption | intro _ | apply keeps_locRead | apply Keeps.set | apply keeps_busDo | apply Keeps.ite
    | fail_if_no_progress refine Keeps.fields ?_ rfl rfl rfl rfl rfl

theorem keeps_execDictengVaultTimeout {s₀ s : State} (h : Keeps s₀ s) : KeepsAns s₀ (execDictengVaultTimeout s) := by
  unfold execDictengVaultTimeout
  repeat' with_reducible first
    | exact h | apply KeepsAns.next | apply keeps_answer | apply Keeps.set
    | fail_if_no_progress refine Keeps.fields ?_ rfl rfl rfl rfl rfl | split

theorem keeps_writeObj {s₀ s : State} (h : Keeps s₀ s) (via : Via) (tid : Byte) (index : BitVec 16) (sub : Byte)
    (d : List Byte) (ok : Bool) : KeepsAns s₀ (State.writeObj s via tid index sub d ok) := by
  unfold State.writeObj
  repeat' with_reducible first | exact h | assumption | intro _ | apply keeps_dictWrite | apply keeps_request

theorem keeps_execStorePersisted {s₀ s : State} (h : Keeps s₀ s) (via : Via) (tid : Byte) :
    KeepsAns s₀ (execStorePersisted via tid s) := by
  unfold execStorePersisted
  repeat' with_reducible first | exact h | apply keeps_writeObj

theorem keeps_execEraseStored {s₀ s : State} (h : Keeps s₀ s) (via : Via) (tid : Byte) :
    KeepsAns s₀ (execEraseStored via tid s) := by
  unfold execEraseStored
  repeat' with_reducible first | exact h | apply keeps_writeObj

theorem keeps_execNonceWrite {s₀ s : State} (h : Keeps s₀ s) (via : Via) (tid : Byte) (d : List Byte) :
    KeepsAns s₀ (execNonceWrite via tid d s) := by
  unfold execNonceWrite
  repeat' with_reducible first | exact h | apply keeps_writeObj

theorem keeps_execLifeCycleChange {s₀ s : State} (h : Keeps s₀ s) (via : Via) (tid : Byte) (d : List Byte) :
    KeepsAns s₀ (execLifeCycleChange via tid d s) := by
  unfold execLifeCycleChange
  repeat' with_reducible first | exact h | apply keeps_writeObj

theorem keeps_execOwnerKeyHashWrite {s₀ s : State} (h : Keeps s₀ s) (via : Via) (tid : Byte) (d : List Byte) :
    KeepsAns s₀ (execOwnerKeyHashWrite via tid d s) := by
  unfold execOwnerKeyHashWrite
  repeat' with_reducible first | exact h | apply keeps_writeObj

theorem keeps_execDebugUnlock {s₀ s : State} (h : Keeps s₀ s) (via : Via) (tid : Byte) (d : List Byte) :
    KeepsAns s₀ (execDebugUnlock via tid d s) := by
  unfold execDebugUnlock
  repeat' with_reducible first
    | exact h | apply KeepsAns.next | apply KeepsAns.ite | apply keeps_unlockOp | apply keeps_writeObj
    | fail_if_no_progress refine Keeps.fields ?_ rfl rfl rfl rfl rfl

theorem keeps_execLogClearLost {s₀ s : State} (h : Keeps s₀ s) (via : Via) (tid : Byte) :
    KeepsAns s₀ (execLogClearLost via tid s) := by
  unfold execLogClearLost
  repeat' with_reducible first | exact h | apply keeps_writeObj

theorem keeps_execDownloadBegin {s₀ s : State} (h : Keeps s₀ s) (via : Via) (tid : Byte) :
    KeepsAns s₀ (execDownloadBegin via tid s) := by
  unfold execDownloadBegin
  repeat' with_reducible first | exact h | apply keeps_writeObj

theorem keeps_execDownloadData {s₀ s : State} (h : Keeps s₀ s) (via : Via) (tid : Byte) (d : List Byte) (ok : Bool) :
    KeepsAns s₀ (execDownloadData via tid d ok s) := by
  unfold execDownloadData
  repeat' with_reducible first | exact h | apply keeps_writeObj

theorem keeps_execDownloadFinish {s₀ s : State} (h : Keeps s₀ s) (via : Via) (tid : Byte) :
    KeepsAns s₀ (execDownloadFinish via tid s) := by
  unfold execDownloadFinish
  repeat' with_reducible first | exact h | apply keeps_writeObj

theorem keeps_execDownloadActivate {s₀ s : State} (h : Keeps s₀ s) (via : Via) (tid : Byte) :
    KeepsAns s₀ (execDownloadActivate via tid s) := by
  unfold execDownloadActivate
  repeat' with_reducible first | exact h | apply keeps_writeObj

theorem keeps_execDownloadAbort {s₀ s : State} (h : Keeps s₀ s) (via : Via) (tid : Byte) :
    KeepsAns s₀ (execDownloadAbort via tid s) := by
  unfold execDownloadAbort
  repeat' with_reducible first | exact h | apply keeps_writeObj

theorem keeps_modeChanged {s₀ s : State} (h : Keeps s₀ s) : Keeps s₀ (State.modeChanged s) := by
  unfold State.modeChanged
  repeat' with_reducible first | exact h | apply Keeps.set | apply keeps_showMode | apply Keeps.ite

theorem keeps_noteDetach {s₀ s : State} (h : Keeps s₀ s) : Keeps s₀ (State.noteDetach s) := by
  unfold State.noteDetach
  repeat' with_reducible first | exact h | apply Keeps.set | apply keeps_count

theorem keeps_noteDock {s₀ s : State} (h : Keeps s₀ s) : Keeps s₀ (State.noteDock s) := by
  unfold State.noteDock
  repeat' with_reducible first | exact h | apply Keeps.set | apply keeps_count

theorem keeps_execVinAbsent {s₀ s : State} (h : Keeps s₀ s) : KeepsAns s₀ (execVinAbsent s) := by
  unfold execVinAbsent
  repeat' with_reducible first
    | exact h | apply KeepsAns.next | apply KeepsAns.ite | apply keeps_offLink | apply keeps_modeChanged | apply keeps_goCold
    | apply keeps_pllOff | apply keeps_showDisc | apply keeps_offLane | apply keeps_noteDetach | apply Keeps.ite

theorem keeps_execVinPresent {s₀ s : State} (h : Keeps s₀ s) : KeepsAns s₀ (execVinPresent s) := by
  unfold execVinPresent
  repeat' with_reducible first
    | exact h | apply KeepsAns.next | apply KeepsAns.ite | apply keeps_relockSys | apply keeps_endScLatch
    | apply keeps_modeChanged | apply keeps_coldReset | apply keeps_coldMain | apply keeps_noteDock | apply keeps_wakeSrc
    | apply keeps_showDisc | apply Keeps.ite | fail_if_no_progress refine Keeps.fields ?_ rfl rfl rfl rfl rfl

theorem keeps_execSysCfgWrite {s₀ s : State} (h : Keeps s₀ s) (v : Word) : KeepsAns s₀ (execSysCfgWrite v s) := by
  unfold execSysCfgWrite
  repeat' with_reducible first
    | exact h | assumption | intro _ | apply keeps_relockSys | apply keeps_setLegal | apply keeps_showClocks | apply Keeps.set
    | apply keeps_busDo | apply keeps_pllOff | apply Keeps.ite

theorem keeps_execPllLockConfirmed {s₀ s : State} (h : Keeps s₀ s) (tb : Bool) : KeepsAns s₀ (execPllLockConfirmed tb s) := by
  unfold execPllLockConfirmed
  repeat' with_reducible first
    | exact h | apply KeepsAns.next | apply KeepsAns.ite | apply keeps_showClocks | apply Keeps.set
    | fail_if_no_progress refine Keeps.fields ?_ rfl rfl rfl rfl rfl

theorem keeps_execWfiStepRequest {s₀ s : State} (h : Keeps s₀ s) : KeepsAns s₀ (execWfiStepRequest s) := by
  unfold execWfiStepRequest
  repeat' with_reducible first
    | exact h | apply KeepsAns.next | apply KeepsAns.ite | apply keeps_marchAbort | apply keeps_setStep | apply Keeps.set
    | fail_if_no_progress refine Keeps.fields ?_ rfl rfl rfl rfl rfl

theorem keeps_execScarabPrepareAck {s₀ s : State} (h : Keeps s₀ s) : KeepsAns s₀ (execScarabPrepareAck s) := by
  unfold execScarabPrepareAck
  repeat' with_reducible first
    | exact h | apply KeepsAns.next | apply keeps_flushLog | fail_if_no_progress refine Keeps.fields ?_ rfl rfl rfl rfl rfl
    | split

theorem keeps_enterStep {s₀ s : State} (h : Keeps s₀ s) (t : PStep) : Keeps s₀ (State.enterStep s t) := by
  unfold State.enterStep
  repeat' with_reducible first
    | exact h | apply keeps_ringPark | apply keeps_offLink | apply keeps_offCrk | apply keeps_showClocks | apply keeps_setStep
    | apply keeps_offMgt | apply Keeps.set | apply keeps_touchEnter | apply keeps_offLane | apply keeps_offSys
    | fail_if_no_progress refine Keeps.fields ?_ rfl rfl rfl rfl rfl | split

theorem keeps_heldWake {s₀ s : State} (h : Keeps s₀ s) (t : PStep) : Keeps s₀ (State.heldWake s t) := by
  unfold State.heldWake
  repeat' with_reducible first
    | exact h | apply Keeps.set | apply keeps_recordWake | apply Keeps.ite
    | fail_if_no_progress refine Keeps.fields ?_ rfl rfl rfl rfl rfl

theorem keeps_execStepEntryComplete {s₀ s : State} (h : Keeps s₀ s) : KeepsAns s₀ (execStepEntryComplete s) := by
  unfold execStepEntryComplete
  repeat' with_reducible first
    | exact h | apply KeepsAns.next | apply keeps_heldWake | apply keeps_enterStep
    | fail_if_no_progress refine Keeps.fields ?_ rfl rfl rfl rfl rfl | split

theorem keeps_execGoPupa {s₀ s : State} (h : Keeps s₀ s) (m : Master) : KeepsAns s₀ (execGoPupa m s) := by
  unfold execGoPupa
  repeat' with_reducible first
    | exact h | assumption | intro _ | apply keeps_busBy | apply Keeps.ite
    | fail_if_no_progress refine Keeps.fields ?_ rfl rfl rfl rfl rfl

theorem keeps_execWakeMain {s₀ s : State} (h : Keeps s₀ s) (m : Master) : KeepsAns s₀ (execWakeMain m s) := by
  unfold execWakeMain
  repeat' with_reducible first | exact h | assumption | intro _ | apply keeps_busBy | apply keeps_wakeSrc | apply Keeps.ite

theorem keeps_coreWake {s₀ s : State} (h : Keeps s₀ s) : Keeps s₀ (State.coreWake s) := by
  unfold State.coreWake
  repeat' with_reducible first
    | exact h | apply keeps_setStep | apply Keeps.set | apply Keeps.ite
    | fail_if_no_progress refine Keeps.fields ?_ rfl rfl rfl rfl rfl

theorem keeps_execWakeEvent {s₀ s : State} (h : Keeps s₀ s) (srcs : BitVec 10) : KeepsAns s₀ (execWakeEvent srcs s) := by
  unfold execWakeEvent
  repeat' with_reducible first
    | exact h | apply KeepsAns.next | apply keeps_coreWake | apply keeps_wakeSrc | apply Keeps.ite

theorem keeps_restartWdog {s₀ s : State} (h : Keeps s₀ s) : Keeps s₀ (State.restartWdog s) := by
  unfold State.restartWdog
  repeat' with_reducible first | exact h | apply Keeps.set | apply Keeps.ite

theorem keeps_exitTorpor {s₀ s : State} (h : Keeps s₀ s) : Keeps s₀ (State.exitTorpor s) := by
  unfold State.exitTorpor
  repeat' first
    | with_reducible exact h | with_reducible apply keeps_relockSys | with_reducible apply keeps_showClocks
    | with_reducible apply keeps_restoreMt | (fail_if_no_progress with_reducible refine Keeps.fields ?_ rfl rfl rfl rfl rfl)
    | split | refine Keeps.ofSome (by with_reducible assumption) ?_ | (with_reducible conv => arg 2; whnf)

theorem keeps_exitDeep {s₀ s : State} (h : Keeps s₀ s) : Keeps s₀ (State.exitDeep s) := by
  unfold State.exitDeep
  repeat' with_reducible first
    | exact h | apply keeps_relockSys | apply keeps_startPersisted | apply keeps_startWdog | apply keeps_showBoot
    | apply keeps_showClocks | apply keeps_showMode | apply keeps_measureExit | apply Keeps.ite
    | fail_if_no_progress refine Keeps.fields ?_ rfl rfl rfl rfl rfl

theorem keeps_exitRest {s₀ s : State} (h : Keeps s₀ s) : Keeps s₀ (State.exitRest s) := by
  unfold State.exitRest
  repeat' with_reducible first | exact h | apply keeps_relockSys | apply Keeps.ite

theorem keeps_execStepExitComplete {s₀ s : State} (h : Keeps s₀ s) : KeepsAns s₀ (execStepExitComplete s) := by
  unfold execStepExitComplete
  repeat' first
    | with_reducible exact h | with_reducible apply KeepsAns.next | with_reducible apply keeps_exitTorpor
    | with_reducible apply keeps_tamperReport | with_reducible apply keeps_restartWdog | with_reducible apply keeps_showClocks
    | with_reducible apply keeps_setStep | with_reducible apply keeps_touchExit | with_reducible apply Keeps.set
    | with_reducible apply keeps_ringUnpark | with_reducible apply keeps_exitRest | with_reducible apply keeps_exitDeep
    | (fail_if_no_progress with_reducible refine Keeps.fields ?_ rfl rfl rfl rfl rfl) | split
    | refine Keeps.ofSome (by with_reducible assumption) ?_

theorem keeps_execCoreBrownOut {s₀ s : State} (h : Keeps s₀ s) : KeepsAns s₀ (execCoreBrownOut s) := by
  unfold execCoreBrownOut
  repeat' with_reducible first
    | exact h | apply KeepsAns.next | apply KeepsAns.ite | apply keeps_showClocks | apply keeps_touchExit | apply Keeps.set
    | apply keeps_powerCycleMain | apply keeps_count | apply Keeps.ite

theorem keeps_execSvcAddressMatch {s₀ s : State} (h : Keeps s₀ s) (addr : BitVec 7) (rd : Bool) :
    KeepsAns s₀ (execSvcAddressMatch addr rd s) := by
  unfold execSvcAddressMatch
  repeat' with_reducible first
    | exact h | apply KeepsAns.next | apply KeepsAns.ite | apply keeps_wakeSrc | apply keeps_emit
    | fail_if_no_progress refine Keeps.fields ?_ rfl rfl rfl rfl rfl

theorem keeps_putRxBuf {s₀ s : State} (h : Keeps s₀ s) (m : List Byte) : Keeps s₀ (State.putRxBuf s m) := by
  unfold State.putRxBuf
  repeat' with_reducible first | exact h | apply keeps_pokes | apply Keeps.set

theorem keeps_dropResp {s₀ s : State} (h : Keeps s₀ s) : Keeps s₀ (State.dropResp s) := by
  unfold State.dropResp
  repeat' with_reducible first
    | exact h | apply Keeps.set | apply Keeps.ite | fail_if_no_progress refine Keeps.fields ?_ rfl rfl rfl rfl rfl

theorem keeps_svcRequest {s₀ s : State} (h : Keeps s₀ s) (m : List Byte) : Keeps s₀ (State.svcRequest s m) := by
  unfold State.svcRequest
  repeat' with_reducible first
    | exact h | apply keeps_dropResp | apply Keeps.set | apply keeps_acceptReq | apply keeps_putRxBuf | apply Keeps.ite

theorem keeps_svcEnvErr {s₀ s : State} (h : Keeps s₀ s) : Keeps s₀ (State.svcEnvErr s) := by
  unfold State.svcEnvErr
  repeat' with_reducible first
    | exact h | apply Keeps.set | apply keeps_count | fail_if_no_progress refine Keeps.fields ?_ rfl rfl rfl rfl rfl

theorem keeps_svcStop {s₀ s : State} (h : Keeps s₀ s) : Keeps s₀ (State.svcStop s) := by
  unfold State.svcStop
  repeat' with_reducible first | exact h | fail_if_no_progress refine Keeps.fields ?_ rfl rfl rfl rfl rfl

theorem keeps_execSvcWriteTransaction {s₀ s : State} (h : Keeps s₀ s) (d : List Byte) :
    KeepsAns s₀ (execSvcWriteTransaction d s) := by
  unfold execSvcWriteTransaction
  repeat' with_reducible first
    | exact h | apply KeepsAns.next | apply keeps_svcStop | apply Keeps.set | apply keeps_svcEnvErr | apply keeps_svcRequest
    | apply keeps_emit | split

theorem keeps_execSvcReadTransaction {s₀ s : State} (h : Keeps s₀ s) (n : Nat) : KeepsAns s₀ (execSvcReadTransaction n s) := by
  unfold execSvcReadTransaction
  repeat' with_reducible first
    | exact h | apply KeepsAns.next | apply KeepsAns.ite | apply keeps_svcStop | apply Keeps.set | apply keeps_emit
    | fail_if_no_progress refine Keeps.fields ?_ rfl rfl rfl rfl rfl | split

theorem keeps_execSvcStretchTimeout {s₀ s : State} (h : Keeps s₀ s) : KeepsAns s₀ (execSvcStretchTimeout s) := by
  unfold execSvcStretchTimeout
  repeat' with_reducible first
    | exact h | apply KeepsAns.next | apply KeepsAns.ite | apply Keeps.set
    | fail_if_no_progress refine Keeps.fields ?_ rfl rfl rfl rfl rfl

theorem keeps_execSvcRespGo {s₀ s : State} (h : Keeps s₀ s) (v : Word) : KeepsAns s₀ (execSvcRespGo v s) := by
  unfold execSvcRespGo
  repeat' with_reducible first
    | exact h | assumption | intro _ | apply Keeps.set | apply keeps_busDo | apply keeps_sendBack | apply Keeps.ite

theorem keeps_newClock {s₀ s : State} (h : Keeps s₀ s) : Keeps s₀ (State.newClock s) := by
  unfold State.newClock
  repeat' with_reducible first | exact h | fail_if_no_progress refine Keeps.fields ?_ rfl rfl rfl rfl rfl

theorem keeps_endSlowClock {s₀ s : State} (h : Keeps s₀ s) : Keeps s₀ (State.endSlowClock s) := by
  unfold State.endSlowClock
  repeat' with_reducible first | exact h | fail_if_no_progress refine Keeps.fields ?_ rfl rfl rfl rfl rfl

theorem keeps_noteEdge {s₀ s : State} (h : Keeps s₀ s) : Keeps s₀ (State.noteEdge s) := by
  unfold State.noteEdge
  repeat' with_reducible first | exact h | fail_if_no_progress refine Keeps.fields ?_ rfl rfl rfl rfl rfl

theorem keeps_tickRegion {s₀ s : State} (h : Keeps s₀ s) : Keeps s₀ (State.tickRegion s) := by
  unfold State.tickRegion
  repeat' with_reducible first
    | exact h | apply keeps_tickLanes | apply keeps_tickFrames | apply keeps_tickEngines | apply keeps_holdFrames
    | apply Keeps.ite

theorem keeps_tickCricket {s₀ s : State} (h : Keeps s₀ s) : Keeps s₀ (State.tickCricket s) := by
  unfold State.tickCricket
  repeat' with_reducible first | exact h | apply Keeps.put | apply Keeps.ite

theorem keeps_tickDict {s₀ s : State} (h : Keeps s₀ s) : Keeps s₀ (State.tickDict s) := by
  unfold State.tickDict
  repeat' with_reducible first | exact h | apply keeps_serveBad | apply Keeps.ite

theorem keeps_idleTick {s₀ s : State} (h : Keeps s₀ s) : Keeps s₀ (State.idleTick s) := by
  unfold State.idleTick
  repeat' with_reducible first
    | exact h | apply keeps_noteEdge | apply keeps_tickDue | apply keeps_tickRegion | apply keeps_tickSlow
    | apply keeps_newClock | apply keeps_noteWaits | apply keeps_tickDict | apply keeps_endSlowClock | apply keeps_noteDrives
    | apply keeps_takeReports | apply keeps_tickMs | apply keeps_tickChannels | apply keeps_tickTime | apply keeps_noteChannels
    | apply keeps_tickCricket | apply Keeps.ite | fail_if_no_progress refine Keeps.fields ?_ rfl rfl rfl rfl rfl

end Sys2Proof.Machine
end

