-- ==== Sys2Proof/Laws/Loader.lean ====
section
/-!
SUPPORT. What one loader command does (R80) when no switch is due and none has landed before it in the tick.
-/
namespace Sys2Proof.Machine

theorem State.switchAt_free {s : State} {n : Fin 10} (h : s.LoaderFree n) : s.switchAt n = s := by
  have e : (s.on (SCHEDLD.L_SWSTAT_ARMED n) && s.due s.sched[n].armS && s.domOn .lane) = false := by
    rcases h.1 with h | h <;> rw [h] <;> simp
  rw [State.switchAt, e]; rfl

/-- A loader command that meets no switch and no other command of its tick has its own effect, and is recorded. -/
theorem State.loader_free {s : State} {n : Fin 10} (h : s.LoaderFree n) (c : SwCmd) (set : Bool) :
    ∃ l, s.loader n c set = (s.loaderDo n c).schedOf n fun q => { q with landed := l } := by
  have e : (s.sched[n].landed.filter fun l => l.tick == s.tick && l.after == s.swRegs n) = none := by
    cases hl : s.sched[n].landed with
    | none => rfl
    | some l => simp [Option.filter, h.2 l hl]
  exact ⟨_, by unfold State.loader; rw [State.switchAt_free h]; simp only [e]; rfl⟩

end Sys2Proof.Machine
end

