-- ==== Sys2Proof/Laws/State.lean ====
section
/-!
SUPPORT. What each plain update leaves alone: one lemma a field and update, each by rfl, so that no proof unfolds a record update.
-/
namespace Sys2Proof.Machine

variable (s : State)

/-! ### State.set -/

@[simp] theorem State.mem_set (f : RF) (v : Nat) : (s.set f v).mem = s.mem := rfl
@[simp] theorem State.tick_set (f : RF) (v : Nat) : (s.set f v).tick = s.tick := rfl
@[simp] theorem State.slow_set (f : RF) (v : Nat) : (s.set f v).slow = s.slow := rfl
@[simp] theorem State.mt_set (f : RF) (v : Nat) : (s.set f v).mt = s.mt := rfl
@[simp] theorem State.free_set (f : RF) (v : Nat) : (s.set f v).free = s.free := rfl
@[simp] theorem State.epoch_set (f : RF) (v : Nat) : (s.set f v).epoch = s.epoch := rfl
@[simp] theorem State.bus_set (f : RF) (v : Nat) : (s.set f v).bus = s.bus := rfl
@[simp] theorem State.abort_set (f : RF) (v : Nat) : (s.set f v).abort = s.abort := rfl
@[simp] theorem State.sent_set (f : RF) (v : Nat) : (s.set f v).sent = s.sent := rfl
@[simp] theorem State.balls_set (f : RF) (v : Nat) : (s.set f v).balls = s.balls := rfl
@[simp] theorem State.tm_set (f : RF) (v : Nat) : (s.set f v).tm = s.tm := rfl
@[simp] theorem State.sched_set (f : RF) (v : Nat) : (s.set f v).sched = s.sched := rfl
@[simp] theorem State.copy_set (f : RF) (v : Nat) : (s.set f v).copy = s.copy := rfl
@[simp] theorem State.lanes_set (f : RF) (v : Nat) : (s.set f v).lanes = s.lanes := rfl
@[simp] theorem State.frame_set (f : RF) (v : Nat) : (s.set f v).frame = s.frame := rfl
@[simp] theorem State.engines_set (f : RF) (v : Nat) : (s.set f v).engines = s.engines := rfl
@[simp] theorem State.ss_set (f : RF) (v : Nat) : (s.set f v).ss = s.ss := rfl
@[simp] theorem State.err_set (f : RF) (v : Nat) : (s.set f v).err = s.err := rfl
@[simp] theorem State.log_set (f : RF) (v : Nat) : (s.set f v).log = s.log := rfl
@[simp] theorem State.ev_set (f : RF) (v : Nat) : (s.set f v).ev = s.ev := rfl
@[simp] theorem State.uart0_set (f : RF) (v : Nat) : (s.set f v).uart0 = s.uart0 := rfl
@[simp] theorem State.uart1_set (f : RF) (v : Nat) : (s.set f v).uart1 = s.uart1 := rfl
@[simp] theorem State.svc_set (f : RF) (v : Nat) : (s.set f v).svc = s.svc := rfl
@[simp] theorem State.boot_set (f : RF) (v : Nat) : (s.set f v).boot = s.boot := rfl
@[simp] theorem State.dl_set (f : RF) (v : Nat) : (s.set f v).dl = s.dl := rfl
@[simp] theorem State.flash_set (f : RF) (v : Nat) : (s.set f v).flash = s.flash := rfl
@[simp] theorem State.flashHeld_set (f : RF) (v : Nat) : (s.set f v).flashHeld = s.flashHeld := rfl
@[simp] theorem State.sc_set (f : RF) (v : Nat) : (s.set f v).sc = s.sc := rfl
@[simp] theorem State.ring_set (f : RF) (v : Nat) : (s.set f v).ring = s.ring := rfl
@[simp] theorem State.dict_set (f : RF) (v : Nat) : (s.set f v).dict = s.dict := rfl
@[simp] theorem State.pwr_set (f : RF) (v : Nat) : (s.set f v).pwr = s.pwr := rfl
@[simp] theorem State.hv_set (f : RF) (v : Nat) : (s.set f v).hv = s.hv := rfl
@[simp] theorem State.crk_set (f : RF) (v : Nat) : (s.set f v).crk = s.crk := rfl
@[simp] theorem State.touch_set (f : RF) (v : Nat) : (s.set f v).touch = s.touch := rfl
@[simp] theorem State.rtc_set (f : RF) (v : Nat) : (s.set f v).rtc = s.rtc := rfl
@[simp] theorem State.march_set (f : RF) (v : Nat) : (s.set f v).march = s.march := rfl
@[simp] theorem State.rs_set (f : RF) (v : Nat) : (s.set f v).rs = s.rs := rfl
@[simp] theorem State.pending_set (f : RF) (v : Nat) : (s.set f v).pending = s.pending := rfl

/-! ### State.put -/

@[simp] theorem State.mem_put (f : RF) (v : Nat) : (s.put f v).mem = s.mem := rfl
@[simp] theorem State.tick_put (f : RF) (v : Nat) : (s.put f v).tick = s.tick := rfl
@[simp] theorem State.slow_put (f : RF) (v : Nat) : (s.put f v).slow = s.slow := rfl
@[simp] theorem State.mt_put (f : RF) (v : Nat) : (s.put f v).mt = s.mt := rfl
@[simp] theorem State.free_put (f : RF) (v : Nat) : (s.put f v).free = s.free := rfl
@[simp] theorem State.epoch_put (f : RF) (v : Nat) : (s.put f v).epoch = s.epoch := rfl
@[simp] theorem State.now_put (f : RF) (v : Nat) : (s.put f v).now = s.now := rfl
@[simp] theorem State.bus_put (f : RF) (v : Nat) : (s.put f v).bus = s.bus := rfl
@[simp] theorem State.abort_put (f : RF) (v : Nat) : (s.put f v).abort = s.abort := rfl
@[simp] theorem State.sent_put (f : RF) (v : Nat) : (s.put f v).sent = s.sent := rfl
@[simp] theorem State.balls_put (f : RF) (v : Nat) : (s.put f v).balls = s.balls := rfl
@[simp] theorem State.tm_put (f : RF) (v : Nat) : (s.put f v).tm = s.tm := rfl
@[simp] theorem State.sched_put (f : RF) (v : Nat) : (s.put f v).sched = s.sched := rfl
@[simp] theorem State.copy_put (f : RF) (v : Nat) : (s.put f v).copy = s.copy := rfl
@[simp] theorem State.lanes_put (f : RF) (v : Nat) : (s.put f v).lanes = s.lanes := rfl
@[simp] theorem State.frame_put (f : RF) (v : Nat) : (s.put f v).frame = s.frame := rfl
@[simp] theorem State.engines_put (f : RF) (v : Nat) : (s.put f v).engines = s.engines := rfl
@[simp] theorem State.ss_put (f : RF) (v : Nat) : (s.put f v).ss = s.ss := rfl
@[simp] theorem State.err_put (f : RF) (v : Nat) : (s.put f v).err = s.err := rfl
@[simp] theorem State.log_put (f : RF) (v : Nat) : (s.put f v).log = s.log := rfl
@[simp] theorem State.ev_put (f : RF) (v : Nat) : (s.put f v).ev = s.ev := rfl
@[simp] theorem State.uart0_put (f : RF) (v : Nat) : (s.put f v).uart0 = s.uart0 := rfl
@[simp] theorem State.uart1_put (f : RF) (v : Nat) : (s.put f v).uart1 = s.uart1 := rfl
@[simp] theorem State.svc_put (f : RF) (v : Nat) : (s.put f v).svc = s.svc := rfl
@[simp] theorem State.boot_put (f : RF) (v : Nat) : (s.put f v).boot = s.boot := rfl
@[simp] theorem State.dl_put (f : RF) (v : Nat) : (s.put f v).dl = s.dl := rfl
@[simp] theorem State.flash_put (f : RF) (v : Nat) : (s.put f v).flash = s.flash := rfl
@[simp] theorem State.flashHeld_put (f : RF) (v : Nat) : (s.put f v).flashHeld = s.flashHeld := rfl
@[simp] theorem State.sc_put (f : RF) (v : Nat) : (s.put f v).sc = s.sc := rfl
@[simp] theorem State.ring_put (f : RF) (v : Nat) : (s.put f v).ring = s.ring := rfl
@[simp] theorem State.dict_put (f : RF) (v : Nat) : (s.put f v).dict = s.dict := rfl
@[simp] theorem State.pwr_put (f : RF) (v : Nat) : (s.put f v).pwr = s.pwr := rfl
@[simp] theorem State.hv_put (f : RF) (v : Nat) : (s.put f v).hv = s.hv := rfl
@[simp] theorem State.crk_put (f : RF) (v : Nat) : (s.put f v).crk = s.crk := rfl
@[simp] theorem State.touch_put (f : RF) (v : Nat) : (s.put f v).touch = s.touch := rfl
@[simp] theorem State.rtc_put (f : RF) (v : Nat) : (s.put f v).rtc = s.rtc := rfl
@[simp] theorem State.march_put (f : RF) (v : Nat) : (s.put f v).march = s.march := rfl
@[simp] theorem State.rs_put (f : RF) (v : Nat) : (s.put f v).rs = s.rs := rfl
@[simp] theorem State.pending_put (f : RF) (v : Nat) : (s.put f v).pending = s.pending := rfl

/-! ### State.noteCounted -/

@[simp] theorem State.regs_noteCounted (f : RF) : (s.noteCounted f).regs = s.regs := rfl
@[simp] theorem State.mem_noteCounted (f : RF) : (s.noteCounted f).mem = s.mem := rfl
@[simp] theorem State.tick_noteCounted (f : RF) : (s.noteCounted f).tick = s.tick := rfl
@[simp] theorem State.slow_noteCounted (f : RF) : (s.noteCounted f).slow = s.slow := rfl
@[simp] theorem State.mt_noteCounted (f : RF) : (s.noteCounted f).mt = s.mt := rfl
@[simp] theorem State.free_noteCounted (f : RF) : (s.noteCounted f).free = s.free := rfl
@[simp] theorem State.epoch_noteCounted (f : RF) : (s.noteCounted f).epoch = s.epoch := rfl
@[simp] theorem State.bus_noteCounted (f : RF) : (s.noteCounted f).bus = s.bus := rfl
@[simp] theorem State.abort_noteCounted (f : RF) : (s.noteCounted f).abort = s.abort := rfl
@[simp] theorem State.sent_noteCounted (f : RF) : (s.noteCounted f).sent = s.sent := rfl
@[simp] theorem State.balls_noteCounted (f : RF) : (s.noteCounted f).balls = s.balls := rfl
@[simp] theorem State.tm_noteCounted (f : RF) : (s.noteCounted f).tm = s.tm := rfl
@[simp] theorem State.sched_noteCounted (f : RF) : (s.noteCounted f).sched = s.sched := rfl
@[simp] theorem State.copy_noteCounted (f : RF) : (s.noteCounted f).copy = s.copy := rfl
@[simp] theorem State.lanes_noteCounted (f : RF) : (s.noteCounted f).lanes = s.lanes := rfl
@[simp] theorem State.frame_noteCounted (f : RF) : (s.noteCounted f).frame = s.frame := rfl
@[simp] theorem State.engines_noteCounted (f : RF) : (s.noteCounted f).engines = s.engines := rfl
@[simp] theorem State.ss_noteCounted (f : RF) : (s.noteCounted f).ss = s.ss := rfl
@[simp] theorem State.err_noteCounted (f : RF) : (s.noteCounted f).err = s.err := rfl
@[simp] theorem State.log_noteCounted (f : RF) : (s.noteCounted f).log = s.log := rfl
@[simp] theorem State.ev_noteCounted (f : RF) : (s.noteCounted f).ev = s.ev := rfl
@[simp] theorem State.uart0_noteCounted (f : RF) : (s.noteCounted f).uart0 = s.uart0 := rfl
@[simp] theorem State.uart1_noteCounted (f : RF) : (s.noteCounted f).uart1 = s.uart1 := rfl
@[simp] theorem State.svc_noteCounted (f : RF) : (s.noteCounted f).svc = s.svc := rfl
@[simp] theorem State.boot_noteCounted (f : RF) : (s.noteCounted f).boot = s.boot := rfl
@[simp] theorem State.dl_noteCounted (f : RF) : (s.noteCounted f).dl = s.dl := rfl
@[simp] theorem State.flash_noteCounted (f : RF) : (s.noteCounted f).flash = s.flash := rfl
@[simp] theorem State.flashHeld_noteCounted (f : RF) : (s.noteCounted f).flashHeld = s.flashHeld := rfl
@[simp] theorem State.sc_noteCounted (f : RF) : (s.noteCounted f).sc = s.sc := rfl
@[simp] theorem State.ring_noteCounted (f : RF) : (s.noteCounted f).ring = s.ring := rfl
@[simp] theorem State.dict_noteCounted (f : RF) : (s.noteCounted f).dict = s.dict := rfl
@[simp] theorem State.pwr_noteCounted (f : RF) : (s.noteCounted f).pwr = s.pwr := rfl
@[simp] theorem State.hv_noteCounted (f : RF) : (s.noteCounted f).hv = s.hv := rfl
@[simp] theorem State.crk_noteCounted (f : RF) : (s.noteCounted f).crk = s.crk := rfl
@[simp] theorem State.touch_noteCounted (f : RF) : (s.noteCounted f).touch = s.touch := rfl
@[simp] theorem State.rtc_noteCounted (f : RF) : (s.noteCounted f).rtc = s.rtc := rfl
@[simp] theorem State.march_noteCounted (f : RF) : (s.noteCounted f).march = s.march := rfl
@[simp] theorem State.rs_noteCounted (f : RF) : (s.noteCounted f).rs = s.rs := rfl
@[simp] theorem State.pending_noteCounted (f : RF) : (s.noteCounted f).pending = s.pending := rfl

/-! ### State.noteRaised -/

@[simp] theorem State.regs_noteRaised (f : RF) (v : Nat) : (s.noteRaised f v).regs = s.regs := rfl
@[simp] theorem State.mem_noteRaised (f : RF) (v : Nat) : (s.noteRaised f v).mem = s.mem := rfl
@[simp] theorem State.tick_noteRaised (f : RF) (v : Nat) : (s.noteRaised f v).tick = s.tick := rfl
@[simp] theorem State.slow_noteRaised (f : RF) (v : Nat) : (s.noteRaised f v).slow = s.slow := rfl
@[simp] theorem State.mt_noteRaised (f : RF) (v : Nat) : (s.noteRaised f v).mt = s.mt := rfl
@[simp] theorem State.free_noteRaised (f : RF) (v : Nat) : (s.noteRaised f v).free = s.free := rfl
@[simp] theorem State.epoch_noteRaised (f : RF) (v : Nat) : (s.noteRaised f v).epoch = s.epoch := rfl
@[simp] theorem State.bus_noteRaised (f : RF) (v : Nat) : (s.noteRaised f v).bus = s.bus := rfl
@[simp] theorem State.abort_noteRaised (f : RF) (v : Nat) : (s.noteRaised f v).abort = s.abort := rfl
@[simp] theorem State.sent_noteRaised (f : RF) (v : Nat) : (s.noteRaised f v).sent = s.sent := rfl
@[simp] theorem State.balls_noteRaised (f : RF) (v : Nat) : (s.noteRaised f v).balls = s.balls := rfl
@[simp] theorem State.tm_noteRaised (f : RF) (v : Nat) : (s.noteRaised f v).tm = s.tm := rfl
@[simp] theorem State.sched_noteRaised (f : RF) (v : Nat) : (s.noteRaised f v).sched = s.sched := rfl
@[simp] theorem State.copy_noteRaised (f : RF) (v : Nat) : (s.noteRaised f v).copy = s.copy := rfl
@[simp] theorem State.lanes_noteRaised (f : RF) (v : Nat) : (s.noteRaised f v).lanes = s.lanes := rfl
@[simp] theorem State.frame_noteRaised (f : RF) (v : Nat) : (s.noteRaised f v).frame = s.frame := rfl
@[simp] theorem State.engines_noteRaised (f : RF) (v : Nat) : (s.noteRaised f v).engines = s.engines := rfl
@[simp] theorem State.ss_noteRaised (f : RF) (v : Nat) : (s.noteRaised f v).ss = s.ss := rfl
@[simp] theorem State.err_noteRaised (f : RF) (v : Nat) : (s.noteRaised f v).err = s.err := rfl
@[simp] theorem State.log_noteRaised (f : RF) (v : Nat) : (s.noteRaised f v).log = s.log := rfl
@[simp] theorem State.ev_noteRaised (f : RF) (v : Nat) : (s.noteRaised f v).ev = s.ev := rfl
@[simp] theorem State.uart0_noteRaised (f : RF) (v : Nat) : (s.noteRaised f v).uart0 = s.uart0 := rfl
@[simp] theorem State.uart1_noteRaised (f : RF) (v : Nat) : (s.noteRaised f v).uart1 = s.uart1 := rfl
@[simp] theorem State.svc_noteRaised (f : RF) (v : Nat) : (s.noteRaised f v).svc = s.svc := rfl
@[simp] theorem State.boot_noteRaised (f : RF) (v : Nat) : (s.noteRaised f v).boot = s.boot := rfl
@[simp] theorem State.dl_noteRaised (f : RF) (v : Nat) : (s.noteRaised f v).dl = s.dl := rfl
@[simp] theorem State.flash_noteRaised (f : RF) (v : Nat) : (s.noteRaised f v).flash = s.flash := rfl
@[simp] theorem State.flashHeld_noteRaised (f : RF) (v : Nat) : (s.noteRaised f v).flashHeld = s.flashHeld := rfl
@[simp] theorem State.sc_noteRaised (f : RF) (v : Nat) : (s.noteRaised f v).sc = s.sc := rfl
@[simp] theorem State.ring_noteRaised (f : RF) (v : Nat) : (s.noteRaised f v).ring = s.ring := rfl
@[simp] theorem State.dict_noteRaised (f : RF) (v : Nat) : (s.noteRaised f v).dict = s.dict := rfl
@[simp] theorem State.pwr_noteRaised (f : RF) (v : Nat) : (s.noteRaised f v).pwr = s.pwr := rfl
@[simp] theorem State.hv_noteRaised (f : RF) (v : Nat) : (s.noteRaised f v).hv = s.hv := rfl
@[simp] theorem State.crk_noteRaised (f : RF) (v : Nat) : (s.noteRaised f v).crk = s.crk := rfl
@[simp] theorem State.touch_noteRaised (f : RF) (v : Nat) : (s.noteRaised f v).touch = s.touch := rfl
@[simp] theorem State.rtc_noteRaised (f : RF) (v : Nat) : (s.noteRaised f v).rtc = s.rtc := rfl
@[simp] theorem State.march_noteRaised (f : RF) (v : Nat) : (s.noteRaised f v).march = s.march := rfl
@[simp] theorem State.rs_noteRaised (f : RF) (v : Nat) : (s.noteRaised f v).rs = s.rs := rfl
@[simp] theorem State.pending_noteRaised (f : RF) (v : Nat) : (s.noteRaised f v).pending = s.pending := rfl

/-! ### State.poke -/

@[simp] theorem State.regs_poke (a : Nat) (v : Byte) : (s.poke a v).regs = s.regs := rfl
@[simp] theorem State.tick_poke (a : Nat) (v : Byte) : (s.poke a v).tick = s.tick := rfl
@[simp] theorem State.slow_poke (a : Nat) (v : Byte) : (s.poke a v).slow = s.slow := rfl
@[simp] theorem State.mt_poke (a : Nat) (v : Byte) : (s.poke a v).mt = s.mt := rfl
@[simp] theorem State.free_poke (a : Nat) (v : Byte) : (s.poke a v).free = s.free := rfl
@[simp] theorem State.epoch_poke (a : Nat) (v : Byte) : (s.poke a v).epoch = s.epoch := rfl
@[simp] theorem State.now_poke (a : Nat) (v : Byte) : (s.poke a v).now = s.now := rfl
@[simp] theorem State.bus_poke (a : Nat) (v : Byte) : (s.poke a v).bus = s.bus := rfl
@[simp] theorem State.abort_poke (a : Nat) (v : Byte) : (s.poke a v).abort = s.abort := rfl
@[simp] theorem State.sent_poke (a : Nat) (v : Byte) : (s.poke a v).sent = s.sent := rfl
@[simp] theorem State.balls_poke (a : Nat) (v : Byte) : (s.poke a v).balls = s.balls := rfl
@[simp] theorem State.tm_poke (a : Nat) (v : Byte) : (s.poke a v).tm = s.tm := rfl
@[simp] theorem State.sched_poke (a : Nat) (v : Byte) : (s.poke a v).sched = s.sched := rfl
@[simp] theorem State.copy_poke (a : Nat) (v : Byte) : (s.poke a v).copy = s.copy := rfl
@[simp] theorem State.lanes_poke (a : Nat) (v : Byte) : (s.poke a v).lanes = s.lanes := rfl
@[simp] theorem State.frame_poke (a : Nat) (v : Byte) : (s.poke a v).frame = s.frame := rfl
@[simp] theorem State.engines_poke (a : Nat) (v : Byte) : (s.poke a v).engines = s.engines := rfl
@[simp] theorem State.ss_poke (a : Nat) (v : Byte) : (s.poke a v).ss = s.ss := rfl
@[simp] theorem State.err_poke (a : Nat) (v : Byte) : (s.poke a v).err = s.err := rfl
@[simp] theorem State.log_poke (a : Nat) (v : Byte) : (s.poke a v).log = s.log := rfl
@[simp] theorem State.ev_poke (a : Nat) (v : Byte) : (s.poke a v).ev = s.ev := rfl
@[simp] theorem State.uart0_poke (a : Nat) (v : Byte) : (s.poke a v).uart0 = s.uart0 := rfl
@[simp] theorem State.uart1_poke (a : Nat) (v : Byte) : (s.poke a v).uart1 = s.uart1 := rfl
@[simp] theorem State.svc_poke (a : Nat) (v : Byte) : (s.poke a v).svc = s.svc := rfl
@[simp] theorem State.boot_poke (a : Nat) (v : Byte) : (s.poke a v).boot = s.boot := rfl
@[simp] theorem State.dl_poke (a : Nat) (v : Byte) : (s.poke a v).dl = s.dl := rfl
@[simp] theorem State.flash_poke (a : Nat) (v : Byte) : (s.poke a v).flash = s.flash := rfl
@[simp] theorem State.flashHeld_poke (a : Nat) (v : Byte) : (s.poke a v).flashHeld = s.flashHeld := rfl
@[simp] theorem State.sc_poke (a : Nat) (v : Byte) : (s.poke a v).sc = s.sc := rfl
@[simp] theorem State.ring_poke (a : Nat) (v : Byte) : (s.poke a v).ring = s.ring := rfl
@[simp] theorem State.dict_poke (a : Nat) (v : Byte) : (s.poke a v).dict = s.dict := rfl
@[simp] theorem State.pwr_poke (a : Nat) (v : Byte) : (s.poke a v).pwr = s.pwr := rfl
@[simp] theorem State.hv_poke (a : Nat) (v : Byte) : (s.poke a v).hv = s.hv := rfl
@[simp] theorem State.crk_poke (a : Nat) (v : Byte) : (s.poke a v).crk = s.crk := rfl
@[simp] theorem State.touch_poke (a : Nat) (v : Byte) : (s.poke a v).touch = s.touch := rfl
@[simp] theorem State.rtc_poke (a : Nat) (v : Byte) : (s.poke a v).rtc = s.rtc := rfl
@[simp] theorem State.march_poke (a : Nat) (v : Byte) : (s.poke a v).march = s.march := rfl
@[simp] theorem State.rs_poke (a : Nat) (v : Byte) : (s.poke a v).rs = s.rs := rfl
@[simp] theorem State.pending_poke (a : Nat) (v : Byte) : (s.poke a v).pending = s.pending := rfl

/-! ### State.lose -/

@[simp] theorem State.regs_lose (lo hi : Nat) : (s.lose lo hi).regs = s.regs := rfl
@[simp] theorem State.tick_lose (lo hi : Nat) : (s.lose lo hi).tick = s.tick := rfl
@[simp] theorem State.slow_lose (lo hi : Nat) : (s.lose lo hi).slow = s.slow := rfl
@[simp] theorem State.mt_lose (lo hi : Nat) : (s.lose lo hi).mt = s.mt := rfl
@[simp] theorem State.free_lose (lo hi : Nat) : (s.lose lo hi).free = s.free := rfl
@[simp] theorem State.now_lose (lo hi : Nat) : (s.lose lo hi).now = s.now := rfl
@[simp] theorem State.bus_lose (lo hi : Nat) : (s.lose lo hi).bus = s.bus := rfl
@[simp] theorem State.abort_lose (lo hi : Nat) : (s.lose lo hi).abort = s.abort := rfl
@[simp] theorem State.sent_lose (lo hi : Nat) : (s.lose lo hi).sent = s.sent := rfl
@[simp] theorem State.balls_lose (lo hi : Nat) : (s.lose lo hi).balls = s.balls := rfl
@[simp] theorem State.tm_lose (lo hi : Nat) : (s.lose lo hi).tm = s.tm := rfl
@[simp] theorem State.sched_lose (lo hi : Nat) : (s.lose lo hi).sched = s.sched := rfl
@[simp] theorem State.copy_lose (lo hi : Nat) : (s.lose lo hi).copy = s.copy := rfl
@[simp] theorem State.lanes_lose (lo hi : Nat) : (s.lose lo hi).lanes = s.lanes := rfl
@[simp] theorem State.frame_lose (lo hi : Nat) : (s.lose lo hi).frame = s.frame := rfl
@[simp] theorem State.engines_lose (lo hi : Nat) : (s.lose lo hi).engines = s.engines := rfl
@[simp] theorem State.ss_lose (lo hi : Nat) : (s.lose lo hi).ss = s.ss := rfl
@[simp] theorem State.err_lose (lo hi : Nat) : (s.lose lo hi).err = s.err := rfl
@[simp] theorem State.log_lose (lo hi : Nat) : (s.lose lo hi).log = s.log := rfl
@[simp] theorem State.ev_lose (lo hi : Nat) : (s.lose lo hi).ev = s.ev := rfl
@[simp] theorem State.uart0_lose (lo hi : Nat) : (s.lose lo hi).uart0 = s.uart0 := rfl
@[simp] theorem State.uart1_lose (lo hi : Nat) : (s.lose lo hi).uart1 = s.uart1 := rfl
@[simp] theorem State.svc_lose (lo hi : Nat) : (s.lose lo hi).svc = s.svc := rfl
@[simp] theorem State.boot_lose (lo hi : Nat) : (s.lose lo hi).boot = s.boot := rfl
@[simp] theorem State.dl_lose (lo hi : Nat) : (s.lose lo hi).dl = s.dl := rfl
@[simp] theorem State.flash_lose (lo hi : Nat) : (s.lose lo hi).flash = s.flash := rfl
@[simp] theorem State.flashHeld_lose (lo hi : Nat) : (s.lose lo hi).flashHeld = s.flashHeld := rfl
@[simp] theorem State.sc_lose (lo hi : Nat) : (s.lose lo hi).sc = s.sc := rfl
@[simp] theorem State.ring_lose (lo hi : Nat) : (s.lose lo hi).ring = s.ring := rfl
@[simp] theorem State.dict_lose (lo hi : Nat) : (s.lose lo hi).dict = s.dict := rfl
@[simp] theorem State.pwr_lose (lo hi : Nat) : (s.lose lo hi).pwr = s.pwr := rfl
@[simp] theorem State.hv_lose (lo hi : Nat) : (s.lose lo hi).hv = s.hv := rfl
@[simp] theorem State.crk_lose (lo hi : Nat) : (s.lose lo hi).crk = s.crk := rfl
@[simp] theorem State.touch_lose (lo hi : Nat) : (s.lose lo hi).touch = s.touch := rfl
@[simp] theorem State.rtc_lose (lo hi : Nat) : (s.lose lo hi).rtc = s.rtc := rfl
@[simp] theorem State.march_lose (lo hi : Nat) : (s.lose lo hi).march = s.march := rfl
@[simp] theorem State.rs_lose (lo hi : Nat) : (s.lose lo hi).rs = s.rs := rfl
@[simp] theorem State.pending_lose (lo hi : Nat) : (s.lose lo hi).pending = s.pending := rfl

/-! ### State.eraseRange -/

@[simp] theorem State.regs_eraseRange (lo n : Nat) : (s.eraseRange lo n).regs = s.regs := rfl
@[simp] theorem State.tick_eraseRange (lo n : Nat) : (s.eraseRange lo n).tick = s.tick := rfl
@[simp] theorem State.slow_eraseRange (lo n : Nat) : (s.eraseRange lo n).slow = s.slow := rfl
@[simp] theorem State.mt_eraseRange (lo n : Nat) : (s.eraseRange lo n).mt = s.mt := rfl
@[simp] theorem State.free_eraseRange (lo n : Nat) : (s.eraseRange lo n).free = s.free := rfl
@[simp] theorem State.epoch_eraseRange (lo n : Nat) : (s.eraseRange lo n).epoch = s.epoch := rfl
@[simp] theorem State.now_eraseRange (lo n : Nat) : (s.eraseRange lo n).now = s.now := rfl
@[simp] theorem State.bus_eraseRange (lo n : Nat) : (s.eraseRange lo n).bus = s.bus := rfl
@[simp] theorem State.abort_eraseRange (lo n : Nat) : (s.eraseRange lo n).abort = s.abort := rfl
@[simp] theorem State.sent_eraseRange (lo n : Nat) : (s.eraseRange lo n).sent = s.sent := rfl
@[simp] theorem State.balls_eraseRange (lo n : Nat) : (s.eraseRange lo n).balls = s.balls := rfl
@[simp] theorem State.tm_eraseRange (lo n : Nat) : (s.eraseRange lo n).tm = s.tm := rfl
@[simp] theorem State.sched_eraseRange (lo n : Nat) : (s.eraseRange lo n).sched = s.sched := rfl
@[simp] theorem State.copy_eraseRange (lo n : Nat) : (s.eraseRange lo n).copy = s.copy := rfl
@[simp] theorem State.lanes_eraseRange (lo n : Nat) : (s.eraseRange lo n).lanes = s.lanes := rfl
@[simp] theorem State.frame_eraseRange (lo n : Nat) : (s.eraseRange lo n).frame = s.frame := rfl
@[simp] theorem State.engines_eraseRange (lo n : Nat) : (s.eraseRange lo n).engines = s.engines := rfl
@[simp] theorem State.ss_eraseRange (lo n : Nat) : (s.eraseRange lo n).ss = s.ss := rfl
@[simp] theorem State.err_eraseRange (lo n : Nat) : (s.eraseRange lo n).err = s.err := rfl
@[simp] theorem State.log_eraseRange (lo n : Nat) : (s.eraseRange lo n).log = s.log := rfl
@[simp] theorem State.ev_eraseRange (lo n : Nat) : (s.eraseRange lo n).ev = s.ev := rfl
@[simp] theorem State.uart0_eraseRange (lo n : Nat) : (s.eraseRange lo n).uart0 = s.uart0 := rfl
@[simp] theorem State.uart1_eraseRange (lo n : Nat) : (s.eraseRange lo n).uart1 = s.uart1 := rfl
@[simp] theorem State.svc_eraseRange (lo n : Nat) : (s.eraseRange lo n).svc = s.svc := rfl
@[simp] theorem State.boot_eraseRange (lo n : Nat) : (s.eraseRange lo n).boot = s.boot := rfl
@[simp] theorem State.dl_eraseRange (lo n : Nat) : (s.eraseRange lo n).dl = s.dl := rfl
@[simp] theorem State.flash_eraseRange (lo n : Nat) : (s.eraseRange lo n).flash = s.flash := rfl
@[simp] theorem State.flashHeld_eraseRange (lo n : Nat) : (s.eraseRange lo n).flashHeld = s.flashHeld := rfl
@[simp] theorem State.sc_eraseRange (lo n : Nat) : (s.eraseRange lo n).sc = s.sc := rfl
@[simp] theorem State.ring_eraseRange (lo n : Nat) : (s.eraseRange lo n).ring = s.ring := rfl
@[simp] theorem State.dict_eraseRange (lo n : Nat) : (s.eraseRange lo n).dict = s.dict := rfl
@[simp] theorem State.pwr_eraseRange (lo n : Nat) : (s.eraseRange lo n).pwr = s.pwr := rfl
@[simp] theorem State.hv_eraseRange (lo n : Nat) : (s.eraseRange lo n).hv = s.hv := rfl
@[simp] theorem State.crk_eraseRange (lo n : Nat) : (s.eraseRange lo n).crk = s.crk := rfl
@[simp] theorem State.touch_eraseRange (lo n : Nat) : (s.eraseRange lo n).touch = s.touch := rfl
@[simp] theorem State.rtc_eraseRange (lo n : Nat) : (s.eraseRange lo n).rtc = s.rtc := rfl
@[simp] theorem State.march_eraseRange (lo n : Nat) : (s.eraseRange lo n).march = s.march := rfl
@[simp] theorem State.rs_eraseRange (lo n : Nat) : (s.eraseRange lo n).rs = s.rs := rfl
@[simp] theorem State.pending_eraseRange (lo n : Nat) : (s.eraseRange lo n).pending = s.pending := rfl

/-! ### State.fillWith -/

@[simp] theorem State.regs_fillWith (lo n : Nat) (f : Nat → Byte) : (s.fillWith lo n f).regs = s.regs := rfl
@[simp] theorem State.tick_fillWith (lo n : Nat) (f : Nat → Byte) : (s.fillWith lo n f).tick = s.tick := rfl
@[simp] theorem State.slow_fillWith (lo n : Nat) (f : Nat → Byte) : (s.fillWith lo n f).slow = s.slow := rfl
@[simp] theorem State.mt_fillWith (lo n : Nat) (f : Nat → Byte) : (s.fillWith lo n f).mt = s.mt := rfl
@[simp] theorem State.free_fillWith (lo n : Nat) (f : Nat → Byte) : (s.fillWith lo n f).free = s.free := rfl
@[simp] theorem State.epoch_fillWith (lo n : Nat) (f : Nat → Byte) : (s.fillWith lo n f).epoch = s.epoch := rfl
@[simp] theorem State.now_fillWith (lo n : Nat) (f : Nat → Byte) : (s.fillWith lo n f).now = s.now := rfl
@[simp] theorem State.bus_fillWith (lo n : Nat) (f : Nat → Byte) : (s.fillWith lo n f).bus = s.bus := rfl
@[simp] theorem State.abort_fillWith (lo n : Nat) (f : Nat → Byte) : (s.fillWith lo n f).abort = s.abort := rfl
@[simp] theorem State.sent_fillWith (lo n : Nat) (f : Nat → Byte) : (s.fillWith lo n f).sent = s.sent := rfl
@[simp] theorem State.balls_fillWith (lo n : Nat) (f : Nat → Byte) : (s.fillWith lo n f).balls = s.balls := rfl
@[simp] theorem State.tm_fillWith (lo n : Nat) (f : Nat → Byte) : (s.fillWith lo n f).tm = s.tm := rfl
@[simp] theorem State.sched_fillWith (lo n : Nat) (f : Nat → Byte) : (s.fillWith lo n f).sched = s.sched := rfl
@[simp] theorem State.copy_fillWith (lo n : Nat) (f : Nat → Byte) : (s.fillWith lo n f).copy = s.copy := rfl
@[simp] theorem State.lanes_fillWith (lo n : Nat) (f : Nat → Byte) : (s.fillWith lo n f).lanes = s.lanes := rfl
@[simp] theorem State.frame_fillWith (lo n : Nat) (f : Nat → Byte) : (s.fillWith lo n f).frame = s.frame := rfl
@[simp] theorem State.engines_fillWith (lo n : Nat) (f : Nat → Byte) : (s.fillWith lo n f).engines = s.engines := rfl
@[simp] theorem State.ss_fillWith (lo n : Nat) (f : Nat → Byte) : (s.fillWith lo n f).ss = s.ss := rfl
@[simp] theorem State.err_fillWith (lo n : Nat) (f : Nat → Byte) : (s.fillWith lo n f).err = s.err := rfl
@[simp] theorem State.log_fillWith (lo n : Nat) (f : Nat → Byte) : (s.fillWith lo n f).log = s.log := rfl
@[simp] theorem State.ev_fillWith (lo n : Nat) (f : Nat → Byte) : (s.fillWith lo n f).ev = s.ev := rfl
@[simp] theorem State.uart0_fillWith (lo n : Nat) (f : Nat → Byte) : (s.fillWith lo n f).uart0 = s.uart0 := rfl
@[simp] theorem State.uart1_fillWith (lo n : Nat) (f : Nat → Byte) : (s.fillWith lo n f).uart1 = s.uart1 := rfl
@[simp] theorem State.svc_fillWith (lo n : Nat) (f : Nat → Byte) : (s.fillWith lo n f).svc = s.svc := rfl
@[simp] theorem State.boot_fillWith (lo n : Nat) (f : Nat → Byte) : (s.fillWith lo n f).boot = s.boot := rfl
@[simp] theorem State.dl_fillWith (lo n : Nat) (f : Nat → Byte) : (s.fillWith lo n f).dl = s.dl := rfl
@[simp] theorem State.flash_fillWith (lo n : Nat) (f : Nat → Byte) : (s.fillWith lo n f).flash = s.flash := rfl
@[simp] theorem State.flashHeld_fillWith (lo n : Nat) (f : Nat → Byte) : (s.fillWith lo n f).flashHeld = s.flashHeld := rfl
@[simp] theorem State.sc_fillWith (lo n : Nat) (f : Nat → Byte) : (s.fillWith lo n f).sc = s.sc := rfl
@[simp] theorem State.ring_fillWith (lo n : Nat) (f : Nat → Byte) : (s.fillWith lo n f).ring = s.ring := rfl
@[simp] theorem State.dict_fillWith (lo n : Nat) (f : Nat → Byte) : (s.fillWith lo n f).dict = s.dict := rfl
@[simp] theorem State.pwr_fillWith (lo n : Nat) (f : Nat → Byte) : (s.fillWith lo n f).pwr = s.pwr := rfl
@[simp] theorem State.hv_fillWith (lo n : Nat) (f : Nat → Byte) : (s.fillWith lo n f).hv = s.hv := rfl
@[simp] theorem State.crk_fillWith (lo n : Nat) (f : Nat → Byte) : (s.fillWith lo n f).crk = s.crk := rfl
@[simp] theorem State.touch_fillWith (lo n : Nat) (f : Nat → Byte) : (s.fillWith lo n f).touch = s.touch := rfl
@[simp] theorem State.rtc_fillWith (lo n : Nat) (f : Nat → Byte) : (s.fillWith lo n f).rtc = s.rtc := rfl
@[simp] theorem State.march_fillWith (lo n : Nat) (f : Nat → Byte) : (s.fillWith lo n f).march = s.march := rfl
@[simp] theorem State.rs_fillWith (lo n : Nat) (f : Nat → Byte) : (s.fillWith lo n f).rs = s.rs := rfl
@[simp] theorem State.pending_fillWith (lo n : Nat) (f : Nat → Byte) : (s.fillWith lo n f).pending = s.pending := rfl

/-! ### State.garble -/

@[simp] theorem State.regs_garble (lo n : Nat) : (s.garble lo n).regs = s.regs := rfl
@[simp] theorem State.tick_garble (lo n : Nat) : (s.garble lo n).tick = s.tick := rfl
@[simp] theorem State.slow_garble (lo n : Nat) : (s.garble lo n).slow = s.slow := rfl
@[simp] theorem State.mt_garble (lo n : Nat) : (s.garble lo n).mt = s.mt := rfl
@[simp] theorem State.free_garble (lo n : Nat) : (s.garble lo n).free = s.free := rfl
@[simp] theorem State.now_garble (lo n : Nat) : (s.garble lo n).now = s.now := rfl
@[simp] theorem State.bus_garble (lo n : Nat) : (s.garble lo n).bus = s.bus := rfl
@[simp] theorem State.abort_garble (lo n : Nat) : (s.garble lo n).abort = s.abort := rfl
@[simp] theorem State.sent_garble (lo n : Nat) : (s.garble lo n).sent = s.sent := rfl
@[simp] theorem State.balls_garble (lo n : Nat) : (s.garble lo n).balls = s.balls := rfl
@[simp] theorem State.tm_garble (lo n : Nat) : (s.garble lo n).tm = s.tm := rfl
@[simp] theorem State.sched_garble (lo n : Nat) : (s.garble lo n).sched = s.sched := rfl
@[simp] theorem State.copy_garble (lo n : Nat) : (s.garble lo n).copy = s.copy := rfl
@[simp] theorem State.lanes_garble (lo n : Nat) : (s.garble lo n).lanes = s.lanes := rfl
@[simp] theorem State.frame_garble (lo n : Nat) : (s.garble lo n).frame = s.frame := rfl
@[simp] theorem State.engines_garble (lo n : Nat) : (s.garble lo n).engines = s.engines := rfl
@[simp] theorem State.ss_garble (lo n : Nat) : (s.garble lo n).ss = s.ss := rfl
@[simp] theorem State.err_garble (lo n : Nat) : (s.garble lo n).err = s.err := rfl
@[simp] theorem State.log_garble (lo n : Nat) : (s.garble lo n).log = s.log := rfl
@[simp] theorem State.ev_garble (lo n : Nat) : (s.garble lo n).ev = s.ev := rfl
@[simp] theorem State.uart0_garble (lo n : Nat) : (s.garble lo n).uart0 = s.uart0 := rfl
@[simp] theorem State.uart1_garble (lo n : Nat) : (s.garble lo n).uart1 = s.uart1 := rfl
@[simp] theorem State.svc_garble (lo n : Nat) : (s.garble lo n).svc = s.svc := rfl
@[simp] theorem State.boot_garble (lo n : Nat) : (s.garble lo n).boot = s.boot := rfl
@[simp] theorem State.dl_garble (lo n : Nat) : (s.garble lo n).dl = s.dl := rfl
@[simp] theorem State.flash_garble (lo n : Nat) : (s.garble lo n).flash = s.flash := rfl
@[simp] theorem State.flashHeld_garble (lo n : Nat) : (s.garble lo n).flashHeld = s.flashHeld := rfl
@[simp] theorem State.sc_garble (lo n : Nat) : (s.garble lo n).sc = s.sc := rfl
@[simp] theorem State.ring_garble (lo n : Nat) : (s.garble lo n).ring = s.ring := rfl
@[simp] theorem State.dict_garble (lo n : Nat) : (s.garble lo n).dict = s.dict := rfl
@[simp] theorem State.pwr_garble (lo n : Nat) : (s.garble lo n).pwr = s.pwr := rfl
@[simp] theorem State.hv_garble (lo n : Nat) : (s.garble lo n).hv = s.hv := rfl
@[simp] theorem State.crk_garble (lo n : Nat) : (s.garble lo n).crk = s.crk := rfl
@[simp] theorem State.touch_garble (lo n : Nat) : (s.garble lo n).touch = s.touch := rfl
@[simp] theorem State.rtc_garble (lo n : Nat) : (s.garble lo n).rtc = s.rtc := rfl
@[simp] theorem State.march_garble (lo n : Nat) : (s.garble lo n).march = s.march := rfl
@[simp] theorem State.rs_garble (lo n : Nat) : (s.garble lo n).rs = s.rs := rfl
@[simp] theorem State.pending_garble (lo n : Nat) : (s.garble lo n).pending = s.pending := rfl

/-! ### State.resetRegs -/

@[simp] theorem State.mem_resetRegs (p : Nat → Bool) : (s.resetRegs p).mem = s.mem := rfl
@[simp] theorem State.tick_resetRegs (p : Nat → Bool) : (s.resetRegs p).tick = s.tick := rfl
@[simp] theorem State.slow_resetRegs (p : Nat → Bool) : (s.resetRegs p).slow = s.slow := rfl
@[simp] theorem State.mt_resetRegs (p : Nat → Bool) : (s.resetRegs p).mt = s.mt := rfl
@[simp] theorem State.free_resetRegs (p : Nat → Bool) : (s.resetRegs p).free = s.free := rfl
@[simp] theorem State.epoch_resetRegs (p : Nat → Bool) : (s.resetRegs p).epoch = s.epoch := rfl
@[simp] theorem State.now_resetRegs (p : Nat → Bool) : (s.resetRegs p).now = s.now := rfl
@[simp] theorem State.bus_resetRegs (p : Nat → Bool) : (s.resetRegs p).bus = s.bus := rfl
@[simp] theorem State.abort_resetRegs (p : Nat → Bool) : (s.resetRegs p).abort = s.abort := rfl
@[simp] theorem State.sent_resetRegs (p : Nat → Bool) : (s.resetRegs p).sent = s.sent := rfl
@[simp] theorem State.balls_resetRegs (p : Nat → Bool) : (s.resetRegs p).balls = s.balls := rfl
@[simp] theorem State.tm_resetRegs (p : Nat → Bool) : (s.resetRegs p).tm = s.tm := rfl
@[simp] theorem State.sched_resetRegs (p : Nat → Bool) : (s.resetRegs p).sched = s.sched := rfl
@[simp] theorem State.copy_resetRegs (p : Nat → Bool) : (s.resetRegs p).copy = s.copy := rfl
@[simp] theorem State.lanes_resetRegs (p : Nat → Bool) : (s.resetRegs p).lanes = s.lanes := rfl
@[simp] theorem State.frame_resetRegs (p : Nat → Bool) : (s.resetRegs p).frame = s.frame := rfl
@[simp] theorem State.engines_resetRegs (p : Nat → Bool) : (s.resetRegs p).engines = s.engines := rfl
@[simp] theorem State.ss_resetRegs (p : Nat → Bool) : (s.resetRegs p).ss = s.ss := rfl
@[simp] theorem State.err_resetRegs (p : Nat → Bool) : (s.resetRegs p).err = s.err := rfl
@[simp] theorem State.log_resetRegs (p : Nat → Bool) : (s.resetRegs p).log = s.log := rfl
@[simp] theorem State.ev_resetRegs (p : Nat → Bool) : (s.resetRegs p).ev = s.ev := rfl
@[simp] theorem State.uart0_resetRegs (p : Nat → Bool) : (s.resetRegs p).uart0 = s.uart0 := rfl
@[simp] theorem State.uart1_resetRegs (p : Nat → Bool) : (s.resetRegs p).uart1 = s.uart1 := rfl
@[simp] theorem State.svc_resetRegs (p : Nat → Bool) : (s.resetRegs p).svc = s.svc := rfl
@[simp] theorem State.boot_resetRegs (p : Nat → Bool) : (s.resetRegs p).boot = s.boot := rfl
@[simp] theorem State.dl_resetRegs (p : Nat → Bool) : (s.resetRegs p).dl = s.dl := rfl
@[simp] theorem State.flash_resetRegs (p : Nat → Bool) : (s.resetRegs p).flash = s.flash := rfl
@[simp] theorem State.flashHeld_resetRegs (p : Nat → Bool) : (s.resetRegs p).flashHeld = s.flashHeld := rfl
@[simp] theorem State.sc_resetRegs (p : Nat → Bool) : (s.resetRegs p).sc = s.sc := rfl
@[simp] theorem State.ring_resetRegs (p : Nat → Bool) : (s.resetRegs p).ring = s.ring := rfl
@[simp] theorem State.dict_resetRegs (p : Nat → Bool) : (s.resetRegs p).dict = s.dict := rfl
@[simp] theorem State.pwr_resetRegs (p : Nat → Bool) : (s.resetRegs p).pwr = s.pwr := rfl
@[simp] theorem State.hv_resetRegs (p : Nat → Bool) : (s.resetRegs p).hv = s.hv := rfl
@[simp] theorem State.crk_resetRegs (p : Nat → Bool) : (s.resetRegs p).crk = s.crk := rfl
@[simp] theorem State.touch_resetRegs (p : Nat → Bool) : (s.resetRegs p).touch = s.touch := rfl
@[simp] theorem State.rtc_resetRegs (p : Nat → Bool) : (s.resetRegs p).rtc = s.rtc := rfl
@[simp] theorem State.march_resetRegs (p : Nat → Bool) : (s.resetRegs p).march = s.march := rfl
@[simp] theorem State.rs_resetRegs (p : Nat → Bool) : (s.resetRegs p).rs = s.rs := rfl
@[simp] theorem State.pending_resetRegs (p : Nat → Bool) : (s.resetRegs p).pending = s.pending := rfl

/-! ### State.emit -/

@[simp] theorem State.regs_emit (o : Out) : (s.emit o).regs = s.regs := rfl
@[simp] theorem State.mem_emit (o : Out) : (s.emit o).mem = s.mem := rfl
@[simp] theorem State.tick_emit (o : Out) : (s.emit o).tick = s.tick := rfl
@[simp] theorem State.slow_emit (o : Out) : (s.emit o).slow = s.slow := rfl
@[simp] theorem State.mt_emit (o : Out) : (s.emit o).mt = s.mt := rfl
@[simp] theorem State.free_emit (o : Out) : (s.emit o).free = s.free := rfl
@[simp] theorem State.epoch_emit (o : Out) : (s.emit o).epoch = s.epoch := rfl
@[simp] theorem State.now_emit (o : Out) : (s.emit o).now = s.now := rfl
@[simp] theorem State.bus_emit (o : Out) : (s.emit o).bus = s.bus := rfl
@[simp] theorem State.abort_emit (o : Out) : (s.emit o).abort = s.abort := rfl
@[simp] theorem State.balls_emit (o : Out) : (s.emit o).balls = s.balls := rfl
@[simp] theorem State.tm_emit (o : Out) : (s.emit o).tm = s.tm := rfl
@[simp] theorem State.sched_emit (o : Out) : (s.emit o).sched = s.sched := rfl
@[simp] theorem State.copy_emit (o : Out) : (s.emit o).copy = s.copy := rfl
@[simp] theorem State.lanes_emit (o : Out) : (s.emit o).lanes = s.lanes := rfl
@[simp] theorem State.frame_emit (o : Out) : (s.emit o).frame = s.frame := rfl
@[simp] theorem State.engines_emit (o : Out) : (s.emit o).engines = s.engines := rfl
@[simp] theorem State.ss_emit (o : Out) : (s.emit o).ss = s.ss := rfl
@[simp] theorem State.err_emit (o : Out) : (s.emit o).err = s.err := rfl
@[simp] theorem State.log_emit (o : Out) : (s.emit o).log = s.log := rfl
@[simp] theorem State.ev_emit (o : Out) : (s.emit o).ev = s.ev := rfl
@[simp] theorem State.uart0_emit (o : Out) : (s.emit o).uart0 = s.uart0 := rfl
@[simp] theorem State.uart1_emit (o : Out) : (s.emit o).uart1 = s.uart1 := rfl
@[simp] theorem State.svc_emit (o : Out) : (s.emit o).svc = s.svc := rfl
@[simp] theorem State.boot_emit (o : Out) : (s.emit o).boot = s.boot := rfl
@[simp] theorem State.dl_emit (o : Out) : (s.emit o).dl = s.dl := rfl
@[simp] theorem State.flash_emit (o : Out) : (s.emit o).flash = s.flash := rfl
@[simp] theorem State.flashHeld_emit (o : Out) : (s.emit o).flashHeld = s.flashHeld := rfl
@[simp] theorem State.sc_emit (o : Out) : (s.emit o).sc = s.sc := rfl
@[simp] theorem State.ring_emit (o : Out) : (s.emit o).ring = s.ring := rfl
@[simp] theorem State.dict_emit (o : Out) : (s.emit o).dict = s.dict := rfl
@[simp] theorem State.pwr_emit (o : Out) : (s.emit o).pwr = s.pwr := rfl
@[simp] theorem State.hv_emit (o : Out) : (s.emit o).hv = s.hv := rfl
@[simp] theorem State.crk_emit (o : Out) : (s.emit o).crk = s.crk := rfl
@[simp] theorem State.touch_emit (o : Out) : (s.emit o).touch = s.touch := rfl
@[simp] theorem State.rtc_emit (o : Out) : (s.emit o).rtc = s.rtc := rfl
@[simp] theorem State.march_emit (o : Out) : (s.emit o).march = s.march := rfl
@[simp] theorem State.rs_emit (o : Out) : (s.emit o).rs = s.rs := rfl
@[simp] theorem State.pending_emit (o : Out) : (s.emit o).pending = s.pending := rfl

/-! ### State.lane -/

@[simp] theorem State.regs_lane (n : Fin 10) (f : LaneSt → LaneSt) : (s.lane n f).regs = s.regs := rfl
@[simp] theorem State.mem_lane (n : Fin 10) (f : LaneSt → LaneSt) : (s.lane n f).mem = s.mem := rfl
@[simp] theorem State.tick_lane (n : Fin 10) (f : LaneSt → LaneSt) : (s.lane n f).tick = s.tick := rfl
@[simp] theorem State.slow_lane (n : Fin 10) (f : LaneSt → LaneSt) : (s.lane n f).slow = s.slow := rfl
@[simp] theorem State.mt_lane (n : Fin 10) (f : LaneSt → LaneSt) : (s.lane n f).mt = s.mt := rfl
@[simp] theorem State.free_lane (n : Fin 10) (f : LaneSt → LaneSt) : (s.lane n f).free = s.free := rfl
@[simp] theorem State.epoch_lane (n : Fin 10) (f : LaneSt → LaneSt) : (s.lane n f).epoch = s.epoch := rfl
@[simp] theorem State.now_lane (n : Fin 10) (f : LaneSt → LaneSt) : (s.lane n f).now = s.now := rfl
@[simp] theorem State.bus_lane (n : Fin 10) (f : LaneSt → LaneSt) : (s.lane n f).bus = s.bus := rfl
@[simp] theorem State.abort_lane (n : Fin 10) (f : LaneSt → LaneSt) : (s.lane n f).abort = s.abort := rfl
@[simp] theorem State.sent_lane (n : Fin 10) (f : LaneSt → LaneSt) : (s.lane n f).sent = s.sent := rfl
@[simp] theorem State.balls_lane (n : Fin 10) (f : LaneSt → LaneSt) : (s.lane n f).balls = s.balls := rfl
@[simp] theorem State.tm_lane (n : Fin 10) (f : LaneSt → LaneSt) : (s.lane n f).tm = s.tm := rfl
@[simp] theorem State.sched_lane (n : Fin 10) (f : LaneSt → LaneSt) : (s.lane n f).sched = s.sched := rfl
@[simp] theorem State.copy_lane (n : Fin 10) (f : LaneSt → LaneSt) : (s.lane n f).copy = s.copy := rfl
@[simp] theorem State.frame_lane (n : Fin 10) (f : LaneSt → LaneSt) : (s.lane n f).frame = s.frame := rfl
@[simp] theorem State.engines_lane (n : Fin 10) (f : LaneSt → LaneSt) : (s.lane n f).engines = s.engines := rfl
@[simp] theorem State.ss_lane (n : Fin 10) (f : LaneSt → LaneSt) : (s.lane n f).ss = s.ss := rfl
@[simp] theorem State.err_lane (n : Fin 10) (f : LaneSt → LaneSt) : (s.lane n f).err = s.err := rfl
@[simp] theorem State.log_lane (n : Fin 10) (f : LaneSt → LaneSt) : (s.lane n f).log = s.log := rfl
@[simp] theorem State.ev_lane (n : Fin 10) (f : LaneSt → LaneSt) : (s.lane n f).ev = s.ev := rfl
@[simp] theorem State.uart0_lane (n : Fin 10) (f : LaneSt → LaneSt) : (s.lane n f).uart0 = s.uart0 := rfl
@[simp] theorem State.uart1_lane (n : Fin 10) (f : LaneSt → LaneSt) : (s.lane n f).uart1 = s.uart1 := rfl
@[simp] theorem State.svc_lane (n : Fin 10) (f : LaneSt → LaneSt) : (s.lane n f).svc = s.svc := rfl
@[simp] theorem State.boot_lane (n : Fin 10) (f : LaneSt → LaneSt) : (s.lane n f).boot = s.boot := rfl
@[simp] theorem State.dl_lane (n : Fin 10) (f : LaneSt → LaneSt) : (s.lane n f).dl = s.dl := rfl
@[simp] theorem State.flash_lane (n : Fin 10) (f : LaneSt → LaneSt) : (s.lane n f).flash = s.flash := rfl
@[simp] theorem State.flashHeld_lane (n : Fin 10) (f : LaneSt → LaneSt) : (s.lane n f).flashHeld = s.flashHeld := rfl
@[simp] theorem State.sc_lane (n : Fin 10) (f : LaneSt → LaneSt) : (s.lane n f).sc = s.sc := rfl
@[simp] theorem State.ring_lane (n : Fin 10) (f : LaneSt → LaneSt) : (s.lane n f).ring = s.ring := rfl
@[simp] theorem State.dict_lane (n : Fin 10) (f : LaneSt → LaneSt) : (s.lane n f).dict = s.dict := rfl
@[simp] theorem State.pwr_lane (n : Fin 10) (f : LaneSt → LaneSt) : (s.lane n f).pwr = s.pwr := rfl
@[simp] theorem State.hv_lane (n : Fin 10) (f : LaneSt → LaneSt) : (s.lane n f).hv = s.hv := rfl
@[simp] theorem State.crk_lane (n : Fin 10) (f : LaneSt → LaneSt) : (s.lane n f).crk = s.crk := rfl
@[simp] theorem State.touch_lane (n : Fin 10) (f : LaneSt → LaneSt) : (s.lane n f).touch = s.touch := rfl
@[simp] theorem State.rtc_lane (n : Fin 10) (f : LaneSt → LaneSt) : (s.lane n f).rtc = s.rtc := rfl
@[simp] theorem State.march_lane (n : Fin 10) (f : LaneSt → LaneSt) : (s.lane n f).march = s.march := rfl
@[simp] theorem State.rs_lane (n : Fin 10) (f : LaneSt → LaneSt) : (s.lane n f).rs = s.rs := rfl
@[simp] theorem State.pending_lane (n : Fin 10) (f : LaneSt → LaneSt) : (s.lane n f).pending = s.pending := rfl

/-! ### State.schedOf -/

@[simp] theorem State.regs_schedOf (n : Fin 10) (f : SchedSt → SchedSt) : (s.schedOf n f).regs = s.regs := rfl
@[simp] theorem State.mem_schedOf (n : Fin 10) (f : SchedSt → SchedSt) : (s.schedOf n f).mem = s.mem := rfl
@[simp] theorem State.tick_schedOf (n : Fin 10) (f : SchedSt → SchedSt) : (s.schedOf n f).tick = s.tick := rfl
@[simp] theorem State.slow_schedOf (n : Fin 10) (f : SchedSt → SchedSt) : (s.schedOf n f).slow = s.slow := rfl
@[simp] theorem State.mt_schedOf (n : Fin 10) (f : SchedSt → SchedSt) : (s.schedOf n f).mt = s.mt := rfl
@[simp] theorem State.free_schedOf (n : Fin 10) (f : SchedSt → SchedSt) : (s.schedOf n f).free = s.free := rfl
@[simp] theorem State.epoch_schedOf (n : Fin 10) (f : SchedSt → SchedSt) : (s.schedOf n f).epoch = s.epoch := rfl
@[simp] theorem State.now_schedOf (n : Fin 10) (f : SchedSt → SchedSt) : (s.schedOf n f).now = s.now := rfl
@[simp] theorem State.bus_schedOf (n : Fin 10) (f : SchedSt → SchedSt) : (s.schedOf n f).bus = s.bus := rfl
@[simp] theorem State.abort_schedOf (n : Fin 10) (f : SchedSt → SchedSt) : (s.schedOf n f).abort = s.abort := rfl
@[simp] theorem State.sent_schedOf (n : Fin 10) (f : SchedSt → SchedSt) : (s.schedOf n f).sent = s.sent := rfl
@[simp] theorem State.balls_schedOf (n : Fin 10) (f : SchedSt → SchedSt) : (s.schedOf n f).balls = s.balls := rfl
@[simp] theorem State.tm_schedOf (n : Fin 10) (f : SchedSt → SchedSt) : (s.schedOf n f).tm = s.tm := rfl
@[simp] theorem State.copy_schedOf (n : Fin 10) (f : SchedSt → SchedSt) : (s.schedOf n f).copy = s.copy := rfl
@[simp] theorem State.lanes_schedOf (n : Fin 10) (f : SchedSt → SchedSt) : (s.schedOf n f).lanes = s.lanes := rfl
@[simp] theorem State.frame_schedOf (n : Fin 10) (f : SchedSt → SchedSt) : (s.schedOf n f).frame = s.frame := rfl
@[simp] theorem State.engines_schedOf (n : Fin 10) (f : SchedSt → SchedSt) : (s.schedOf n f).engines = s.engines := rfl
@[simp] theorem State.ss_schedOf (n : Fin 10) (f : SchedSt → SchedSt) : (s.schedOf n f).ss = s.ss := rfl
@[simp] theorem State.err_schedOf (n : Fin 10) (f : SchedSt → SchedSt) : (s.schedOf n f).err = s.err := rfl
@[simp] theorem State.log_schedOf (n : Fin 10) (f : SchedSt → SchedSt) : (s.schedOf n f).log = s.log := rfl
@[simp] theorem State.ev_schedOf (n : Fin 10) (f : SchedSt → SchedSt) : (s.schedOf n f).ev = s.ev := rfl
@[simp] theorem State.uart0_schedOf (n : Fin 10) (f : SchedSt → SchedSt) : (s.schedOf n f).uart0 = s.uart0 := rfl
@[simp] theorem State.uart1_schedOf (n : Fin 10) (f : SchedSt → SchedSt) : (s.schedOf n f).uart1 = s.uart1 := rfl
@[simp] theorem State.svc_schedOf (n : Fin 10) (f : SchedSt → SchedSt) : (s.schedOf n f).svc = s.svc := rfl
@[simp] theorem State.boot_schedOf (n : Fin 10) (f : SchedSt → SchedSt) : (s.schedOf n f).boot = s.boot := rfl
@[simp] theorem State.dl_schedOf (n : Fin 10) (f : SchedSt → SchedSt) : (s.schedOf n f).dl = s.dl := rfl
@[simp] theorem State.flash_schedOf (n : Fin 10) (f : SchedSt → SchedSt) : (s.schedOf n f).flash = s.flash := rfl
@[simp] theorem State.flashHeld_schedOf (n : Fin 10) (f : SchedSt → SchedSt) : (s.schedOf n f).flashHeld = s.flashHeld := rfl
@[simp] theorem State.sc_schedOf (n : Fin 10) (f : SchedSt → SchedSt) : (s.schedOf n f).sc = s.sc := rfl
@[simp] theorem State.ring_schedOf (n : Fin 10) (f : SchedSt → SchedSt) : (s.schedOf n f).ring = s.ring := rfl
@[simp] theorem State.dict_schedOf (n : Fin 10) (f : SchedSt → SchedSt) : (s.schedOf n f).dict = s.dict := rfl
@[simp] theorem State.pwr_schedOf (n : Fin 10) (f : SchedSt → SchedSt) : (s.schedOf n f).pwr = s.pwr := rfl
@[simp] theorem State.hv_schedOf (n : Fin 10) (f : SchedSt → SchedSt) : (s.schedOf n f).hv = s.hv := rfl
@[simp] theorem State.crk_schedOf (n : Fin 10) (f : SchedSt → SchedSt) : (s.schedOf n f).crk = s.crk := rfl
@[simp] theorem State.touch_schedOf (n : Fin 10) (f : SchedSt → SchedSt) : (s.schedOf n f).touch = s.touch := rfl
@[simp] theorem State.rtc_schedOf (n : Fin 10) (f : SchedSt → SchedSt) : (s.schedOf n f).rtc = s.rtc := rfl
@[simp] theorem State.march_schedOf (n : Fin 10) (f : SchedSt → SchedSt) : (s.schedOf n f).march = s.march := rfl
@[simp] theorem State.rs_schedOf (n : Fin 10) (f : SchedSt → SchedSt) : (s.schedOf n f).rs = s.rs := rfl
@[simp] theorem State.pending_schedOf (n : Fin 10) (f : SchedSt → SchedSt) : (s.schedOf n f).pending = s.pending := rfl

/-! ### State.eng -/

@[simp] theorem State.regs_eng (n : Fin 10) (f : EngSt → EngSt) : (s.eng n f).regs = s.regs := rfl
@[simp] theorem State.mem_eng (n : Fin 10) (f : EngSt → EngSt) : (s.eng n f).mem = s.mem := rfl
@[simp] theorem State.tick_eng (n : Fin 10) (f : EngSt → EngSt) : (s.eng n f).tick = s.tick := rfl
@[simp] theorem State.slow_eng (n : Fin 10) (f : EngSt → EngSt) : (s.eng n f).slow = s.slow := rfl
@[simp] theorem State.mt_eng (n : Fin 10) (f : EngSt → EngSt) : (s.eng n f).mt = s.mt := rfl
@[simp] theorem State.free_eng (n : Fin 10) (f : EngSt → EngSt) : (s.eng n f).free = s.free := rfl
@[simp] theorem State.epoch_eng (n : Fin 10) (f : EngSt → EngSt) : (s.eng n f).epoch = s.epoch := rfl
@[simp] theorem State.now_eng (n : Fin 10) (f : EngSt → EngSt) : (s.eng n f).now = s.now := rfl
@[simp] theorem State.bus_eng (n : Fin 10) (f : EngSt → EngSt) : (s.eng n f).bus = s.bus := rfl
@[simp] theorem State.abort_eng (n : Fin 10) (f : EngSt → EngSt) : (s.eng n f).abort = s.abort := rfl
@[simp] theorem State.sent_eng (n : Fin 10) (f : EngSt → EngSt) : (s.eng n f).sent = s.sent := rfl
@[simp] theorem State.balls_eng (n : Fin 10) (f : EngSt → EngSt) : (s.eng n f).balls = s.balls := rfl
@[simp] theorem State.tm_eng (n : Fin 10) (f : EngSt → EngSt) : (s.eng n f).tm = s.tm := rfl
@[simp] theorem State.sched_eng (n : Fin 10) (f : EngSt → EngSt) : (s.eng n f).sched = s.sched := rfl
@[simp] theorem State.copy_eng (n : Fin 10) (f : EngSt → EngSt) : (s.eng n f).copy = s.copy := rfl
@[simp] theorem State.lanes_eng (n : Fin 10) (f : EngSt → EngSt) : (s.eng n f).lanes = s.lanes := rfl
@[simp] theorem State.frame_eng (n : Fin 10) (f : EngSt → EngSt) : (s.eng n f).frame = s.frame := rfl
@[simp] theorem State.ss_eng (n : Fin 10) (f : EngSt → EngSt) : (s.eng n f).ss = s.ss := rfl
@[simp] theorem State.err_eng (n : Fin 10) (f : EngSt → EngSt) : (s.eng n f).err = s.err := rfl
@[simp] theorem State.log_eng (n : Fin 10) (f : EngSt → EngSt) : (s.eng n f).log = s.log := rfl
@[simp] theorem State.ev_eng (n : Fin 10) (f : EngSt → EngSt) : (s.eng n f).ev = s.ev := rfl
@[simp] theorem State.uart0_eng (n : Fin 10) (f : EngSt → EngSt) : (s.eng n f).uart0 = s.uart0 := rfl
@[simp] theorem State.uart1_eng (n : Fin 10) (f : EngSt → EngSt) : (s.eng n f).uart1 = s.uart1 := rfl
@[simp] theorem State.svc_eng (n : Fin 10) (f : EngSt → EngSt) : (s.eng n f).svc = s.svc := rfl
@[simp] theorem State.boot_eng (n : Fin 10) (f : EngSt → EngSt) : (s.eng n f).boot = s.boot := rfl
@[simp] theorem State.dl_eng (n : Fin 10) (f : EngSt → EngSt) : (s.eng n f).dl = s.dl := rfl
@[simp] theorem State.flash_eng (n : Fin 10) (f : EngSt → EngSt) : (s.eng n f).flash = s.flash := rfl
@[simp] theorem State.flashHeld_eng (n : Fin 10) (f : EngSt → EngSt) : (s.eng n f).flashHeld = s.flashHeld := rfl
@[simp] theorem State.sc_eng (n : Fin 10) (f : EngSt → EngSt) : (s.eng n f).sc = s.sc := rfl
@[simp] theorem State.ring_eng (n : Fin 10) (f : EngSt → EngSt) : (s.eng n f).ring = s.ring := rfl
@[simp] theorem State.dict_eng (n : Fin 10) (f : EngSt → EngSt) : (s.eng n f).dict = s.dict := rfl
@[simp] theorem State.pwr_eng (n : Fin 10) (f : EngSt → EngSt) : (s.eng n f).pwr = s.pwr := rfl
@[simp] theorem State.hv_eng (n : Fin 10) (f : EngSt → EngSt) : (s.eng n f).hv = s.hv := rfl
@[simp] theorem State.crk_eng (n : Fin 10) (f : EngSt → EngSt) : (s.eng n f).crk = s.crk := rfl
@[simp] theorem State.touch_eng (n : Fin 10) (f : EngSt → EngSt) : (s.eng n f).touch = s.touch := rfl
@[simp] theorem State.rtc_eng (n : Fin 10) (f : EngSt → EngSt) : (s.eng n f).rtc = s.rtc := rfl
@[simp] theorem State.march_eng (n : Fin 10) (f : EngSt → EngSt) : (s.eng n f).march = s.march := rfl
@[simp] theorem State.rs_eng (n : Fin 10) (f : EngSt → EngSt) : (s.eng n f).rs = s.rs := rfl
@[simp] theorem State.pending_eng (n : Fin 10) (f : EngSt → EngSt) : (s.eng n f).pending = s.pending := rfl

end Sys2Proof.Machine
end

