-- ==== Sys2Proof/Laws/Ops.lean ====
section
/-!
SUPPORT. What the shared operations do, said once: reading a register field after an update, reading a byte after an update, the
frames of every update, and what a register access answers.
-/
namespace Sys2Proof.Machine

variable {s t u : State}

/-! ### Reading a register field -/

theorem State.get_set (s : State) (f g : RF) (v : Nat) :
    (s.set f v).get g = if g.key = f.key then v % f.bound else s.get g := by
  split
  · next h => rw [State.get, State.set, State.regs_noteRaised, State.put, h, Store.get_put_self, Option.getD_some]
  · next h => rw [State.get, State.set, State.regs_noteRaised, State.put, Store.get_put_other _ h, State.get]

@[simp] theorem State.get_set_self (s : State) (f : RF) (v : Nat) : (s.set f v).get f = v % f.bound := by
  rw [State.get_set, if_pos rfl]

theorem State.get_set_other {f g : RF} (h : g.key ≠ f.key) (s : State) (v : Nat) : (s.set f v).get g = s.get g := by
  rw [State.get_set, if_neg h]

theorem State.get_of_regs (h : t.regs = s.regs) (g : RF) : t.get g = s.get g := by rw [State.get, h, State.get]

@[simp] theorem State.get_poke (s : State) (a : Nat) (v : Byte) (g : RF) : (s.poke a v).get g = s.get g := rfl
@[simp] theorem State.get_lose (s : State) (lo hi : Nat) (g : RF) : (s.lose lo hi).get g = s.get g := rfl
@[simp] theorem State.get_eraseRange (s : State) (lo n : Nat) (g : RF) : (s.eraseRange lo n).get g = s.get g := rfl
@[simp] theorem State.get_fillWith (s : State) (lo n : Nat) (f : Nat → Byte) (g : RF) : (s.fillWith lo n f).get g = s.get g := rfl
@[simp] theorem State.get_garble (s : State) (lo n : Nat) (g : RF) : (s.garble lo n).get g = s.get g := rfl
@[simp] theorem State.get_emit (s : State) (o : Out) (g : RF) : (s.emit o).get g = s.get g := rfl
@[simp] theorem State.get_lane (s : State) (n : Fin 10) (f : LaneSt → LaneSt) (g : RF) : (s.lane n f).get g = s.get g := rfl
@[simp] theorem State.get_schedOf (s : State) (n : Fin 10) (f : SchedSt → SchedSt) (g : RF) : (s.schedOf n f).get g = s.get g := rfl
@[simp] theorem State.get_eng (s : State) (n : Fin 10) (f : EngSt → EngSt) (g : RF) : (s.eng n f).get g = s.get g := rfl

/-- The plain fields beside the registers have no part in reading one. -/
@[simp] theorem State.get_fields (s : State) (g : RF) {x_mem x_tick x_slow x_mt x_free x_epoch x_now x_bus x_abort x_sent x_balls x_drives x_tm
      x_sched x_copy x_lanes x_frame x_engines x_ss x_err x_log x_ev x_uart0 x_uart1 x_svc x_boot x_dl x_flash x_flashHeld x_sc
      x_ring x_dict x_pwr x_hv x_crk x_touch x_rtc x_march x_rs x_pending} :
    (State.mk s.regs x_mem x_tick x_slow x_mt x_free x_epoch x_now x_bus x_abort x_sent x_balls x_drives x_tm x_sched x_copy x_lanes x_frame
      x_engines x_ss x_err x_log x_ev x_uart0 x_uart1 x_svc x_boot x_dl x_flash x_flashHeld x_sc x_ring x_dict x_pwr x_hv x_crk
      x_touch x_rtc x_march x_rs x_pending).get g = s.get g := rfl

/-- A put is a set as far as the registers go. -/
@[simp] theorem State.get_put (s : State) (f g : RF) (v : Nat) : (s.put f v).get g = (s.set f v).get g := rfl

theorem State.get_put_other {f g : RF} (h : g.key ≠ f.key) (s : State) (v : Nat) : (s.put f v).get g = s.get g :=
  State.get_set_other h s v

@[simp] theorem State.get_noteRaised (s : State) (f g : RF) (m : Nat) : (s.noteRaised f m).get g = s.get g := rfl

@[simp] theorem State.get_noteCounted (s : State) (f g : RF) : (s.noteCounted f).get g = s.get g := rfl

@[simp] theorem State.get_setBit (s : State) (f g : RF) (i : Nat) (b : Bool) :
    (s.setBit f i b).get g = (s.set f (Machine.setBit (s.get f) i b)).get g := rfl

@[simp] theorem State.get_orBits (s : State) (f g : RF) (m : Nat) : (s.orBits f m).get g = (s.set f (s.get f ||| m)).get g := rfl

/-- A counter's increment (R16): it counts, or sets OVF and stays. -/
theorem State.get_count (s : State) (cnt ovf g : RF) :
    (s.count cnt ovf).get g =
      if s.get cnt + 1 < cnt.bound then (if g.key = cnt.key then s.get cnt + 1 else s.get g)
      else (if g.key = ovf.key then 1 % ovf.bound else s.get g) := by
  unfold State.count
  split
  · next h => rw [State.get_noteCounted, State.get_put, State.get_set, Nat.mod_eq_of_lt h]
  · rw [State.get_noteCounted, State.get_put, State.get_set]

/-- The registers that a reset does not name keep their value. -/
theorem State.get_resetRegs_other {p : Nat → Bool} {g : RF} (hg : g.lo < 32) (h : p g.addr = false) (s : State) :
    (s.resetRegs p).get g = s.get g := by
  have : g.key / 32 = g.addr := by unfold RF.key; omega
  rw [State.get, State.resetRegs, Store.get_filter_pos _ _, State.get]
  intro v; simp [this, h]

/-- The registers that a reset names have their reset value. -/
theorem State.get_resetRegs_self {p : Nat → Bool} {g : RF} (hg : g.lo < 32) (h : p g.addr = true) (s : State) :
    (s.resetRegs p).get g = (regDefault g.key).getD 0 := by
  have : g.key / 32 = g.addr := by unfold RF.key; omega
  rw [State.get, State.resetRegs, Store.get_filter_neg _ _]
  intro v; simp [this, h]

/-! ### Reading a byte -/

@[simp] theorem State.byte_set (s : State) (f : RF) (v a : Nat) : (s.set f v).byte a = s.byte a := rfl
@[simp] theorem State.byte_emit (s : State) (o : Out) (a : Nat) : (s.emit o).byte a = s.byte a := rfl
@[simp] theorem State.byte_lane (s : State) (n : Fin 10) (f : LaneSt → LaneSt) (a : Nat) : (s.lane n f).byte a = s.byte a := rfl
@[simp] theorem State.byte_schedOf (s : State) (n : Fin 10) (f : SchedSt → SchedSt) (a : Nat) :
    (s.schedOf n f).byte a = s.byte a := rfl
@[simp] theorem State.byte_eng (s : State) (n : Fin 10) (f : EngSt → EngSt) (a : Nat) : (s.eng n f).byte a = s.byte a := rfl
@[simp] theorem State.byte_resetRegs (s : State) (p : Nat → Bool) (a : Nat) : (s.resetRegs p).byte a = s.byte a := rfl

theorem State.byte_of_mem (h : t.mem = s.mem) (he : t.epoch = s.epoch) (a : Nat) : t.byte a = s.byte a := by
  rw [State.byte, h, he, State.byte]

@[simp] theorem State.byte_count (s : State) (c o : RF) (a : Nat) : (s.count c o).byte a = s.byte a := by
  unfold State.count; split <;> rfl

@[simp] theorem State.byte_poke_self (s : State) (a : Nat) (v : Byte) : (s.poke a v).byte a = v := by
  rw [State.byte, State.poke, Store.get_put_self, Option.getD_some]

theorem State.byte_poke_other {a b : Nat} (h : b ≠ a) (s : State) (v : Byte) : (s.poke a v).byte b = s.byte b := by
  rw [State.byte, State.poke, Store.get_put_other _ h, State.byte]

/-- Bytes written from an address up leave every other byte alone. -/
theorem State.byte_pokes_other (l : List Byte) (s : State) {a b : Nat} (h : b < a ∨ a + l.length ≤ b) :
    (s.pokes a l).byte b = s.byte b := by
  induction l generalizing s a with
  | nil => rfl
  | cons x l ih =>
    rw [List.length_cons] at h
    rw [State.pokes, ih _ (by omega), State.byte_poke_other (by omega)]

/-- Bytes written from an address up read back. -/
theorem State.byte_pokes_self (l : List Byte) (s : State) {a i : Nat} (h : i < l.length) :
    (s.pokes a l).byte (a + i) = l[i] := by
  induction l generalizing s a i with
  | nil => simp at h
  | cons x l ih =>
    rw [State.pokes]
    cases i with
    | zero => rw [State.byte_pokes_other _ _ (by omega)]; simp
    | succ i =>
      have := ih (s.poke a x) (a := a + 1) (i := i) (by simpa using h)
      rw [show a + (i + 1) = a + 1 + i by omega, this]; rfl

/-- An erased range reads as what its addresses read as unlisted; every other byte stays. -/
theorem State.byte_eraseRange (s : State) (lo n a : Nat) :
    (s.eraseRange lo n).byte a =
      if lo ≤ a ∧ a < lo + n then (memUnlisted a).getD (Config.undefByte s.epoch a) else s.byte a := by
  split
  · next h =>
    rw [State.byte, State.eraseRange, Store.get_filter_neg _ _]
    intro v; simp [h.1, h.2]
  · next h =>
    rw [State.byte, State.eraseRange, Store.get_filter_pos _ _, State.byte]
    intro v; simp only [Bool.not_eq_true', Bool.and_eq_false_imp, decide_eq_true_eq, decide_eq_false_iff_not]; omega

/-- Several bytes read the same where each does. -/
theorem State.bytes_congr (h : SameMemory s t) (a n : Nat) : t.bytes a n = s.bytes a n := by
  induction n generalizing a with
  | zero => rfl
  | succ n ih => rw [State.bytes, h a, ih, State.bytes]

theorem State.mem?_congr (h : SameMemory s t) (a n : Nat) : t.mem? a n = s.mem? a n := by
  rw [State.mem?, State.bytes_congr h, State.mem?]

@[simp] theorem State.mem?_set (s : State) (f : RF) (v a n : Nat) : (s.set f v).mem? a n = s.mem? a n :=
  State.mem?_congr (s := s) (t := s.set f v) (fun _ => rfl) a n
@[simp] theorem State.mem?_count (s : State) (c o : RF) (a n : Nat) : (s.count c o).mem? a n = s.mem? a n :=
  State.mem?_congr (s := s) (fun _ => State.byte_count s c o _) a n

/-- Bytes written change the memories alone. -/
theorem State.pokes_fields (l : List Byte) (a : Nat) (s : State) : s.pokes a l = { s with mem := (s.pokes a l).mem } := by
  induction l generalizing a s with
  | nil => rfl
  | cons b l ih => rw [State.pokes, ih]; rfl

@[simp] theorem leBytes_length (n v : Nat) : (leBytes n v).length = n := by
  induction n generalizing v with
  | zero => rfl
  | succ n ih => rw [leBytes, List.length_cons, ih]

/-- Byte `i` of a number, least significant first (R8). -/
theorem leBytes_get (n v i : Nat) (h : i < (leBytes n v).length) : (leBytes n v)[i] = BitVec.ofNat 8 (v / 2 ^ (8 * i)) := by
  induction n generalizing v i with
  | zero => simp [leBytes] at h
  | succ n ih =>
    cases i with
    | zero => simp [leBytes]
    | succ i =>
      simp only [leBytes, List.getElem_cons_succ]
      rw [ih, Nat.div_div_eq_div_mul, show 256 * 2 ^ (8 * i) = 2 ^ (8 * (i + 1)) by rw [Nat.mul_add, Nat.pow_add, Nat.mul_comm]]

/-- Bytes put somewhere read back there (R8). -/
theorem State.byte_pokes_le (s : State) {n v a i : Nat} (h : i < n) :
    (s.pokes a (leBytes n v)).byte (a + i) = BitVec.ofNat 8 (v / 2 ^ (8 * i)) := by
  rw [State.byte_pokes_self _ _ (by rw [leBytes_length]; exact h), leBytes_get]

theorem Store.find?_append {β : Type} (k : Nat) (l m : List (Nat × β)) :
    Store.find? k (l ++ m) = (Store.find? k l).or (Store.find? k m) := by
  induction l with
  | nil => rfl
  | cons c l ih => obtain ⟨k', v⟩ := c; simp only [List.cons_append, Store.find?]; split <;> simp [ih]

theorem Store.find?_none {β : Type} {k : Nat} {m : List (Nat × β)} (h : ∀ c ∈ m, c.1 ≠ k) : Store.find? k m = none := by
  induction m with
  | nil => rfl
  | cons c m ih =>
    obtain ⟨k', v⟩ := c
    rw [Store.find?, if_neg (h (k', v) (by simp)), ih fun c hc => h c (by simp [hc])]

/-- What a fill lists for an address of the range. -/
theorem Store.find?_fill (lo : Nat) (f : Nat → Byte) (l : List Nat) (i : Nat) (hi : i ∈ l) :
    Store.find? (lo + i) (l.filterMap fun i =>
        if memUnlisted (lo + i) = some (f (lo + i)) then none else some (lo + i, f (lo + i))) =
      if memUnlisted (lo + i) = some (f (lo + i)) then none else some (f (lo + i)) := by
  by_cases hd : memUnlisted (lo + i) = some (f (lo + i))
  · rw [if_pos hd]
    refine Store.find?_none fun c hc e => ?_
    obtain ⟨j, _, hj⟩ := List.mem_filterMap.1 hc
    by_cases hj' : memUnlisted (lo + j) = some (f (lo + j))
    · rw [if_pos hj'] at hj; cases hj
    · rw [if_neg hj'] at hj; cases hj
      exact hj' (by rw [show lo + j = lo + i from e]; exact hd)
  · rw [if_neg hd]
    induction l with
    | nil => simp at hi
    | cons j l ih =>
      by_cases e : j = i
      · subst e; simp [hd, Store.find?]
      · have hl := ih ((List.mem_cons.1 hi).resolve_left (Ne.symm e))
        by_cases hj : memUnlisted (lo + j) = some (f (lo + j))
        · simpa [List.filterMap_cons, hj] using hl
        · simpa [List.filterMap_cons, hj, Store.find?, e] using hl

/-- A filled range reads as filled; every other byte stays. -/
theorem State.byte_fillWith (s : State) (lo n : Nat) (f : Nat → Byte) (a : Nat) :
    (s.fillWith lo n f).byte a = if lo ≤ a ∧ a < lo + n then f a else s.byte a := by
  have key : ∀ p : Host.Cell → Bool, (∀ v, p (a, v) = false) → Store.find? a (s.mem.filter p) = none :=
    fun p h => Store.find?_filter_neg h _
  unfold State.byte Store.get
  simp only [State.fillWith, Store.find?_append]
  by_cases h : lo ≤ a ∧ a < lo + n
  · obtain ⟨i, rfl⟩ : ∃ i, a = lo + i := ⟨a - lo, by omega⟩
    rw [key (fun c => decide (c.1 < lo)) (by intro v; simp), key (fun c => decide (lo + n ≤ c.1)) (by intro v; simp; omega),
      Option.none_or, Option.or_none, Store.find?_fill lo f (List.range n) i (List.mem_range.2 (by omega)), if_pos h]
    by_cases hd : memUnlisted (lo + i) = some (f (lo + i))
    · simp [hd]
    · simp [hd]
  · rw [if_neg h]
    have mid : Store.find? a ((List.range n).filterMap fun i =>
        if memUnlisted (lo + i) = some (f (lo + i)) then none else some (lo + i, f (lo + i))) = none := by
      refine Store.find?_none fun c hc e => ?_
      obtain ⟨j, hj, hx⟩ := List.mem_filterMap.1 hc
      have := List.mem_range.1 hj
      by_cases hj' : memUnlisted (lo + j) = some (f (lo + j))
      · rw [if_pos hj'] at hx; cases hx
      · rw [if_neg hj'] at hx; cases hx
        exact h (by have e : lo + j = a := e; omega)
    rw [mid, Option.or_none]
    by_cases hl : a < lo
    · rw [Store.find?_filter_pos (by simp [hl]), key (fun c => decide (lo + n ≤ c.1)) (by intro v; simp; omega), Option.or_none]
    · rw [key (fun c => decide (c.1 < lo)) (by intro v; simp; omega), Option.none_or,
        Store.find?_filter_pos (by intro v; simp; omega)]

/-! ### Frames -/

theorem RegsBut.refl (fs : List RF) (s : State) : RegsBut fs s s := fun _ _ => rfl

theorem RegsBut.trans {fs : List RF} (h : RegsBut fs s t) (k : RegsBut fs t u) : RegsBut fs s u :=
  fun g hg => (k g hg).trans (h g hg)

theorem RegsBut.set {fs : List RF} (h : RegsBut fs s t) {f : RF} (hf : f ∈ fs) (v : Nat) : RegsBut fs s (t.set f v) :=
  fun g hg => (State.get_set_other (hg f hf) t v).trans (h g hg)

theorem RegsBut.put {fs : List RF} (h : RegsBut fs s t) {f : RF} (hf : f ∈ fs) (v : Nat) : RegsBut fs s (t.put f v) :=
  fun g hg => h.set hf v g hg

theorem RegsBut.count {fs : List RF} (h : RegsBut fs s t) {c o : RF} (hc : c ∈ fs) (ho : o ∈ fs) :
    RegsBut fs s (t.count c o) := by
  unfold State.count; split
  · exact fun g hg => h.put hc _ g hg
  · exact fun g hg => h.put ho _ g hg

theorem RegsBut.regs {fs : List RF} (h : RegsBut fs s t) (e : u.regs = t.regs) : RegsBut fs s u :=
  fun g hg => (State.get_of_regs e g).trans (h g hg)

theorem RegsOutside.refl (p : Nat → Bool) (s : State) : RegsOutside p s s := fun _ _ _ => rfl

theorem RegsOutside.trans {p : Nat → Bool} (h : RegsOutside p s t) (k : RegsOutside p t u) : RegsOutside p s u :=
  fun g hl hg => (k g hl hg).trans (h g hl hg)

theorem RegsOutside.set {p : Nat → Bool} (h : RegsOutside p s t) {f : RF} (hl : f.lo < 32) (hf : p f.addr = true) (v : Nat) :
    RegsOutside p s (t.set f v) := by
  intro g hg hp
  rw [State.get_set_other, h g hg hp]
  intro e
  have : g.addr = f.addr := by unfold RF.key at e; omega
  rw [this, hf] at hp; exact absurd hp (by decide)

theorem RegsOutside.regs {p : Nat → Bool} (h : RegsOutside p s t) (e : u.regs = t.regs) : RegsOutside p s u :=
  fun g hl hg => (State.get_of_regs e g).trans (h g hl hg)

theorem OnlyRegs.refl (fs : List RF) (s : State) : OnlyRegs fs s s := ⟨.refl fs s, fun _ => rfl, rfl⟩

theorem OnlyRegs.set {fs : List RF} (h : OnlyRegs fs s t) {f : RF} (hf : f ∈ fs) (v : Nat) : OnlyRegs fs s (t.set f v) :=
  ⟨h.1.set hf v, h.2.1, congrArg (fun x : State => { x with regs := (t.set f v).regs, now := (t.set f v).now }) h.2.2⟩

theorem OnlyRegs.put {fs : List RF} (h : OnlyRegs fs s t) {f : RF} (hf : f ∈ fs) (v : Nat) : OnlyRegs fs s (t.put f v) :=
  ⟨h.1.put hf v, h.2.1, congrArg (fun x : State => { x with regs := (t.put f v).regs }) h.2.2⟩

/-- The record of what was set or counted in the present clock is beside the point. -/
theorem OnlyRegs.now {fs : List RF} (h : OnlyRegs fs s t) (x : NowSt) : OnlyRegs fs s { t with now := x } :=
  ⟨h.1.regs rfl, h.2.1, congrArg (fun y : State => { y with now := x }) h.2.2⟩

theorem OnlyRegs.count {fs : List RF} (h : OnlyRegs fs s t) {c o : RF} (hc : c ∈ fs) (ho : o ∈ fs) :
    OnlyRegs fs s (t.count c o) := by
  unfold State.count; split
  · exact (h.put hc _).now _
  · exact (h.put ho _).now _

/-- The bus answer is beside the point. -/
theorem OnlyRegs.bus {fs : List RF} (h : OnlyRegs fs s t) (b : BusAns) : OnlyRegs fs s { t with bus := b } :=
  ⟨h.1.regs rfl, h.2.1, congrArg (fun x : State => { x with bus := b }) h.2.2⟩

/-! ### Register accesses (R38) -/

theorem State.busDo_reached {a : Nat} (h : s.accessible a = true) (k : State → State) :
    s.busDo a k = .next { k s with bus := .ok 0 } := by rw [State.busDo, if_pos h]

theorem State.busDo_unreached {a : Nat} (h : s.accessible a = false) (k : State → State) :
    s.busDo a k = .next { s with bus := .error } := by rw [State.busDo, if_neg (by simp [h])]

end Sys2Proof.Machine
end

