-- ==== Sys2Proof/Laws/RegMap.lean ====
section
/-!
SUPPORT. The register map is sound, no two fields of a register overlap in their lowest bit, and what a register write does to each
field of its register.
-/
namespace Sys2Proof.Machine

/-- Two fields of a register lie apart, and an OVF bit clears a read-only counter if anything. -/
def Fld.apart (f g : Fld) : Bool :=
  f.lo != g.lo && (match f.acc with | .ovf _ lo => g.lo != lo || g.acc == .ro | _ => true) &&
  (match g.acc with | .ovf _ lo => f.lo != lo || f.acc == .ro | _ => true)

/-- All fields of a list lie apart, below bit 32, and no OVF bit clears itself. -/
def fieldsApart : List Fld → Bool
  | [] => true
  | f :: l => (match f.acc with | .ovf _ lo => f.lo != lo && decide (lo < 32) | _ => true) && decide (f.lo < 32) &&
      l.all (f.apart ·) && fieldsApart l

theorem fieldsAt_apart (a : Nat) : fieldsApart (fieldsAt a) = true := by
  simp only [fieldsAt]
  generalize a % 4096 = o
  repeat' first
    | split
    | unfold clkgenFields | unfold pwrctlFields | unfold rstctlFields | unfold evrouteFields | unfold uartFields
    | unfold svcwireFields | unfold memctlFields | unfold recstoreFields | unfold flashctlFields | unfold erraggFields
    | unfold mtimeFields | unfold adcseqFields | unfold rtcFields | unfold harvestFields | unfold touchFields
    | unfold aonctlFields | unfold vaultctlFields | unfold laneFields | unfold pinengFields | unfold schedldFields
    | unfold portFields | unfold ringctlFields | unfold linkqFields | unfold dictengFields | unfold mboxFields
  all_goals first | decide | rfl | (simp only []; split <;> first | rfl | (split <;> rfl))

/-- A field's lowest bit lies in its register. -/
theorem fieldsAt_lo {a : Nat} {f : Fld} (h : f ∈ fieldsAt a) : f.lo < 32 := by
  have := fieldsAt_apart a
  revert this h
  generalize fieldsAt a = l
  intro h this
  induction l with
  | nil => simp at h
  | cons g l ih =>
    simp only [fieldsApart, Bool.and_eq_true, decide_eq_true_eq] at this
    rcases List.mem_cons.1 h with rfl | h
    · exact this.1.1.2
    · exact ih h this.2

/-- One field's write leaves alone what is not the field and is not cleared by it. -/
theorem State.get_writeField_other (s : State) (a v : Nat) (lk : Bool) (f : Fld) (g : RF) (h : g.key ≠ 32 * a + f.lo)
    (ho : ∀ hi lo, f.acc = .ovf hi lo → g.key ≠ 32 * a + lo) : (s.writeField a v lk f).get g = s.get g := by
  have h' : g.key ≠ (RF.mk a f.hi f.lo).key := h
  unfold State.writeField
  cases e : f.acc with
  | ovf hi lo =>
    simp only
    split
    · rw [State.clearCount, State.get_put_other (show g.key ≠ (RF.mk a hi lo).key from ho hi lo e), State.get_put_other h']
    · rfl
  | _ =>
    simp only [State.setLegal, State.clearBits]
    repeat' first | rfl | rw [State.get_put_other h'] | split

/-- A register write is no event of the present clock (R10). -/
theorem State.writeField_now (s : State) (a v : Nat) (lk : Bool) (f : Fld) : (s.writeField a v lk f).now = s.now := by
  unfold State.writeField State.setLegal
  cases f.acc <;> simp only [] <;> (repeat' split) <;> rfl

/-- A field's write reads the field alone. -/
theorem State.writeField_self (s s' : State) (a v : Nat) (lk : Bool) (f : Fld)
    (h : s.get ⟨a, f.hi, f.lo⟩ = s'.get ⟨a, f.hi, f.lo⟩) (hn : s.now = s'.now) (hne : ∀ hi lo, f.acc = .ovf hi lo → f.lo ≠ lo) :
    (s.writeField a v lk f).get ⟨a, f.hi, f.lo⟩ = (s'.writeField a v lk f).get ⟨a, f.hi, f.lo⟩ := by
  unfold State.writeField
  cases e : f.acc with
  | ovf hi lo =>
    have : (RF.mk a f.hi f.lo).key ≠ (RF.mk a hi lo).key := by
      have := hne hi lo e; simp only [RF.key]; omega
    simp only
    split
    · rw [State.clearCount, State.clearCount, State.get_put_other this, State.get_put_other this]; simp
    · exact h
  | _ =>
    simp only [State.setLegal, State.clearBits, State.raised, hn]
    repeat' first | exact h | simp only [State.get_put, State.get_set_self, h] | split

/-- What a register write leaves in a field that the write selects: what the field's own write leaves. -/
theorem State.get_writeFields (s : State) (p : Fld → Bool) (a v : Nat) (lk : Bool) (f : Fld) (hf : f ∈ fieldsAt a) (hp : p f = true)
    (hr : f.acc ≠ .ro) :
    (s.writeFields p a v lk).get ⟨a, f.hi, f.lo⟩ = (s.writeField a v lk f).get ⟨a, f.hi, f.lo⟩ := by
  have ap := fieldsAt_apart a
  unfold State.writeFields
  revert ap hf
  generalize fieldsAt a = l
  intro hf ap
  induction l generalizing s with
  | nil => simp at hf
  | cons g l ih =>
    simp only [fieldsApart, Bool.and_eq_true, decide_eq_true_eq, List.all_eq_true] at ap
    have rest : ∀ (m : List Fld) (t : State), (∀ g ∈ m, f.apart g = true) →
        (m.foldl (fun s g => s.writeField a v lk g) t).get ⟨a, f.hi, f.lo⟩ = t.get ⟨a, f.hi, f.lo⟩ := by
      intro m
      induction m with
      | nil => intros; rfl
      | cons g m ihm =>
        intro t hm
        have hg := hm g (by simp)
        simp only [Fld.apart, Bool.and_eq_true, bne_iff_ne] at hg
        rw [List.foldl_cons, ihm _ fun x hx => hm x (by simp [hx])]
        refine State.get_writeField_other t a v lk g _ (by simp only [RF.key]; omega) fun hi lo e => ?_
        have := hg.2
        simp only [e, Bool.or_eq_true, bne_iff_ne, beq_iff_eq] at this
        have := this.resolve_right hr
        simp only [RF.key]; omega
    rcases List.mem_cons.1 hf with rfl | hl
    · rw [List.filter_cons_of_pos hp, List.foldl_cons, rest]
      intro g hg
      exact ap.1.2 g (List.mem_filter.1 hg).1
    · by_cases hpg : p g = true
      · rw [List.filter_cons_of_pos hpg, List.foldl_cons, ih _ hl ap.2]
        have hgf := ap.1.2 f hl
        simp only [Fld.apart, Bool.and_eq_true, bne_iff_ne] at hgf
        refine State.writeField_self _ _ a v lk f ?_ (State.writeField_now s a v lk g) ?_
        · refine State.get_writeField_other s a v lk g _ (by simp only [RF.key]; omega) fun hi lo e => ?_
          have := hgf.1.2
          simp only [e, Bool.or_eq_true, bne_iff_ne, beq_iff_eq] at this
          have := this.resolve_right hr
          simp only [RF.key]; omega
        · intro hi lo e
          have : ∀ (m : List Fld), fieldsApart m = true → f ∈ m → f.lo ≠ lo := by
            intro m
            induction m with
            | nil => simp
            | cons x m ihm =>
              intro hm hx
              simp only [fieldsApart, Bool.and_eq_true] at hm
              rcases List.mem_cons.1 hx with rfl | hx
              · have := hm.1.1.1; simp only [e, Bool.and_eq_true, bne_iff_ne] at this; exact this.1
              · exact ihm hm.2 hx
          exact this l ap.2 hl
      · rw [List.filter_cons_of_neg (by simpa using hpg)]
        exact ih s hl ap.2

/-- A register write touches its own register alone. -/
theorem State.writeFields_frame (s : State) (p : Fld → Bool) (a v : Nat) (lk : Bool) :
    RegsOutside (fun x => x == a) s (s.writeFields p a v lk) ∧ SameMemory s (s.writeFields p a v lk) ∧
    s.writeFields p a v lk = { s with regs := (s.writeFields p a v lk).regs } := by
  have ap := fieldsAt_apart a
  unfold State.writeFields
  revert ap
  generalize fieldsAt a = l
  intro ap
  induction l generalizing s with
  | nil => exact ⟨.refl _ _, fun _ => rfl, rfl⟩
  | cons f l ih =>
    simp only [fieldsApart, Bool.and_eq_true, decide_eq_true_eq] at ap
    by_cases hp : p f = true
    · rw [List.filter_cons_of_pos hp, List.foldl_cons]
      have hone : ∃ r, s.writeField a v lk f = { s with regs := r } := by
        unfold State.writeField State.setLegal
        cases f.acc <;> simp only [] <;> (repeat' split) <;> exact ⟨_, rfl⟩
      obtain ⟨r, hr⟩ := hone
      obtain ⟨h1, h2, h3⟩ := ih (s.writeField a v lk f) ap.2
      refine ⟨RegsOutside.trans ?_ h1, ?_, ?_⟩
      · intro g hl hg
        have ha : g.addr ≠ a := by simpa using hg
        refine State.get_writeField_other s a v lk f g (by simp only [RF.key]; omega) fun hi lo e => ?_
        have := ap.1.1.1
        simp only [e, Bool.and_eq_true, decide_eq_true_eq] at this
        simp only [RF.key]; omega
      · intro x; rw [h2 x, hr]; rfl
      · rw [h3, hr]
    · rw [List.filter_cons_of_neg (by simpa using hp)]
      exact ih s ap.2

/-- The bits of a field are below its bound. -/
theorem bits_lt (w hi lo : Nat) : bits w hi lo < 2 ^ (hi + 1 - lo) := Nat.mod_lt _ (Nat.two_pow_pos _)

/-- A write of a plain field: the legal value, or the field as it was (R9, R15). -/
theorem State.get_writeField_rw (s : State) (a v : Nat) (lk : Bool) {f : Fld} (h : f.acc = .rw) :
    (s.writeField a v lk f).get ⟨a, f.hi, f.lo⟩ =
      if f.legal.ok (bits v f.hi f.lo) then f.legal.take (bits v f.hi f.lo) else s.get ⟨a, f.hi, f.lo⟩ := by
  have hl : f.legal.take (bits v f.hi f.lo) < (RF.mk a f.hi f.lo).bound := by
    refine lt_of_le_of_lt ?_ (bits_lt v f.hi f.lo)
    cases f.legal <;> simp [Legal.take]
  simp only [State.writeField, h, State.setLegal]
  split
  · rw [State.get_put, State.get_set_self, Nat.mod_eq_of_lt hl]
  · rfl

/-- A W1C field keeps the bits that are not written 1 (R9), and those that the device sets in the same clock (R10). -/
theorem State.get_writeField_w1c (s : State) (a v : Nat) (lk : Bool) {f : Fld} (h : f.acc = .w1c) :
    (s.writeField a v lk f).get ⟨a, f.hi, f.lo⟩ =
      (s.get ⟨a, f.hi, f.lo⟩ &&& ((RF.mk a f.hi f.lo).bound - 1 - bits v f.hi f.lo) |||
        (s.get ⟨a, f.hi, f.lo⟩ &&& s.raised ⟨a, f.hi, f.lo⟩)) % (RF.mk a f.hi f.lo).bound := by
  simp only [State.writeField, h]
  rw [State.clearBits, State.get_put, State.get_set_self]

end Sys2Proof.Machine
end

