-- ==== Sys2Proof/Tests/Slice0.lean ====
section
/-!
SUPPORT. Tests: WellFormed refuses ill-formed commands, and for every statement that has conditions a state and operands that meet
them. Each value comes from the statement's conditions and the register tables of spec/.
-/
namespace Sys2Proof.Tests
open Sys2Proof Sys2Proof.Machine

def endBank (s : State) : State :=
  ((s.pokes (bankBase 9 1) (List.replicate 5 0 ++ 4 :: List.replicate 24 0 ++ leBytes 2 11444)).set (SCHEDLD.L_BSTAT_BACK_STATE 9) 2).schedOf
    9 fun q => { q with vCount := 1, vCrc := 1870578291 }

/-- An engine that runs one word of the program store. -/
def runWord (w : Nat) : State :=
  ((((State.reset.set (PINENG.E_STAT_ESTATE 9) 2).set (PINENG.E_RANGE_END 9) 511).set (PINENG.E_STAT_PC 9) 511).pokeWord
    (0x50100800 + 4 * 511) w).eng 9 fun e => { e with cur := true }

/-- A request on the ring from node 5, and the state with the link running. -/
def ringMsg (index : BitVec 16) (sub : Byte) (data : List Byte) : DictMsg :=
  ⟨.ring 5 none, 7, 0, false, 0, index, sub, data⟩
def nodeMsg (node : Byte) (rsv : Bool) : DictMsg := ⟨.svc, 7, node, rsv, 0, 0, 0, []⟩
def dictOn : State := (State.reset.set DICTENG.CTRL_EN_RING 1).set DICTENG.CTRL_EN_SVC 1

/-- Write set 3 with one entry, the ring's address; armed for the instant 4 where `st` is 2. -/
def withWs3 (st : Nat) : State :=
  { dictOn.set MTIME.STATUS_TIME_VALID 1 with dict := { ws := #v[{}, {}, {}, { entries := [⟨0x1001, 1, [126]⟩], st := st, inst := 4 }] } }

/-! ### WellFormed refuses an ill-formed term of each check, and takes the largest operands that it allows -/

/-- A message of the given transport and length. -/
def wfMsg (via : Via) (n : Nat) : DictMsg := ⟨via, 0, 0, false, 0, 0x1000, 1, List.replicate n 0⟩
def wfCs : CycleStart := ⟨2 ^ 64 - 1, 2 ^ 32 - 1, 65535, 1023, 65535, 127, 7, 65535⟩
def wfDly : DlyFrame := ⟨true, true, true, 255, 2 ^ 32 - 1, 127, some 65535⟩
def wfSlot : SlotFrame := ⟨127, 127, 7, List.replicate 256 0⟩
def wfArr : Arrival := ⟨2 ^ 64 - 1, true⟩
def wfAcyc : AcyclicFrame := ⟨0, 255, 255, 255, some 5, none, List.replicate 512 0, 255⟩

theorem test_wf_refuses_addresses_and_levels : [Instr.registerWrite .app true .word (2 ^ 32) 0,
    .memoryAccess .app true .word (2 ^ 32) none .clean false, .busTimeout (2 ^ 32), .laneRegisterWrite 0 4096 0, .laneRegisterWrite 0 2 0,
    .sample 0 (2 ^ 120), .waitpin 0 (2 ^ 120), .waitpinComplete 0 (2 ^ 120), .shiftComplete 0 (2 ^ 32), .injectedExecute 0 (2 ^ 120),
    .tokReceived 0 50000].all (fun c => !c.wf) = true := by decide +kernel

theorem test_wf_refuses_frames : [Instr.cycleStartReceived 0 0 { wfCs with tm := 2 ^ 64 } true,
    .cycleStartReceived 0 0 { wfCs with corr := 2 ^ 32 } true, .cycleStartReceived 0 0 { wfCs with cyc := 65536 } true,
    .cycleStartReceived 0 0 { wfCs with tc := 1024 } true, .cycleStartReceived 0 0 { wfCs with acycPos := 65536 } true,
    .cycleStartReceived 0 0 { wfCs with master := 128 } true, .cycleStartReceived 0 0 { wfCs with flags := 8 } true,
    .cycleStartReceived 0 0 { wfCs with sleepCyc := 65536 } true,
    .dlyFrameReceived 0 { wfDly with seq := 256 } wfArr 0,
    .dlyFrameReceived 0 { wfDly with turn := 2 ^ 32 } wfArr 0,
    .dlyFrameReceived 0 { wfDly with addr := 128 } wfArr 0,
    .dlyFrameReceived 0 { wfDly with heal := some 65536 } wfArr 0, .slotReceived 0 { wfSlot with idx := 128 } wfArr,
    .slotReceived 0 { wfSlot with src := 128 } wfArr, .slotReceived 0 { wfSlot with flags := 8 } wfArr,
    .slotReceived 0 { wfSlot with data := [] } wfArr, .slotReceived 0 { wfSlot with data := List.replicate 264 0 } wfArr,
    .slotReceived 0 { wfSlot with data := List.replicate 9 0 } wfArr, .acyclicFrameReceived 0 { wfAcyc with dest := 256 } wfArr,
    .acyclicFrameReceived 0 { wfAcyc with src := 256 } wfArr, .acyclicFrameReceived 0 { wfAcyc with typ := 256 } wfArr,
    .acyclicFrameReceived 0 { wfAcyc with hops := 256 } wfArr, .acyclicFrameReceived 0 { wfAcyc with duid := none } wfArr,
    .acyclicFrameReceived 0 { wfAcyc with suid := some 5 } wfArr, .acyclicFrameReceived 0 { wfAcyc with ack := 256 } wfArr,
    .acyclicFrameReceived 0 { wfAcyc with payload := List.replicate 513 0 } wfArr, .slotReceived 0 wfSlot ⟨2 ^ 64, true⟩,
    .acyclicFrameReceived 0 wfAcyc ⟨2 ^ 64, true⟩].all (fun c => !c.wf) = true := by decide +kernel

theorem test_wf_refuses_messages : (let long := wfMsg .svc 501
    let far := wfMsg (.ring 128 none) 0
    let uid := wfMsg (.ring 0 (some (2 ^ 64))) 0
    let cast := wfMsg (.bcast 128) 0
    [Instr.read long, .write long, .describe long, .stage long, .commit long, .discard long, .snap long, .recollect long,
      .barrier long, .read far, .read uid, .read cast, .storePersisted (.bcast 128) 0, .eraseStored (.bcast 128) 0,
      .nonceWrite (.bcast 128) 0 [], .lifeCycleChange (.bcast 128) 0 [], .ownerKeyHashWrite (.bcast 128) 0 [],
      .debugUnlock (.bcast 128) 0 [], .logClearLost (.bcast 128) 0, .downloadBegin (.bcast 128) 0,
      .downloadData (.bcast 128) 0 [] false, .downloadFinish (.bcast 128) 0, .downloadActivate (.bcast 128) 0,
      .downloadAbort (.bcast 128) 0].all (fun c => !c.wf)) = true := by decide +kernel

theorem test_wf_refuses_lists : (let long : List Byte := List.replicate 501 0
    let f : MarchFault := ⟨5, 0, 0, 127⟩
    [Instr.loadData 0 long, .publish 0 0x4010 1 long, .nonceWrite .svc 0 long, .lifeCycleChange .svc 0 long,
      .ownerKeyHashWrite .svc 0 long, .debugUnlock .svc 0 long, .downloadData .svc 0 long false, .adcSequenceDone [],
      .adcSequenceDone (List.replicate 7 0), .touchScanEnd (List.replicate 63 0), .marchComplete [f, { f with elem := 6 }],
      .marchComplete [{ f with w := 65536 }], .marchComplete [{ f with chk := 128 }],
      .recstoreCommandDone (some 65536), .marginScan [65536], .marginScan [2], .flashCommandDone (some 1024)].all
      (fun c => !c.wf)) = true := by decide +kernel

theorem test_wf_takes_the_bounds : (let d : List Byte := List.replicate 500 0
    [Instr.registerWrite .app true .word (2 ^ 32 - 1) 0, .laneRegisterWrite 9 4092 0, .sample 9 (2 ^ 120 - 1), .tokReceived 1 49999,
      .cycleStartReceived 1 0 wfCs true, .dlyFrameReceived 1 wfDly wfArr 0, .slotReceived 1 wfSlot wfArr,
      .acyclicFrameReceived 1 wfAcyc wfArr,
      .read (wfMsg (.ring 127 (some (2 ^ 64 - 1))) 500), .loadData 9 d, .downloadData .tap 255 d false,
      .adcSequenceDone (List.replicate 6 0), .touchScanEnd (List.replicate 64 0), .marchComplete [⟨5, 65535, 0, 127⟩],
      .recstoreCommandDone (some 65535), .marginScan [65532], .flashCommandDone (some 1023)].all (·.wf)) = true := by decide +kernel

/-! ### Witnesses: states and operands that meet the statements' conditions -/

theorem test_StepRunsFrontCommand_empty : State.reset.pending = [] := by decide

theorem test_RegisterWriteByAccessCode : blockOf MEMCTL.IRQ_STAT = some .memctl ∧ mayReg .app true .memctl MEMCTL.IRQ_STAT = true ∧
    MEMCTL.IRQ_STAT % 4 = 0 ∧ State.reset.accessible MEMCTL.IRQ_STAT = true ∧ State.reset.lockedAt .memctl = false := by decide
theorem test_RegisterWriteByAccessCode_read : memKind (MEMCTL.IRQ_STAT + 0x100) = none ∧ blockOf (MEMCTL.IRQ_STAT + 0x100) = some .memctl ∧
    mayReg .app false .memctl (MEMCTL.IRQ_STAT + 0x100) = true ∧ (MEMCTL.IRQ_STAT + 0x100) % 4 = 0 ∧
    State.reset.accessible (MEMCTL.IRQ_STAT + 0x100) = true ∧ Block.window .memctl (MEMCTL.IRQ_STAT + 0x100) = false ∧
    MEMCTL.IRQ_STAT + 0x100 ∉ [MTIME.MT_LO, MTIME.SYNCIN_CAPT_LO, MTIME.SYNCIN_CAPT_HI, UART.DATA 0, UART.DATA 1] ∧
    rxfifoAt (MEMCTL.IRQ_STAT + 0x100) = none ∧ rtcReg (MEMCTL.IRQ_STAT + 0x100) = none ∧
    State.reset.viewReg (MEMCTL.IRQ_STAT + 0x100) = none ∧ fieldsAt (MEMCTL.IRQ_STAT + 0x100) = [] := by decide

theorem test_AccessSizesAndAlignment : blockOf LINKQ.CTRL = some .linkq ∧ mayReg .app true .linkq LINKQ.CTRL = true ∧
    (LINKQ.CTRL + 2) % 4 ≠ 0 ∧ Size.half ≠ Size.word ∧ memKind 0x20000001 = some .sram ∧ mayMem .app false false true .sram 0x20000001 = true ∧
    0x20000001 % sizeBytes .word ≠ 0 ∧ memKind (LINKQ.CTRL + 2) = none ∧ blockOf (LINKQ.CTRL + 2) = some .linkq ∧
    mayReg .app false .linkq (LINKQ.CTRL + 2) = true := by decide
theorem test_AccessSizesAndAlignment_aligned : memKind 0x2007FFFC = some .sram ∧ mayMem .linkq false false true .sram 0x2007FFFC = true ∧
    mayMem .linkq false false false .sram 0x2007FFFC = true ∧ 0x2007FFFC % sizeBytes .word = 0 ∧ State.reset.memUp .sram = true ∧
    State.reset.marching 0x2007FFFC = false := by decide

theorem test_ForbiddenAccesses : blockOf LINKQ.CTRL = some .linkq ∧ mayReg .cricket true .linkq LINKQ.CTRL = false ∧
    blockOf 0xFFFFFFFC = none ∧ memKind 0x28003800 = some .secure ∧ mayMem .app false false true .secure 0x28003800 = false ∧
    memKind 0xFFFFFFFF = none ∧ blockOf 0xFFFFFFFF = none ∧ memKind LINKQ.CTRL = none ∧
    mayReg .cricket false .linkq LINKQ.CTRL = false := by decide

theorem test_MemoryAccessesWithCheckBitsAndLimits : State.reset.memUp .sram = true ∧ State.reset.marching 0x2007FFFC = false ∧
    memKind 0x081FFFFC = some .flash ∧ State.reset.memUp .flash = true ∧ State.reset.marching 0x081FFFFC = false ∧
    memKind 0x28003800 = some .secure ∧ mayMem .app true false true .secure 0x28003800 = true ∧ State.reset.memUp .secure = true ∧
    (State.reset.set VAULTCTL.STAT_WIPING 1).on VAULTCTL.STAT_WIPING = true ∧
    (State.reset.set AONCTL.MODE_DOCKED 0).memUp .sched = false ∧ memKind 0x24000000 = some .sched ∧
    State.reset.memUp .sched = true ∧ State.reset.get (SCHEDLD.L_BSTAT_BACK_STATE 9) ≠ 2 ∧
    State.reset.get (SCHEDLD.L_BSTAT_BACK_STATE 9) ≠ 5 ∧ State.reset.backPhys 9 < 2 ∧
    State.reset.marching (0x24000000 + 9 * 0x6000 + State.reset.backPhys 9 * 0x3000 + 0x2FFC) = false := by decide

theorem test_ReportsAndTimeouts :
    let r : Report := ⟨0, 0x01, 0, 0, 0, false⟩
    let s : State := { State.reset with err := { pend := [r], recheck := [(63, 0)] }, tick := 25000 }
    s.domOn .sys = true ∧ s.dom .sys ≠ .off ∧ s.err.acc.getD (srcRegion 0) 0 ≠ s.tick + 1 ∧ s.lowestPend 0 = some r ∧ (63, 0) ∈ s.err.recheck ∧ 0 + 25000 ≤ s.tick ∧
    s.on ERRAGG.CTRL_WEDGE_RST = false ∧ blockOf LINKQ.CTRL = some .linkq ∧ srcPresent 0 = true ∧
    s.on (ERRAGG.SRC_PEND r.src) = false ∧ (s.report r).on (ERRAGG.SRC_PEND r.src) = true ∧ (s.report r).dom .sys ≠ .off := by decide +kernel

theorem test_ServoCommands : let s : State := { (State.reset.set MTIME.STATUS_STATE 1) with tm := { tLast := some 0 }, mt := 100000000 }
    (s.due (s.missedAt 0) = true ∧ s.get MTIME.STATUS_STATE = 1) ∧
    ((s.set MTIME.STATUS_STATE 2).due ((s.set MTIME.STATUS_STATE 2).missedAt 0) = true ∧ (s.set MTIME.STATUS_STATE 2).get MTIME.STATUS_STATE = 2) ∧
    (let u : State := { (s.set MTIME.STATUS_STATE 3) with mt := 2 ^ 50 }
     u.due (u.tm.hoEntry + u.get MTIME.HOLDOVER_LIM_LIMIT_MS * 1000000) = true ∧ u.tm.hoExpired = false) ∧
    s.accessible MTIME.CTRL = true ∧ s.accessible MTIME.PULL_LIM = true ∧
    ((s.set MTIME.STATUS_TIME_VALID 1).timeValid = true ∧ s.get (LANE.STAT_LSTATE 9) ≠ 3 ∧
      (∀ n : Fin 10, (s.set MTIME.STATUS_TIME_VALID 1).get (LANE.STAT_LSTATE n) ≠ 3)) ∧
    (let l : State := (s.set (LANE.STAT_LSTATE 9) 3).lane 9 fun l => { l with playing := true }
     l.get (LANE.STAT_LSTATE 9) = 3 ∧ l.lanes[(9 : Fin 10)].playing = true) ∧
    (let l : State := s.set (LANE.STAT_LSTATE 9) 4
     l.get (LANE.STAT_LSTATE 9) = 4 ∧ l.lanes[(9 : Fin 10)].act = 0) := by decide

theorem test_MachineTimePinsAndCompareChannels :
    let s : State := { State.reset with mt := 100, tm := { syncoutNext := some 100 } }
    let g : State := ((s.set MTIME.STATUS_STATE 4).set MTIME.OUT_CTRL_SYNCOUT_EN 1).set MTIME.OUT_CTRL_SYNCOUT_GATE 0
    let a : State := s.set MTIME.CMP_STAT_ARMED 8
    (true ≠ s.on MTIME.SYNCIN_CFG_EDGE ∨ false ≠ s.on MTIME.SYNCIN_CFG_EDGE) ∧ s.domOn .sys = true ∧ s.get MTIME.STATUS_STATE ≠ 4 ∧
    g.tm.syncinNs + 2 * g.get MTIME.SYNCIN_PERIOD_PERIOD < 4 * ({ g with tick := 2 ^ 40 } : State).tick + 4 ∧
    s.accessible MTIME.MT_LO = true ∧
    s.accessible MTIME.SYNCOUT_START_HI = true ∧ g.get MTIME.STATUS_STATE ≠ 0 ∧ g.due 100 = true ∧
    g.on MTIME.OUT_CTRL_SYNCOUT_EN = true ∧ (g.on MTIME.OUT_CTRL_SYNCOUT_GATE = false ∨ g.timeValid = true) ∧
    s.accessible (MTIME.CMP_HI 3) = true ∧ s.due (1 * 2 ^ 32 + s.get (MTIME.CMP_LO_CMP 3)) = false ∧
    s.due (0 * 2 ^ 32 + s.get (MTIME.CMP_LO_CMP 3)) = true ∧ s.accessible MTIME.CMP_STAT = true ∧
    a.bit MTIME.CMP_STAT_ARMED 3 = true ∧ a.mtRuns = true ∧ a.due (a.cmpInst 3) = true ∧
    ({ g with rtc := { secMt := some 5, calDue := true } } : State).get MTIME.STATUS_STATE = 4 ∧ g.tick ≤ 2500000 ∧ g.domOn .link = true := by decide +kernel
theorem test_refOut :
    let r : State := ((({ State.reset with boot := { State.reset.boot with released := true } } : State).set MTIME.STATUS_STATE 4).set
      MTIME.OUT_CTRL_REFOUT_EN 1).set MTIME.OUT_CTRL_REFOUT_GATE 0
    r.pinMode = .run ∧ r.on MTIME.OUT_CTRL_REFOUT_EN = true ∧ r.on MTIME.OUT_CTRL_REFOUT_GATE = false ∧
    r.get MTIME.STATUS_STATE ≠ 0 := by decide +kernel
theorem test_ballMap : padAt .F 10 = .sig (.isa 4) 0 ∧ padAt .H 6 = .sig (.fltN 9) 0 ∧ padAt .V 5 = .sig .debugIn 4 ∧ padAt .W 8 = .vssa := by
  decide

theorem test_RingPortsAndDelayFrames :
    let s : State := { (State.reset.set (PORT.CTRL_EN 1) 1).set (PORT.STAT_SIG 1) 1 with tm := { t1B := some 4 }, tick := 25000 }
    let u : State := ((s.set (PORT.STAT_LOST 1) 1).set (PORT.STAT_ALIGNED 1) 1).set (PORT.STAT_NBR_READY 1) 1
    let v : State := (u.set MTIME.LINKDLY_A_VALID 1).set MTIME.LINKDLY_B_VALID 1
    s.domOn .link = true ∧ (s.set (PORT.STAT_LOST 1) 0).lost 1 = false ∧ (s.set RINGCTL.STAT_RSTATE 3).get RINGCTL.STAT_RSTATE = 3 ∧
    s.on (PORT.CTRL_EN 1) = true ∧ s.on (PORT.STAT_SIG 1) = true ∧ s.t1 1 = some 4 ∧ u.lost 1 = true ∧
    v.portReady 1 = true ∧ u.on (PORT.STAT_NBR_READY 1) = true ∧ u.get RINGCTL.STAT_RSTATE = 0 ∧
    (u.set (PORT.STAT_HEAL_PEND 1) 1).on (PORT.STAT_HEAL_PEND 1) = true ∧
    v.healDue 1 = true ∧ s.requestDue 0 = true ∧ s.requestDue 1 = true ∧
    (s.set (PORT.STAT_SIG 1) 0).on (PORT.STAT_SIG 1) = false ∧ (s.set RINGCTL.CTRL_EN 1).on RINGCTL.CTRL_EN = true ∧
    s.ring.enAt + 25000 ≤ s.tick := by decide +kernel

theorem test_RingCycleAndSlots :
    let s : State := { (State.reset.set RINGCTL.STAT_RSTATE 4).set (PORT.STAT_LOST 0) 0 with
      mt := 2 ^ 40, ring := { nextB := some (4, 7), bLast := some (4, 7), fetched := some ([], false, false, none) } }
    let f : State := ((s.set RINGCTL.STAT_RSTATE 3).set (PORT.STAT_LOST 1) 0).set MTIME.LINKDLY_A_VALID 1
    let w : State := { (s.set MTIME.STATUS_STATE 4).set RINGCTL.ACYC_CUR_POS 100 with
      ring := { bLast := some (4, 7), slotEn := true, slotPos := 27, slotLen := 8, slotDone := false, fetched := some ([], false, false, none) } }
    let e : State := { w with ring := { w.ring with slotDone := true } }
    s.get RINGCTL.STAT_RSTATE = 4 ∧ s.due 4 = true ∧ s.ring.sleepT ≠ some 7 ∧ s.domOn .link = true ∧ w.ring.fetchCyc = w.get RINGCTL.CYCNUM_CYCLE ∧
    e.nextSlot = some (8, 4 + e.pathNs + 64 + 20 * 27 + 1000 * e.get RINGCTL.CYCLE_CUR_TC, 8) ∧ e.ringUp = true ∧
    e.due (4 + e.pathNs + 64 + 20 * 27 + 1000 * e.get RINGCTL.CYCLE_CUR_TC - 2000) = true ∧ s.isReturn 0 = true ∧ s.isReturn 1 = false ∧ f.domOn .link = true ∧ f.lost 0 = false ∧
    f.linkValid 0 = true ∧ f.ring.lastCyc ≠ some 65535 ∧ s.lost 0 = false ∧ w.slotInstant = some (4 + w.pathNs + 64 + 20 * 27) ∧ w.slotAllowed = true ∧
    w.due (4 + w.pathNs + 64 + 20 * 27) = true := by
  decide +kernel

theorem test_RingTokenAndAcyclicFrames :
    let s : State := { ((State.reset.set RINGCTL.STAT_RSTATE 4).set (PORT.STAT_LOST 0) 0).set RINGCTL.ADDR_ADDR 126 with
      mt := 2 ^ 40, ring := { bLast := some (4, 7), txOut := [(0, 0, 0)] } }
    let f : AcyclicFrame := { dest := 126, src := 5, typ := 4, hops := 254, duid := none, suid := none, payload := [], ack := 0 }
    s.due (4 + 64 + 20 * s.get RINGCTL.ACYC_CUR_POS) = true ∧ s.ring.tokSent = false ∧ s.domOn .link = true ∧ s.lost 0 = false ∧
    s.acycEnd < 2 ^ 40 ∧ s.sendAcyclic (s.outPort 0) 0 = none ∧
    (State.sendAcyclic { s with dict := { s.dict with out := [⟨f, 0⟩] } } (s.outPort 0) 0).isSome = true ∧ s.isSource f = false ∧ s.isDest f = true ∧
    s.isDest { f with dest := 6 } = false ∧ s.isSource { f with src := 126 } = true ∧ s.dictOlder = false ∧
    s.txLate 0 = true ∧ inSram (s.descAddr 0 0 + 8) 8 = inSram (s.get (LINKQ.Q_BASE_BASE 0) * 4 + 8) 8 ∧
    ({ s with dict := { s.dict with onRing := [(⟨f, 0⟩, 0)] } } : State).dictOlder = true ∧
    s.get (LINKQ.Q_HEAD_HEAD 0) = 0 ∧ s.accessible (LINKQ.Q_TAIL 7) = true := by decide +kernel

theorem test_RingFormation :
    let s : State := { (State.reset.set RINGCTL.STAT_RSTATE 1).set RINGCTL.CTRL_INSERT 1 with tick := 25000 }
    let m : State := s.set RINGCTL.CTRL_MASTER_CAP 1
    let f : State := { m.set RINGCTL.STAT_RSTATE 3 with mt := 2 ^ 40, tm := { tLast := some 0 } }
    s.accessible RINGCTL.CTRL = true ∧ State.reset.get RINGCTL.STAT_RSTATE = 0 ∧ State.reset.on AONCTL.MODE_DOCKED = true ∧
    s.ring.quietAt + 25000 ≤ s.tick ∧ s.hears 1 = true ∧ s.ring.bestKey = none ∧ s.on RINGCTL.CTRL_INSERT = true ∧ m.on RINGCTL.CTRL_MASTER_CAP = true ∧
    f.due (0 + 8000 * f.get RINGCTL.CYCLE_CUR_TC) = true ∧ f.on RINGCTL.CTRL_MASTER_CAP = true ∧
    (s.set RINGCTL.STAT_RSTATE 2).get RINGCTL.STAT_RSTATE = 2 ∧ s.domOn .link = true ∧ s.ring.clmAt = none ∧ s.ring.rstTick = 0 := by decide +kernel
theorem test_RingFormation_claims : let s := State.reset.set RINGCTL.CTRL_PRIO 1
    s.get RINGCTL.CTRL_PRIO * 2 ^ 64 + ownUid < (2 : Byte).toNat * 2 ^ 64 + (0 : BitVec 64).toNat ∧
    (1 : Byte).toNat * 2 ^ 64 + Config.uniqueId.toNat = s.get RINGCTL.CTRL_PRIO * 2 ^ 64 + ownUid ∧
    (0 : Byte).toNat * 2 ^ 64 + (0 : BitVec 64).toNat < s.get RINGCTL.CTRL_PRIO * 2 ^ 64 + ownUid := by
  have h : (State.reset.set RINGCTL.CTRL_PRIO 1).get RINGCTL.CTRL_PRIO = 1 := by decide
  have u : ownUid = Config.uniqueId.toNat := rfl
  have b := Config.uniqueId.isLt
  simp only [h, u]
  refine ⟨by simp; omega, by simp, by simp⟩

theorem test_RingSleepCommands :
    let s : State := State.reset.set RINGCTL.STAT_RSTATE 4
    let z : State := { s with ring := { sleepT := some 1 } }
    let w : State := ((State.reset.set RINGCTL.STAT_RSTATE 5).set RINGCTL.STAT_HELD 1).set (PORT.CTRL_EN 1) 1
    s.accessible RINGCTL.SLEEP = true ∧ s.ring.sleepT = none ∧ bits 0x80007FFF 15 0 = 32767 ∧
    (z.set RINGCTL.CYCNUM_CYCLE 1).get RINGCTL.CYCNUM_CYCLE ≠ (1 + 65535) % 65536 ∧ z.get RINGCTL.CYCNUM_CYCLE = (1 + 65535) % 65536 ∧
    w.get RINGCTL.STAT_RSTATE = 5 ∧ w.domOn .link = true ∧ w.on RINGCTL.STAT_HELD = true ∧ w.on (PORT.CTRL_EN 1) = true ∧
    w.pwr.entry = none ∧ w.pwr.step = .run ∧ w.pwr.exit = none ∧ ({ w with pwr := { w.pwr with step := .hover } } : State).pwr.step = .hover ∧
    ({ w with pwr := { w.pwr with step := .hover } } : State).domOn .link = true ∧ s.domOn .link = true ∧
    w.accessible RINGCTL.WAKE = true := by decide +kernel

theorem test_ScheduleCopyAndVerify_commands :
    let s : State := { State.reset.set SCHEDLD.COPY_SRC_SRC (0x20000000 / 32) with copy := { src := 0x20000000, lane := 9, count := 384, auto := true } }
    s.accessible SCHEDLD.COPY_CTRL = true ∧ s.get SCHEDLD.COPY_CTRL_BUSY = 0 ∧ bits 0x07800009 3 0 = 9 ∧ bits 0x07800009 25 25 = 1 ∧
    bits 0x07800009 26 26 = 1 ∧ bits 0x07800009 24 16 = 384 ∧ inSram (s.get SCHEDLD.COPY_SRC_SRC * 32) (384 * 32) = true ∧
    s.get (SCHEDLD.L_BSTAT_BACK_STATE 9) = 0 ∧ (s.set SCHEDLD.COPY_CTRL_BUSY 1).get SCHEDLD.COPY_CTRL_BUSY = 1 ∧
    s.accessible (SCHEDLD.L_CMD 9) = true ∧ (s.set (SCHEDLD.L_BSTAT_BACK_STATE 9) 5).get (SCHEDLD.L_BSTAT_BACK_STATE 9) = 5 ∧
    (s.set (SCHEDLD.L_BSTAT_BACK_STATE 9) 5).accessible (SCHEDLD.L_CMD 9) = true ∧
    s.marchHolds s.copy.src (s.copy.count * 32) = false ∧ inSram s.copy.src (s.copy.count * 32) = true ∧
    s.on (SCHEDLD.L_SWSTAT_ARMED 9) = false ∧ s.sched[9].landed = none ∧ s.domOn .lane = true ∧ (s.schedOf 9 fun q => { q with loadOffset := 376 }).sched[9].loadOffset + 256 / 32 = 384 := by decide
theorem test_ScheduleCopyAndVerify_pass : let s := endBank State.reset
    s.get (SCHEDLD.L_BSTAT_BACK_STATE 9) = 2 ∧ (verdict s.sched[9] (s.bytes (bankBase 9 (s.backPhys 9)) 12288)).reason = 0 := by
  decide +kernel
theorem test_ScheduleCopyAndVerify_fail : let s := (endBank State.reset).schedOf 9 fun q => { q with vCount := 0 }
    s.get (SCHEDLD.L_BSTAT_BACK_STATE 9) = 2 ∧ (verdict s.sched[9] (s.bytes (bankBase 9 (s.backPhys 9)) 12288)).reason = 1 := by
  decide +kernel

theorem test_EpochSwitching :
    let s : State := (endBank State.reset).set (SCHEDLD.L_BSTAT_BACK_STATE 9) 3
    let a : State := ({ s.set MTIME.STATUS_TIME_VALID 1 with mt := 0 } : State).set (SCHEDLD.L_SWT_LO_S_LO 9) 4
    let b : State := (a.set (SCHEDLD.L_SWSTAT_ARMED 9) 1).schedOf 9 fun q => { q with armS := 4 }
    let c : State := { b with mt := 4 }
    (s.accessible (SCHEDLD.L_CMD 9) = true ∧ s.get (SCHEDLD.L_BSTAT_BACK_STATE 9) = 3 ∧ s.timeValid = false) ∧
    (a.timeValid = true ∧ a.on (SCHEDLD.L_BSTAT_FRONT_VALID 9) = false ∧ a.on (SCHEDLD.L_SWSTAT_ARMED 9) = false ∧ a.sched[9].landed = none ∧ (a.stamp40 4).2 = false ∧ a.due (a.stamp40 4).1 = false ∧
      a.get (SCHEDLD.L_SWT_HI_S_HI 9) * 2 ^ 32 + a.get (SCHEDLD.L_SWT_LO_S_LO 9) = 4) ∧
    (b.on (SCHEDLD.L_SWSTAT_ARMED 9) = true ∧ b.due b.sched[9].armS = false) ∧
    (c.due c.sched[9].armS = true ∧ c.domOn .lane = true ∧ b.sched[9].landed = none ∧ (c.set (LANE.STAT_LSTATE 9) 2).get (LANE.STAT_LSTATE 9) = 2) := by decide +kernel
theorem test_EpochSwitching_switch :
    let c : State := { ((((endBank State.reset).set MTIME.STATUS_TIME_VALID 1).set (LANE.STAT_LSTATE 9) 2).set (SCHEDLD.L_SWSTAT_ARMED 9)
      1).schedOf 9 fun q => { q with armS := 4 } with mt := 4 }
    let d : State := c.set (LANE.STAT_LSTATE 9) 4
    (c.advance 9 4).switchRefusal 9 = none ∧ (d.advance 9 4).switchRefusal 9 = some 0x16 ∧ d.get (LANE.STAT_LSTATE 9) = 4 := by
  decide +kernel

theorem test_VerifiedSchedulesAreSound : let s := endBank State.reset
    let b := s.bytes (bankBase 9 1) 32
    (verdict s.sched[9] b).reason = 0 ∧ s.sched[9].vCount * 32 ≤ b.length ∧ 0 < s.sched[9].vCount := by decide +kernel

theorem test_LaneTicksAndFrames :
    let s : State := { State.reset.set ADCSEQ.CTRL_RUN 1 with frame := { running := true }, tick := 10000 }
    let u : State := s.set (LANE.STAT_LSTATE 9) 1
    let p : State := { State.reset.set MTIME.STATUS_STATE 4 with mt := 50000, frame := { startAt := some 3 } }
    p.frame.startAt = some 3 ∧ p.get MTIME.STATUS_STATE ≠ 0 ∧ p.mt % p.frame.period = 0 ∧
    ({ p with mt := 4 } : State).mt % p.frame.period ≠ 0 ∧
    (s.lane 9 fun l => { l with doneAt := some 10000 }).lanes[9].doneAt = some s.tick ∧
    s.laneTickDue 9 = true ∧ State.reset.laneTickDue 9 = false ∧ State.reset.accessible ADCSEQ.CTRL = true ∧
    (State.reset.writeSlotEn 0x800FFFFF).on ADCSEQ.CTRL_RUN = false ∧ State.reset.get MTIME.STATUS_STATE = 0 ∧
    (State.reset.set MTIME.STATUS_STATE 4).get MTIME.STATUS_STATE = 4 ∧ ((State.reset.set MTIME.STATUS_STATE 4).writeSlotEn 0).on
      ADCSEQ.CTRL_RUN = false ∧ s.accessible ADCSEQ.CTRL = true ∧ u.accessible ADCSEQ.PERIOD = true ∧
    (s.writeSlotEn 0).on ADCSEQ.CTRL_RUN = true ∧ (s.writeSlotEn 0).lanesOff = true ∧ (u.writeSlotEn 0).on ADCSEQ.CTRL_RUN = true ∧
    (u.writeSlotEn 0).lanesOff = false ∧ s.lanesOff = true ∧ bits 100000 16 0 = 100000 ∧ 100000 % 4 = 0 ∧
    u.on ADCSEQ.CTRL_RUN = true ∧ u.lanesOff = false ∧ State.reset.on ADCSEQ.CTRL_RUN = false ∧ s.accessible (0x50000000 + 9 * 0x1000 + 0x124) = true ∧
    s.accessible (0x50000000 + 9 * 0x1000) = true ∧ laneImmediate 0x124 = true ∧ laneImmediate 0 = false := by decide +kernel

theorem test_LaneEnablingAndCalibration :
    let s : State := (State.reset.set (LANE.CTRL_DRIVE 9) 1).set ADCSEQ.CTRL_SLOT_EN 0xC0000
    let r : State := (s.set ADCSEQ.CTRL_RUN 1).lane 9 fun l => { l with enAt := some 7, stage := [(7, 0, 0x80000001)] }
    let u := s.laneApply 9 0 0x80000001
    let c : State := (State.reset.set (LANE.STAT_LSTATE 9) 1).lane 9 fun l => { l with calN := 256, calNB := 256, calA := 256 * 2048, calB := 256 * 2048 }
    let q : State := (State.reset.set (LANE.QCFG_EN 9) 1).set (LANE.QCFG_IDXMODE 9) 1
    (r.on ADCSEQ.CTRL_RUN = true ∧ r.lanes[(9 : Fin 10)].enAt = some 7 ∧ (fun t => decide (t ≤ 7)) 7 = true ∧
      (fun t => decide (t < 7)) 7 = false ∧ s.on ADCSEQ.CTRL_RUN = false ∧ u.on ADCSEQ.CTRL_RUN = false) ∧
    (s.accessible (LANE.CTRL 9) = true ∧ u.get (LANE.STAT_LSTATE 9) = 0 ∧ u.get (LANE.CTRL_DRIVE 9) = 1 ∧
      getBit (u.get ADCSEQ.CTRL_SLOT_EN) 18 = true ∧ getBit (u.get ADCSEQ.CTRL_SLOT_EN) 19 = true) ∧
    ((State.reset.laneApply 9 0 0).get (LANE.CTRL_DRIVE 9) = 0 ∧ (State.reset.laneApply 9 0 0).get (LANE.STAT_LSTATE 9) = 0) ∧
    (c.switchAt 9).get (LANE.STAT_LSTATE 9) = 1 ∧
    (c.get (LANE.STAT_LSTATE 9) = 1 ∧ c.lanes[9].calN = 256 ∧ c.lanes[9].calNB = 256 ∧ (c.lanes[9].calA + 128) / 256 = 2048) ∧
    (q.domOn .lane = true ∧ q.on (LANE.QCFG_EN 9) = true ∧ q.lanes[9].qa = false ∧ q.lanes[9].qb = false ∧
      q.lanes[9].qaNext ≤ q.tick ∧ q.lanes[9].qbNext ≤ q.tick ∧ q.lanes[9].qiNext ≤ q.tick ∧ q.lanes[9].idxTick ≠ some q.tick ∧
      (q.lane 9 fun l => { l with idxTick := some 0, qaNext := 1 }).lanes[9].idxTick = some q.tick ∧
      q.tick < (q.lane 9 fun l => { l with qaNext := 1 }).lanes[9].qaNext ∧ ({ q with tick := 1 } : State).lanes[9].qdTick ≠ 1 ∧
      q.get (LANE.QCFG_IDXMODE 9) = 1 ∧ q.accessible (LANE.QCNT 9) = true) ∧
    (q.set (LANE.STAT_LSTATE 9) 3).get (LANE.STAT_LSTATE 9) = 3 := by decide +kernel

theorem test_LoopOutputsAreBounded : (0 : Int) ≤ 300 ∧ (-32767 : Int).natAbs ≤ 32767 ∧ 2499 ≤ 2500 ∧ (0 : Int) ≤ 32767 ∧ (-1 : Int) < 0 := by decide

theorem test_LaneFaultDetection :
    let s : State := State.reset.set (LANE.STAT_LSTATE 9) 3
    let l (f : LaneSt → LaneSt) : State := ((s.set (LANE.FLT_CFG_OPEN_EN 9) 1).set (LANE.FLT_CFG_FE_EN 9) 1).lane 9 f
    s.get (LANE.STAT_LSTATE 9) = 3 ∧ (s.set (LANE.STAT_LSTATE 9) 1).get (LANE.STAT_LSTATE 9) = 1 ∧ s.domOn .lane = true ∧ (s.set (LANE.FLT_CFG_DRV_EN 9) 1).on (LANE.FLT_CFG_DRV_EN 9) = true ∧
    ((l fun x => { x with openA := 8 }).openSeen 9).isSome = true ∧ ((l fun x => { x with stuckB := 64 }).stuckSeen 9).isSome = true ∧
    ((l fun x => { x with plausA := 2 }).plausSeen 9).isSome = true ∧ (l fun x => { x with sumN := 8 }).sumSeen 9 = true ∧
    (l fun x => { x with feN := 65535 }).feSeen 9 = true ∧ s.lanes[9].resNow = none ∧ s.on (LANE.RES_STAT_PENDING 9) = false ∧
    firstClass ([(.oc, 3)] ++ s.detected 9) = some (.oc, 3) := by decide +kernel

theorem test_LaneResumption :
    let s : State := State.reset.set (LANE.STAT_LSTATE 9) 4
    let h : State := { s.lane 9 fun l => { l with act := 1 } with tick := 10000 }
    let r : State := ({ s.set MTIME.STATUS_TIME_VALID 1 with mt := 4 } : State).set (LANE.RES_STAT_PENDING 9) 1
    (h.lanes[9].holdEnd ≤ 4 * h.frame.frameTick + h.centre 9 ∧ 4 * h.frame.frameTick + h.centre 9 < 4 * h.tick + 4 ∧
      h.lanes[9].act = 1 ∧ h.timeValid = false) ∧
    (s.accessible (LANE.RESUME 9) = true ∧ bits 0x80000001 7 0 = 1 ∧ (s.stamp40 (2 ^ 32)).2 = false ∧ (s.stamp40 (2 ^ 32)).1 ≠ s.mt ∧
      s.get (LANE.RES_AT_LO_RES_AT_LO 9) = 0) ∧
    (r.on (LANE.RES_STAT_PENDING 9) = true ∧ r.due r.lanes[9].resAt = true ∧ r.lanes[9].resNow = none ∧ r.timeValid = true ∧ r.lanes[9].act ≠ 1 ∧
      (r.set (LANE.RES_STAT_PENDING 9) 0).recordAfter 9 0 384 r.lanes[9].nxt = none ∧
      (r.set (LANE.RES_STAT_PENDING 9) 0).resumeRefusal 9 none = none ∧ r.get (LANE.STAT_LSTATE 9) = 4 ∧
      (r.set (LANE.FLT_STAT_LIVE_OC 9) 1).on (LANE.FLT_STAT_LIVE_OC 9) = true) := by decide +kernel

theorem test_PinEngineInstructions :
    let ok (w op : Nat) : Bool := peOp ((runWord w).peWord 9) == op && (runWord w).get (PINENG.E_STAT_ESTATE 9) == 2 &&
      (runWord w).engines[(9 : Fin 10)].wait == .fresh && (runWord w).engines[(9 : Fin 10)].cur && (runWord w).peTime 9 ((runWord w).peWord 9)
    (List.range 10).all (fun op => ok (op * 2 ^ 28) op) = true ∧
    peStall (4 * 2 ^ 28 + 2 ^ 21) = true ∧ peDest (4 * 2 ^ 28 + 2 ^ 21) ≠ 1 ∧
    ((runWord 0).eng 9 fun e => { e with rx := List.replicate 8 0 }).engines[(9 : Fin 10)].rx.length = 8 ∧
    (runWord 0).txHead 9 = none ∧ ((runWord 0).withBalls 0).peTime 9 (((runWord 0).withBalls 0).peWord 9) = true ∧
    (runWord 0).get (PINENG.E_RANGE_START 9) ≤ 511 ∧ 511 ≤ (runWord 0).get (PINENG.E_RANGE_END 9) ∧
    (runWord 0).domOn .lane = true ∧ (runWord 0).get (PINENG.E_RANGE_END 9) < 512 := by decide +kernel
theorem test_PinEngineInstructions_waits :
    let at_ (w : Nat) (x : EWait) : State := ((((runWord 0).set (PINENG.E_STAT_PC 9) 510).pokeWord (0x50100800 + 4 * 510) w).eng 9 fun e =>
      { e with wait := x })
    let p := at_ (2 * 2 ^ 28 + 2 ^ 17) (.pin 0 false)
    let sh := { at_ (3 * 2 ^ 28) (.shift 0) with tick := 63 }
    let b := (at_ (2 * 2 ^ 28 + 3 * 2 ^ 26) (.pin 0 false)).eng 9 fun e => { e with inst := some 0 }
    (p.get (PINENG.E_RANGE_START 9) ≤ p.peNext 9 ∧ p.peNext 9 ≤ p.get (PINENG.E_RANGE_END 9) ∧ p.peNext 9 = 511 ∧
      p.engines[(9 : Fin 10)].inj = none) ∧
    p.byOver 9 (p.peWord 9) = false ∧
    waitHolds (p.peWord 9) (((p.set (PINENG.E_PINMAP0_B0 9) 59).withBalls (2 ^ 59 + 2 ^ 119)).waitLevel 9 (p.peWord 9)) false false = true ∧
    0 + peCnt (sh.peWord 9) * 2 * sh.peDiv 9 ≤ sh.tick + 1 ∧ (at_ 0 .push).engines[(9 : Fin 10)].rx.length < 8 ∧
    (({ at_ 0 .pull with tick := 1 } : State).eng 9 fun e => { e with tx := [(0, 7)] }).txHead 9 = some 7 ∧
    (b.get (PINENG.E_STAT_ESTATE 9) = 2 ∧ b.engines[(9 : Fin 10)].cur = true ∧ peTmode (b.peWord 9) = 3 ∧
      b.engines[(9 : Fin 10)].inst = some 0 ∧ b.due 0 = true) := by decide +kernel

theorem test_PinEngineWaitsAndDeadlines :
    let s := runWord (2 * 2 ^ 28 + 2 ^ 17)
    let b := runWord (2 * 2 ^ 28 + 3 * 2 ^ 26)
    waitHolds (s.peWord 9) true false false = true ∧ waitHolds (s.peWord 9) false false false = false ∧
    s.byOver 9 (s.peWord 9) = false ∧ s.domOn .lane = true ∧ ((s.set (PINENG.E_PINMAP0_B0 9) 0).withBalls (2 ^ 60)).waitLevel 9
      (s.peWord 9) = false ∧
    (runWord (3 * 2 ^ 28)).peDiv 9 = 1 ∧ peCnt ((runWord (3 * 2 ^ 28)).peWord 9) = 32 ∧
    (({ runWord 0 with tick := 1 } : State).eng 9 fun e => { e with tx := [(0, 7)] }).txHead 9 = some 7 ∧
    (b.get (PINENG.E_STAT_ESTATE 9) = 2 ∧ b.engines[(9 : Fin 10)].cur = true ∧ peTmode (b.peWord 9) = 3 ∧ b.due 0 = true) ∧
    ({ s with mt := 2 ^ 30 } : State).due s.engines[(9 : Fin 10)].staleAt = true ∧ s.accessible (PINENG.E_INJECT 9) = true ∧
    s.on (PINENG.E_FIFO_STAT_INJ_PEND 9) = false ∧ injectOk (6 * 2 ^ 28) true = false ∧ injectOk (2 ^ 28) true = true ∧
    (s.set (PINENG.E_FIFO_STAT_INJ_PEND 9) 1).on (PINENG.E_FIFO_STAT_INJ_PEND 9) = true ∧ s.shifting 9 = false ∧
    s.atBoundary 9 = true ∧ s.engines[(9 : Fin 10)].next ≤ s.tick := by decide +kernel
theorem test_PinEngineWaitsAndDeadlines_level :
    let s : State := ((runWord (2 * 2 ^ 28 + 2 ^ 17)).set (PINENG.E_PINMAP0_B0 9) 59).withBalls (2 ^ 119 + 2 ^ 59)
    s.waitLevel 9 (s.peWord 9) = true ∧ s.pinLevel 9 0 = true := by decide +kernel

theorem test_PinEngineStartStopAndStore :
    let s := runWord 0
    let i : State := s.set (PINENG.E_STAT_ESTATE 9) 0
    let g : State := (((s.set PINENG.SS_CTRL_MASK 512).set PINENG.SS_CTRL_START 1).set PINENG.SS_AT_AT 4).set PINENG.SS_STAT_ARMED 1
    i.peIdle 9 = true ∧ i.accessible (PINENG.E_CTRL 9) = true ∧ s.domOn .lane = true ∧
    peIllegal ((s.set (PINENG.E_RANGE_START 9) 511).mem? (0x50100800 + 4 * 511) 4) = 0 ∧ s.accessible PINENG.SS_CTRL = true ∧
    s.storeBusy 511 = true ∧ i.storeBusy 511 = false ∧ s.accessible (PINENG.E_TXFIFO 9) = true ∧
    s.accessible (PINENG.E_RXFIFO 9) = true ∧ s.engines[(9 : Fin 10)].tx.length < 8 ∧
    (s.eng 9 fun e => { e with tx := List.replicate 8 (0, 0), rx := [(0, 5)], rxLost := some ⟨0, [7], 0, 0⟩ }).engines[(9 : Fin 10)].tx.length = 8 ∧
    s.engines[(9 : Fin 10)].rx = [] ∧ getBit 0x80000000 30 = false ∧ g.get PINENG.SS_CTRL_MASK = 512 ∧
    g.on PINENG.SS_CTRL_START = true ∧ g.class32 (g.get PINENG.SS_AT_AT) = some 4 ∧ g.on PINENG.SS_STAT_ARMED = true ∧
    ({ g with ss := { inst := 4 } } : State).due 4 = false ∧ g.due g.ss.inst = true ∧
    ({ s with mt := 2 ^ 30 } : State).due s.engines[(9 : Fin 10)].staleAt = true ∧ s.accessible (PINENG.E_INJECT 9) = true ∧
    injectOk (6 * 2 ^ 28) true = false ∧ injectOk (2 ^ 28) true = true ∧ s.engines[(9 : Fin 10)].inj = none ∧ s.shifting 9 = false ∧
    s.atBoundary 9 = true ∧ s.engines[(9 : Fin 10)].next ≤ s.tick := by decide +kernel

theorem test_DictionaryRequests :
    let m := ringMsg 0x1000 1 []
    let z := ringMsg 0 0 []
    let n := nodeMsg 126 false
    let q := ({ dictOn with dict := { turn := 1 } } : State)
    let ring := (some { dictOn with dict := { turn := 0 } } : Option State)
    dictOn.serveBad dictOn.dict.reqs.length = dictOn ∧ dictOn.dictServes = true ∧ dictOn.dictBusy = false ∧
    q.domOn .link = true ∧ hasNode m.via = false ∧ hasNode n.via = true ∧
    ([1, 2, 3, 0x10].all fun op => dictOn.takeReq op m == ring && msgAbort op m == 0) = true ∧
    ([0x11, 0x12, 0x20, 0x21].all fun op => dictOn.takeReq op z == ring && msgAbort op z == 0) = true ∧
    ([1, 0x11].all fun op => dictOn.takeReq op n == some q) = true ∧ (nodeMsg 0 true).rsv = true ∧
    ([1, 0x20].all fun op => dictOn.takeReq op (nodeMsg 0 true) == some q) = true ∧
    dictOn.takeReq 0x30 (nodeMsg 127 false) = some q ∧ msgAbort 0x30 (nodeMsg 127 false) = 0 ∧ dictOn.dict.barrier = none := by
  decide +kernel
theorem test_DictionaryRequests_held :
    let m := ringMsg 0x1000 1 []
    let b := ({ dictOn with dict := { app := some ⟨1, m⟩ } } : State)
    let w := ({ dictOn with dict := { reqs := [⟨.ring 9 none, reqMsg 3 m 0⟩], barrier := some ⟨0x30, nodeMsg 127 false⟩ } } : State)
    b.serveBad 0 = b ∧ b.dict.reqs.length = 0 ∧ b.dictBusy = true ∧ b.dictServes = true ∧
    w.serveBad w.dict.reqs.length = w ∧ w.takeReq 1 m = none ∧ w.nextReq = some ⟨.ring 9 none, reqMsg 3 m 0⟩ ∧
    w.dict.barrier ≠ none ∧ (ringMsg 0x1000 1 []).via ≠ .bcast 9 := by decide +kernel

theorem test_ObjectReadsAndWrites_objects :
    isApp 0x1000 = false ∧ dictOn.lookup 0x1FFF 0 = .error Abort.noObject ∧ dictOn.lookup 0x1000 0xFF = .error Abort.noSub ∧
    (dictOn.lookup 0x1010 1).toOption.map (·.acc) = some .wo ∧ (dictOn.lookup 0x1000 1).toOption.map (·.acc) = some .ro ∧
    dictOn.domainOff 0x1000 = false ∧ ({ dictOn with pwr := { step := .torpor } } : State).domainOff 0x2000 = true ∧
    ((dictOn.lookup 0x1001 1).toOption.map fun o => (o.acc, o.typ.scalar, dictOn.writeAbort o 0x1001 1 [126])) = some (.rw, true, 0) ∧
    (dictOn.lookup 0x7050 6).toOption.map (·.acc) = some .rwc ∧ low40 0x1001 1 = false := by decide +kernel
theorem test_ObjectReadsAndWrites_rest :
    (dictOn.set DICTENG.APP_CFG_EN 1).on DICTENG.APP_CFG_EN = true ∧ dictOn.accessible DICTENG.APP_RESP = true ∧
    dictOn.accessible DICTENG.LOC_CTRL = true ∧ dictOn.on DICTENG.STAT_LOC_BUSY = false ∧
    (let b := dictOn.set DICTENG.LOC_BUF_BUF (0x20000000 / 4)
     let held := ({ (b.set MEMCTL.MT_STAT_BUSY 1).set DICTENG.STAT_LOC_BUSY 1 with march := { target := 0 } } : State)
     inSram (b.get DICTENG.LOC_BUF_BUF * 4) 512 = true ∧ (b.set DICTENG.STAT_LOC_BUSY 1).marchHolds 0x20000000 512 = false ∧
     b.get DICTENG.LOC_BUF_BUF * 4 = 0x20000000 ∧ held.marchHolds 0x20000000 512 = true) ∧
    dictOn.dict.appAt + 250 * (dictOn.set DICTENG.APP_CFG_TIMEOUT 0).get DICTENG.APP_CFG_TIMEOUT ≤ dictOn.tick ∧
    dictOn.dict.vaultAt + dictOn.fastTicks 4096 ≤ 2 ^ 30 ∧ dictOn.get RINGCTL.CYCLE_CUR_TC * 1000 ≤ 2 ^ 30 := by decide

theorem test_WriteSets :
    let m : DictMsg := ⟨.ring 5 none, 7, 0, false, 3, 0x1001, 1, [126]⟩
    let c : DictMsg := ⟨.ring 5 none, 7, 0, false, 3, 0, 0, [4, 0, 0, 0, 0]⟩
    let a := withWs3 2
    ((dictOn.lookup 0x1001 1).toOption.map fun o => (o.acc, o.stageable, valueAbort o 0x1001 1 [126])) = some (.rw, true, 0) ∧
    isApp m.index.toNat = false ∧ m.aux.toNat = 3 ∧ dictOn.domainOff 0x1001 = false ∧ dictOn.dict.ws[(3 : Fin 4)].st ≠ 2 ∧
    (stageEntry [] ⟨0x1001, 1, [126]⟩).length ≤ 64 ∧ (withWs3 1).dict.ws[(3 : Fin 4)].entries ≠ [] ∧ (withWs3 1).timeValid = true ∧
    ((withWs3 1).stamp40 (leNat c.data)).2 = false ∧ ((withWs3 1).stamp40 (leNat c.data)).1 ≠ (withWs3 1).mt ∧
    ((withWs3 1).stamp40 0).1 = (withWs3 1).mt ∧ ((withWs3 1).set MTIME.STATUS_TIME_VALID 0).timeValid = false ∧
    (a.dict.ws[(3 : Fin 4)].st = 2 ∧ ({ a with mt := 4 } : State).due 4 = true ∧ a.domOn .link = true ∧
      a.wsFailure a.dict.ws[(3 : Fin 4)] = none) ∧
    (∀ v < (3 : Fin 4), a.dict.ws[v].st ≠ 2) ∧
    ({ a with boot := { recovery := true } } : State).wsFailure a.dict.ws[(3 : Fin 4)] = some (0, Abort.noObject) := by decide +kernel

theorem test_WriteSetOrder : ([⟨0x1001, 1, []⟩, ⟨0x1001, 2, []⟩] : List WsEntry).Pairwise
    (fun x y => (x.index, x.sub) ≠ (y.index, y.sub)) ∧ (⟨0x1001, 2, []⟩ : WsEntry) ∈ [(⟨0x1001, 2, []⟩ : WsEntry)] := by decide

theorem test_Snapshots :
    let v : State := { dictOn.set MTIME.STATUS_TIME_VALID 1 with dict := { snap := { st := 1, inst := 4, cap := some [] } } }
    let m : List Byte := [4, 0, 0, 0, 0, 0, 1]
    field m 5 2 % 8 = 0 ∧ field m 5 2 = 256 ∧ v.timeValid = true ∧ (v.stamp40 (field m 0 5)).2 = false ∧
    (v.stamp40 (field m 0 5)).1 ≠ v.mt ∧ v.dict.snap.windowEnd ≤ 4 ∧ v.snapList = [] ∧ dictOn.timeValid = false ∧
    (v.stamp40 0).1 = v.mt ∧ ({ v with dict := { snap := { windowEnd := 5 } } } : State).dict.snap.windowEnd = 5 ∧
    ({ v with dict := { snap := { count := 1, list := 0x10010100 :: List.replicate 31 0 } } } : State).snapList = [(0x1001, 1)] ∧
    slotSize 0x1001 1 = 4 ∧ ({ v with mt := 4 } : State).due 4 = true ∧ v.domOn .link = true ∧ v.due v.dict.snap.windowEnd = true ∧
    v.dict.snap.re = none ∧ newer 16 2 (v.get RINGCTL.CYCNUM_CYCLE) = true ∧ (v.set RINGCTL.ADDR_ADDR 126).get RINGCTL.ADDR_ADDR = 126 ∧
    getBit (field ([2, 0] ++ List.replicate 15 0 ++ [0x40]) 2 16) 126 = true ∧ dictOn.dict.snap.phase ≠ 2 := by decide +kernel

theorem test_CommandsThatWriteOneObject :
    let s : State := { dictOn.set RECSTORE.LOG_MASK_MASK 0xFFFFFFFF with sc := { fuse1 := 1, fuse2 := 1 } }
    let q (i : BitVec 16) (sub : Byte) (d : List Byte) : Bool := s.takeReq 2 (objMsg (.ring 5 none) 7 i sub d) == some { s with dict := { s.dict with turn := 0 } }
    s.dict.reqs = [] ∧ s.dictServes = true ∧ s.dictBusy = false ∧ s.domOn .link = true ∧ s.domOn .mgt = true ∧ s.boot.recovery = false ∧
    s.lifeCycle = 1 ∧ q 0x1010 2 (leBytes 2 0x5A17) = true ∧ q 0x7050 1 [1] = true ∧ s.onTrial = false ∧ s.sc.attStatus ≠ 1 ∧
    s.sc.lcTarget = none ∧ s.sc.ownerHash = none ∧ s.dl.st = 0 ∧ s.regNormal = true ∧ s.storePersisted.isSome = true ∧
    s.eraseStored.isSome = true ∧ lcPermits s.lifeCycle 2 = true ∧
    ({ s with dl := { st := 3, offset := hdrLength (s.header s.inactive) } } : State).dl.st = 3 := by decide +kernel
theorem test_CommandsThatWriteOneObject_id : let d : List Byte := 2 :: leBytes 4 (Config.uniqueId.toNat % 2 ^ 32)
    field d 0 1 = 2 ∧ field d 1 4 = Config.uniqueId.toNat % 2 ^ 32 := by
  simp only [field, leBytes, leNat, List.drop, List.take, BitVec.toNat_ofNat]
  exact ⟨by decide, by omega⟩

theorem test_DockingAndClocks :
    let s := State.reset
    let u : State := s.set HARVEST.STAT_CELL 1
    let d : State := { s.set AONCTL.MODE_DOCKED 0 with pwr := { step := .torpor } }
    s.on AONCTL.MODE_DOCKED = true ∧ u.cell ≠ 2 ∧ u.on AONCTL.MODE_DOCKED = true ∧ s.cell = 2 ∧
    ({ s with pwr := { step := .cold } } : State).pwr.step = .cold ∧ d.on AONCTL.MODE_DOCKED = false ∧ d.pwr.coldHold = false ∧
    s.accessible CLKGEN.SYS_CFG = true ∧ bits 0xC800001F 31 24 = 200 ∧ bits 0xC800001F 4 0 = 31 ∧ 25 * 31 > 2 * 200 * 2 ^ 0 ∧
    bits 0xC8010010 4 0 = 16 ∧ 25 * 16 ≤ 2 * 200 * 2 ^ bits 0xC8010010 17 16 ∧ (s.set CLKGEN.SYS_CFG_MUL 20).get CLKGEN.SYS_CFG_MUL ≠ 16 ∧
    s.domOn .sys = true ∧ ((s.set CLKGEN.STAT_SYS_LOCK 1).set CLKGEN.STAT_SRC 0).get CLKGEN.STAT_SRC = 0 := by decide +kernel

theorem test_SleepLadderDown :
    let s := State.reset
    let l : State := s.set (LANE.STAT_LSTATE 9) 1
    let r : State := s.set PWRCTL.CTRL_TARGET 3
    let d : State := { s with pwr := { step := .diapause } }
    s.pwr.step = .run ∧ s.pwr.req = none ∧ s.pwr.entry = none ∧ s.pwr.exit = none ∧ targetStep (s.get PWRCTL.CTRL_TARGET) = .hover ∧
    targetStep (r.get PWRCTL.CTRL_TARGET) = .torpor ∧ r.stepReason = 0 ∧ r.on MEMCTL.MT_STAT_BUSY = false ∧
    (l.set PWRCTL.CTRL_TARGET 3).stepReason = 1 ∧ l.get (LANE.STAT_LSTATE 9) ≠ 0 ∧ s.scarabBusy = false ∧ s.rs.cur = none ∧
    d.accessible AONCTL.CMD = true := by decide +kernel

theorem test_WakesAndExits :
    let s := State.reset
    let d : State := { (s.set AONCTL.WAKE_EN_EN 1023).set AONCTL.WAKE_DEST_DEST 1 with pwr := { step := .diapause } }
    let t : State := { s.set AONCTL.WAKE_EN_EN 1023 with pwr := { step := .torpor } }
    (1 &&& d.get AONCTL.WAKE_EN_EN &&& wakeMask .diapause (d.on AONCTL.MODE_DOCKED) = 1) ∧ d.pwr.coldHold = false ∧
    (1 &&& (1023 - d.get AONCTL.WAKE_DEST_DEST) = 0) ∧ 1 &&& d.get AONCTL.WAKE_DEST_DEST ≠ 0 ∧
    (1 &&& t.get AONCTL.WAKE_EN_EN &&& wakeMask .torpor (t.on AONCTL.MODE_DOCKED) ≠ 0) ∧ s.coreSupplied = true ∧ s.pwr.coldHold = false ∧
    (let r := (s.set RTC.IRQ_EN_ALM0 1).set RTC.STAT_ALM0 1
     r.restIrq = true) := by decide +kernel

theorem test_HarvestingAndCharging :
    let s : State := State.reset.set HARVEST.CTRL_BOOST_EN 1
    let d : State := { s.set AONCTL.MODE_DOCKED 0 with hv := { low := 1 } }
    let h : State := (s.set HARVEST.NTC_NTC_EN 1).set HARVEST.NTC_T_HOT 0x40
    let w : State := { s with hv := { scWait := true }, tick := 250000000 }
    s.on HARVEST.CTRL_BOOST_EN = true ∧ s.boost ≠ 2 ∧ s.pwr.step ≠ .cold ∧ s.on HARVEST.VOC_VALID = false ∧
    (s.set HARVEST.STAT_BOOST 2).boost = 2 ∧ s.accessible HARVEST.CTRL = true ∧ s.accessible HARVEST.MPPT = true ∧
    (d.cell = 2 ∧ d.on AONCTL.MODE_DOCKED = false ∧ 1 ≤ d.hv.low ∧ 3000 ≤ d.warnMv) ∧ s.warnMv < s.warnMv + 50 ∧ s.warnMv + 50 < 4096 ∧
    (State.reset.set HARVEST.NTC_NTC_EN 0).on HARVEST.NTC_NTC_EN = false ∧
    (h.on HARVEST.NTC_NTC_EN = true ∧ h.on HARVEST.STAT_TEMP_HOLD = false ∧ 0x3F < h.get HARVEST.NTC_T_HOT) ∧
    s.on AONCTL.MODE_DOCKED = true ∧ w.hv.scWait = true ∧ w.hv.scAt + 250000000 ≤ w.tick ∧ w.hv.sampleAt + 2000000 ≤ w.tick ∧ w.on HARVEST.STAT_SC_LATCH = false := by decide +kernel

theorem test_ColdStart :
    let c : State := { State.reset with pwr := { step := .cold } }
    let r : State := { State.reset.set HARVEST.STAT_CELL 1 with pwr := { step := .pupa, coldHold := true }, hv := { stage := .released } }
    c.pwr.step = .cold ∧ c.hv.stage ≠ .boost ∧ ({ c with hv := { stage := .boost } } : State).hv.stage = .boost ∧
    r.hv.stage = .released ∧ r.pwr.coldHold = true ∧ r.cell = 1 ∧ State.reset.pwr.coldHold = false ∧ State.reset.flash = none ∧
    State.reset.march.mode = 0 ∧ State.reset.dl.st ≠ 1 ∧ State.reset.sc.lcTarget = none := by decide +kernel

theorem test_CricketAdcAndMailbox :
    let s : State := State.reset.set TOUCH.CRK_CTRL_RUN 1
    let i : State := (s.set TOUCH.CRK_IRQ_STAT_ADC 1).set TOUCH.CRK_IRQ_EN_ADC 1
    let b : State := { (s.set TOUCH.ADC_CTRL_BUSY 1).set TOUCH.ADC_CTRL_CHMASK 0x21 with crk := { adcMask := 0x21 } }
    s.accessible TOUCH.CRK_CTRL = true ∧ State.reset.on TOUCH.CRK_CTRL_RUN = false ∧ s.on TOUCH.CRK_CTRL_RUN = true ∧
    s.domOn .crk = true ∧ i.crkIrq = true ∧ s.crkIrq = false ∧ b.on TOUCH.ADC_CTRL_BUSY = true ∧
    s.on TOUCH.ADC_CTRL_BUSY = false ∧ s.get TOUCH.ADC_CTRL_CHMASK = 0 ∧ b.get TOUCH.ADC_CTRL_CHMASK ≠ 0 ∧
    s.accessible TOUCH.ADC_CTRL = true ∧ (s.set TOUCH.ADC_CTRL_TRIG 1).get TOUCH.ADC_CTRL_TRIG = 1 ∧
    (s.set TOUCH.ADC_CTRL_TRIG 2).get TOUCH.ADC_CTRL_TRIG = 2 ∧
    ((List.range 6).filter fun k => getBit b.crk.adcMask k).length = [(1023 : BitVec 10), 0].length ∧
    s.accessible TOUCH.MB_CTRL = true ∧ s.on TOUCH.MB_CTRL_A2C_FULL = false ∧ s.on TOUCH.MB_CTRL_C2A_FULL = false ∧
    (s.set TOUCH.MB_CTRL_A2C_FULL 1).on TOUCH.MB_CTRL_A2C_FULL = true ∧
    (s.set TOUCH.MB_CTRL_C2A_FULL 1).on TOUCH.MB_CTRL_C2A_FULL = true := by decide +kernel

theorem test_TouchScans :
    let s : State := (State.reset.set TOUCH.CTRL_EN 1).set TOUCH.KEYMASK_HI_MASK 0x800
    let e : State := { s.set TOUCH.STAT_SCANNING 1 with
      tick := 8000000
      touch := { cfg := { mask := 2 ^ 43 }, keys := (Vector.replicate 64 {}).set 43 { base := 1000 * 256, on := 1 } } }
    s.domOn .crk = true ∧ s.on TOUCH.CTRL_EN = true ∧ s.on TOUCH.STAT_SCANNING = false ∧ s.touch.nextStart ≤ s.slow ∧
    getBit s.keyMask 43 = true ∧ getBit s.touch.cfg.mask 43 = false ∧ getBit s.keyMask 0 = getBit s.touch.cfg.mask 0 ∧
    e.on TOUCH.STAT_SCANNING = true ∧ e.scanDone = true ∧
    ({ s with slow := 40 * 32768, touch := { cfg := { idle1 := 5, idle2 := 10, idle3 := 30 } } } : State).stage = 3 ∧
    getBit e.touch.cfg.mask 43 = true ∧ getBit e.touch.cfg.mask 63 = false ∧
    e.touch.keys[43].acq = none ∧ getBit e.touch.recal 43 = false ∧ e.touch.cfg.deb ≠ 0 ∧ e.touched 43 = false ∧
    e.touch.keys[43].on + 1 = e.touch.cfg.deb ∧ ({ s with boot := { s.boot with released := true } } : State).pinMode = .run ∧
    e.touch.cfg.rowUsed 5 = true ∧ e.touch.cfg.rowUsed 4 = false ∧
    e.touch.cfg.rowAt 5 (127 * 2000 + 1000) = !hadamardNeg 5 7 := by decide +kernel
/-- The worked decode of the chapter: column 3, row 5. -/
theorem test_TouchScans_decode : let q : List Int := List.replicate 24 0 ++ [7880, 120, -120, 120, 120, -120, 120, -120]
    decodeKey q 5 3 = 880 ∧ decodeKey q 0 3 = 1000 := by decide

theorem test_TouchCommands :
    let s : State := State.reset.set TOUCH.KEYMASK_LO_MASK 1
    let e : State := { s.set TOUCH.CTRL_EN 1 with touch := { cfg := { mask := 1 } } }
    s.accessible TOUCH.CTRL = true ∧ s.on TOUCH.CTRL_EN = false ∧ getBit s.keyMask 0 = true ∧ e.on TOUCH.CTRL_EN = true ∧
    getBit (0x80000000 : Word).toNat 31 = true ∧ getBit (0x80000000 : Word).toNat 29 = false ∧ bits (0x80000000 : Word).toNat 5 0 = 0 ∧
    getBit e.touch.cfg.mask 0 = true ∧ e.acquiring 0 = false ∧ getBit e.keyMask 63 = false ∧ bits (0x8000003F : Word).toNat 5 0 = 63 ∧
    s.accessible TOUCH.KEYMASK_HI = true ∧ e.on TOUCH.STAT_SCANNING = false := by decide +kernel

theorem test_CalendarCountsSeconds : Cal.ok ⟨2100, 2, 28, 23, 59, 59⟩ = true ∧ Cal.next ⟨2100, 2, 28, 23, 59, 59⟩ = ⟨2100, 3, 1, 0, 0, 0⟩ ∧
    Cal.next ⟨2096, 2, 28, 23, 59, 59⟩ = ⟨2096, 2, 29, 0, 0, 0⟩ ∧ Cal.wday ⟨2031, 10, 7, 8, 15, 0⟩ = 1 := by decide

theorem test_RtcSecondBoundaries :
    let s : State := { State.reset with rtc := { sub := 32768, setAt := 0, secs := 59 }, slow := 5 }
    let p : State := s.set RTC.STAT_SET_PEND 1
    let g : State := ((p.set RTC.SET_YEAR_YEAR 2031).set RTC.SET_DATE_MON 10).set RTC.SET_DATE_DAY 7
    let a : State := (s.set RTC.CTRL_ALM0_EN 1).set RTC.CTRL_ALM1_EN 1
    let m : State := ((((((a.set (RTC.ALM_TIME_MSK_SEC 1) 1).set (RTC.ALM_TIME_MSK_MIN 1) 1).set (RTC.ALM_TIME_MSK_HOUR 1) 1).set
      (RTC.ALM_DATE_MSK_WDAY 1) 1).set (RTC.ALM_DATE_MSK_DAY 1) 1).set (RTC.ALM_DATE_MSK_MON 1) 1).set (RTC.ALM_DATE_MSK_YEAR 1) 1
    State.reset.rtc.sub < 32768 ∧ s.rtc.almAt ≠ s.slow ∧ 32768 ≤ s.rtc.sub ∧ s.cal.ok = true ∧ s.on RTC.STAT_SET_PEND = false ∧
    p.on RTC.STAT_SET_PEND = true ∧ p.rtc.setAt + 1 < p.slow ∧
    g.stagedCal.ok = true ∧ (g.set RTC.SET_DATE_DAY 0).stagedCal.ok = false ∧ a.on RTC.CTRL_ALM0_EN = true ∧
    ((a.set (RTC.ALM_TIME_MSK_SEC 0) 0).set (RTC.ALM_TIME_SEC 0) 1).alarmMatch 0 = false ∧ m.on RTC.CTRL_ALM1_EN = true ∧ m.alarmMatch 1 = true := by decide +kernel

theorem test_RtcCommands :
    let s := State.reset
    let x : Shadow := ⟨5, 0, 0, 0, 0⟩
    let h : State := { s with rtc := { shApp := some x, winMt := some 0, winDelta := some 16000192000, winN := 15, acc := 2 ^ 32 } }
    let d : State := (s.set RTC.CTRL_DISC_EN 1).set MTIME.STATUS_TIME_VALID 1
    h.shadow .app = some x ∧ x.taken + 32768 ≤ ({ h with slow := 32768 } : State).slow ∧ h.slow < x.taken + 32768 ∧
    s.accessible RTC.CTRL = true ∧ (s.set RTC.STAT_SET_PEND 1).on RTC.STAT_SET_PEND = true ∧ s.rtc.sub < 32768 ∧
    s.accessible RTC.SHIFT = true ∧ s.get RTC.SHIFT_REM_REM = 0 ∧ sgn 16 3277 = 3277 ∧ sgn 16 0xC000 = -16384 ∧ sgn 16 0x4001 = 16385 ∧
    (s.setI RTC.SHIFT_REM_REM 1).getI RTC.SHIFT_REM_REM = 1 ∧ (s.setI RTC.SHIFT_REM_REM (-1)).getI RTC.SHIFT_REM_REM = -1 ∧
    s.slow % 128 = 0 ∧ s.rtc.shiftAt ≠ some s.slow ∧ d.showDisc.discNow = true ∧ ({ d with rtc := h.rtc } : State).showDisc.rtc.winMt = some 0 ∧ d.rtc.winMt = none ∧
    s.showDisc.discNow = false ∧ h.rtc.winDelta = some 16000192000 ∧ 15 ≤ h.rtc.winN ∧
    s.accessible RTC.TRIM = true ∧ d.discNow = true ∧ s.discNow = false ∧ 2 ^ 32 ≤ h.rtc.acc ∧
    newTrim 0 16000192000 = 51540 := by decide +kernel

theorem test_MoistureClocks :
    let s : State := { (((State.reset.set (RTC.MC_CTRL_EN 9) 1).set (RTC.MC_CTRL_LIMIT 9) 1).set RTC.MC_WEIGHT_W0 16).set
      RTC.MC_CFG_DEF_BAND 0 with rtc := { moistDue := true } }
    let h : State := ((((s.set HARVEST.NTC_NTC_EN 1).set HARVEST.STAT_NTC_OPEN 0).set HARVEST.NTC_LAST 9).set RTC.MC_CFG_B1 200)
    s.rtc.moistDue = true ∧ s.on (RTC.MC_CTRL_EN 0) = false ∧ s.on (RTC.MC_CTRL_EN 9) = true ∧
    s.get (RTC.MC_CTRL_LIMIT 9) * 16 ≠ 0 ∧ s.get (RTC.MC_CNT_COUNT 9) < s.get (RTC.MC_CTRL_LIMIT 9) * 16 ∧
    s.accessible (RTC.MC_CNT 9) = true ∧ s.mcIncNow 9 = 0 ∧
    (({ s with rtc := { mcAt := s.slow, mcInc := Vector.replicate 10 16 } } : State).mcIncNow 9 = 16) ∧ h.on HARVEST.NTC_NTC_EN = true ∧ h.on HARVEST.STAT_NTC_OPEN = false ∧
    8 < h.get HARVEST.NTC_LAST ∧ h.get HARVEST.NTC_LAST ≤ h.get RTC.MC_CFG_B1 := by decide +kernel

theorem test_MarchTests :
    let s := State.reset
    let b : State := { s.set MEMCTL.MT_STAT_BUSY 1 with march := { target := 10 } }
    let p : State := { b with march := { target := 0, mode := 1, aborting := true } }
    s.accessible MEMCTL.MT_CTRL = true ∧ bits 0x8000000A 5 4 = 0 ∧ bits 0x8000000A 3 0 = 10 ∧ s.marchOk 10 0 = true ∧
    (s.set TOUCH.CRK_CTRL_RUN 1).marchOk 10 0 = false ∧ s.on MEMCTL.MT_STAT_BUSY = false ∧ s.marchOk 8 2 = true ∧
    b.on MEMCTL.MT_STAT_BUSY = true ∧ b.march.mode = 0 ∧ (marchSpan b.march.target).2 = 0x8000 ∧ p.march.mode = 1 ∧
    p.on MEMCTL.MT_STAT_BUSY = true ∧ p.march.aborting = true ∧ ({ b with march := { mode := 2 } } : State).march.mode = 2 ∧
    (Store.get memUnlisted 0x08000000 b.mem).isSome ∧ b.march.waiting = [] ∧
    marchFirst 10 0x2000 [⟨0, 0, 5, 0⟩, ⟨1, 0, 0, 0⟩] = none ∧
    marchFirst 10 0x2000 [⟨3, 0, 1, 0⟩, ⟨3, 0x1FFF, 1, 0⟩, ⟨4, 0, 0, 0⟩] = some ⟨3, 0x1FFF, 1, 0⟩ ∧
    firstSig ((b.pokes 0x30007FFC [0, 0, 0, 0]).faultReads 10 [⟨2, 0x1FFF, 1, 0⟩]) = some 2 ∧ firstSig (b.faultReads 10 []) = none ∧
    ({ b with march := { waiting := [.loc] } } : State).march.waiting = [.loc] := by decide +kernel
theorem test_MarchTests_checks : let f : MarchFault := ⟨5, 0xFFFF, 0, (Config.checkBits 0).toNat + 1⟩
    earliest 0x10000 ([f].filter (checkFails 0)) = some f ∧ firstSig (State.reset.faultReads 0 []) = none := by
  refine ⟨?_, by decide +kernel⟩
  simp [earliest, checkFails, faultChk, checkIn]

theorem test_VaultWipes :
    let s : State := State.reset.set VAULTCTL.STAT_WIPING 1
    s.accessible VAULTCTL.CTRL = true ∧ s.pwr.step ≠ .cold ∧ s.on VAULTCTL.STAT_WIPING = true ∧ s.sc.tamperReset = false ∧
    ({ s with sc := { tamperReset := true } } : State).sc.tamperReset = true ∧ s.rs.cur = none ∧ s.rs.flushDue = false ∧ s.get VAULTCTL.WIPE_CNT_COUNT < 0xFFFF ∧
    (s.set VAULTCTL.WIPE_CNT_COUNT 0xFFFF).get VAULTCTL.WIPE_CNT_COUNT = 0xFFFF ∧
    State.reset.on VAULTCTL.STAT_WIPING = false := by decide +kernel

theorem test_FlashController :
    let s : State := (State.reset.set FLASHCTL.ADDR_ADDR (0x08100000 / 4)).set FLASHCTL.LEN_LEN 4
    let d : State := s.pokes 0x08100000 [0]
    let f : State := { s.set (ERRAGG.SRC_POLICY 2) 0 with flash := some ⟨1, 0x08100000, 0x20000000, 8⟩ }
    s.accessible FLASHCTL.CMD = true ∧ getBit (0x80000000 : Word).toNat 31 = true ∧ s.on FLASHCTL.STATUS_BUSY = false ∧
    s.regNormal = true ∧ (s.set AONCTL.MODE_DOCKED 0).regNormal = false ∧ s.dl.st = 0 ∧ s.flashHeld = false ∧
    slotBase s.inactive ≤ (flashSpan 1 (s.get FLASHCTL.ADDR_ADDR * 4) (s.get FLASHCTL.LEN_LEN)).1 ∧
    (flashSpan 3 (s.get FLASHCTL.ADDR_ADDR * 4) 4).1 + 0x100000 ≤ slotBase s.inactive + 0x100000 ∧
    (flashSpan 2 (s.get FLASHCTL.ADDR_ADDR * 4) 4).1 = slotBase s.inactive ∧
    (List.range 4).all (fun i => s.byte (0x08100000 + i) == 0xFF) = true ∧ d.byte 0x08100000 ≠ 0xFF ∧
    f.flash.isSome = true ∧ f.get (ERRAGG.SRC_POLICY 2) < 2 := by decide +kernel

theorem test_EventChannels :
    let s := State.reset
    let g : State := s.set (EVROUTE.CH_CFG_GATE 31) 0x5C
    s.get (EVROUTE.CH_CFG_GATE 0) = 0 ∧ (s.set (EVROUTE.CH_CFG_GATE 0) 0x0C).get (EVROUTE.CH_CFG_GATE 0) = 0x0C ∧
    0x5B < g.get (EVROUTE.CH_CFG_GATE 31) ∧ (s.set (EVROUTE.CH_CFG_GATE 0) 0x0D).get (EVROUTE.CH_CFG_GATE 0) = 0x0D ∧
    g.gateOf 31 = false ∧ s.domOn .crk = true ∧ s.accessible EVROUTE.FIRE = true ∧ s.evOwner .app true 0 = true ∧
    s.evOwner .cricket false 0 = false ∧ s.gateOf 0 = true ∧ s.chanLevel 0 = false ∧ s.held 0 = false ∧ getBit s.ev.dead 0 = false ∧
    (let f : State := { s with ev := { fire := [(0, 4)] } }; f.firing 0 = true ∧ f.chanLevel 0 = true ∧ getBit f.ev.seen 0 = false) ∧
    (let f : State := { s with ev := { caught := 2 ^ 31 } }; getBit f.ev.caught 31 = true) ∧
    s.bit AONCTL.EVWAKE_MASK 0 = false ∧ s.on RINGCTL.WAKE_EVT_EN = false := by decide +kernel

theorem test_EventChannelRights :
    let s := State.reset
    let l : State := (s.set EVROUTE.GCTL_MODE 1).set EVROUTE.GCTL_LOCK 1
    s.accessible (EVROUTE.CH_SEL 31) = true ∧ s.evSelect .app true 31 = true ∧ s.evSelect .cricket true 31 = false ∧
    s.accessible (EVROUTE.CH_CFG 31) = true ∧ s.evAdmin .app true = true ∧ s.evAdmin .app false = false ∧
    bits 0xC0000000 31 30 = 3 ∧ s.accessible EVROUTE.GCTL = true ∧ l.on EVROUTE.GCTL_MODE = true ∧ l.on EVROUTE.GCTL_LOCK = true ∧
    (s.set (EVROUTE.CH_CFG_OWN 0) 1).get (EVROUTE.CH_CFG_OWN 0) = 1 ∧ s.on EVROUTE.GCTL_MODE = false ∧
    (s.set (EVROUTE.CH_CFG_SEC 0) 1).evOwner .app true 0 = true := by decide +kernel

theorem test_EnvelopesRoundTrip : unenvelope (envelope (List.replicate 12 0xA5)) = some (List.replicate 12 0xA5) := by decide +kernel

theorem test_UartReception :
    let s : State := (State.reset.set (UART.CTRL_EN 1) 1).set (UART.CTRL_RX_EN 1) 1
    let a : State := (((s.set (UART.CTRL_NINE 1) 1).set (UART.CTRL_AM_EN 1) 1).set (UART.ADDR_ADDR 1) 0x11).set (UART.ADDR_MASK 1) 0xFF
    let f : State := { s with uart1 := { rx := List.replicate 16 0, brk := true }, uart0 := { env := some [] }, tick := 2 ^ 30 }
    s.rxOpen 1 = true ∧ (s.uart 1).muteReq = false ∧ s.uartDict 1 = false ∧ (s.uart 1).rx.length < 16 ∧
    (s.on (UART.CTRL_NINE 1) && s.on (UART.CTRL_AM_EN 1)) = false ∧ 16 ≤ (f.uart 1).rx.length ∧ f.rxOpen 1 = true ∧
    a.rxOpen 1 = true ∧ a.on (UART.CTRL_NINE 1) = true ∧ a.on (UART.CTRL_AM_EN 1) = true ∧
    ((0x111 ^^^ a.get (UART.ADDR_ADDR 1)) &&& a.get (UART.ADDR_MASK 1)) = 0 ∧
    ((0x112 ^^^ a.get (UART.ADDR_ADDR 1)) &&& a.get (UART.ADDR_MASK 1)) ≠ 0 ∧
    (a.set (UART.STAT_MUTED 1) 1).on (UART.STAT_MUTED 1) = true ∧ (f.uart 1).overrun = none ∧
    (match f.storeRx 1 5 false false false with
     | t => (t.uart 1).overrun.map (·.tick) = some t.tick) ∧ (f.uart 1).brk = true ∧ (s.uart 1).brk = false ∧
    s.accessible (UART.DATA 1) = true ∧ (s.uart 1).rx = [] ∧ s.accessible (UART.CTRL 1) = true ∧
    majority (true, false, true) = true ∧ f.uart0.envAt + f.uartTicks 0 (256 * (f.charBits 0 0).length) < f.tick ∧
    f.uart0.env.isSome = true ∧ f.domOn .sys = true := by decide +kernel

theorem test_UartTransmission :
    let s : State := (State.reset.set (UART.CTRL_EN 1) 1).set (UART.CTRL_TX_EN 1) 1
    let b : State := { s with uart1 := { shift := some 0x155, tx := [7], lag := true }, tick := 2 ^ 30 }
    let f : State := { s with uart1 := { tx := List.replicate 16 0 } }
    s.accessible (UART.DATA 1) = true ∧ 16 ≤ (f.uart 1).tx.length ∧ s.uartDict 1 = false ∧ (s.uart 1).tx.length < 16 ∧
    (b.uart 1).shift.isSome = true ∧ (s.uart 1).shift = none ∧ (s.uart 1).tx = [] ∧ s.uartOn 1 = true ∧
    s.on (UART.CTRL_TX_EN 1) = true ∧ (State.reset.uartOn 1 && State.reset.on (UART.CTRL_TX_EN 1)) = false ∧
    (b.uart 1).tx = [7] ∧ b.uartOn 1 = true ∧ b.uart1.lag = true ∧
    b.uart1.lagAt + b.uartTicks 1 (b.get (UART.DE_TIME_DE_LAG 1)) ≤ b.tick := by decide +kernel

theorem test_ServiceWireTransactions :
    let s : State := State.reset.set SVCWIRE.CTRL_RDY 1
    let w : State := { s.set SVCWIRE.CTRL_ROUTE 1 with svc := { xact := some false, resp := some [1] } }
    let r : State := { s with svc := { xact := some true, resp := some [1] } }
    let h : State := { State.reset with svc := { xact := some true }, tick := 2 ^ 30 }
    s.pwr.step ≠ .cold ∧ s.get SVCWIRE.ADDR_ADDR < 128 ∧ w.svc.xact = some false ∧ w.sclHeld = false ∧ w.svc.dead = false ∧ w.svc.refuse = false ∧
    (w.set SVCWIRE.STAT_BUSY 1).on SVCWIRE.STAT_BUSY = true ∧ w.on SVCWIRE.STAT_BUSY = false ∧ unenvelope (List.take 516 []) = none ∧
    unenvelope ((envelope (List.replicate 12 1)).take 516) = some (List.replicate 12 1) ∧ w.on SVCWIRE.CTRL_ROUTE = true ∧
    r.svc.xact = some true ∧ r.sclHeld = false ∧ h.sclHeld = true ∧ h.svc.xact.isSome = true ∧ h.domOn .crk = true ∧
    h.svc.heldAt + h.get SVCWIRE.CTRL_STRETCH_LIM * 250000 ≤ h.tick ∧
    s.accessible SVCWIRE.RESP = true ∧ (s.set SVCWIRE.STAT_REQ 1).on SVCWIRE.STAT_REQ = true ∧ bits 0x80000200 9 0 = 512 := by
  decide +kernel

theorem test_RecordsReadBack : 16 + recSize [(1 : Byte), 2, 3].length ≤ 2048 ∧ recSize 1008 = 1024 ∧ [(1 : Byte), 2, 3].length ≤ 1008 := by
  decide

theorem test_RecordStoreCommands :
    let s := State.reset
    let c : RecCmd := { ch := .s, op := 1, acts := [.word 0 5], result := 0, seq := some 3 }
    let b : State := { (s.set (RECSTORE.C_STATUS_BUSY 1) 1).set (ERRAGG.SRC_POLICY 3) 0 with rs := { cur := some c, queued := some (.a, 4) } }
    s.accessible (RECSTORE.C_CMD (chanIdx .a)) = true ∧ s.accessible (RECSTORE.C_CMD (chanIdx .s)) = true ∧
    b.on (RECSTORE.C_STATUS_BUSY (chanIdx .s)) = true ∧ s.on (RECSTORE.C_STATUS_BUSY (chanIdx .a)) = false ∧
    b.rs.own = [] ∧ b.rs.flushDue = false ∧ b.rs.resetDue = none ∧ b.rs.askedAt ≠ some b.tick ∧
    ({ b with rs := { cur := some { c with ch := .a }, askedAt := some b.tick } } : State).rs.queued = none ∧
    (({ s.set RECSTORE.LOG_MASK_MASK 0xFFFFFFFE with rs := { mounted := true } } : State).writeOwn [(0xF000, [1])]).isSome = true ∧
    b.rs.cur.isSome = true ∧ s.rs.cur = none ∧ s.rs.mounted = false ∧ b.rs.cur = some c ∧ c.acts[0]? = some (.word 0 5) ∧
    b.get (ERRAGG.SRC_POLICY 3) < 2 ∧ c.ch ≠ .a ∧ [RecAct.erase 31][0]? = some (.erase 31) := by decide +kernel

theorem test_RecordStorePlans :
    let s : State := { State.reset.set RECSTORE.LOG_MASK_MASK 0xFFFFFFFF with rs := { mounted := true } }
    let r : State := ((s.set RECSTORE.LOG_MASK_MASK 0xFFFFFFFE).set RECSTORE.RAW_MASK_MASK 1).set (RECSTORE.C_LEN_LEN 0) 4
    let g : State := { s with rs := { mounted := true, group := some ⟨.s, 1, 24, 0, []⟩ } }
    s.rs.mounted = true ∧ s.role 31 = .log ∧ r.role 0 = .raw ∧ (r.recPlan .a 1).result = 0 ∧ keyOk .a 0xF000 = false ∧
    keyOk .s 0xFFEF = true ∧ keyOk .a 1 = true ∧ g.rs.group.isSome = true ∧ (g.set (RECSTORE.C_LEN_LEN 0) 24).get (RECSTORE.C_LEN_LEN 0) = 24 ∧
    s.winner 1 = none ∧ s.rs.group = none ∧ 1 < 24 ∧ (s.set RECSTORE.LOG_MASK_MASK 0x7FFFFFFF).role 31 = .data := by decide +kernel

theorem test_MountingAndMarginScan :
    let s : State := State.reset.set RECSTORE.CFG_SCAN_EN 1
    let m : State := { s with rs := { mounted := true } }
    s.rs.mounted = false ∧ s.domOn .sys = true ∧ s.on RECSTORE.CFG_SCAN_EN = true ∧ m.rs.mounted = true ∧ m.rs.cur = none ∧
    m.rs.group = none ∧ (s.set RECSTORE.CFG_SCAN_EN 0).on RECSTORE.CFG_SCAN_EN = false := by decide +kernel

theorem test_EventLog :
    let r : Report := ⟨1, 0x10, 3, 3, 0, false⟩
    let c : ChipPend := ⟨r, 0, 0⟩
    let s : State := { State.reset with err := { chip := [⟨⟨48, 8, 0, 3, 0, false⟩, 0, 0⟩, c] }, tick := 600 }
    let e : LogEntry := ⟨0, 0, false, 0, 1, 3, 0, 0, 0x10, 3⟩
    let q : State := { s with log := { entries := [e], unflushed := 1, lastNew := 1 } }
    let m : State := { State.reset.set RECSTORE.LOG_MASK_MASK 1 with rs := { mounted := true } }
    s.nextChip = some c ∧ s.domOn .mgt = true ∧ s.sameAsNewest r = false ∧ s.log.lastNew = 0 ∧
    s.get ERRAGG.CTRL_CHIP_POL ≠ 2 ∧ q.sameAsNewest r = true ∧ q.log.entries = [e] ∧
    (let w : State := { q with log := { q.log with unflushed := 0, lastNew := 500 } };
      w.sameAsNewest r = false ∧ w.log.lastNew ≠ 0 ∧ w.tick + 1 < w.log.lastNew + 500 ∧ w.nextChip = some c) ∧
    (s.set ERRAGG.CTRL_CHIP_POL 2).get ERRAGG.CTRL_CHIP_POL = 2 ∧ c.rep.info = false ∧
    64 ≤ ({ m with log := { m.log with unflushed := 64 } } : State).log.unflushed ∧ s.log.unflushed < 64 ∧
    s.tick < s.log.flushedAt + 2500000000 ∧ m.rs.mounted = true ∧ m.logSectors = [0] ∧ m.domOn .mgt = true ∧ m.role 1 ≠ .log ∧ State.reset.rs.mounted = false ∧
    s.rs.cur = none ∧ s.rs.flushDue = false ∧ m.rs.cur = none ∧ (s.drainChip.flushLog).rs.flushDue = false ∧
    (let b : State := { q with regs := m.regs, rs := { mounted := true, cur := some { ch := .a, op := 1, acts := [], result := 0 } } }
     b.logSectors ≠ [] ∧ b.log.unflushed ≠ 0 ∧ b.rs.cur ≠ none ∧ b.drainChip.flushLog.rs.flushDue = true) := by decide +kernel

theorem test_ScarabMailboxAndAttestation :
    let s := State.reset
    let o (k : Nat) : State := { (s.set (MBOX.ARG_ARG 8) 0x2007FF4C).set MBOX.STAT_BUSY 1 with sc := { op := some k } }
    let l : State := { o 3 with log := { entries := [⟨0, 0, false, 0, 1, 3, 0, 0, 0x10, 3⟩] } }
    s.accessible MBOX.CMD = true ∧ (o 1).on MBOX.STAT_BUSY = true ∧ s.on MBOX.STAT_BUSY = false ∧ (o 1).sc.op = some 1 ∧
    (o 1).marchHolds 0x2007FF4C 180 = false ∧ (o 2).rs.flushDue = false ∧
    (((o 1).set MEMCTL.MT_STAT_BUSY 1).set (MBOX.ARG_ARG 8) (marchSpan 0).1).on MEMCTL.MT_STAT_BUSY = true ∧
    (o 1).domOn .mgt = true ∧ (o 1).lifeCycle = 1 ∧ (o 1).sc.attStatus ≠ 1 ∧ 0x20000000 ≤ (o 1).get (MBOX.ARG_ARG 8) ∧
    (o 1).get (MBOX.ARG_ARG 8) + 180 ≤ 0x20080000 ∧ l.log.entries[l.get (MBOX.ARG_ARG 0)]?.isSome = true ∧
    (o 3).log.entries.length ≤ (o 3).get (MBOX.ARG_ARG 0) ∧
    ({ s with sc := { fuse1 := 4, fuse2 := 4 } } : State).lifeCycle = 4 ∧ ({ s with sc := { attStatus := 1 } } : State).sc.attStatus = 1 := by
  decide +kernel

theorem test_SensorsAndSupplies :
    let s := State.reset
    s.domOn .mgt = true ∧ s.domOn .lane = true ∧ s.sc.tempArmed = true ∧ s.on (ERRAGG.SRC_PEND 48) = false ∧ s.on (ERRAGG.SRC_PEND 49) = false ∧
    (s.set (ERRAGG.SRC_PEND 49) 1).on (ERRAGG.SRC_PEND 49) = true ∧ sgn 10 120 = 120 ∧ sgn 10 1000 = -24 ∧ sgn 10 135 = 135 ∧
    ({ s with sc := { tempArmed := false } } : State).sc.tempArmed = false := by decide +kernel

theorem test_Watchdog :
    let s : State := State.reset.set MBOX.WDOG_CTRL_EN 1
    let h : State := { s.set MBOX.WDOG_CTRL_WIN 1 with sc := { wdHalf := true, wdLast := some 0 } }
    let z : State := s.set MBOX.WDOG_STAT_REMAIN 0
    s.accessible MBOX.WDOG_KICK = true ∧ s.on MBOX.WDOG_CTRL_EN = true ∧ s.sc.wdHalf = false ∧ h.sc.wdHalf = true ∧
    h.get MBOX.WDOG_CTRL_WIN ≠ 0 ∧ h.tick < 0 + 2 ^ (h.get MBOX.WDOG_CTRL_WIN - 1) * 250000 ∧ s.get MBOX.WDOG_CTRL_WIN = 0 ∧
    s.domOn .mgt = true ∧ z.get MBOX.WDOG_STAT_REMAIN = 0 ∧ z.get MBOX.WDOG_STAT_REMAIN ≤ z.get MBOX.WDOG_CTRL_WARN_MS ∧
    (z.set MBOX.WDOG_STAT_REMAIN 1000).get MBOX.WDOG_CTRL_WARN_MS < (z.set MBOX.WDOG_STAT_REMAIN 1000).get MBOX.WDOG_STAT_REMAIN ∧
    State.reset.on MBOX.WDOG_CTRL_EN = false ∧ z.rs.flushDue = false ∧ z.rs.cur = none ∧ z.pwr.coldHold = false ∧
    h.rs.flushDue = false ∧ h.rs.cur = none := by decide +kernel

theorem test_LifeCycleAndDebug :
    let s : State := { State.reset with sc := { lcTarget := some 3, fuse1 := 2, fuse2 := 2, fuse3 := 1 } }
    s.sc.lcTarget = some 3 ∧ s.on VAULTCTL.STAT_WIPING = false ∧ (s.set VAULTCTL.STAT_WIPING 1).on VAULTCTL.STAT_WIPING = true ∧
    s.lifeCycle = 2 ∧ s.rs.cur = none ∧ s.rs.flushDue = false ∧ s.flash = none ∧ s.sc.lcReq = none ∧ State.reset.sc.lcTarget = none ∧ State.reset.sc.lockout = false ∧
    ({ s with sc := { lockout := true } } : State).sc.lockout = true ∧ State.reset.unlockVerifies [] = false ∧ State.reset.sc.challenge = none ∧
    ({ s with sc := { fuse1 := 0, fuse2 := 0 } } : State).lifeCycle = 0 ∧ ({ s with sc := { fuse1 := 4, fuse2 := 4 } } : State).lifeCycle = 4 := by
  decide +kernel

theorem test_CarapaceAndTap :
    let s : State := (State.reset.set VAULTCTL.TMP_CFG_MODE0 1).set VAULTCTL.TMP_CFG_MODE1 1
    let z : State := { s with sc := { fuse1 := 4, fuse2 := 4, detArmed := 0 } }
    s.pwr.step ≠ .cold ∧ s.pwr.req = none ∧ s.on VAULTCTL.TMP_CFG_MODE1 = true ∧ State.reset.on VAULTCTL.TMP_CFG_MODE0 = false ∧
    s.on VAULTCTL.TMP_CFG_PAIR = false ∧ s.on VAULTCTL.TMP_CFG_LVL0 = false ∧ getBit s.sc.detArmed 1 = true ∧ getBit z.sc.detArmed 0 = false ∧
    (s.set VAULTCTL.TMP_CFG_PAIR 1).on VAULTCTL.TMP_CFG_PAIR = true ∧ s.domOn .mgt = true ∧
    getBit z.openScopes 0 = false ∧ getBit s.openScopes 1 = true ∧ z.lifeCycle ≠ 2 ∧ z.lifeCycle ≠ 3 ∧
    (s.set VAULTCTL.TMP_CFG_MESH_EN 1).on VAULTCTL.TMP_CFG_MESH_EN = true ∧ (s.set VAULTCTL.TMP_CFG_MESH_EN 0).on VAULTCTL.TMP_CFG_MESH_EN = false ∧
    ({ s with pwr := { step := .diapause } } : State).domOn .mgt = false := by decide +kernel

theorem test_FullAndPowerOnResets :
    let s := State.reset
    blockOf SCHEDLD.CTRL = some .schedld ∧ Block.dom .schedld ≠ .aon ∧ blockOf AONCTL.WAKE_EN = some .aonctl ∧ Block.dom .aonctl = .aon ∧
    s.pwr.coldHold = false ∧ s.pwr.step ≠ .cold ∧ ({ s with pwr := { step := .cold } } : State).pwr.step = .cold ∧
    s.flash = none ∧ s.on MEMCTL.MT_STAT_BUSY = false ∧ s.rs.cur = none ∧ s.dl.st ≠ 1 ∧ s.sc.lcTarget = none ∧
    ({ s with sc := { lcTarget := some 2 } } : State).sc.lcTarget = some 2 ∧ memUnlisted 0x20000000 = none ∧
    ({ s with dict := { resetPend := true }, tick := 25000 } : State).dict.resetPend = true ∧ s.dict.resetAt + 25000 ≤ 25000 ∧ s.tick < s.dict.resetAt + 25000 ∧ s.accessible RSTCTL.SWRST = true ∧
    bits 0x0A5C 15 0 = 0x0A5C := by decide +kernel

theorem test_StartUpSelectsTheImage :
    let s := State.reset
    let p : State := { s with boot := { trial := true } }
    s.boot.strap = false ∧ s.boot.bootFail < 3 ∧ p.boot.trial = true ∧ p.boot.strap = false ∧ p.boot.bootFail < 3 ∧ s.boot.trialFail = false ∧
    ({ s with boot := { bootFail := 3 } } : State).boot.bootFail = 3 ∧ s.headerOk 0 = false ∧ s.headerOk 1 = false ∧
    s.bootCfg.pend = 0xFF ∧ s.boot.released = false ∧ s.boot.resetHeld = false ∧ s.pwr.coldHold = false ∧ s.domOn .sys = true := by
  decide +kernel

theorem test_BootConfigurationWrites : bootDefault.active < 256 ∧ bootDefault.pend < 256 ∧ bootDefault.keyHash.length = 32 ∧
    (State.reset.writeBoot bootDefault).bootInForce = some (0, { bootDefault with seq := 1 }) := by decide +kernel

theorem test_DownloadsAndVerification :
    let s := State.reset
    let d (n h o : Nat) : State := { s with dl := { st := n, held := h, offset := o } }
    (d 1 0 0).dl.st = 1 ∧ s.inactive ≤ 1 ∧ s.dl.st ≠ 1 ∧ s.dl.st ≠ 2 ∧ s.regNormal = true ∧ (s.set AONCTL.MODE_DOCKED 0).regNormal = false ∧
    (d 3 256 192).dl.offset ≠ (d 3 256 192).dl.held ∧ (d 3 192 192).dl.held + 4 ≤ hdrLength ((d 3 192 192).header (d 3 192 192).inactive) ∧
    (d 2 188 188).dl.offset = (d 2 188 188).dl.held ∧ (d 4 0 0).dl.st = 4 ∧ (d 4 0 0).headerReason ((d 4 0 0).header (d 4 0 0).inactive) = 1 ∧
    (let z : State := (d 3 192 192).pokes 0x08100008 [0, 0, 0, 0]; hdrLength (z.header z.inactive) < z.dl.held + 4) := by decide +kernel

theorem test_ActivationTrialAndRollback :
    let s := State.reset
    let a (st : Nat) : State := { s with dl := { st := st, armedAt := some 3 }, mt := 4 }
    let r : State := { s with boot := { trial := true, released := true, promotePend := true }, tick := 500000000 }
    (a 7).dl.armedAt = some 3 ∧ (a 7).due 3 = true ∧ (a 7).due 8 = false ∧ (a 7).rs.cur = none ∧ (a 7).rs.flushDue = false ∧ (a 7).timeValid = false ∧
    ((a 7).set MTIME.STATUS_TIME_VALID 1).timeValid = true ∧ s.dl.armedAt = none ∧ s.accessible RSTCTL.HEALTH = true ∧
    r.onTrial = true ∧ s.onTrial = false ∧ r.regNormal = true ∧ (r.set AONCTL.MODE_DOCKED 0).regNormal = false ∧ r.boot.released = true ∧
    r.boot.releasedAt + 500000000 ≤ r.tick ∧ r.domOn .mgt = true ∧ r.boot.promotePend = true ∧
    (let w : State := ({ s with boot := { withdraw := true } } : State).writeBoot { bootDefault with pend := 1 }
     w.boot.withdraw = true ∧ w.bootCfg.pend ≠ 0xFF ∧ w.regNormal = true ∧ w.boot.promotePend = false) := by decide +kernel

theorem test_ResetValues : (⟨31, 31, .ovf 15 0, 0, .any, false⟩ : Fld) ∈ fieldsAt RINGCTL.BREAK_CNT := by decide

theorem test_StepKeepsCanonicalForm : State.reset.Canonical ∧ isNext (step State.reset) = true := by
  refine ⟨⟨by decide, by decide⟩, rfl⟩

theorem test_StepKeepsQueueAndOtp :
    let s : State := { State.reset with pending := [.vinAbsent], sc := { ownerHash := some [1], keyBurned := true } }
    isNext (step s) = true ∧ s.sc.ownerHash = some [1] ∧ s.sc.keyBurned = true := by decide +kernel

theorem test_EveryCommandCompletes : getBit State.reset.openScopes 2 = false ∧
    getBit State.reset.openScopes 1 = true := by decide +kernel

theorem test_CountersSaturate : (⟨31, 31, .ovf 15 0, 0, .any, false⟩ : Fld) ∈ fieldsAt MEMCTL.ECC_CORR ∧
    RINGCTL.BREAK_CNT_COUNT.key ≠ RINGCTL.BREAK_CNT_OVF.key ∧ RINGCTL.BREAK_CNT_OVF.hi = RINGCTL.BREAK_CNT_OVF.lo ∧
    getBit 0x80000000 31 = true ∧ getBit 0x7FFFFFFF 31 = false ∧ State.reset.get RINGCTL.BREAK_CNT_COUNT < RINGCTL.BREAK_CNT_COUNT.bound - 1 ∧
    (State.reset.set RINGCTL.BREAK_CNT_COUNT 65535).get RINGCTL.BREAK_CNT_COUNT = RINGCTL.BREAK_CNT_COUNT.bound - 1 ∧
    blockOf MEMCTL.ECC_CORR = some .memctl ∧ mayReg .app true .memctl MEMCTL.ECC_CORR = true ∧ MEMCTL.ECC_CORR % 4 = 0 ∧
    State.reset.accessible MEMCTL.ECC_CORR = true ∧ State.reset.lockedAt .memctl = false ∧
    ((State.reset.count MEMCTL.ECC_CORR_COUNT MEMCTL.ECC_CORR_OVF).now.counted.count MEMCTL.ECC_CORR_COUNT.key = 1) := by decide

end Sys2Proof.Tests
end

/-! ## The boot configuration, written and read back (16_reset_startup_update.md) -/

namespace Sys2Proof.Machine

/-! ### Bytes and the numbers they spell (R8) -/

theorem leNat_leBytes (n v : Nat) : leNat (leBytes n v) = v % 256 ^ n := by
  induction n generalizing v with
  | zero => simp [leBytes, leNat, Nat.mod_one]
  | succ n ih =>
    rw [leBytes, leNat, ih, BitVec.toNat_ofNat, Nat.pow_succ' (m := 256), Nat.mod_mul]

theorem leNat_lt (l : List Byte) : leNat l < 256 ^ l.length := by
  induction l with
  | nil => simp [leNat]
  | cons b l ih =>
    have hb := b.isLt
    rw [leNat, List.length_cons, Nat.pow_succ']
    omega

theorem field_lt (l : List Byte) (off n : Nat) : field l off n < 256 ^ n :=
  (leNat_lt _).trans_le (Nat.pow_le_pow_right (by decide) (List.length_take_le _ _))

theorem field_leBytes_append {n v : Nat} (h : v < 256 ^ n) (r : List Byte) : field (leBytes n v ++ r) 0 n = v := by
  rw [field, List.drop_zero, List.take_left' (leBytes_length n v), leNat_leBytes, Nat.mod_eq_of_lt h]

theorem field_append_right {l : List Byte} {off : Nat} (h : l.length ≤ off) (r : List Byte) (n : Nat) :
    field (l ++ r) off n = field r (off - l.length) n := by
  rw [field, List.drop_append, List.drop_eq_nil_of_le h, List.nil_append, field]

theorem crc32cBit_lt {c : Nat} (h : c < 2 ^ 32) : crc32cBit c < 2 ^ 32 := by
  unfold crc32cBit
  split
  · exact Nat.xor_lt_two_pow (by omega) (by decide)
  · omega

theorem crc32cByte_lt {c : Nat} (h : c < 2 ^ 32) (b : Byte) : crc32cByte c b < 2 ^ 32 := by
  have hx : c ^^^ b.toNat < 2 ^ 32 := Nat.xor_lt_two_pow h (b.isLt.trans (by decide))
  unfold crc32cByte
  iterate 8 apply crc32cBit_lt
  exact hx

theorem crc32c_lt (l : List Byte) : crc32c l < 2 ^ 32 := by
  have hfold : l.foldl crc32cByte 0xFFFFFFFF < 2 ^ 32 :=
    List.foldlRecOn l crc32cByte (motive := (· < 2 ^ 32)) (by decide : 0xFFFFFFFF < 2 ^ 32) fun c hc b _ => crc32cByte_lt hc b
  exact Nat.xor_lt_two_pow hfold (by decide)

/-! ### Bytes of a range -/

theorem State.bytes_length (s : State) (a n : Nat) : (s.bytes a n).length = n := by
  induction n generalizing a with
  | zero => rfl
  | succ n ih => rw [State.bytes, List.length_cons, ih]

theorem State.bytes_eq_of_byte {s t : State} {a n : Nat} (h : ∀ i, i < n → t.byte (a + i) = s.byte (a + i)) :
    t.bytes a n = s.bytes a n := by
  induction n generalizing a with
  | zero => rfl
  | succ n ih =>
    have h0 : t.byte a = s.byte a := h 0 (by omega)
    have hs : t.bytes (a + 1) n = s.bytes (a + 1) n := ih fun i hi => by
      simpa only [Nat.add_assoc, Nat.add_comm 1] using h (i + 1) (by omega)
    rw [State.bytes, State.bytes, h0, hs]

/-- Bytes written to a range are the bytes of the range. -/
theorem State.bytes_pokes (s : State) (a : Nat) (l : List Byte) : (s.pokes a l).bytes a l.length = l := by
  induction l generalizing s a with
  | nil => rfl
  | cons b l ih =>
    rw [State.pokes, List.length_cons, State.bytes, State.byte_pokes_other _ _ (.inl (by omega)), State.byte_poke_self, ih]

/-! ### One copy of the boot configuration (R330) -/

/-- Every field but SEQ, which the write counts itself, fits the place that R330 gives it in a copy. -/
structure BootCfg.Fits (b : BootCfg) : Prop where
  active : b.active < 256
  pend : b.pend < 256
  wdogMs : b.wdogMs < 65536
  march : b.march < 256
  keyHash : b.keyHash.length = 32

/-- The 64 bytes of a copy: the body and its CRC. -/
def BootCfg.image (b : BootCfg) : List Byte := b.body ++ leBytes 4 (crc32c b.body)

theorem padTo_of_length {n : Nat} {l : List Byte} (h : l.length = n) : padTo n l = l := by
  rw [padTo, List.take_left' h]

variable {s t : State} {b x : BootCfg} {c d k : Nat}

theorem BootCfg.Fits.body_length (h : b.Fits) : b.body.length = 60 := by
  simp [BootCfg.body, padTo_of_length h.keyHash, h.keyHash]

theorem BootCfg.Fits.image_length (h : b.Fits) : b.image.length = 64 := by
  rw [BootCfg.image, List.length_append, h.body_length, leBytes_length]

/-- The fields of a copy stand one behind the other, and the CRC behind the 60 bytes it is taken over. -/
theorem BootCfg.image_eq (h : b.Fits) :
    b.image = leBytes 4 0x47464353 ++ (leBytes 2 b.seq ++ (leBytes 1 b.active ++ (leBytes 1 b.pend ++ (leBytes 2 b.wdogMs ++
      (leBytes 1 b.march ++ ([0xFF] ++ (b.keyHash ++ (List.replicate 16 0xFF ++ (leBytes 4 (crc32c b.body) ++ []))))))))) := by
  simp only [BootCfg.image, BootCfg.body, padTo_of_length h.keyHash, List.append_assoc, List.append_nil]

/-- A copy that holds a configuration's bytes is valid, and is that configuration. -/
theorem State.bootCopy_of_image (h : b.Fits) (hq : b.seq < 65536) (hb : s.bytes (bootAddr c) 64 = b.image) :
    s.bootCopy c = some b := by
  have hbody : b.image.take 60 = b.body := List.take_left' h.body_length
  have hkey : (b.image.drop 12).take 32 = b.keyHash := by
    simp [BootCfg.image_eq h, List.drop_append, List.drop_eq_nil_of_le, h.keyHash]
  have fields : field b.image 0 4 = 0x47464353 ∧ field b.image 4 2 = b.seq ∧ field b.image 6 1 = b.active ∧
      field b.image 7 1 = b.pend ∧ field b.image 8 2 = b.wdogMs ∧ field b.image 10 1 = b.march := by
    simp [BootCfg.image_eq h, field_append_right, field_leBytes_append, hq, h.active, h.pend, h.wdogMs, h.march]
  obtain ⟨hmagic, hseq, hactive, hpend, hwdog, hmarch⟩ := fields
  have hcrc : field b.image 60 4 = crc32c b.body := by
    simpa [BootCfg.image, field_append_right, h.body_length] using field_leBytes_append (n := 4) (crc32c_lt b.body) []
  simp only [State.bootCopy, hb, hbody, hkey, hmagic, hseq, hactive, hpend, hwdog, hmarch, hcrc, and_self, if_true]

/-- A copy is what its 64 bytes say. -/
theorem State.bootCopy_of_byte (h : ∀ i, i < 64 → t.byte (bootAddr c + i) = s.byte (bootAddr c + i)) :
    t.bootCopy c = s.bootCopy c := by
  rw [State.bootCopy, State.bytes_eq_of_byte h, State.bootCopy]

/-- What a valid copy holds fits. -/
theorem State.bootCopy_fits (h : s.bootCopy c = some x) : x.Fits := by
  have hkey : (((s.bytes (bootAddr c) 64).drop 12).take 32).length = 32 := by
    simp [State.bytes_length]
  rw [State.bootCopy] at h
  split at h
  case isFalse => cases h
  case isTrue =>
    cases h
    exact ⟨field_lt _ 6 1, field_lt _ 7 1, field_lt _ 8 2, field_lt _ 10 1, hkey⟩

/-! ### The copy in force (R330) -/

theorem State.bootInForce_copy (h : s.bootInForce = some (k, x)) : k < 2 ∧ s.bootCopy k = some x := by
  unfold State.bootInForce at h
  split at h
  case h_1 a b ha hb =>
    split at h <;> cases h
    · exact ⟨by decide, hb⟩
    · exact ⟨by decide, ha⟩
  case h_2 a ha _ => cases h; exact ⟨by decide, ha⟩
  case h_3 b _ hb => cases h; exact ⟨by decide, hb⟩
  case h_4 => cases h

theorem State.bootInForce_none (h : s.bootInForce = none) : s.bootCopy 0 = none ∧ s.bootCopy 1 = none := by
  unfold State.bootInForce at h
  split at h
  case h_1 => split at h <;> cases h
  case h_2 => cases h
  case h_3 => cases h
  case h_4 h0 h1 => exact ⟨h0, h1⟩

/-- The boot configuration in force lies in the memories alone. -/
theorem State.bootCfg_congr (h : SameMemory s t) : t.bootCfg = s.bootCfg := by
  have hcopy : ∀ c, t.bootCopy c = s.bootCopy c := fun c => State.bootCopy_of_byte fun i _ => h _
  rw [State.bootCfg, State.bootInForce, hcopy, hcopy, State.bootCfg, State.bootInForce]

/-- The configuration in force fits. -/
theorem State.bootCfg_fits (s : State) : s.bootCfg.Fits := by
  rw [State.bootCfg]
  cases h : s.bootInForce with
  | none => exact ⟨by decide, by decide, by decide, by decide, by decide⟩
  | some p => exact State.bootCopy_fits (State.bootInForce_copy h).2

/-- One sequence number on is newer (R18). -/
theorem newer_succ (q : Nat) : newer 16 ((q + 1) % 65536) q = true := by
  simp only [newer, Bool.and_eq_true, decide_eq_true_eq]; omega

theorem not_newer_succ (q : Nat) : newer 16 q ((q + 1) % 65536) = false := by
  simp only [newer, Bool.and_eq_false_iff, decide_eq_false_iff_not]; omega

/-- Of two valid copies the one with the sequence number one on is in force. -/
theorem State.bootInForce_next (hk : k < 2) (hold : t.bootCopy k = some x) (hnew : t.bootCopy (1 - k) = some b)
    (hq : b.seq = (x.seq + 1) % 65536) : t.bootInForce = some (1 - k, b) := by
  obtain rfl | rfl : k = 0 ∨ k = 1 := by omega
  · simp only [State.bootInForce, hold, hnew, hq, newer_succ, if_true, Nat.sub_zero]
  · simp only [Nat.sub_self] at hnew
    simp only [State.bootInForce, hold, hnew, hq, not_newer_succ, Bool.false_eq_true, if_false, Nat.sub_self]

/-! ### A copy written (R331) -/

/-- Copy `c` erased and programmed with a configuration. -/
def State.writeCopy (s : State) (c : Nat) (b : BootCfg) : State :=
  ((s.eraseRange (bootAddr c) 0x8000).pokes (bootAddr c) b.image).dropMcache

theorem State.writeBoot_of_some (h : s.bootInForce = some (k, x)) (b : BootCfg) :
    s.writeBoot b = s.writeCopy (1 - k) { b with seq := (x.seq + 1) % 65536 } := by
  rw [State.writeBoot, h]; rfl

theorem State.writeBoot_of_none (h : s.bootInForce = none) (b : BootCfg) :
    s.writeBoot b = s.writeCopy 0 { b with seq := 1 } := by
  rw [State.writeBoot, h]; rfl

theorem State.byte_writeCopy (s : State) (c a : Nat) (b : BootCfg) :
    (s.writeCopy c b).byte a = ((s.eraseRange (bootAddr c) 0x8000).pokes (bootAddr c) b.image).byte a := by
  rw [State.writeCopy, State.dropMcache, State.byte_set]

/-- The copy written is the configuration. -/
theorem State.bootCopy_writeCopy_self (h : b.Fits) (hq : b.seq < 65536) (s : State) (c : Nat) :
    (s.writeCopy c b).bootCopy c = some b := by
  refine State.bootCopy_of_image h hq ?_
  rw [State.bytes_eq_of_byte fun i _ => State.byte_writeCopy s c _ b, ← h.image_length, State.bytes_pokes]

/-- Only the flash of the copy written changes. -/
theorem State.writeCopy_frame (h : b.Fits) (s : State) (c : Nat) : MemoryBut (bootAddr c) 0x8000 s (s.writeCopy c b) := by
  intro a ha
  have hout : a < bootAddr c ∨ bootAddr c + b.image.length ≤ a := by rw [h.image_length]; omega
  rw [State.byte_writeCopy, State.byte_pokes_other _ _ hout, State.byte_eraseRange, if_neg (by omega)]

/-- The other copy stays. -/
theorem State.bootCopy_writeCopy_other (h : b.Fits) (s : State) (hcd : d ≠ c) : (s.writeCopy c b).bootCopy d = s.bootCopy d :=
  State.bootCopy_of_byte fun i hi => State.writeCopy_frame h s c _ (by unfold bootAddr; omega)

/-! ### The configuration written (R331) -/

/-- The configuration that a write leaves in force, with its SEQ. -/
def State.nextBoot (s : State) (b : BootCfg) : BootCfg :=
  { b with seq := (s.bootInForce.map fun p => (p.2.seq + 1) % 65536).getD 1 }

theorem BootCfg.Fits.withSeq (h : b.Fits) (q : Nat) : ({ b with seq := q } : BootCfg).Fits :=
  ⟨h.active, h.pend, h.wdogMs, h.march, h.keyHash⟩

theorem State.writeBoot_bootCfg (h : b.Fits) (s : State) : (s.writeBoot b).bootCfg = s.nextBoot b := by
  cases hs : s.bootInForce with
  | none =>
    obtain ⟨_, h1⟩ := State.bootInForce_none hs
    have hnew := State.bootCopy_writeCopy_self (h.withSeq 1) (by norm_num) s 0
    have hold := (State.bootCopy_writeCopy_other (h.withSeq 1) s (show 1 ≠ 0 by decide)).trans h1
    have hforce : (s.writeBoot b).bootInForce = some (0, { b with seq := 1 }) := by
      rw [State.writeBoot_of_none hs, State.bootInForce, hnew, hold]
    rw [State.bootCfg, hforce, State.nextBoot, hs]; rfl
  | some p =>
    obtain ⟨k, x⟩ := p
    obtain ⟨hk, hx⟩ := State.bootInForce_copy hs
    have hb := h.withSeq ((x.seq + 1) % 65536)
    have hnew := State.bootCopy_writeCopy_self hb (Nat.mod_lt _ (by decide)) s (1 - k)
    have hold := (State.bootCopy_writeCopy_other hb s (show k ≠ 1 - k by omega)).trans hx
    have hforce : (s.writeBoot b).bootInForce = some (1 - k, { b with seq := (x.seq + 1) % 65536 }) := by
      rw [State.writeBoot_of_some hs, State.bootInForce_next hk hold hnew rfl]
    rw [State.bootCfg, hforce, State.nextBoot, hs]; rfl

/-- The copy that was in force stays, and only the other copy's flash changes. -/
theorem State.writeBoot_frame (h : b.Fits) (hs : s.bootInForce = some (k, x)) :
    (s.writeBoot b).bootCopy k = some x ∧ MemoryBut (bootAddr (1 - k)) 0x8000 s (s.writeBoot b) := by
  have hb := h.withSeq ((x.seq + 1) % 65536)
  obtain ⟨hk, hx⟩ := State.bootInForce_copy hs
  rw [State.writeBoot_of_some hs]
  exact ⟨(State.bootCopy_writeCopy_other hb s (by omega)).trans hx, State.writeCopy_frame hb s (1 - k)⟩

/-- A PEND written is in force, the rest as it was but for SEQ. -/
theorem State.setPend_bootCfg (s : State) {p : Nat} (hp : p < 256) :
    (s.setPend p).bootCfg = s.nextBoot { s.bootCfg with pend := p } := by
  obtain ⟨hactive, _, hwdog, hmarch, hkey⟩ := s.bootCfg_fits
  have hb : ({ s.bootCfg with pend := p } : BootCfg).Fits := ⟨hactive, hp, hwdog, hmarch, hkey⟩
  have hmem : SameMemory (s.writeBoot { s.bootCfg with pend := p }) (s.setPend p) := by
    intro a
    rw [State.setPend, State.byte, State.byte]
  rw [State.bootCfg_congr hmem, State.writeBoot_bootCfg hb]

/-- Settles O53. The write goes to the copy not in force, whose SEQ is then the newer (R18), so it is in force from there on. -/
theorem bootConfigurationWrites : Obligations.BootConfigurationWrites := by
  intro b s hactive hpend hwdog hmarch hkey
  have hb : b.Fits := ⟨hactive, hpend, hwdog, hmarch, hkey⟩
  refine ⟨State.writeBoot_bootCfg hb s, fun k x hs => State.writeBoot_frame hb hs, fun p hp => ?_⟩
  rw [State.setPend_bootCfg s hp]
  exact ⟨rfl, rfl, rfl⟩

end Sys2Proof.Machine

/-! ## The canonical form of registers and memories is kept by every step -/

namespace Sys2Proof.Machine

/-! ### What every command keeps -/

/-- Every command keeps the canonical form, the queue behind it and OTP, in its own meaning's `keeps_` lemma. -/
theorem keeps_exec {s₀ s : State} (h : Keeps s₀ s) : ∀ i : Instr, KeepsAns s₀ (exec i s)
  | .registerWrite m mach sz a v => keeps_execRegisterWrite h m mach sz a v
  | .memoryAccess m mach sz a wr e grant => keeps_execMemoryAccess h m mach sz a wr e grant
  | .pendingReportAccept g => keeps_execPendingReportAccept h g
  | .livenessRecheck src fails => keeps_execLivenessRecheck h src fails
  | .busTimeout a => keeps_execBusTimeout h a
  | .vinAbsent => keeps_execVinAbsent h
  | .vinPresent => keeps_execVinPresent h
  | .sysCfgWrite v => keeps_execSysCfgWrite h v
  | .pllLockConfirmed tb => keeps_execPllLockConfirmed h tb
  | .cycleStartReceived p t f crcOk => keeps_execCycleStartReceived h p t f crcOk
  | .cycleStartMissed => keeps_execCycleStartMissed h
  | .holdoverExpiry => keeps_execHoldoverExpiry h
  | .servoRestart => keeps_execServoRestart h
  | .pullLimWrite v => keeps_execPullLimWrite h v
  | .delayRequestSend p t1 => keeps_execDelayRequestSend h p t1
  | .dlyFrameReceived p f r t3 => keeps_execDlyFrameReceived h p f r t3
  | .mtSyncInEdge t rising => keeps_execMtSyncInEdge h t rising
  | .syncinTimeout => keeps_execSyncinTimeout h
  | .mtReadCapture => keeps_execMtReadCapture h
  | .syncoutArm hi => keeps_execSyncoutArm h hi
  | .mtSyncOutPulse => keeps_execMtSyncOutPulse h
  | .cmpArm c hi => keeps_execCmpArm h c hi
  | .cmpDisarm mask => keeps_execCmpDisarm h mask
  | .cmpFire c => keeps_execCmpFire h c
  | .calendarPublish => keeps_execCalendarPublish h
  | .copyStart v => keeps_execCopyStart h v
  | .copyDone => keeps_execCopyDone h
  | .verify n => keeps_execVerify h n
  | .verifyDone n => keeps_execVerifyDone h n
  | .arm n => keeps_execArm h n
  | .cancel n => keeps_execCancel h n
  | .invalidate n => keeps_execInvalidate h n
  | .epochSwitch n => keeps_execEpochSwitch h n
  | .loadData n d => keeps_execLoadData h n d
  | .segmentActionsFire n => keeps_execSegmentActionsFire h n
  | .laneTick n isa isb oc flt => keeps_execLaneTick h n isa isb oc flt
  | .adcseqRunStart v => keeps_execAdcseqRunStart h v
  | .adcseqRunStop v => keeps_execAdcseqRunStop h v
  | .adcseqPeriodWrite v => keeps_execAdcseqPeriodWrite h v
  | .laneRegisterWrite n off v => keeps_execLaneRegisterWrite h n off v
  | .quadEdgeAccepted n a b => keeps_execQuadEdgeAccepted h n a b
  | .indexEdge n => keeps_execIndexEdge h n
  | .qcntWrite n v => keeps_execQcntWrite h n v
  | .laneEnable n v => keeps_execLaneEnable h n v
  | .laneDisable n v => keeps_execLaneDisable h n v
  | .calEnd n => keeps_execCalEnd h n
  | .ocTrip n => keeps_execOcTrip h n
  | .drvFault n => keeps_execDrvFault h n
  | .openDetect n => keeps_execOpenDetect h n
  | .senseStuckDetect n => keeps_execSenseStuckDetect h n
  | .sensePlausDetect n => keeps_execSensePlausDetect h n
  | .senseSumDetect n => keeps_execSenseSumDetect h n
  | .feDetect n => keeps_execFeDetect h n
  | .holdSafeEnd n => keeps_execHoldSafeEnd h n
  | .resume n v => keeps_execResume h n v
  | .resumeAt n => keeps_execResumeAt h n
  | .act n => keeps_execAct h n
  | .sample n balls => keeps_execSample h n balls
  | .waitpin n balls => keeps_execWaitpin h n balls
  | .waitpinComplete n balls => keeps_execWaitpinComplete h n balls
  | .shift n => keeps_execShift h n
  | .shiftComplete n din => keeps_execShiftComplete h n din
  | .push n => keeps_execPush h n
  | .pushStallEnd n => keeps_execPushStallEnd h n
  | .pull n => keeps_execPull h n
  | .pullStallEnd n => keeps_execPullStallEnd h n
  | .jmp n => keeps_execJmp h n
  | .djnz n => keeps_execDjnz h n
  | .evt n => keeps_execEvt h n
  | .sync n => keeps_execSync h n
  | .byDeadlineTimeout n => keeps_execByDeadlineTimeout h n
  | .baseStale n => keeps_execBaseStale h n
  | .engineStart n v => keeps_execEngineStart h n v
  | .engineArm n v => keeps_execEngineArm h n v
  | .engineStop n v => keeps_execEngineStop h n v
  | .programStoreWrite w v => keeps_execProgramStoreWrite h w v
  | .inject n v => keeps_execInject h n v
  | .injectedExecute n balls => keeps_execInjectedExecute h n balls
  | .txfifoWrite n v => keeps_execTxfifoWrite h n v
  | .rxfifoRead n => keeps_execRxfifoRead h n
  | .ssGo v => keeps_execSsGo h v
  | .ssCancel => keeps_execSsCancel h
  | .syncStartInstant => keeps_execSyncStartInstant h
  | .portLost p why => keeps_execPortLost h p why
  | .portSignalGained p => keeps_execPortSignalGained h p
  | .linkUsable p => keeps_execLinkUsable h p
  | .linkHeal p => keeps_execLinkHeal h p
  | .cycleStartSend => keeps_execCycleStartSend h
  | .slotPayloadFetch => keeps_execSlotPayloadFetch h
  | .slotSend busy => keeps_execSlotSend h busy
  | .slotReceived p f r => keeps_execSlotReceived h p f r
  | .tokSend => keeps_execTokSend h
  | .tokReceived p pos => keeps_execTokReceived h p pos
  | .acyclicFrameReceived p f r => keeps_execAcyclicFrameReceived h p f r
  | .acyclicTxLost => keeps_execAcyclicTxLost h
  | .queueTailWrite q v => keeps_execQueueTailWrite h q v
  | .ringEnable v => keeps_execRingEnable h v
  | .ringDisable v => keeps_execRingDisable h v
  | .listenTimeout => keeps_execListenTimeout h
  | .followerTimeout => keeps_execFollowerTimeout h
  | .clmSend => keeps_execClmSend h
  | .clmReceived p uid prio run crcOk => keeps_execClmReceived h p uid prio run crcOk
  | .ringResetWrite => keeps_execRingResetWrite h
  | .rstReceived p => keeps_execRstReceived h p
  | .sleepGo v => keeps_execSleepGo h v
  | .sleepCancel => keeps_execSleepCancel h
  | .ringSleep => keeps_execRingSleep h
  | .heldWake => keeps_execHeldWake h
  | .wakeReq v => keeps_execWakeReq h v
  | .ringActivityWake p => keeps_execRingActivityWake h p
  | .read m => keeps_execRead h m
  | .write m => keeps_execWrite h m
  | .describe m => keeps_execDescribe h m
  | .stage m => keeps_execStage h m
  | .commit m => keeps_execCommit h m
  | .discard m => keeps_execDiscard h m
  | .writeSetApply w => keeps_execWriteSetApply h w
  | .snap m => keeps_execSnap h m
  | .snapshotCapture => keeps_execSnapshotCapture h
  | .collectionWindowEnd => keeps_execCollectionWindowEnd h
  | .recollect m => keeps_execRecollect h m
  | .barrier m => keeps_execBarrier h m
  | .publish src index sub value => keeps_execPublish h src index sub value
  | .requestForwardTimeout => keeps_execRequestForwardTimeout h
  | .appResponse v => keeps_execAppResponse h v
  | .appTimeout => keeps_execAppTimeout h
  | .locGo => keeps_execLocGo h
  | .storePersisted via tid => keeps_execStorePersisted h via tid
  | .eraseStored via tid => keeps_execEraseStored h via tid
  | .dictFullReset => keeps_execDictFullReset h
  | .wfiStepRequest => keeps_execWfiStepRequest h
  | .scarabPrepareAck => keeps_execScarabPrepareAck h
  | .stepEntryComplete => keeps_execStepEntryComplete h
  | .wakeEvent srcs => keeps_execWakeEvent h srcs
  | .stepExitComplete => keeps_execStepExitComplete h
  | .goPupa m => keeps_execGoPupa h m
  | .wakeMain m => keeps_execWakeMain h m
  | .coreBrownOut => keeps_execCoreBrownOut h
  | .vocSampleStart => keeps_execVocSampleStart h
  | .vocSampleEnd pvMv => keeps_execVocSampleEnd h pvMv
  | .harvestSampleCmd => keeps_execHarvestSampleCmd h
  | .fracWrite v => keeps_execFracWrite h v
  | .batComparison batMv vstoreMv => keeps_execBatComparison h batMv vstoreMv
  | .ntcMeasure r => keeps_execNtcMeasure h r
  | .cellShortCircuit => keeps_execCellShortCircuit h
  | .scRecovery => keeps_execScRecovery h
  | .starterHandover => keeps_execStarterHandover h
  | .boostDropout => keeps_execBoostDropout h
  | .coldStartResetRelease => keeps_execColdStartResetRelease h
  | .coldStartPorReassert => keeps_execColdStartPorReassert h
  | .cellConnect => keeps_execCellConnect h
  | .cricketRun => keeps_execCricketRun h
  | .cricketWakeIrq => keeps_execCricketWakeIrq h
  | .adcStart trig => keeps_execAdcStart h trig
  | .adcSequenceDone codes => keeps_execAdcSequenceDone h codes
  | .mbSend m a2c => keeps_execMbSend h m a2c
  | .mbAck m a2c => keeps_execMbAck h m a2c
  | .touchScanStart => keeps_execTouchScanStart h
  | .touchScanEnd q => keeps_execTouchScanEnd h q
  | .touchEnable v => keeps_execTouchEnable h v
  | .touchDisable v => keeps_execTouchDisable h v
  | .recalAll v => keeps_execRecalAll h v
  | .recal v => keeps_execRecal h v
  | .keymaskWrite hi v => keeps_execKeymaskWrite h hi v
  | .rtcSecondBoundary => keeps_execRtcSecondBoundary h
  | .rtcShadowRead m r => keeps_execRtcShadowRead h m r
  | .rtcShadowExpiry m => keeps_execRtcShadowExpiry h m
  | .rtcSet => keeps_execRtcSet h
  | .rtcSetCancel => keeps_execRtcSetCancel h
  | .rtcShift v => keeps_execRtcShift h v
  | .shiftCountStep => keeps_execShiftCountStep h
  | .disciplineWindowEnd => keeps_execDisciplineWindowEnd h
  | .trimWrite v => keeps_execTrimWrite h v
  | .trimAccumulatorCarry => keeps_execTrimAccumulatorCarry h
  | .moistureTick => keeps_execMoistureTick h
  | .mcCountWrite n v => keeps_execMcCountWrite h n v
  | .marchGo v => keeps_execMarchGo h v
  | .marchAbort => keeps_execMarchAbort h
  | .marchComplete r => keeps_execMarchComplete h r
  | .vaultWipeCmd m mach => keeps_execVaultWipeCmd h m mach
  | .vaultWipeComplete => keeps_execVaultWipeComplete h
  | .program ch => keeps_execProgram h ch
  | .erase ch => keeps_execErase h ch
  | .append ch => keeps_execAppend h ch
  | .find ch => keeps_execFind h ch
  | .groupBegin ch => keeps_execGroupBegin h ch
  | .groupClose ch => keeps_execGroupClose h ch
  | .groupAbort ch => keeps_execGroupAbort h ch
  | .compact ch => keeps_execCompact h ch
  | .recstoreAbort ch done => keeps_execRecstoreAbort h ch done
  | .recstoreCommandDone bad => keeps_execRecstoreCommandDone h bad
  | .mount => keeps_execMount h
  | .marginScan weak => keeps_execMarginScan h weak
  | .attest => keeps_execAttest h
  | .logFlush => keeps_execLogFlush h
  | .logRead => keeps_execLogRead h
  | .challenge => keeps_execChallenge h
  | .nonceWrite via tid d => keeps_execNonceWrite h via tid d
  | .attestationSigned => keeps_execAttestationSigned h
  | .tempSample s0 s1 s2 => keeps_execTempSample h s0 s1 s2
  | .supplyLow vaon => keeps_execSupplyLow h vaon
  | .lifeCycleChange via tid d => keeps_execLifeCycleChange h via tid d
  | .lifeCycleFusesBurned => keeps_execLifeCycleFusesBurned h
  | .ownerKeyHashWrite via tid d => keeps_execOwnerKeyHashWrite h via tid d
  | .debugUnlock via tid d => keeps_execDebugUnlock h via tid d
  | .staticTamper k level => keeps_execStaticTamper h k level
  | .pairTamper => keeps_execPairTamper h
  | .meshTamper => keeps_execMeshTamper h
  | .logReport => keeps_execLogReport h
  | .logPeriodicFlush => keeps_execLogPeriodicFlush h
  | .logClearLost via tid => keeps_execLogClearLost h via tid
  | .wdogKick v => keeps_execWdogKick h v
  | .wdogWarn => keeps_execWdogWarn h
  | .wdogExpiry pc => keeps_execWdogExpiry h pc
  | .fire m mach v => keeps_execFire h m mach v
  | .channelEdge k => keeps_execChannelEdge h k
  | .channelConfigWrite m mach k cfg v => keeps_execChannelConfigWrite h m mach k cfg v
  | .gctlWrite m mach v => keeps_execGctlWrite h m mach v
  | .uartCharReceived n c => keeps_execUartCharReceived h n c
  | .uartBreak n => keeps_execUartBreak h n
  | .uartRxRead n => keeps_execUartRxRead h n
  | .uartTxWrite n v => keeps_execUartTxWrite h n v
  | .uartCharSent n => keeps_execUartCharSent h n
  | .deLagEnd => keeps_execDeLagEnd h
  | .muteReq n => keeps_execMuteReq h n
  | .envelopeTimeout => keeps_execEnvelopeTimeout h
  | .svcAddressMatch addr rd => keeps_execSvcAddressMatch h addr rd
  | .svcWriteTransaction d => keeps_execSvcWriteTransaction h d
  | .svcReadTransaction n => keeps_execSvcReadTransaction h n
  | .svcStretchTimeout => keeps_execSvcStretchTimeout h
  | .svcRespGo v => keeps_execSvcRespGo h v
  | .powerOnReset vin => keeps_execPowerOnReset h vin
  | .pinReset low => keeps_execPinReset h low
  | .swrst m mach v => keeps_execSwrst h m mach v
  | .startUp strap marchFail => keeps_execStartUp h strap marchFail
  | .downloadBegin via tid => keeps_execDownloadBegin h via tid
  | .downloadSlotErased => keeps_execDownloadSlotErased h
  | .downloadData via tid d ok => keeps_execDownloadData h via tid d ok
  | .downloadFinish via tid => keeps_execDownloadFinish h via tid
  | .downloadVerified => keeps_execDownloadVerified h
  | .downloadActivate via tid => keeps_execDownloadActivate h via tid
  | .downloadAbort via tid => keeps_execDownloadAbort h via tid
  | .activationInstant => keeps_execActivationInstant h
  | .healthConfirm => keeps_execHealthConfirm h
  | .trialTimeout => keeps_execTrialTimeout h
  | .promotePendingWrite => keeps_execPromotePendingWrite h
  | .flashProgram v => keeps_execFlashProgram h v
  | .flashEraseSector v => keeps_execFlashEraseSector h v
  | .flashEraseSlot v => keeps_execFlashEraseSlot h v
  | .flashCommandDone bad => keeps_execFlashCommandDone h bad
  | .dictengVaultTimeout => keeps_execDictengVaultTimeout h
  | .livenessTimeout src => keeps_execLivenessTimeout h src
  | .mailboxOperationDone => keeps_execMailboxOperationDone h
  | .tapAccess a => keeps_execTapAccess h a

/-- A kept state is in canonical form where the state before it is. -/
theorem Keeps.canonical {s t : State} (h : Keeps s t) (hs : s.Canonical) : t.Canonical :=
  ⟨h.regs hs.1, h.mem hs.2⟩

/-- Settles O57. An idle tick keeps the form; so does the front command, run on the state without it, whose registers and
memories are those of the state. -/
theorem stepKeepsCanonicalForm : Obligations.StepKeepsCanonicalForm := by
  intro s t hs hstep
  unfold step at hstep
  split at hstep
  case h_1 =>
    cases hstep
    exact (keeps_idleTick (.refl s)).canonical hs
  case h_2 c rest _ =>
    exact ((keeps_exec (.refl { s with pending := rest }) c).keeps t hstep).canonical hs

end Sys2Proof.Machine

/-! ## What a bus access answers: the rules that the statements about accesses rest on (00_scope.md, 01_architecture.md) -/

namespace Sys2Proof.Machine

/-! ### What a register write answers (R13, R14, R38, R39) -/

section
variable {m : Master} {mach : Bool} {sz : Size} {a : Nat} {v : Word} {s : State} {b : Block}

theorem exec_registerWrite_outside (hb : blockOf a = none) :
    exec (.registerWrite m mach sz a v) s = .next { s with bus := .error } := by
  simp only [exec, execRegisterWrite, hb]

theorem exec_registerWrite_forbidden (hb : blockOf a = some b) (hm : mayReg m true b a = false) :
    exec (.registerWrite m mach sz a v) s = .next (s.violation m a) := by
  simp only [exec, execRegisterWrite, hb, hm, Bool.not_false, if_true]

theorem exec_registerWrite_misaligned (hb : blockOf a = some b) (hm : mayReg m true b a = true) (ha : sz ≠ .word ∨ a % 4 ≠ 0) :
    exec (.registerWrite m mach sz a v) s = .next { s with bus := .error } := by
  simp only [exec, execRegisterWrite, hb, hm, Bool.not_true, Bool.false_eq_true, if_false, if_pos ha]

/-- The blocks whose registers no command of their own writes take a word by the access codes of its fields alone (R9). -/
theorem exec_registerWrite_plain (hb : blockOf a = some b)
    (hplain : b ∈ [Block.clkgen, .pwrctl, .rstctl, .memctl, .flashctl, .erragg, .schedld, .aonctl])
    (hm : mayReg m true b a = true) (ha : a % 4 = 0) (hup : s.accessible a = true) (hlock : s.lockedAt b = false) :
    exec (.registerWrite m mach .word a v) s =
      .next { s.writeFields (fun f => !f.row) a v.toNat false with bus := .ok 0 } := by
  have hblock : s.blockWrite m mach b a v.toNat = s.plainWrite b a v.toNat := by
    simp only [List.mem_cons, List.not_mem_nil, or_false] at hplain
    rcases hplain with rfl | rfl | rfl | rfl | rfl | rfl | rfl | rfl <;> rfl
  have hfields : s.plainWrite b a v.toNat = s.writeFields (fun f => !f.row) a v.toNat false := by
    rw [State.plainWrite, hlock]; rfl
  have hbus : exec (.registerWrite m mach .word a v) s = s.busDo a fun s => s.blockWrite m mach b a v.toNat := by
    simp only [exec, execRegisterWrite, hb, hm, ha, Bool.not_true, Bool.false_eq_true, ne_eq, not_true_eq_false, or_self, if_false]
    simp only [List.mem_cons, List.not_mem_nil, or_false] at hplain
    rcases hplain with rfl | rfl | rfl | rfl | rfl | rfl | rfl | rfl <;> rfl
  rw [hbus, State.busDo_reached hup, hblock, hfields]

end

/-! ### What a register read answers (R13, R14, R39) -/

section
variable {m : Master} {mach : Bool} {sz : Size} {a : Nat} {e : Ecc} {g : Bool} {s : State} {b : Block}

theorem exec_registerRead_forbidden (hk : memKind a = none) (hb : blockOf a = some b) (hm : mayReg m false b a = false) :
    exec (.memoryAccess m mach sz a none e g) s = .next (s.violation m a) := by
  simp only [exec, execMemoryAccess, hk, hb, hm, Bool.not_false, if_true]

theorem exec_registerRead_misaligned (hk : memKind a = none) (hb : blockOf a = some b) (hm : mayReg m false b a = true)
    (ha : sz ≠ .word ∨ a % 4 ≠ 0) : exec (.memoryAccess m mach sz a none e g) s = .next { s with bus := .error } := by
  simp only [exec, execMemoryAccess, hk, hb, hm, Bool.not_true, Bool.false_eq_true, if_false, if_pos ha]

theorem exec_registerRead (hk : memKind a = none) (hb : blockOf a = some b) (hm : mayReg m false b a = true) (ha : a % 4 = 0) :
    exec (.memoryAccess m mach .word a none e g) s = execRegisterRead m b a s := by
  simp only [exec, execMemoryAccess, hk, hb, hm, ha, Bool.not_true, Bool.false_eq_true, ne_eq, not_true_eq_false, or_self, if_false]

end

/-! ### What a memory access answers (R14, R33, R38, R39, R263) -/

section
variable {m : Master} {mach : Bool} {sz : Size} {a : Nat} {wr : Option Word} {e : Ecc} {g : Bool} {s : State} {k : MemKind}

theorem exec_memoryAccess_outside (hk : memKind a = none) (hb : blockOf a = none) :
    exec (.memoryAccess m mach sz a wr e g) s = .next { s with bus := .error } := by
  simp only [exec, execMemoryAccess, hk, hb]

theorem exec_memoryAccess_forbidden (hk : memKind a = some k) (hm : mayMem m mach s.boot.released wr.isSome k a = false) :
    exec (.memoryAccess m mach sz a wr e g) s = .next (s.violation m a) := by
  simp only [exec, execMemoryAccess, hk, hm, Bool.not_false, if_true]

theorem exec_memoryAccess_misaligned_or_down (hk : memKind a = some k) (hm : mayMem m mach s.boot.released wr.isSome k a = true)
    (ha : a % sizeBytes sz ≠ 0 ∨ s.memUp k = false) :
    exec (.memoryAccess m mach sz a wr e g) s = .next { s with bus := .error } := by
  simp only [exec, execMemoryAccess, hk, hm, Bool.not_true, Bool.false_eq_true, if_false, if_pos ha]

/-- The bus port of a memory takes an access: the master may reach it, it is aligned to its size, the memory is up, and neither a wipe
nor a march test nor the wait for the vault's cycle holds it. -/
structure State.Takes (s : State) (m : Master) (mach : Bool) (sz : Size) (a : Nat) (wr : Bool) (k : MemKind) : Prop where
  kind : memKind a = some k
  may : mayMem m mach s.boot.released wr k a = true
  aligned : a % sizeBytes sz = 0
  up : s.memUp k = true
  still : s.marching a = false
  unwiped : k = .secure → s.on VAULTCTL.STAT_WIPING = false
  plain : ¬ (m = .dict ∧ k = .vault)

theorem exec_memoryAccess_taken (h : s.Takes m mach sz a wr.isSome k) :
    exec (.memoryAccess m mach sz a wr e g) s = .next (s.memDo m k sz a wr e) := by
  obtain ⟨hk, hm, ha, hup, hstill, hwipe, hplain⟩ := h
  have hsecure : (k == .secure && s.on VAULTCTL.STAT_WIPING) = false := by
    by_cases hs : k = .secure
    · rw [hwipe hs, Bool.and_false]
    · rw [beq_eq_false_iff_ne.2 hs, Bool.false_and]
  simp only [exec, execMemoryAccess, hk, hm, ha, hup, hstill, hsecure, hplain, Bool.not_true, Bool.false_eq_true, ne_eq,
    not_true_eq_false, Bool.true_eq_false, or_self, if_false]

/-- An access that a march test or a wipe holds. -/
theorem exec_memoryAccess_held (hk : memKind a = some k) (hm : mayMem m mach s.boot.released wr.isSome k a = true)
    (ha : a % sizeBytes sz = 0) (hup : s.memUp k = true) (hplain : ¬ (m = .dict ∧ k = .vault))
    (hheld : s.marching a = true ∨ (k = .secure ∧ s.on VAULTCTL.STAT_WIPING = true)) :
    exec (.memoryAccess m mach sz a wr e g) s = .next { s with bus := .held } := by
  simp only [exec, execMemoryAccess, hk, hm, ha, hup, hplain, Bool.not_true, Bool.false_eq_true, ne_eq, not_true_eq_false,
    Bool.true_eq_false, or_self, if_false]
  rcases hheld with hmarch | ⟨rfl, hwipe⟩
  · rw [hmarch, if_pos rfl, ite_self]
  · rw [hwipe]; rfl

end

/-! ### What a memory does once it takes an access (R14, R75, R254, R258) -/

section
variable {m : Master} {sz : Size} {a v : Nat} {w : Word} {e : Ecc} {s : State} {k : MemKind}

theorem State.memRead_clean : s.memRead k sz a .clean = { s with bus := .ok (s.mem? a (sizeBytes sz)) } := by
  have he : (Ecc.clean == Ecc.double) = false ∧ (Ecc.clean == Ecc.single) = false := by decide
  simp only [State.memRead, he, Bool.and_false, Bool.false_eq_true, if_false]

theorem State.memWrite_clean : s.memWrite k sz a v .clean = { s.pokes a (leBytes (sizeBytes sz) v) with bus := .ok 0 } := by
  have he : (Ecc.clean == Ecc.double) = false ∧ (Ecc.clean == Ecc.single) = false := by decide
  simp only [State.memWrite, he, Bool.and_false, Bool.false_eq_true, if_false]

/-- The application core cannot read the measurement cache (R258); every other read is the memory's. -/
theorem State.memDo_read (h : k = .secure → ¬ (0x28003FC0 ≤ a ∧ m = .app)) : s.memDo m k sz a none e = s.memRead k sz a e := by
  rw [State.memDo, if_neg (fun hc => h hc.1 hc.2)]

/-- A memory that keeps no banks and is no ROM takes a write as it is. -/
theorem State.memDo_write (h : k = .secure → ¬ (0x28003FC0 ≤ a ∧ m = .app))
    (hk : k ∈ [MemKind.sram, .vault, .secure, .crkSram]) : s.memDo m k sz a (some w) e = s.memWrite k sz a w.toNat e := by
  unfold State.memDo
  rw [if_neg (fun hc => h hc.1 hc.2)]
  simp only [List.mem_cons, List.not_mem_nil, or_false] at hk
  rcases hk with rfl | rfl | rfl | rfl <;> rfl

theorem State.memDo_write_rom (hk : k ∈ [MemKind.bootRom, .flash]) : s.memDo m k sz a (some w) e = { s with bus := .error } := by
  simp only [List.mem_cons, List.not_mem_nil, or_false] at hk
  rcases hk with rfl | rfl <;> rfl

theorem State.memRead_single :
    s.memRead .sram sz a .single = { s.sramSingle with bus := .ok (s.mem? a (sizeBytes sz)) } := by
  have hmem : s.sramSingle.mem? a (sizeBytes sz) = s.mem? a (sizeBytes sz) := by
    rw [State.sramSingle, State.mem?_set, State.mem?_count]
  simp only [State.memRead, if_neg (show ¬ (MemKind.sram.ecc && Ecc.single == Ecc.double) = true by decide),
    if_pos (show (MemKind.sram.ecc && Ecc.single == Ecc.single) = true by decide), State.eccSingle, if_true, hmem]

theorem State.memRead_double : s.memRead .sram sz a .double = { s.sramDouble (a / 4 * 4) with bus := .error } := by
  simp only [State.memRead, if_pos (show (MemKind.sram.ecc && Ecc.double == Ecc.double) = true by decide), State.eccDouble, if_true]

/-- A write of a back bank that is not in use makes it LOADING (R75). -/
theorem State.schedWrite_back {n : Fin 10} {o : Nat} (ho : o < 0x3000) (hp : s.backPhys n < 2)
    (h2 : s.get (SCHEDLD.L_BSTAT_BACK_STATE n) ≠ 2) (h5 : s.get (SCHEDLD.L_BSTAT_BACK_STATE n) ≠ 5) :
    s.schedWrite (0x24000000 + n.1 * 0x6000 + s.backPhys n * 0x3000 + o) = some (s.setBack n 1) := by
  have hn := n.2
  generalize hoff : n.1 * 0x6000 + s.backPhys n * 0x3000 + o = off
  have hsub : 0x24000000 + n.1 * 0x6000 + s.backPhys n * 0x3000 + o - 0x24000000 = off := by omega
  have hlane : off / 0x6000 = n.1 := by omega
  have hbank : off % 0x6000 / 0x3000 = s.backPhys n := by omega
  have hlow : off < 0x3C000 := by omega
  unfold State.schedWrite
  simp only [hsub, dif_pos hlow, hlane, hbank, h2, h5, ne_eq, not_true_eq_false, or_self, if_false]

/-- The bus port writes a bank's bytes once the bank is LOADING; schedule memory keeps no check bits (R254). -/
theorem State.memDo_write_sched {t : State} (h : s.schedWrite a = some t) :
    s.memDo m .sched sz a (some w) e = { t.pokes a (leBytes (sizeBytes sz) w.toNat) with bus := .ok 0 } := by
  unfold State.memDo
  rw [if_neg (by simp), h]
  rfl

end

end Sys2Proof.Machine

/-! ## Register fields and writes -/

namespace Sys2Proof.Machine

/-! ### Channel S of the record store answers Scarab only (13_memories.md, the registers of RECSTORE) -/

/-- The application core, which may read RECSTORE, reads 0 in channel S's GID register whatever its fields hold. -/
theorem exec_registerRead_channelS {mach : Bool} {e : Ecc} {g : Bool} {s : State} (hup : s.accessible (RECSTORE.C_GID 1) = true) :
    exec (.memoryAccess .app mach .word (RECSTORE.C_GID 1) none e g) s = .next { s with bus := .ok 0 } := by
  have hfifo : rxfifoAt (RECSTORE.C_GID 1) = none := by decide
  have hrtc : rtcReg (RECSTORE.C_GID 1) = none := by decide
  have hread : execRegisterRead .app .recstore (RECSTORE.C_GID 1) s = if s.accessible (RECSTORE.C_GID 1) then
      .next { s with bus := .ok 0 } else .next { s with bus := .error } := by
    unfold execRegisterRead
    rw [hfifo, hrtc]; rfl
  rw [exec_registerRead (b := .recstore) (by decide) (by decide) (by decide) (by decide), hread, if_pos hup]

/-- Refutes O2, by its second clause: at reset channel S's GID field holds 0xFFFF, and the application core's read of it, whose
read has no effect, answers 0 and not the register's fields. -/
theorem not_registerFieldsAndWrites : ¬ Obligations.RegisterFieldsAndWrites := by
  rintro ⟨_, hread, _⟩
  have hup : State.reset.accessible (RECSTORE.C_GID 1) = true := by decide
  have hraw : State.reset.rawReg (RECSTORE.C_GID 1) = 0xFFFF := by decide
  have hans := (hread .app true .clean false (RECSTORE.C_GID 1) State.reset .recstore (by decide) (by decide) (by decide) (by decide)
    hup (by decide) (by decide) (by decide) (by decide) (by decide)).1
  rw [exec_registerRead_channelS hup, hraw] at hans
  simp at hans

end Sys2Proof.Machine

/-! ## Access sizes and alignment (R14) -/

namespace Sys2Proof.Machine

/-- Settles O3: the size and the alignment are judged before the block or the memory sees the access, and an aligned access that the
memory takes is a read or a write of its bytes. -/
theorem accessSizesAndAlignment : Obligations.AccessSizesAndAlignment := by
  refine ⟨fun m mach sz a v s b hb hm ha => exec_registerWrite_misaligned hb hm ha,
    fun m mach sz a e g s b hk hb hm ha => exec_registerRead_misaligned hk hb hm ha,
    fun m mach sz a wr e g s k hk hm ha => exec_memoryAccess_misaligned_or_down hk hm (.inl ha), ?_, ?_⟩
  · intro m mach sz a g s k hk hm ha hup hstill hsecure hplain
    have htake : s.Takes m mach sz a false k := ⟨hk, hm, ha, hup, hstill, fun h => (hsecure h).1, hplain⟩
    rw [exec_memoryAccess_taken htake, State.memDo_read fun h => (hsecure h).2, State.memRead_clean]
  · intro m mach sz a v g s k hk hmem hm ha hup hstill hsecure hplain
    have htake : s.Takes m mach sz a true k := ⟨hk, hm, ha, hup, hstill, fun h => (hsecure h).1, hplain⟩
    have hexec : exec (.memoryAccess m mach sz a (some v) .clean g) s =
        .next { s.pokes a (leBytes (sizeBytes sz) v.toNat) with bus := .ok 0 } := by
      rw [exec_memoryAccess_taken htake, State.memDo_write (fun h => (hsecure h).2) hmem, State.memWrite_clean]
    refine ⟨_, hexec, ?_, ?_, ?_⟩
    · exact fun i hi => State.byte_pokes_le s hi
    · exact fun x hx => State.byte_pokes_other _ s (by rwa [leBytes_length])
    · rw [State.pokes_fields]

end Sys2Proof.Machine

/-! ## Accesses turned away, and memory accesses that meet a limit (R39, R75, R254, R257, R263) -/

namespace Sys2Proof.Machine

/-- A bank of schedule memory lies in schedule memory (R33, R67). -/
theorem memKind_sched {a : Nat} (hlo : 0x24000000 ≤ a) (hhi : a < 0x24040000) : memKind a = some .sched := by
  unfold memKind
  repeat rw [if_neg (by omega)]
  rw [if_pos ⟨hlo, hhi⟩]

theorem memKind_sram {a : Nat} (hlo : 0x20000000 ≤ a) (hhi : a < 0x20080000) : memKind a = some .sram := by
  unfold memKind
  repeat rw [if_neg (by omega)]
  rw [if_pos ⟨hlo, hhi⟩]

/-- The application core's read of system SRAM reaches it (R39). -/
theorem State.takes_sram {s : State} {sz : Size} {a : Nat} (hlo : 0x20000000 ≤ a) (hhi : a < 0x20080000)
    (ha : a % sizeBytes sz = 0) (hup : s.memUp .sram = true) (hstill : s.marching a = false) :
    s.Takes .app true sz a false .sram :=
  ⟨memKind_sram hlo hhi, rfl, ha, hup, hstill, nofun, nofun⟩

/-- Settles O4: a clause for each way in which the interconnect or the memory turns an access away, then what system SRAM, the ROMs
and a back bank do with one that they take. -/
theorem forbiddenAndLimitedAccesses : Obligations.ForbiddenAndLimitedAccesses := by
  refine ⟨fun m mach sz a v s b hb hm => exec_registerWrite_forbidden hb hm,
    fun m mach sz a v s hb => exec_registerWrite_outside hb,
    fun m mach sz a wr e g s k hk hm => exec_memoryAccess_forbidden hk hm,
    fun m mach sz a wr e g s hk hb => exec_memoryAccess_outside hk hb,
    fun m mach sz a e g s b hk hb hm => exec_registerRead_forbidden hk hb hm, ?single, ?double, ?rom,
    fun mach sz a wr e g s k hk hm ha hup => exec_memoryAccess_misaligned_or_down hk hm (.inr hup),
    fun mach sz a wr e g s k hk hm ha hup hheld => exec_memoryAccess_held hk hm ha hup nofun hheld, ?back⟩
  case single =>
    intro sz a g s hlo hhi ha hup hstill
    rw [exec_memoryAccess_taken (State.takes_sram hlo hhi ha hup hstill), State.memDo_read (by simp), State.memRead_single,
      State.sramSingle]
  case double =>
    intro sz a g s hlo hhi ha hup hstill
    rw [exec_memoryAccess_taken (State.takes_sram hlo hhi ha hup hstill), State.memDo_read (by simp), State.memRead_double,
      State.sramDouble]
  case rom =>
    intro mach sz a v e g s k hk hrom ha hup hstill
    have hm : mayMem .app mach s.boot.released true k a = true := by
      simp only [List.mem_cons, List.not_mem_nil, or_false] at hrom
      rcases hrom with rfl | rfl <;> rfl
    have hsecure : k ≠ .secure := by rintro rfl; simp at hrom
    have htake : s.Takes .app mach sz a true k := ⟨hk, hm, ha, hup, hstill, fun h => absurd h hsecure, nofun⟩
    rw [exec_memoryAccess_taken htake, State.memDo_write_rom hrom]
  case back =>
    intro n o v e g mach s ho ha hup h2 h5 hstill hp
    have hn := n.2
    have htake : s.Takes .app mach .word (0x24000000 + n.1 * 0x6000 + s.backPhys n * 0x3000 + o) true .sched :=
      ⟨memKind_sched (by omega) (by omega), rfl, by simp only [sizeBytes]; omega, hup, hstill, nofun, nofun⟩
    rw [exec_memoryAccess_taken htake, State.memDo_write_sched (State.schedWrite_back ho hp h2 h5)]

end Sys2Proof.Machine

/-! ## Counters that saturate (R16) -/

namespace Sys2Proof.Machine

/-! ### Counters and their OVF bits (R16) -/

variable {s : State} {a v hi lo : Nat} {f : Fld} {p : Fld → Bool} {lk : Bool} {cnt ovf : RF}

theorem RF.bound_pos (f : RF) : 0 < f.bound := Nat.two_pow_pos _

theorem RF.bound_bit (h : ovf.hi = ovf.lo) : ovf.bound = 2 := by
  have hwidth : ovf.hi + 1 - ovf.lo = 1 := by omega
  exact congrArg (2 ^ ·) hwidth

/-- Below the maximum a counter takes the increment and OVF stays. -/
theorem State.count_below (hne : cnt.key ≠ ovf.key) (h : s.get cnt < cnt.bound - 1) :
    (s.count cnt ovf).get cnt = s.get cnt + 1 ∧ (s.count cnt ovf).get ovf = s.get ovf := by
  have hroom : s.get cnt + 1 < cnt.bound := by omega
  rw [State.get_count, State.get_count, if_pos hroom, if_pos rfl, if_pos hroom, if_neg hne.symm]
  exact ⟨rfl, rfl⟩

/-- At the maximum the counter stays and OVF is set. -/
theorem State.count_full (hne : cnt.key ≠ ovf.key) (hbit : ovf.hi = ovf.lo) (h : s.get cnt = cnt.bound - 1) :
    (s.count cnt ovf).get cnt = cnt.bound - 1 ∧ (s.count cnt ovf).get ovf = 1 := by
  have hfull : ¬ s.get cnt + 1 < cnt.bound := by have := cnt.bound_pos; omega
  rw [State.get_count, State.get_count, if_neg hfull, if_neg hne, if_neg hfull, if_pos rfl, RF.bound_bit hbit]
  exact ⟨h, rfl⟩

theorem State.count_counted (s : State) (cnt ovf : RF) : (s.count cnt ovf).now.counted = cnt.key :: s.now.counted := by
  unfold State.count
  split <;> rfl

/-! ### The register map's OVF bits (R16) -/

/-- An OVF bit is one bit, its counter has at least one and is read-only, and no other OVF bit of the register clears it. -/
def ovfsSound (l : List Fld) : Bool :=
  l.all fun f => match f.acc with
    | .ovf hi lo => f.hi == f.lo && decide (lo ≤ hi) &&
        l.all fun g => (g.lo != lo || g.acc == .ro) &&
          (g.lo == f.lo || match g.acc with | .ovf _ lo' => lo' != lo | _ => true)
    | _ => true

/-- Every register of the map is sound, block by block. -/
theorem fieldsAt_ovfsSound (a : Nat) : ovfsSound (fieldsAt a) = true := by
  unfold fieldsAt
  split
  case isTrue => rfl
  cases blockOf a with
  | none => rfl
  | some b =>
    cases b <;>
      dsimp only [clkgenFields, pwrctlFields, rstctlFields, evrouteFields, uartFields, svcwireFields, memctlFields, recstoreFields,
        flashctlFields, erraggFields, mtimeFields, adcseqFields, rtcFields, harvestFields, touchFields, aonctlFields,
        vaultctlFields, laneFields, pinengFields, schedldFields, portFields, ringctlFields, linkqFields, dictengFields,
        mboxFields] <;>
      (repeat' split) <;> rfl

theorem fieldsApart_pairwise {l : List Fld} (h : fieldsApart l = true) : l.Pairwise fun f g => f.lo ≠ g.lo := by
  induction l with
  | nil => exact .nil
  | cons f l ih =>
    simp only [fieldsApart, Bool.and_eq_true, List.all_eq_true] at h
    obtain ⟨⟨_, hfl⟩, hl⟩ := h
    refine .cons (fun g hg => ?_) (ih hl)
    have hfg := hfl g hg
    simp only [Fld.apart, Bool.and_eq_true, bne_iff_ne] at hfg
    exact hfg.1.1

/-- What the map says of an OVF bit `f` at `a` with its counter at `hi` to `lo`. -/
structure Fld.ClearsAt (f : Fld) (a hi lo : Nat) : Prop where
  mem : f ∈ fieldsAt a
  acc : f.acc = .ovf hi lo
  bit : f.hi = f.lo
  counts : lo ≤ hi
  apart : f.lo ≠ lo
  readOnly : ∀ g ∈ fieldsAt a, g.lo = lo → g.acc = .ro
  alone : ∀ g ∈ fieldsAt a, g.lo ≠ f.lo → ∀ hi' lo', g.acc = .ovf hi' lo' → lo' ≠ lo

theorem Fld.clearsAt (hf : f ∈ fieldsAt a) (hacc : f.acc = .ovf hi lo) : f.ClearsAt a hi lo := by
  have h := fieldsAt_ovfsSound a
  simp only [ovfsSound, List.all_eq_true] at h
  have hsound := h f hf
  simp only [hacc, Bool.and_eq_true, beq_iff_eq, decide_eq_true_eq, List.all_eq_true, Bool.or_eq_true, bne_iff_ne] at hsound
  obtain ⟨⟨hbit, hle⟩, hrest⟩ := hsound
  have hro : ∀ g ∈ fieldsAt a, g.lo = lo → g.acc = .ro := fun g hg e => (hrest g hg).1.resolve_left (not_not_intro e)
  refine ⟨hf, hacc, hbit, hle, fun e => ?_, hro, fun g hg hne hi' lo' hg' => ?_⟩
  · have := hro f hf e
    rw [hacc] at this
    cases this
  · have := (hrest g hg).2.resolve_left hne
    rw [hg'] at this
    simpa using this

/-- The counter and its OVF bit lie at different keys. -/
theorem Fld.ClearsAt.key_ne (h : f.ClearsAt a hi lo) : (RF.mk a hi lo).key ≠ (RF.mk a f.hi f.lo).key := by
  have := h.apart
  simp only [RF.key]; omega

/-! ### A register write at an OVF bit (R16) -/

/-- A one-bit field is written 1 where its bit of the value is 1. -/
theorem bits_one_iff (v i : Nat) : bits v i i = 1 ↔ getBit v i = true := by
  simp [bits, getBit]

/-- The OVF bit's own write: the clear, or nothing. -/
theorem State.writeField_ovf (h : f.ClearsAt a hi lo) (s : State) :
    s.writeField a v lk f = if getBit v f.lo = true then s.clearCount ⟨a, hi, lo⟩ ⟨a, f.hi, f.lo⟩ else s := by
  simp only [State.writeField, h.acc, h.bit, bits_one_iff]

theorem State.get_clearCount_counter (s : State) (cnt ovf : RF) :
    (s.clearCount cnt ovf).get cnt = min (cnt.bound - 1) (s.now.counted.count cnt.key) := by
  have := cnt.bound_pos
  rw [State.clearCount, State.get_put, State.get_set_self, Nat.mod_eq_of_lt (by omega)]

theorem State.get_clearCount_ovf (hne : ovf.key ≠ cnt.key) (s : State) : (s.clearCount cnt ovf).get ovf = 0 := by
  rw [State.clearCount, State.get_put_other hne, State.get_put, State.get_set_self, Nat.zero_mod]

/-- The other fields of the register leave the counter. -/
theorem State.get_writeField_counter (h : f.ClearsAt a hi lo) {g : Fld} (hg : g ∈ fieldsAt a) (hne : g.lo ≠ f.lo) (s : State) :
    (s.writeField a v lk g).get ⟨a, hi, lo⟩ = s.get ⟨a, hi, lo⟩ := by
  by_cases hlo : g.lo = lo
  · simp only [State.writeField, h.readOnly g hg hlo]
  · refine State.get_writeField_other s a v lk g _ (by simp only [RF.key]; omega) fun hi' lo' hacc => ?_
    have := h.alone g hg hne hi' lo' hacc
    simp only [RF.key]; omega

theorem State.foldl_writeField_counter (h : f.ClearsAt a hi lo) {l : List Fld} (hl : ∀ g ∈ l, g ∈ fieldsAt a ∧ g.lo ≠ f.lo)
    (s : State) : (l.foldl (fun s g => s.writeField a v lk g) s).get ⟨a, hi, lo⟩ = s.get ⟨a, hi, lo⟩ ∧
      (l.foldl (fun s g => s.writeField a v lk g) s).now = s.now := by
  refine List.foldlRecOn l _ (motive := fun t : State => t.get ⟨a, hi, lo⟩ = s.get ⟨a, hi, lo⟩ ∧ t.now = s.now) ⟨rfl, rfl⟩ ?_
  rintro t ⟨hget, hnow⟩ g hg
  obtain ⟨hmem, hne⟩ := hl g hg
  exact ⟨(State.get_writeField_counter h hmem hne t).trans hget, (State.writeField_now t a v lk g).trans hnow⟩

/-- What a register write leaves in the counter: what the write of its OVF bit leaves. -/
theorem State.get_writeFields_counter (h : f.ClearsAt a hi lo) (hp : p f = true) (s : State) :
    (s.writeFields p a v lk).get ⟨a, hi, lo⟩ =
      if getBit v f.lo = true then min (RF.bound ⟨a, hi, lo⟩ - 1) (s.now.counted.count (RF.key ⟨a, hi, lo⟩))
      else s.get ⟨a, hi, lo⟩ := by
  obtain ⟨l, r, hsplit⟩ := List.append_of_mem (List.mem_filter.2 ⟨h.mem, hp⟩)
  have hpair := (fieldsApart_pairwise (fieldsAt_apart a)).filter p
  have hsub : ∀ g ∈ l ++ f :: r, g ∈ fieldsAt a := fun g hg => (List.mem_filter.1 (hsplit ▸ hg)).1
  rw [hsplit, List.pairwise_append] at hpair
  obtain ⟨_, hr, hl⟩ := hpair
  have before := State.foldl_writeField_counter (v := v) (lk := lk) h
    (l := l) (fun g hg => ⟨hsub g (by simp [hg]), hl g hg f (by simp)⟩) s
  have after := fun t => State.foldl_writeField_counter (v := v) (lk := lk) h
    (l := r) (fun g hg => ⟨hsub g (by simp [hg]), (List.rel_of_pairwise_cons hr hg).symm⟩) t
  rw [State.writeFields, hsplit, List.foldl_append, List.foldl_cons, (after _).1, State.writeField_ovf h]
  split
  · rw [State.get_clearCount_counter, before.2]
  · exact before.1

/-- What a register write leaves in the OVF bit. -/
theorem State.get_writeFields_ovf (h : f.ClearsAt a hi lo) (hp : p f = true) (s : State) :
    (s.writeFields p a v lk).get ⟨a, f.hi, f.lo⟩ = if getBit v f.lo = true then 0 else s.get ⟨a, f.hi, f.lo⟩ := by
  rw [State.get_writeFields s p a v lk f h.mem hp (by rw [h.acc]; simp), State.writeField_ovf h]
  split
  · exact State.get_clearCount_ovf h.key_ne.symm s
  · rfl

/-- A counter at 0 counts to 1: it has at least one bit. -/
theorem State.count_one (h : f.ClearsAt a hi lo) (hzero : s.get ⟨a, hi, lo⟩ = 0) :
    (s.count ⟨a, hi, lo⟩ ⟨a, f.hi, f.lo⟩).get ⟨a, hi, lo⟩ = 1 := by
  have hle := h.counts
  have hbound : 2 ^ 1 ≤ (RF.mk a hi lo).bound := Nat.pow_le_pow_right (by decide) (by simp only []; omega)
  rw [(State.count_below h.key_ne (by omega)).1, hzero]

/-- Settles O60: `State.count` by its two branches, and the clear by the soundness of the register map, in which one OVF bit alone
writes a counter. -/
theorem countersSaturate : Obligations.CountersSaturate := by
  refine ⟨?count, ?write, ?bus⟩
  case count =>
    intro cnt ovf s hne hbit
    exact ⟨State.count_below hne, State.count_full hne hbit, State.count_counted s cnt ovf,
      (OnlyRegs.refl _ s).count (by simp) (by simp)⟩
  case write =>
    intro a v hi lo f p lk s hf hacc hp t c n
    have h := Fld.clearsAt hf hacc
    have hcnt : t.get c = _ := State.get_writeFields_counter h hp s
    have hovf : t.get ⟨a, f.hi, f.lo⟩ = _ := State.get_writeFields_ovf h hp s
    constructor
    · intro hset
      rw [if_pos hset] at hcnt hovf
      refine ⟨hcnt, hovf, fun hn => State.count_one h ?_⟩
      rw [hcnt, show s.now.counted.count c.key = 0 from hn, Nat.min_zero]
    · intro hclear
      rw [if_neg (by simp [hclear])] at hcnt hovf
      exact ⟨hcnt, hovf⟩
  case bus =>
    intro m mach a hi lo v f s b hb hplain hm ha hup hlock hf hrow hacc hset
    have h := Fld.clearsAt hf hacc
    have hblock : b ∈ [Block.clkgen, .pwrctl, .rstctl, .memctl, .flashctl, .erragg, .schedld, .aonctl] := by
      simp only [List.mem_cons, List.not_mem_nil, or_false] at hplain ⊢
      tauto
    refine ⟨_, exec_registerWrite_plain hb hblock hm ha hup hlock, ?_, ?_⟩
    · rw [State.get_fields, State.get_writeFields_counter h (by simp [hrow]), if_pos hset]
    · rw [State.get_fields, State.get_writeFields_ovf h (by simp [hrow]), if_pos hset]

end Sys2Proof.Machine

/-! ## The machine at reset (00_scope.md, 01_architecture.md) -/

namespace Sys2Proof.Machine

/-- A field of the register map is the one found under its key: the fields of a register differ in their lowest bit. -/
theorem fldAt_of_mem {a : Nat} {f : Fld} (hf : f ∈ fieldsAt a) : fldAt (32 * a + f.lo) = some f := by
  have hlo := fieldsAt_lo hf
  have haddr : (32 * a + f.lo) / 32 = a := by omega
  have hbit : (32 * a + f.lo) % 32 = f.lo := by omega
  have hpair := fieldsApart_pairwise (fieldsAt_apart a)
  rw [fldAt, haddr, hbit]
  generalize fieldsAt a = l at hf hpair
  induction l with
  | nil => cases hf
  | cons g l ih =>
    obtain ⟨hg, hl⟩ := List.pairwise_cons.1 hpair
    rcases List.mem_cons.1 hf with rfl | hf
    · simp
    · rw [List.find?_cons_of_neg (by simpa using hg f hf), ih hf hl]

/-- With nothing listed, a field reads its reset value and a byte reads as its address does unlisted. -/
theorem State.get_reset (g : RF) : State.reset.get g = fieldReset g.key := rfl

theorem State.byte_reset {a : Nat} {b : Byte} (h : memUnlisted a = some b) : State.reset.byte a = b := by
  rw [State.byte, show State.reset.mem = [] from rfl, Store.get, Store.find?, h, Option.getD_some]

/-- Settles O56: nothing is listed at reset, so each field reads the value of its table's row and each byte as its address unlisted. -/
theorem resetValues : Obligations.ResetValues := by
  refine ⟨⟨rfl, rfl⟩, rfl, rfl, rfl, fun a f hf => ?_, fun a hlo hhi => ?_, fun a hlo hhi => ?_⟩
  · rw [State.get_reset, fieldReset, RF.key, fldAt_of_mem hf]
  · exact State.byte_reset (by rw [memUnlisted, if_pos ⟨hlo, hhi⟩])
  · exact State.byte_reset (by rw [memUnlisted, if_neg (by omega), if_pos ⟨hlo, hhi⟩])

end Sys2Proof.Machine

/-! ## Reports on their way through the containment hierarchy (14_management_trust.md, R21, R22, R298) -/

namespace Sys2Proof.Machine

section
variable {s : State} {r : Report}

/-! ### A block's report (R22) -/

theorem State.report_first (hsys : s.dom .sys ≠ .off) (hpend : s.on (ERRAGG.SRC_PEND r.src) = false) :
    s.report r = { s.set (ERRAGG.SRC_PEND r.src) 1 with err := { s.err with pend := s.err.pend ++ [r] } } := by
  rw [State.report, if_neg (by simpa using hsys), if_neg (by simp [hpend])]

theorem State.report_further (hsys : s.dom .sys ≠ .off) (hpend : s.on (ERRAGG.SRC_PEND r.src) = true) :
    s.report r = s.count (ERRAGG.SRC_REPEAT r.src) (ERRAGG.SRC_OVF r.src) := by
  rw [State.report, if_neg (by simpa using hsys), if_pos hpend]

/-! ### The arbiters (R22) -/

/-- The report that a region's arbiter takes is pending, is of the region, and no pending source of the region is lower. -/
theorem State.lowestPend_least {g : Nat} (h : s.lowestPend g = some r) :
    srcRegion r.src = g ∧ r ∈ s.err.pend ∧ ∀ x ∈ s.err.pend, x.src < 64 → srcRegion x.src = g → r.src ≤ x.src := by
  obtain ⟨below, i, above, hrange, hi, hbelow⟩ := List.findSome?_eq_some_iff.1 h
  split at hi
  case isFalse => cases hi
  case isTrue hg =>
    obtain rfl : r.src = i := by simpa using List.find?_some hi
    refine ⟨hg, List.mem_of_find?_eq_some hi, fun x hx hlt hxg => ?_⟩
    have hsorted : (below ++ r.src :: above).Pairwise (· < ·) := hrange ▸ List.pairwise_lt_range
    have hmem : x.src ∈ below ++ r.src :: above := hrange ▸ List.mem_range.2 hlt
    rcases List.mem_append.1 hmem with hb | ha
    · have hnone := hbelow x.src hb
      rw [if_pos hxg, List.find?_eq_none] at hnone
      exact absurd (hnone x hx) (by simp)
    · rcases List.mem_cons.1 ha with heq | ha
      · exact heq.ge
      · exact (List.rel_of_pairwise_cons (List.pairwise_append.1 hsorted).2.1 ha).le

/-- A free arbiter takes the lowest pending source's report. -/
theorem State.takeReport_lowest {g : Nat} (hsys : s.domOn .sys = true) (hfree : s.err.acc.getD g 0 ≠ s.tick + 1)
    (h : s.lowestPend g = some r) :
    s.takeReport g =
      State.acceptReport { s.set (ERRAGG.SRC_PEND r.src) 0 with err := { s.err with pend := s.err.pend.erase r } } r := by
  have hgo : (!s.domOn .sys || s.err.acc.getD g 0 == s.tick + 1) = false := by rw [hsys, beq_false_of_ne hfree]; rfl
  simp only [State.takeReport, hgo, h, Bool.false_eq_true, if_false]

/-! ### Chip-level reports (R22) -/

/-- A chip-level report sets STAT.CHIP_EV and no other register field. -/
theorem State.get_chipReport (s : State) (r : Report) (g : RF) : (s.chipReport r).get g = (s.set ERRAGG.STAT_CHIP_EV 1).get g := rfl

/-- What the acceptance of a chip-level source's report leaves in the register fields. -/
theorem State.get_acceptReport_chip (h : 48 ≤ r.src) (g : RF) :
    (s.acceptReport r).get g = (((((s.set (ERRAGG.SRC_LATCH r.src) 1).set (ERRAGG.SRC_CAUSE r.src) r.cause).set
      (ERRAGG.DETAIL_DETAIL r.src) r.detail).set (ERRAGG.SRC_LEVEL r.src) r.level).set ERRAGG.STAT_CHIP_EV 1).get g := by
  rw [State.acceptReport]
  simp only [if_pos h]
  rfl

/-- The latch of a chip-level source's report: each field is written once. -/
theorem State.acceptReport_chip_latched (hlo : 48 ≤ r.src) (hhi : r.src < 64) :
    (s.acceptReport r).get (ERRAGG.SRC_LATCH r.src) = 1 ∧ (s.acceptReport r).get (ERRAGG.SRC_CAUSE r.src) = r.cause % 256 ∧
    (s.acceptReport r).get (ERRAGG.SRC_LEVEL r.src) = r.level % 4 ∧
    (s.acceptReport r).get (ERRAGG.DETAIL_DETAIL r.src) = r.detail % 2 ^ 32 ∧
    (s.acceptReport r).get ERRAGG.STAT_CHIP_EV = 1 := by
  simp (disch := (simp only [RF.key, ERRAGG.SRC, ERRAGG.DETAIL, ERRAGG.STAT, ERRAGG.CTRL]; omega)) only [State.get_acceptReport_chip hlo, State.get_set_other, State.get_set_self]
  exact ⟨rfl, rfl, rfl, rfl, rfl⟩

end

/-! ### The recheck after a policy (R298) -/

section
variable {s : State} {i : Fin 64}

/-- The recheck of source `i` is over: it is listed no more. -/
def State.rechecked (s : State) (i : Nat) : State :=
  { s with err := { s.err with recheck := s.err.recheck.filter fun r => r.1 != i } }

/-- A recheck of the source is due. -/
theorem State.recheck_due {k : Nat} (hmem : (i.1, k) ∈ s.err.recheck) (hk : k + 25000 ≤ s.tick) :
    (s.err.recheck.any fun r => r.1 == i.1 && decide (r.2 + 25000 ≤ s.tick)) = true :=
  List.any_eq_true.2 ⟨_, hmem, by simpa using hk⟩

theorem exec_livenessRecheck_early {fails : Bool} (h : ∀ k, (i.1, k) ∈ s.err.recheck → s.tick < k + 25000) :
    exec (.livenessRecheck i fails) s = .next s := by
  have hnone : (s.err.recheck.any fun r => r.1 == i.1 && decide (r.2 + 25000 ≤ s.tick)) = false := by
    refine List.any_eq_false.2 fun p hp => ?_
    obtain ⟨j, k⟩ := p
    simp only [Bool.and_eq_true, beq_iff_eq, decide_eq_true_eq, not_and, not_le]
    rintro rfl
    exact h k hp
  change execLivenessRecheck i fails s = _
  rw [execLivenessRecheck, hnone, Bool.not_false, Bool.or_true, if_pos rfl]

theorem exec_livenessRecheck_passes {k : Nat} (hsys : s.domOn .sys = true) (hmem : (i.1, k) ∈ s.err.recheck)
    (hk : k + 25000 ≤ s.tick) : exec (.livenessRecheck i false) s = .next (s.rechecked i) := by
  change execLivenessRecheck i false s = _
  simp only [execLivenessRecheck, hsys, State.recheck_due hmem hk, Bool.not_true, Bool.or_false, Bool.false_eq_true, if_false,
    Bool.not_false, if_true, State.rechecked]

/-- A block that still fails is marked and reported; neither touches CTRL, whose WEDGE_RST then decides on the reset. -/
theorem exec_livenessRecheck_fails {k : Nat} (hsys : s.domOn .sys = true) (hmem : (i.1, k) ∈ s.err.recheck)
    (hk : k + 25000 ≤ s.tick) (hrst : s.on ERRAGG.CTRL_WEDGE_RST = false) :
    exec (.livenessRecheck i true) s = .next ((((s.rechecked i).set (ERRAGG.SRC_WEDGED i) 1).set ERRAGG.STAT_WEDGED 1).chipReport
      ⟨i, 0x05, i, 3, 0, false⟩) := by
  have hkeep : ((((s.rechecked i).set (ERRAGG.SRC_WEDGED i) 1).set ERRAGG.STAT_WEDGED 1).chipReport
      ⟨i, 0x05, i, 3, 0, false⟩).on ERRAGG.CTRL_WEDGE_RST = false := by
    rw [← hrst, State.on, State.get_chipReport]
    simp (disch := (simp only [RF.key, ERRAGG.SRC, ERRAGG.DETAIL, ERRAGG.STAT, ERRAGG.CTRL]; omega)) only [State.get_set_other]
    rfl
  change execLivenessRecheck i true s = _
  simp only [execLivenessRecheck, hsys, State.recheck_due hmem hk, Bool.not_true, Bool.or_false, Bool.false_eq_true, if_false]
  exact congrArg _ (if_neg (by simpa [State.rechecked] using hkeep))

end

/-- Settles O5: the arbiters and the reports by their branches, each field of an accepted report by the one write it gets. -/
theorem reportsAndTimeouts : Obligations.ReportsAndTimeouts := by
  refine ⟨fun g s r hsys hfree h => congrArg _ (State.takeReport_lowest hsys hfree h),
    fun i k s hsys hmem hk => exec_livenessRecheck_passes hsys hmem hk,
    fun i s h => exec_livenessRecheck_early h,
    fun i k s hsys hmem hk hrst => exec_livenessRecheck_fails hsys hmem hk hrst, ?busTimeout, ?liveness,
    fun s r => State.report_first, fun s r => State.report_further, fun g s r => State.lowestPend_least,
    fun s r => State.acceptReport_chip_latched⟩
  case busTimeout =>
    intro a b s hb
    change execBusTimeout a s = _
    rw [execBusTimeout, hb]
  case liveness => exact fun i s h => if_pos h

end Sys2Proof.Machine

/-! ## The event log (14_management_trust.md, R299 to R302) -/

namespace Sys2Proof.Machine

variable {s : State} {c : ChipPend} {r : Report} {e : LogEntry}

/-! ### The report that is handled next (R22) -/

/-- Of the pending chip-level reports the first with the lowest source. -/
theorem State.nextChip_eq_argmin (s : State) : s.nextChip = s.err.chip.argmin fun c => c.rep.src := by
  rw [State.nextChip, List.argmin]
  congr 1
  funext o c
  cases o <;> rfl

theorem State.nextChip_least (h : s.nextChip = some c) : c ∈ s.err.chip ∧ ∀ d ∈ s.err.chip, c.rep.src ≤ d.rep.src := by
  rw [State.nextChip_eq_argmin] at h
  exact ⟨List.argmin_mem h, fun d hd => List.le_of_mem_argmin (f := fun c => c.rep.src) hd h⟩

/-! ### Entries and repeats (R299) -/

theorem State.sameAsNewest_iff (r : Report) (s : State) : s.sameAsNewest r = true ↔ 0 < s.log.unflushed ∧
    ∃ e, s.log.entries.head? = some e ∧ e.src = r.src ∧ e.level = r.level ∧ e.cause = r.cause ∧ e.detail = r.detail := by
  unfold State.sameAsNewest
  cases s.log.entries with
  | nil => simp
  | cons e t => simp [and_assoc]

/-- Lost reports change the lost counters alone. -/
theorem State.loseReports_fields (s : State) (k n : Nat) : s.loseReports k n =
    { s with log := { s.log with lost := (s.loseReports k n).log.lost, lostOvf := (s.loseReports k n).log.lostOvf } } := rfl

theorem State.newEntry_fields (s : State) (e : LogEntry) : s.newEntry e = { s with log := (s.newEntry e).log } := by
  unfold State.newEntry
  dsimp only
  split <;> rfl

theorem State.newEntry_log (s : State) (e : LogEntry) :
    (s.newEntry e).log.entries = (e :: s.log.entries).take 256 ∧ (s.newEntry e).log.unflushed = min 256 (s.log.unflushed + 1) ∧
    (s.newEntry e).log.lastNew = s.tick + 1 := by
  unfold State.newEntry
  by_cases hfull : 256 ≤ s.log.unflushed
  · simp only [decide_eq_true hfull, if_true]
    exact ⟨rfl, by omega, rfl⟩
  · simp only [decide_eq_false hfull, Bool.false_eq_true, if_false]
    exact ⟨trivial, by omega, trivial⟩

theorem State.repeatNewest_fields (s : State) (n : Nat) : s.repeatNewest n = { s with log := (s.repeatNewest n).log } := by
  unfold State.repeatNewest
  split
  · rfl
  · dsimp only
    split <;> rfl

theorem State.repeatNewest_log {t : List LogEntry} (h : s.log.entries = e :: t) (n : Nat) :
    (s.repeatNewest n).log.entries = { e with rep := min (e.rep + n) 0xFFFF } :: t ∧
    (s.repeatNewest n).log.unflushed = s.log.unflushed := by
  unfold State.repeatNewest
  rw [h]
  dsimp only
  split <;> exact ⟨rfl, rfl⟩

/-! ### A pending report enters the log (R299) -/

/-- A pending report leaves the chip arbiter. -/
def State.dropChip (s : State) (c : ChipPend) : State := { s with err := { s.err with chip := s.err.chip.erase c } }

theorem State.logPend_of_same (hsame : s.sameAsNewest c.rep = true) :
    s.logPend c = ((s.dropChip c).repeatNewest (1 + c.same)).loseReports (srcClass c.rep.src) c.others :=
  if_pos hsame

theorem State.logPend_of_new (hsame : s.sameAsNewest c.rep = false) :
    s.logPend c = ((s.dropChip c).newEntry (s.logEntry c.rep (min c.same 0xFFFF))).loseReports (srcClass c.rep.src)
      (c.others + (c.same - 0xFFFF)) :=
  if_neg (ne_true_of_eq_false hsame)

/-- A report that enters the log leaves the chip arbiter, and nothing beside the two changes. -/
theorem State.logPend_fields (s : State) (c : ChipPend) :
    s.logPend c = { s with log := (s.logPend c).log, err := { s.err with chip := s.err.chip.erase c } } := by
  cases hsame : s.sameAsNewest c.rep with
  | true => rw [State.logPend_of_same hsame, State.loseReports_fields, State.repeatNewest_fields]; rfl
  | false => rw [State.logPend_of_new hsame, State.loseReports_fields, State.newEntry_fields]; rfl

theorem State.logPend_same_log {t : List LogEntry} (hsame : s.sameAsNewest c.rep = true) (h : s.log.entries = e :: t) :
    (s.logPend c).log.entries = { e with rep := min (e.rep + (1 + c.same)) 0xFFFF } :: t ∧
    (s.logPend c).log.unflushed = s.log.unflushed := by
  rw [State.logPend_of_same hsame]
  exact State.repeatNewest_log (s := s.dropChip c) h _

theorem State.logPend_new_log (hsame : s.sameAsNewest c.rep = false) :
    (s.logPend c).log.entries = (s.logEntry c.rep (min c.same 0xFFFF) :: s.log.entries).take 256 ∧
    (s.logPend c).log.unflushed = min 256 (s.log.unflushed + 1) ∧ (s.logPend c).log.lastNew = s.tick + 1 := by
  rw [State.logPend_of_new hsame]
  exact State.newEntry_log (s.dropChip c) _

/-- Draining the pending reports touches them and the log alone. -/
theorem State.drainChip_fields (s : State) : ∃ l p, s.drainChip = { s with log := l, err := p } := by
  refine List.foldlRecOn s.err.chip _ (motive := fun t : State => ∃ l p, t = { s with log := l, err := p }) ⟨_, _, rfl⟩ ?_
  rintro _ ⟨l, p, rfl⟩ _ _
  split
  · exact ⟨_, _, State.logPend_fields _ _⟩
  · exact ⟨_, _, rfl⟩

/-! ### The bytes of an entry (R301) -/

theorem field_leBytes_append_mod (n v : Nat) (l : List Byte) : field (leBytes n v ++ l) 0 n = v % 256 ^ n := by
  rw [field, List.drop_zero, List.take_left' (leBytes_length n v), leNat_leBytes]

theorem entryBytes_length (e : LogEntry) : (entryBytes e).length = 16 := by
  simp [entryBytes]

/-- The fields of an entry stand one behind the other. -/
theorem entryBytes_fields (e : LogEntry) :
    field (entryBytes e) 0 4 = e.calSec % 2 ^ 32 ∧ field (entryBytes e) 6 2 = e.rep % 2 ^ 16 ∧
    field (entryBytes e) 10 2 = e.cause % 2 ^ 16 ∧ field (entryBytes e) 12 4 = e.detail % 2 ^ 32 := by
  have hsplit : entryBytes e = leBytes 4 e.calSec ++ (leBytes 2 (e.subsec + 2 ^ 15 * b2n e.rtcValid) ++ (leBytes 2 e.rep ++
      (leBytes 1 (e.src + 64 * e.level) ++ (leBytes 1 (e.cls + 8 * e.master) ++ (leBytes 2 e.cause ++
        (leBytes 4 e.detail ++ [])))))) := by
    simp only [entryBytes, List.append_assoc, List.append_nil]
  rw [hsplit]
  refine ⟨?_, ?_, ?_, ?_⟩ <;> simp [field_append_right, field_leBytes_append_mod, -List.append_nil]

/-! ### Where a flush writes (R266, R302) -/

/-- The address lies in no LOG sector. -/
def State.OutsideLog (s : State) (a : Nat) : Prop := ∀ k ∈ s.logSectors, a < recAddr (secOff k) ∨ recAddr (secOff k) + 2048 ≤ a

theorem State.mem_logSectors {k : Nat} : k ∈ s.logSectors ↔ k < 32 ∧ s.role k = .log := by
  simp [State.logSectors]

/-- The LOG sectors lie in the record store. -/
theorem State.outsideLog_of_outside_store {a : Nat} (h : a < 0x0C000000 ∨ 0x0C010000 ≤ a) : s.OutsideLog a := by
  intro k hk
  have hlt := (State.mem_logSectors.1 hk).1
  unfold recAddr secOff
  omega

/-- A sector of another role lies outside. -/
theorem State.outsideLog_of_role {k j : Nat} (hj : j < 2048) (h : s.role k ≠ .log) : s.OutsideLog (recAddr (secOff k) + j) := by
  intro i hi
  have hne : i ≠ k := by rintro rfl; exact h (State.mem_logSectors.1 hi).2
  unfold recAddr secOff
  omega

theorem State.logSectors_of_regs {t : State} (h : t.regs = s.regs) : t.logSectors = s.logSectors := by
  unfold State.logSectors State.role State.bit
  simp only [State.get_of_regs h]

theorem State.headD_logSectors_mem (h : s.logSectors ≠ []) (k : Nat) : s.logSectors.headD k ∈ s.logSectors := by
  obtain ⟨i, l, hl⟩ := List.exists_cons_of_ne_nil h
  rw [hl]
  exact List.mem_cons_self

theorem State.nextLogSector_mem (h : s.logSectors ≠ []) (k : Nat) : s.nextLogSector k ∈ s.logSectors := by
  unfold State.nextLogSector
  split
  case h_1 j hj => exact List.mem_of_find?_eq_some hj
  case h_2 => exact State.headD_logSectors_mem h k

/-- A fold that takes an element or leaves what it has ends with an element. -/
theorem mem_of_foldl_pick {α : Type} {pick : Option α → α → Option α} (h : ∀ o x, pick o x = o ∨ pick o x = some x)
    (l : List α) : ∀ p, l.foldl pick none = some p → p ∈ l := by
  refine List.foldlRecOn l pick (motive := fun o : Option α => ∀ p, o = some p → p ∈ l) (fun _ => nofun) ?_
  intro o ih x hx p hp
  rcases h o x with heq | heq
  · exact ih p (heq ▸ hp)
  · cases heq.symm.trans hp
    exact hx

/-- The newest LOG sector is one of them, and the slot chosen in it is at most its last, 127 (R302). -/
theorem State.logHead_mem {k q : Nat} {o : Option Nat} (h : s.logHead = some (k, q, o)) :
    k ∈ s.logSectors ∧ ∀ i, o = some i → i ≤ 127 := by
  obtain ⟨p, hp, heq⟩ := Option.map_eq_some_iff.1 h
  obtain ⟨rfl, rfl, rfl⟩ : p.1 = k ∧ p.2 = q ∧ _ = o := by simpa only [Prod.mk.injEq] using heq
  have hbest := mem_of_foldl_pick (fun o x => ?pick) _ p hp
  case pick =>
    cases o with
    | none => exact .inr rfl
    | some y => exact (ite_eq_or_eq _ _ _).symm
  obtain ⟨j, hj, hjp⟩ := List.mem_filterMap.1 hbest
  obtain ⟨_, _, rfl⟩ := Option.map_eq_some_iff.1 hjp
  refine ⟨hj, fun i hi => ?_⟩
  obtain ⟨n, hn, rfl⟩ := List.mem_map.1 (List.mem_of_find?_eq_some hi)
  exact List.mem_range.1 hn

/-! ### What a flush writes (R302) -/

/-- Only bytes of sector `k` differ. -/
structure WritesSector (k : Nat) (s t : State) : Prop where
  fields : t = { s with mem := t.mem }
  bytes : MemoryBut (recAddr (secOff k)) 2048 s t

variable {t : State} {k : Nat}

theorem WritesSector.refl (k : Nat) (s : State) : WritesSector k s s := ⟨rfl, fun _ _ => rfl⟩

theorem WritesSector.pokes (h : WritesSector k s t) {off : Nat} {l : List Byte} (hoff : off + l.length ≤ 2048) :
    WritesSector k s (t.pokes (recAddr (secOff k + off)) l) := by
  refine ⟨?_, fun a ha => ?_⟩
  · exact (State.pokes_fields l _ t).trans
      (congrArg (fun x : State => { x with mem := (t.pokes (recAddr (secOff k + off)) l).mem }) h.fields)
  · rw [State.byte_pokes_other _ _ (by unfold recAddr at *; omega), h.bytes a ha]

theorem WritesSector.erase (h : WritesSector k s t) : WritesSector k s (t.eraseRange (recAddr (secOff k)) 2048) := by
  refine ⟨?_, fun a ha => ?_⟩
  · exact congrArg (fun x : State => { x with mem := (t.eraseRange (recAddr (secOff k)) 2048).mem }) h.fields
  · rw [State.byte_eraseRange, if_neg (by omega), h.bytes a ha]

/-- A sector's header touches the sector alone. -/
theorem WritesSector.openLog (s : State) (k q : Nat) : WritesSector k s (s.openLog k q) := by
  have hstart : WritesSector k s
      (if (List.range 128).all fun i => s.slotBlank k i then s else s.eraseRange (recAddr (secOff k)) 2048) := by
    split
    · exact .refl k s
    · exact (WritesSector.refl k s).erase
  have hmagic := hstart.pokes (off := 0) (l := wordBytes 0x474F4C53) (by simp [wordBytes])
  have hseq := hmagic.pokes (off := 4) (l := wordBytes (q % 2 ^ 32)) (by simp [wordBytes])
  rw [Nat.add_zero] at hseq
  exact hseq

/-- An entry is written into one LOG sector. -/
theorem State.putEntry_writesSector (h : s.logSectors ≠ []) (e : LogEntry) :
    ∃ k ∈ s.logSectors, WritesSector k s (s.putEntry e) := by
  unfold State.putEntry
  split
  case h_1 k q i hhead =>
    obtain ⟨hk, hi⟩ := State.logHead_mem hhead
    have hslot := hi i rfl
    exact ⟨k, hk, (WritesSector.refl k s).pokes (by rw [entryBytes_length]; omega)⟩
  case h_2 k q hhead =>
    exact ⟨_, State.nextLogSector_mem h k, (WritesSector.openLog s _ _).pokes (by rw [entryBytes_length]; omega)⟩
  case h_3 =>
    exact ⟨_, State.headD_logSectors_mem h 0, (WritesSector.openLog s _ _).pokes (by rw [entryBytes_length]; omega)⟩

/-- Only bytes of the LOG sectors differ. -/
structure WritesLog (s t : State) : Prop where
  fields : t = { s with mem := t.mem }
  bytes : ∀ a, s.OutsideLog a → t.byte a = s.byte a

theorem WritesLog.putEntry (h : WritesLog s t) (hs : s.logSectors ≠ []) (e : LogEntry) : WritesLog s (t.putEntry e) := by
  have hsec : t.logSectors = s.logSectors := State.logSectors_of_regs (by rw [h.fields])
  obtain ⟨k, hk, hput⟩ := State.putEntry_writesSector (s := t) (hsec ▸ hs) e
  refine ⟨hput.fields.trans (congrArg (fun x : State => { x with mem := (t.putEntry e).mem }) h.fields), fun a ha => ?_⟩
  rw [hput.bytes a (ha k (hsec ▸ hk)), h.bytes a ha]

theorem WritesLog.putEntries (hs : s.logSectors ≠ []) (l : List LogEntry) : WritesLog s (l.foldl State.putEntry s) :=
  List.foldlRecOn l State.putEntry (motive := WritesLog s) ⟨rfl, fun _ _ => rfl⟩ fun _ h e _ => h.putEntry hs e

/-- Only registers differ, with the record of what was set in the present clock. -/
structure RegsAlone (s t : State) : Prop where
  fields : t = { s with regs := t.regs, now := t.now }

theorem RegsAlone.refl (s : State) : RegsAlone s s := ⟨rfl⟩

theorem RegsAlone.set (h : RegsAlone s t) (f : RF) (v : Nat) : RegsAlone s (t.set f v) :=
  ⟨congrArg (fun x : State => { x with regs := (t.set f v).regs, now := (t.set f v).now }) h.fields⟩

theorem RegsAlone.showRec (h : RegsAlone s t) : RegsAlone s t.showRec := by
  unfold State.showRec
  exact (((h.set _ _).set _ _).set _ _).set _ _

/-- A command's end shows in registers alone. -/
theorem RegsAlone.recEnd (h : RegsAlone s t) (ch : Chan) (x : Nat) : RegsAlone s (t.recEnd ch x) := by
  unfold State.recEnd
  cases ch with
  | a => exact (((((h.set _ _).set _ _).set _ _).set _ _).set _ _).showRec
  | s => exact (((((h.set _ _).set _ _).set _ _).set _ _).set _ _).showRec

/-! ### The three ways of a flush (R265, R273, R302) -/

theorem State.flushLog_idle (h : s.rs.mounted = false ∨ s.logSectors = [] ∨ s.log.unflushed = 0) : s.flushLog = s := by
  unfold State.flushLog
  rw [if_pos]
  rcases h with h | h | h <;> simp [h]

theorem State.flushLog_waits (hm : s.rs.mounted = true) (hs : s.logSectors ≠ []) (hu : s.log.unflushed ≠ 0)
    (hc : s.rs.cur ≠ none) : s.flushLog = { s with rs := { s.rs with flushDue := true } } := by
  unfold State.flushLog
  rw [if_neg (by simp [hm, hs, hu]), if_pos (Option.isSome_iff_ne_none.2 hc)]

/-- The unflushed entries written, oldest first, and flushed. -/
def State.writeLog (s : State) : State :=
  let t := (s.log.entries.take s.log.unflushed).reverse.foldl State.putEntry s
  { t with log := { t.log with unflushed := 0 } }

theorem State.flushLog_writes (hm : s.rs.mounted = true) (hs : s.logSectors ≠ []) (hu : s.log.unflushed ≠ 0)
    (hc : s.rs.cur = none) : s.flushLog = if s.writeLog.on (RECSTORE.C_STATUS_BUSY 1) then s.writeLog else
      (s.writeLog.set (RECSTORE.C_CMD_OP 1) 1).recEnd .s 0 := by
  rw [State.flushLog, if_neg (by simp [hm, hs, hu]), if_neg (by simp [hc])]
  rfl

/-- Only registers, the count of unflushed entries and bytes of the LOG sectors differ. -/
structure Flushed (s t : State) : Prop where
  fields : t = { s with regs := t.regs, now := t.now, mem := t.mem, log := { s.log with unflushed := t.log.unflushed } }
  bytes : ∀ a, s.OutsideLog a → t.byte a = s.byte a

theorem Flushed.registers {u : State} (h : Flushed s t) (hu : RegsAlone t u) : Flushed s u := by
  have hmem : u.mem = t.mem := by rw [hu.fields]
  have hepoch : u.epoch = t.epoch := by rw [hu.fields]
  refine ⟨?_, fun a ha => (State.byte_of_mem hmem hepoch a).trans (h.bytes a ha)⟩
  rw [hu.fields, h.fields]

theorem State.writeLog_flushed (hs : s.logSectors ≠ []) : Flushed s s.writeLog := by
  have hput := WritesLog.putEntries hs (s.log.entries.take s.log.unflushed).reverse
  refine ⟨?_, hput.bytes⟩
  rw [State.writeLog, hput.fields]

/-- With the store free, what a flush changes. -/
theorem State.flushLog_flushed (hc : s.rs.cur = none) : Flushed s s.flushLog := by
  by_cases hidle : s.rs.mounted = false ∨ s.logSectors = [] ∨ s.log.unflushed = 0
  · rw [State.flushLog_idle hidle]
    exact ⟨rfl, fun _ _ => rfl⟩
  · simp only [not_or, Bool.not_eq_false] at hidle
    obtain ⟨hm, hs, hu⟩ := hidle
    have hwrite := State.writeLog_flushed hs
    rw [State.flushLog_writes hm hs hu hc]
    split
    · exact hwrite
    · exact hwrite.registers (((RegsAlone.refl _).set _ _).recEnd _ _)

/-- With the store free and mounted a flush leaves nothing unflushed. -/
theorem State.flushLog_unflushed (hm : s.rs.mounted = true) (hs : s.logSectors ≠ []) (hc : s.rs.cur = none) :
    s.flushLog.log.unflushed = 0 := by
  by_cases hu : s.log.unflushed = 0
  · rw [State.flushLog_idle (.inr (.inr hu)), hu]
  · rw [State.flushLog_writes hm hs hu hc]
    split
    · rfl
    · have hend := ((RegsAlone.refl s.writeLog).set (RECSTORE.C_CMD_OP 1) 1).recEnd .s 0
      rw [hend.fields]
      rfl

/-! ### Scarab's resets (R296, R302, R329) -/

theorem State.boot_rstCause (s : State) (code : Nat) : (s.rstCause code).boot = s.boot := by
  unfold State.rstCause
  split <;> rfl

/-- A full reset leaves its code, and the application core in reset. -/
theorem State.fullReset_boot (s : State) (code : Nat) :
    (s.fullReset code).boot.code = code ∧ (s.fullReset code).boot.released = false := by
  rw [State.fullReset, State.boot_rstCause]
  exact ⟨rfl, rfl⟩

theorem State.scarabReset_now {code : Nat} (h : s.drainChip.flushLog.rs.flushDue = false) :
    s.scarabReset code = s.drainChip.flushLog.fullReset code :=
  if_neg (ne_true_of_eq_false h)

theorem State.scarabReset_waits {code : Nat} (h : s.drainChip.flushLog.rs.flushDue = true) :
    s.scarabReset code = { s.drainChip.flushLog with rs := { s.drainChip.flushLog.rs with resetDue := some code } } :=
  if_pos h

/-- With the store free, logging the pending reports and the flush leave what it holds beside its registers and bytes. -/
theorem State.rs_drainChip_flushLog (hc : s.rs.cur = none) : s.drainChip.flushLog.rs = s.rs := by
  obtain ⟨l, p, hdrain⟩ := State.drainChip_fields s
  rw [hdrain, (State.flushLog_flushed (s := { s with log := l, err := p }) hc).fields]

/-! ### CHIP_POL (R296) -/

theorem State.chipPolicy_contain (h : s.get ERRAGG.CTRL_CHIP_POL ≠ 2 ∨ r.info = true) : s.chipPolicy r = s := by
  rw [State.chipPolicy, if_neg]
  rcases h with h | h <;> simp [h]

theorem State.chipPolicy_reset (h : s.get ERRAGG.CTRL_CHIP_POL = 2) (hi : r.info = false) : s.chipPolicy r = s.scarabReset 8 := by
  rw [State.chipPolicy, if_pos (by simp [h, hi])]

theorem State.get_logPend (s : State) (c : ChipPend) (g : RF) : (s.logPend c).get g = s.get g :=
  State.get_of_regs (by rw [State.logPend_fields]) g

/-! ### LOG_REPORT (R299) -/

theorem exec_logReport_waits (hmgt : s.domOn .mgt = true) (h : s.nextChip = some c) (hsame : s.sameAsNewest c.rep = false)
    (hnew : s.log.lastNew ≠ 0) (hearly : s.tick + 1 < s.log.lastNew + 500) : exec .logReport s = .next s := by
  change execLogReport s = _
  simp only [execLogReport, hmgt, h, hsame, Bool.not_true, Bool.false_or, Bool.false_eq_true, if_false]
  rw [if_neg (by simp; omega)]

theorem exec_logReport_logs (hmgt : s.domOn .mgt = true) (h : s.nextChip = some c)
    (hgo : s.sameAsNewest c.rep = true ∨ s.log.lastNew = 0 ∨ s.log.lastNew + 500 ≤ s.tick + 1) :
    exec .logReport s = .next ((s.logPend c).chipPolicy c.rep) := by
  change execLogReport s = _
  simp only [execLogReport, hmgt, h, Bool.not_true, Bool.false_eq_true, if_false]
  rw [if_pos (by simpa [or_assoc] using hgo)]

/-- Where no policy applies, the report enters the log and nothing else happens. -/
theorem exec_logReport_contain (hmgt : s.domOn .mgt = true) (h : s.nextChip = some c)
    (hpol : s.get ERRAGG.CTRL_CHIP_POL ≠ 2 ∨ c.rep.info = true)
    (hgo : s.sameAsNewest c.rep = true ∨ s.log.lastNew = 0 ∨ s.log.lastNew + 500 ≤ s.tick + 1) :
    exec .logReport s = .next (s.logPend c) := by
  rw [exec_logReport_logs hmgt h hgo, State.chipPolicy_contain (by rwa [State.get_logPend])]

/-- CHIP_POL = RESET with the store free: the full reset follows at once. -/
theorem exec_logReport_reset (hmgt : s.domOn .mgt = true) (h : s.nextChip = some c) (hpol : s.get ERRAGG.CTRL_CHIP_POL = 2)
    (hinfo : c.rep.info = false) (hnew : s.log.lastNew = 0) (hc : s.rs.cur = none) (hdue : s.rs.flushDue = false) :
    exec .logReport s = .next ((s.logPend c).drainChip.flushLog.fullReset 8) := by
  have hrs : (s.logPend c).rs = s.rs := by rw [State.logPend_fields]
  rw [exec_logReport_logs hmgt h (.inr (.inl hnew)), State.chipPolicy_reset ((State.get_logPend s c _).trans hpol) hinfo,
    State.scarabReset_now]
  rw [State.rs_drainChip_flushLog (hrs ▸ hc), hrs, hdue]

/-! ### LOG_PERIODIC_FLUSH (R302) -/

/-- The instant of the last flush that came of the time is `n`. -/
def State.stampFlush (s : State) (n : Nat) : State := { s with log := { s.log with flushedAt := n } }

theorem State.stampFlush_ite (s : State) (late : Prop) [Decidable late] (n : Nat) :
    s.stampFlush (if late then n else s.log.flushedAt) = if decide late = true then s.stampFlush n else s := by
  by_cases h : late
  · rw [if_pos h, if_pos (decide_eq_true h)]
  · rw [if_neg h, if_neg (by simpa using h)]
    rfl

theorem exec_logPeriodicFlush_early (hu : s.log.unflushed < 64) (ht : s.tick < s.log.flushedAt + 2500000000) :
    exec .logPeriodicFlush s = .next s := by
  change execLogPeriodicFlush s = _
  rw [execLogPeriodicFlush]
  exact if_pos (by simp; omega)

theorem exec_logPeriodicFlush_due (hmgt : s.domOn .mgt = true)
    (h : 64 ≤ s.log.unflushed ∨ s.log.flushedAt + 2500000000 ≤ s.tick) : exec .logPeriodicFlush s =
      .next (s.stampFlush (if s.log.flushedAt + 2500000000 ≤ s.tick then s.tick else s.log.flushedAt)).flushLog := by
  change execLogPeriodicFlush s = _
  rw [execLogPeriodicFlush, if_neg (by simp [hmgt]; omega), State.stampFlush_ite]
  rfl

/-- What a flush leaves where the store is free and mounted and has a LOG sector. -/
theorem State.flushLog_stampFlush (n : Nat) (hm : s.rs.mounted = true) (hs : s.logSectors ≠ []) (hc : s.rs.cur = none) :
    let t := (s.stampFlush n).flushLog
    t.log.unflushed = 0 ∧ t.log.entries = s.log.entries ∧
    (∀ a, a < 0x0C000000 ∨ 0x0C010000 ≤ a → t.byte a = s.byte a) ∧
    (∀ k j, k < 32 → j < 2048 → s.role k ≠ .log → t.byte (recAddr (secOff k) + j) = s.byte (recAddr (secOff k) + j)) := by
  have hflush : Flushed (s.stampFlush n) (s.stampFlush n).flushLog := State.flushLog_flushed hc
  have hbytes : ∀ a, s.OutsideLog a → (s.stampFlush n).flushLog.byte a = s.byte a := hflush.bytes
  refine ⟨State.flushLog_unflushed hm hs hc, ?_, fun a ha => hbytes a (State.outsideLog_of_outside_store ha),
    fun k j _ hj hrole => hbytes _ (State.outsideLog_of_role hj hrole)⟩
  rw [hflush.fields]
  rfl

theorem State.flushLog_stampFlush_idle (n : Nat) (h : s.rs.mounted = false ∨ s.logSectors = [] ∨ s.log.unflushed = 0) :
    (s.stampFlush n).flushLog = { s with log := { s.log with flushedAt := n } } :=
  State.flushLog_idle (s := s.stampFlush n) h

theorem State.flushLog_stampFlush_waits (n : Nat) (hm : s.rs.mounted = true) (hs : s.logSectors ≠ []) (hu : s.log.unflushed ≠ 0)
    (hc : s.rs.cur ≠ none) : (s.stampFlush n).flushLog =
      { s with rs := { s.rs with flushDue := true }, log := { s.log with flushedAt := n } } :=
  State.flushLog_waits (s := s.stampFlush n) hm hs hu hc

/-- Settles O46: the log's operations by the lemma of each, and what a flush writes by the sector it writes to. -/
theorem eventLog : Obligations.EventLog := by
  refine ⟨fun c s => State.nextChip_least, ?report, State.sameAsNewest_iff, fun e => ⟨entryBytes_length e, entryBytes_fields e⟩,
    fun s => exec_logPeriodicFlush_early, ?flush, fun code s => ⟨State.scarabReset_now, State.scarabReset_waits⟩⟩
  case report =>
    intro c s hmgt h
    refine ⟨exec_logReport_waits hmgt h, fun hpol => ⟨fun hsame hgo => ?new, fun e r hlog hsame => ?same⟩,
      fun hpol hinfo hnew hc hdue => ?reset⟩
    case new =>
      obtain ⟨hentries, hunflushed, hlast⟩ := State.logPend_new_log hsame
      have hfields := State.logPend_fields s c
      refine ⟨_, exec_logReport_contain hmgt h hpol (.inr hgo), hentries, hunflushed, hlast, ?_, ?_⟩ <;> rw [hfields]
    case same =>
      obtain ⟨hentries, hunflushed⟩ := State.logPend_same_log hsame hlog
      have hfields := State.logPend_fields s c
      refine ⟨_, exec_logReport_contain hmgt h hpol (.inl hsame), hentries, hunflushed, ?_, ?_⟩ <;> rw [hfields]
    case reset =>
      exact ⟨_, exec_logReport_reset hmgt h hpol hinfo hnew hc hdue, State.fullReset_boot _ 8⟩
  case flush =>
    intro s hmgt hdue at_
    have hexec : exec .logPeriodicFlush s = .next (s.stampFlush at_).flushLog := exec_logPeriodicFlush_due hmgt hdue
    exact ⟨fun hidle => hexec.trans (congrArg _ (State.flushLog_stampFlush_idle at_ hidle)),
      fun hm hs hu hc => hexec.trans (congrArg _ (State.flushLog_stampFlush_waits at_ hm hs hu hc)),
      fun hm hs hc => ⟨_, hexec, State.flushLog_stampFlush at_ hm hs hc⟩⟩

end Sys2Proof.Machine

/-! ## Frames of the timebase and the lanes -/

namespace Sys2Proof.Machine

section
variable {s t u : State} {p q : Nat → Bool} {fs : List RF}

/-! ### Signed fields and truth values in fields (R17) -/

theorem wrap_lt (w : Nat) (x : Int) : wrap w x < 2 ^ w := by
  have hpos : (0 : Int) < 2 ^ w := by positivity
  have h0 : 0 ≤ x % 2 ^ w := Int.emod_nonneg x hpos.ne'
  have hlt : x % 2 ^ w < 2 ^ w := Int.emod_lt_of_pos x hpos
  rw [wrap, Int.toNat_lt h0]
  exact_mod_cast hlt

theorem State.get_setI (s : State) (f g : RF) (x : Int) :
    (s.setI f x).get g = (s.set f (wrap (f.hi + 1 - f.lo) x)).get g := rfl

@[simp] theorem State.get_setI_self (s : State) (f : RF) (x : Int) : (s.setI f x).get f = wrap (f.hi + 1 - f.lo) x := by
  rw [State.get_setI, State.get_set_self]
  exact Nat.mod_eq_of_lt (wrap_lt _ x)

theorem State.get_setI_other {f g : RF} (h : g.key ≠ f.key) (s : State) (x : Int) : (s.setI f x).get g = s.get g :=
  State.get_set_other h s _

theorem State.get_setF (s : State) (f g : RF) (b : Bool) : (s.setF f b).get g = (s.set f (b2n b)).get g := rfl

theorem State.get_setF_other {f g : RF} (h : g.key ≠ f.key) (s : State) (b : Bool) : (s.setF f b).get g = s.get g :=
  State.get_set_other h s _

/-- A one-bit field shows the truth value put into it. -/
theorem State.on_setF_self {f : RF} (hf : f.hi = f.lo) (s : State) (b : Bool) : (s.setF f b).on f = b := by
  rw [State.on, State.get_setF, State.get_set_self, RF.bound_bit hf]
  cases b <;> rfl

/-! ### Frames -/

theorem RegsOutside.mono (h : RegsOutside p s t) (hpq : ∀ a, p a = true → q a = true) : RegsOutside q s t :=
  fun g hl hg => h g hl (Bool.eq_false_iff.2 fun hp => by simp [hpq _ hp] at hg)

theorem OnlyRegs.setI (h : OnlyRegs fs s t) {f : RF} (hf : f ∈ fs) (x : Int) : OnlyRegs fs s (t.setI f x) := h.set hf _

theorem OnlyRegs.setF (h : OnlyRegs fs s t) {f : RF} (hf : f ∈ fs) (b : Bool) : OnlyRegs fs s (t.setF f b) := h.set hf _

/-- Nothing differs but the registers that `p` names, the lanes' own state and the record of the present clock. -/
structure LanesAlone (p : Nat → Bool) (s t : State) : Prop where
  regs : RegsOutside p s t
  fields : t = { s with regs := t.regs, now := t.now, lanes := t.lanes }

theorem LanesAlone.refl (p : Nat → Bool) (s : State) : LanesAlone p s s := ⟨.refl p s, rfl⟩

theorem LanesAlone.trans (h : LanesAlone p s t) (k : LanesAlone p t u) : LanesAlone p s u :=
  ⟨h.regs.trans k.regs, by rw [k.fields, h.fields]⟩

theorem LanesAlone.set (h : LanesAlone p s t) (f : RF) (v : Nat) (hl : f.lo < 32 := by simp) (hf : p f.addr = true := by simp) :
    LanesAlone p s (t.set f v) :=
  ⟨h.regs.set hl hf v, congrArg (fun x : State => { x with regs := (t.set f v).regs, now := (t.set f v).now }) h.fields⟩

theorem LanesAlone.lane (h : LanesAlone p s t) (n : Fin 10) (f : LaneSt → LaneSt) : LanesAlone p s (t.lane n f) :=
  ⟨h.regs.regs rfl, congrArg (fun x : State => { x with lanes := (t.lane n f).lanes }) h.fields⟩

theorem LanesAlone.mono (h : LanesAlone p s t) (hpq : ∀ a, p a = true → q a = true) : LanesAlone q s t :=
  ⟨h.regs.mono hpq, h.fields⟩

theorem LanesAlone.sameMemory (h : LanesAlone p s t) : SameMemory s t := by
  intro a
  rw [h.fields]; rfl

/-- What each lane's part keeps, all ten keep. -/
theorem LanesAlone.forLanes {f : Fin 10 → State → State} (hf : ∀ n s, LanesAlone p s (f n s)) (s : State) :
    LanesAlone p s (s.forLanes f) :=
  List.foldlRecOn _ _ (motive := fun t => LanesAlone p s t) (.refl p s) fun t h n _ => h.trans (hf n t)

theorem State.forLanes_eq_self {f : Fin 10 → State → State} (h : ∀ n, f n s = s) : s.forLanes f = s :=
  List.foldlRecOn _ _ (motive := fun t => t = s) rfl fun t ht n _ => by rw [ht, h n]

end

end Sys2Proof.Machine

/-! ## The loss of time (02_machine_time.md, R53; 04_lanes.md, R113) -/

namespace Sys2Proof.Machine

section
variable {s t u : State} {n : Fin 10}

/-! ### A lane's player and its suspension -/

/-- The registers that show a lane's player: STAT and IRQ_STAT. -/
@[simp] def playerRegs (n : Nat) (a : Nat) : Bool := a == LANE.STAT n || a == LANE.IRQ_STAT n

/-- The registers that show the loss of time at a lane: the player's, FLT_STAT and FLT_IRQ_STAT. -/
@[simp] def timeLostRegs (n : Nat) (a : Nat) : Bool := playerRegs n a || a == LANE.FLT_STAT n || a == LANE.FLT_IRQ_STAT n

theorem State.startSeg_alone (s : State) (n : Fin 10) (i full : Nat) : LanesAlone (playerRegs n) s (s.startSeg n i full) := by
  unfold State.startSeg
  extract_lets r base next act s₁ s₂
  have hplayed : LanesAlone (playerRegs n) s s₂ := (((LanesAlone.refl _ s).lane n _).set _ _).set _ _
  split
  · exact (hplayed.set _ _).set _ _
  · exact hplayed

theorem State.advanceN_alone (n : Fin 10) (t k : Nat) (s : State) : LanesAlone (playerRegs n) s (State.advanceN n t k s) := by
  induction k generalizing s with
  | zero => exact .refl _ s
  | succ k ih =>
    unfold State.advanceN
    split
    · split
      · exact (s.startSeg_alone n _ _).trans (ih _)
      · exact .refl _ s
    · exact .refl _ s

theorem State.advance_alone (s : State) (n : Fin 10) (t : Nat) : LanesAlone (playerRegs n) s (s.advance n t) := by
  unfold State.advance
  split
  · exact State.advanceN_alone n t 384 s
  · exact .refl _ s

theorem State.lanes_lane_self (s : State) (n : Fin 10) (f : LaneSt → LaneSt) : (s.lane n f).lanes[n] = f s.lanes[n] :=
  Vector.getElem_set_self _

theorem State.setLstate_alone (s : State) (n : Fin 10) (st : Nat) : LanesAlone (timeLostRegs n) s (s.setLstate n st) := by
  unfold State.setLstate
  split
  · exact .refl _ s
  · exact ((LanesAlone.refl _ s).set _ _).set _ _

theorem State.get_setLstate_self (s : State) (n : Nat) {st : Nat} (h : st < 8) : (s.setLstate n st).get (LANE.STAT_LSTATE n) = st := by
  unfold State.setLstate
  split
  · assumption
  · rw [State.get_set_other (by simp only [RF.key, LANE.STAT, LANE.IRQ_STAT]; omega), State.get_set_self]
    exact Nat.mod_eq_of_lt h

theorem State.timeLost_alone (s : State) (n : Fin 10) : LanesAlone (timeLostRegs n) s (s.timeLost n) := by
  have hfirst := (s.setLstate_alone n 4).set (LANE.FLT_STAT_FIRST n) 7
  have haction := (hfirst.set (LANE.FLT_STAT_ACTION n) 0).lane n fun l => { l with act := 0 }
  have hfault := (haction.set (LANE.FLT_STAT_SRC_LANE n) 0).set (LANE.FLT_IRQ_STAT_FAULT n) 1
  exact ((hfault.lane n fun l => { l with acts := [] }).set (LANE.FLT_STAT_TIME_LOST n) 1).set (LANE.FLT_STAT_PHASE n) 3

/-- What the loss of time leaves at the lane (R53, R113). -/
theorem State.timeLost_shown (s : State) (n : Fin 10) :
    (s.timeLost n).get (LANE.STAT_LSTATE n) = 4 ∧ (s.timeLost n).get (LANE.FLT_STAT_FIRST n) = 7 ∧
    (s.timeLost n).get (LANE.FLT_STAT_ACTION n) = 0 ∧ (s.timeLost n).get (LANE.FLT_STAT_TIME_LOST n) = 1 ∧
    (s.timeLost n).get (LANE.FLT_IRQ_STAT_FAULT n) = 1 := by
  simp (disch := (simp only [RF.key, LANE.STAT, LANE.FLT_STAT, LANE.FLT_IRQ_STAT]; omega)) only [State.timeLost, State.suspend,
    State.setAction, State.get_lane, State.get_set_other, State.get_set_self]
  exact ⟨State.get_setLstate_self s n (by decide), rfl, rfl, rfl, rfl⟩

theorem State.timeLost_lane (s : State) (n : Fin 10) : (s.timeLost n).lanes[n].act = 0 ∧ (s.timeLost n).lanes[n].acts = [] := by
  simp only [State.timeLost, State.suspend, State.setAction, State.lanes_set, State.lanes_lane_self, and_self]

/-! ### The fall of TIME_VALID -/

theorem State.loseTime_playing (hst : s.get (LANE.STAT_LSTATE n) = 3) (hplay : s.lanes[n].playing = true) :
    s.loseTime n = (s.advance n s.mt).timeLost n := by
  rw [State.loseTime, hst, hplay]; rfl

theorem State.loseTime_inactive (hst : s.get (LANE.STAT_LSTATE n) ≠ 3) : s.loseTime n = s := by
  simp [State.loseTime, hst]

theorem State.loseTime_alone (s : State) (n : Fin 10) : LanesAlone (timeLostRegs n) s (s.loseTime n) := by
  unfold State.loseTime
  split
  · exact ((s.advance_alone n s.mt).mono fun a h => by simp_all).trans (State.timeLost_alone _ n)
  · exact .refl _ s

/-- A pulse cut off changes what MT_SYNC_OUT does, and no register. -/
theorem State.syncoutCut_fields (s : State) : s.syncoutCut = { s with tm := s.syncoutCut.tm, sent := s.syncoutCut.sent } := by
  unfold State.syncoutCut
  repeat' split
  all_goals rfl

theorem State.showDisc_invalid (h : s.timeValid = false) : s.showDisc = (s.set RTC.STAT_DISC_ACT 0).endWindow := by
  have hoff : s.discNow = false := by rw [State.discNow, h, Bool.and_false]
  simp only [State.showDisc, hoff, Bool.false_eq_true, if_false]
  rfl

/-- TIME_VALID has fallen, and what stands with it has ended (R53, R61, R247); the lanes are still to suspend. -/
def State.timeOff (s : State) : State := ((s.set MTIME.STATUS_TIME_VALID 0).set MTIME.STATUS_VALID_FALL 1).syncoutCut.showDisc

theorem State.timeFall_valid (h : s.timeValid = true) : s.timeFall = s.timeOff.forLanes fun n s => s.loseTime n := by
  rw [State.timeFall, h]; rfl

theorem State.timeFall_invalid (h : s.timeValid = false) : s.timeFall = s := by
  rw [State.timeFall, h]; rfl

theorem State.get_syncoutCut (s : State) (g : RF) : s.syncoutCut.get g = s.get g := by
  rw [State.syncoutCut_fields, State.get_fields]

/-- With TIME_VALID at 0 discipline of the RTC is off. -/
theorem State.timeOff_eq (s : State) : s.timeOff =
    ((((s.set MTIME.STATUS_TIME_VALID 0).set MTIME.STATUS_VALID_FALL 1).syncoutCut).set RTC.STAT_DISC_ACT 0).endWindow := by
  refine State.showDisc_invalid ?_
  simp (disch := decide) only [State.timeValid, State.on, State.get_syncoutCut, State.get_set_other, State.get_set_self]
  rfl

theorem State.get_timeOff (s : State) (g : RF) : s.timeOff.get g =
    (((s.set MTIME.STATUS_TIME_VALID 0).set MTIME.STATUS_VALID_FALL 1).set RTC.STAT_DISC_ACT 0).get g := by
  rw [State.timeOff_eq]
  simp only [State.endWindow, State.get_fields, State.get_set, State.get_syncoutCut]

theorem State.timeOff_memory (s : State) : SameMemory s s.timeOff := by
  intro a
  rw [State.timeOff_eq, State.syncoutCut_fields]; rfl

theorem State.timeFall_inactive (h : s.timeValid = true) (hl : ∀ n : Fin 10, s.get (LANE.STAT_LSTATE n) ≠ 3) :
    s.timeFall = s.timeOff := by
  rw [State.timeFall_valid h]
  refine State.forLanes_eq_self fun n => State.loseTime_inactive ?_
  rw [State.get_timeOff]
  simp (disch := (simp only [RF.key, LANE.STAT, MTIME.STATUS, RTC.STAT]; omega)) only [State.get_set_other]
  exact hl n

/-! ### Lanes that hold where MT moves -/

theorem State.timeHold_suspended (hst : s.get (LANE.STAT_LSTATE n) = 4) (hact : s.lanes[n].act = 0) :
    s.timeHold n = s.lane n fun l => { l with
      held := if s.inSeg n s.mt then s.get (LANE.POS_CMD_P n) else s.basePos n, holding := true, started := false } := by
  rw [State.timeHold, hst, hact]; rfl

theorem State.timeHold_other (hst : s.get (LANE.STAT_LSTATE n) ≠ 4) : s.timeHold n = s := by
  simp [State.timeHold, hst]

end

end Sys2Proof.Machine

/-! ## The servo's commands (02_machine_time.md, R50 to R54) -/

namespace Sys2Proof.Machine

section
variable {s t u : State} {fs : List RF}

/-! ### What each command answers -/

theorem State.setSync_change {st : Nat} (h : s.get MTIME.STATUS_STATE ≠ st) :
    s.setSync st = (s.set MTIME.STATUS_STATE st).set MTIME.STATUS_STATE_CHG 1 := by
  rw [State.setSync, if_neg h]

/-- A missed Cycle Start is noted (R51). -/
def State.noteMissed (s : State) : State := { s with tm := { s.tm with missed := true } }

theorem exec_cycleStartMissed_acquire {tl : Nat} (hl : s.tm.tLast = some tl) (hm : s.tm.missed = false)
    (hdue : s.due (s.missedAt tl) = true) (hsys : s.domOn .sys = true) (hst : s.get MTIME.STATUS_STATE = 1) :
    exec .cycleStartMissed s = .next (s.noteMissed.set MTIME.STATUS_GOOD_CNT 0).freqHold := by
  change execCycleStartMissed s = _
  simp only [execCycleStartMissed, hl, hm, hdue, hsys, hst, Bool.not_true, Bool.or_self, Bool.false_eq_true, if_false,
    State.noteMissed]

/-- HOLDOVER is entered at the present MT, after a missed Cycle Start (R51, R54). -/
def State.noteHoldover (s : State) : State :=
  { s with tm := { s.tm with missed := true, fNext := none, hoEntry := s.mt, hoExpired := false } }

theorem exec_cycleStartMissed_track {tl : Nat} (hl : s.tm.tLast = some tl) (hm : s.tm.missed = false)
    (hdue : s.due (s.missedAt tl) = true) (hsys : s.domOn .sys = true) (hst : s.get MTIME.STATUS_STATE = 2) :
    exec .cycleStartMissed s = .next (((s.noteHoldover.set MTIME.SERVO_FREQ_F (s.get MTIME.SERVO_INT_I)).set
      MTIME.STATUS_STATE 3).set MTIME.STATUS_STATE_CHG 1) := by
  have hchange : s.noteMissed.freqHold.setSync 3 =
      (s.noteMissed.freqHold.set MTIME.STATUS_STATE 3).set MTIME.STATUS_STATE_CHG 1 := by
    refine State.setSync_change ?_
    have hkept : s.noteMissed.freqHold.get MTIME.STATUS_STATE = s.get MTIME.STATUS_STATE := State.get_set_other (by decide) _ _
    rw [hkept, hst]; decide
  have hanswer : exec .cycleStartMissed s = .next { s.noteMissed.freqHold.setSync 3 with
      tm := { s.noteMissed.freqHold.tm with hoEntry := s.mt, hoExpired := false } } := by
    change execCycleStartMissed s = _
    simp only [execCycleStartMissed, hl, hm, hdue, hsys, hst, Bool.not_true, Bool.or_self, Bool.false_eq_true, if_false,
      State.noteMissed]
  rw [hanswer, hchange]
  rfl

theorem exec_holdoverExpiry_due (hst : s.get MTIME.STATUS_STATE = 3) (hex : s.tm.hoExpired = false) (hsys : s.domOn .sys = true)
    (hdue : s.due (s.tm.hoEntry + s.get MTIME.HOLDOVER_LIM_LIMIT_MS * 1000000) = true) :
    exec .holdoverExpiry s = .next ((State.timeFall { s with tm := { s.tm with hoExpired := true } }).count
      MTIME.DIAG_HOLDOVER_COUNT MTIME.DIAG_HOLDOVER_OVF) := by
  change execHoldoverExpiry s = _
  rw [execHoldoverExpiry, hst, hex, hsys, hdue]; rfl

theorem State.servoRestart_follower (h : s.get MTIME.STATUS_STATE ∈ [1, 2, 3]) :
    s.servoRestart = ((s.set MTIME.STATUS_GOOD_CNT 0).setSync 1).timeFall :=
  if_pos (by simpa using h)

/-- The limit that a write of PULL_LIM sets (R50). -/
def pullLimit (v : Word) : Nat := min (bits v.toNat 21 0) 0x0D1B71

/-- PULL_LIM, I, F and MASTER_TRIM after a new limit. -/
def State.limitPull (s : State) (l : Nat) : State :=
  (((s.set MTIME.PULL_LIM_LIM l).setI MTIME.SERVO_INT_I (clampI (s.getI MTIME.SERVO_INT_I) l)).setI MTIME.SERVO_FREQ_F
    (clampI (s.getI MTIME.SERVO_FREQ_F) l)).setI MTIME.MASTER_TRIM_TRIM (clampI (s.getI MTIME.MASTER_TRIM_TRIM) l)

theorem State.getI_setI_other {f g : RF} (h : g.key ≠ f.key) (s : State) (x : Int) : (s.setI f x).getI g = s.getI g := by
  rw [State.getI, State.get_setI_other h, State.getI]

theorem State.getI_set_other {f g : RF} (h : g.key ≠ f.key) (s : State) (v : Nat) : (s.set f v).getI g = s.getI g := by
  rw [State.getI, State.get_set_other h, State.getI]

theorem exec_pullLimWrite_reached (v : Word) (hup : s.accessible MTIME.PULL_LIM = true) :
    exec (.pullLimWrite v) s = .next { ({ s with tm := { s.tm with
        fNext := s.tm.fNext.map fun p => (p.1, wrap 32 (clampI (sgn 32 p.2) (pullLimit v))) } } : State).limitPull (pullLimit v) with
      bus := .ok 0 } := by
  have hlimit : ∀ l, ((((s.set MTIME.PULL_LIM_LIM l).clampField MTIME.SERVO_INT_I l).clampField MTIME.SERVO_FREQ_F l).clampField
      MTIME.MASTER_TRIM_TRIM l) = s.limitPull l := by
    intro l
    simp (disch := decide) only [State.clampField, State.getI_setI_other, State.getI_set_other, State.limitPull]
  change execPullLimWrite v s = _
  rw [execPullLimWrite, State.busDo_reached hup]
  simp only [hlimit]
  rfl

theorem State.limitPull_regs (s : State) {l : Nat} (hl : l < 2 ^ 22) :
    (s.limitPull l).get MTIME.PULL_LIM_LIM = l ∧
    (s.limitPull l).get MTIME.SERVO_INT_I = wrap 32 (clampI (s.getI MTIME.SERVO_INT_I) l) ∧
    (s.limitPull l).get MTIME.SERVO_FREQ_F = wrap 32 (clampI (s.getI MTIME.SERVO_FREQ_F) l) ∧
    (s.limitPull l).get MTIME.MASTER_TRIM_TRIM = wrap 32 (clampI (s.getI MTIME.MASTER_TRIM_TRIM) l) := by
  simp (disch := decide) only [State.limitPull, State.get_setI_other, State.get_setI_self, State.get_set_self]
  exact ⟨Nat.mod_eq_of_lt hl, trivial, trivial, trivial⟩

theorem State.limitPull_only (s : State) (l : Nat) :
    OnlyRegs [MTIME.PULL_LIM_LIM, MTIME.SERVO_INT_I, MTIME.SERVO_FREQ_F, MTIME.MASTER_TRIM_TRIM] s (s.limitPull l) :=
  ((((OnlyRegs.refl _ s).set (by simp) _).setI (by simp) _).setI (by simp) _).setI (by simp) _

/-- Settles O6: each command by what it answers, the fall of TIME_VALID by its part at the timebase and its part at each lane. -/
theorem servoCommands : Obligations.ServoCommands := by
  refine ⟨?acquire, ?track, fun s hst hex hsys hdue => exec_holdoverExpiry_due hst hex hsys hdue, ?restart, ?limit, ?fall,
    fun s h => State.timeFall_valid h, ?lose, fun n s => ⟨State.timeHold_suspended, State.timeHold_other⟩⟩
  case acquire =>
    intro s tl hl hm hdue hsys hst
    refine ⟨_, exec_cycleStartMissed_acquire hl hm hdue hsys hst, ?_, ?_, ((OnlyRegs.refl _ _).set (by simp) _).set (by simp) _⟩
    · simp (disch := decide) only [State.freqHold, State.get_fields, State.get_set_other, State.get_set_self]; rfl
    · simp (disch := decide) only [State.freqHold, State.get_fields, State.get_set_other, State.get_set_self]; rfl
  case track =>
    intro s tl hl hm hdue hsys hst
    refine ⟨_, exec_cycleStartMissed_track hl hm hdue hsys hst, ?_, ?_, ?_,
      (((OnlyRegs.refl _ _).set (by simp) _).set (by simp) _).set (by simp) _⟩
    all_goals simp (disch := decide) only [State.get_set_other, State.get_set_self]; rfl
  case restart =>
    intro s hup hst
    have hexec : exec .servoRestart s = .next { s.servoRestart with bus := .ok 0 } := State.busDo_reached hup State.servoRestart
    rw [hexec, State.servoRestart_follower hst]
  case limit =>
    intro v s hup
    have hlt : pullLimit v < 2 ^ 22 := lt_of_le_of_lt (Nat.min_le_right _ _) (by decide)
    obtain ⟨hlim, hint, hfreq, htrim⟩ := State.limitPull_regs { s with tm := { s.tm with
      fNext := s.tm.fNext.map fun p => (p.1, wrap 32 (clampI (sgn 32 p.2) (pullLimit v))) } } hlt
    exact ⟨_, exec_pullLimWrite_reached v hup, hlim, hint, hfreq, htrim,
      (State.limitPull_only _ _).bus _⟩
  case fall =>
    intro s hvalid hlanes
    rw [State.timeFall_inactive hvalid hlanes]
    refine ⟨?_, ?_, ?_, fun g hg => ?_, s.timeOff_memory⟩
    · simp (disch := decide) only [State.get_timeOff, State.get_set_other, State.get_set_self]; rfl
    · simp (disch := decide) only [State.get_timeOff, State.get_set_other, State.get_set_self]; rfl
    · simp (disch := decide) only [State.get_timeOff, State.get_set_self]; rfl
    · rw [State.get_timeOff]
      exact (((RegsBut.refl _ s).set (by simp) _).set (by simp) _).set (by simp) _ g hg
  case lose =>
    intro n s
    refine ⟨fun hst hplay => ?_, State.loseTime_inactive⟩
    have hkept := s.loseTime_alone n
    rw [State.loseTime_playing hst hplay] at hkept ⊢
    obtain ⟨hstate, hfirst, haction, hlost, hfault⟩ := State.timeLost_shown (s.advance n s.mt) n
    obtain ⟨hact, hacts⟩ := State.timeLost_lane (s.advance n s.mt) n
    exact ⟨hstate, hfirst, haction, hlost, hfault, hact, hacts,
      hkept.regs _ (by simp) (by simp [LANE.STAT, LANE.IRQ_STAT, LANE.FLT_STAT, LANE.FLT_IRQ_STAT]), hkept.sameMemory⟩

end

end Sys2Proof.Machine

/-! ## What DICTENG and the queues leave alone (07_gnourlink.md, 08_dictionary.md) -/

namespace Sys2Proof.Machine

section
variable {s t u : State}

/-- The registers below those of MTIME and from those of LINKQ up: all that DICTENG and the queues may write, and neither machine
time, the lanes nor RINGCTL. -/
def offTimeAndRing (a : Nat) : Bool := decide (a < 0x4000B000) || decide (0x60003000 ≤ a)

/-- `s` with what DICTENG and the queues may write taken from `t`: all of DICTENG's own state but its frames on the ring. -/
def State.takeDict (s t : State) : State :=
  { s with
    regs := t.regs, mem := t.mem, now := t.now, sent := t.sent, abort := t.abort, err := t.err, svc := t.svc, uart0 := t.uart0
    dict := { t.dict with onRing := s.dict.onRing } }

/-- Nothing differs but what DICTENG and the queues may write. -/
structure DictAlone (s t : State) : Prop where
  regs : RegsOutside offTimeAndRing s t
  fields : t = s.takeDict t

theorem DictAlone.refl (s : State) : DictAlone s s := ⟨.refl _ s, rfl⟩

theorem DictAlone.trans (h : DictAlone s t) (k : DictAlone t u) : DictAlone s u :=
  ⟨h.regs.trans k.regs, by rw [k.fields, h.fields]; rfl⟩

/-- An update that leaves the registers alone. -/
theorem DictAlone.upd (h : DictAlone s t) (hr : u.regs = t.regs) (hu : u = t.takeDict u) : DictAlone s u :=
  h.trans ⟨(RegsOutside.refl _ t).regs hr, hu⟩

theorem DictAlone.emit (h : DictAlone s t) (o : Out) : DictAlone s (t.emit o) := h.upd rfl rfl

theorem DictAlone.dict (h : DictAlone s t) {d : DictSt} (hd : d.onRing = t.dict.onRing := by rfl) :
    DictAlone s { t with dict := d } :=
  h.upd rfl (by rw [State.takeDict, ← hd])

theorem DictAlone.abort (h : DictAlone s t) (a : Nat) : DictAlone s { t with abort := a } := h.upd rfl rfl

theorem DictAlone.ite {c : Prop} [Decidable c] (ht : DictAlone s t) (hu : DictAlone s u) : DictAlone s (if c then t else u) := by
  split <;> assumption

theorem DictAlone.put (h : DictAlone s t) (f : RF) (v : Nat) (hl : f.lo < 32 := by decide)
    (hf : offTimeAndRing f.addr = true := by decide) : DictAlone s (t.put f v) :=
  h.trans ⟨((RegsOutside.refl _ t).set hl hf v).regs rfl, rfl⟩

theorem DictAlone.set (h : DictAlone s t) (f : RF) (v : Nat) (hl : f.lo < 32 := by decide)
    (hf : offTimeAndRing f.addr = true := by decide) : DictAlone s (t.set f v) := (h.put f v hl hf).upd rfl rfl

theorem DictAlone.count (h : DictAlone s t) (c o : RF) (hcl : c.lo < 32 := by decide) (hol : o.lo < 32 := by decide)
    (hc : offTimeAndRing c.addr = true := by decide) (ho : offTimeAndRing o.addr = true := by decide) : DictAlone s (t.count c o) := by
  unfold State.count
  split
  · exact (h.put c _ hcl hc).upd rfl rfl
  · exact (h.put o _ hol ho).upd rfl rfl

theorem DictAlone.pokes (h : DictAlone s t) (a : Nat) (l : List Byte) : DictAlone s (t.pokes a l) := by
  rw [State.pokes_fields]
  exact h.upd rfl rfl

theorem DictAlone.report (h : DictAlone s t) {r : Report} (hr : r.src < 64) : DictAlone s (t.report r) := by
  have haddr : offTimeAndRing (ERRAGG.SRC r.src) = true := by
    simp only [offTimeAndRing, ERRAGG.SRC, Bool.or_eq_true, decide_eq_true_eq]; omega
  unfold State.report
  split
  · exact h
  · split
    · exact h.count _ _ (by simp) (by simp) haddr haddr
    · exact (h.set (ERRAGG.SRC_PEND r.src) 1 (by simp) haddr).upd rfl rfl

/-! ### Answers to requests (R174 to R176, R191) -/

theorem State.showTx_alone (s : State) (tx : List Nat) (busy : Bool) : DictAlone s (s.showTx 0 tx busy) :=
  (((DictAlone.refl s).set _ _).set _ _).set _ _

theorem State.sendBack_alone (s : State) (via : Via) (msg : List Byte) : DictAlone s (s.sendBack via msg) := by
  have hsent : DictAlone s (s.emit (.resp via msg)) := (DictAlone.refl s).emit _
  cases via with
  | ring src suid => exact hsent.dict
  | bcast src => exact .refl s
  | svc => exact (((hsent.set SVCWIRE.STAT_BUSY 0).set SVCWIRE.STAT_REQ 0).set SVCWIRE.STAT_RESP_RDY 1).upd rfl rfl
  | uart0 =>
    change DictAlone s (State.showTx _ 0 _ _)
    refine DictAlone.trans ?_ (State.showTx_alone _ _ _)
    exact hsent.upd rfl rfl
  | loc =>
    have hwritten := hsent.pokes ((s.emit (.resp .loc msg)).get DICTENG.LOC_BUF_BUF * 4) msg
    exact (((hwritten.set DICTENG.LOC_CTRL_DONE 1).set DICTENG.STAT_LOC_BUSY 0).set DICTENG.IRQ_STAT_LOC_DONE 1).dict
  | tap => exact hsent

theorem State.answer_alone (s : State) (op : Nat) (m : DictMsg) (status : Nat) (data : List Byte) :
    DictAlone s (s.answer op m status data) := by
  have hcounted : DictAlone s (s.count DICTENG.REQ_CNT_COUNT DICTENG.REQ_CNT_OVF) := (DictAlone.refl s).count _ _
  unfold State.answer
  refine DictAlone.trans ?_ (State.sendBack_alone _ _ _)
  exact (DictAlone.ite hcounted (hcounted.count DICTENG.ABORT_CNT_COUNT DICTENG.ABORT_CNT_OVF)).abort _

theorem State.endBarrier_alone (s : State) (status : Nat) : DictAlone s (s.endBarrier status) := by
  unfold State.endBarrier
  split
  · exact .refl s
  · exact ((DictAlone.refl s).dict).trans (State.answer_alone _ _ _ _ _)

theorem State.dictFrameBack_alone (s : State) (f : DictFrame) (res : Nat) : DictAlone s (s.dictFrameBack f res) := by
  unfold State.dictFrameBack
  refine .ite (.refl s) (.ite (s.endBarrier_alone _) (.ite (.refl s) ?_))
  split
  · exact .refl s
  · exact ((DictAlone.refl s).dict).trans (State.answer_alone _ _ _ _ _)

theorem State.snapIncomplete_alone (s : State) : DictAlone s s.snapIncomplete := by
  have hphase : DictAlone s (s.snapPhase 3) := (DictAlone.refl s).dict
  exact DictAlone.set (DictAlone.ite hphase (hphase.dict.set DICTENG.STAT_SNAP 5)) DICTENG.IRQ_STAT_SNAP_INC 1

/-- A ring reset at DICTENG (R161, R184, R190). -/
theorem State.dictRingReset_alone (s : State) : DictAlone s s.dictRingReset := by
  have hempty : ∀ w (t : State), DictAlone t (t.emptyWs w 6) := fun w t =>
    ((DictAlone.refl t).dict.put DICTENG.STAT_WS_ARMED _).upd rfl rfl
  have hsets : DictAlone s ((List.finRange 4).foldl (fun s w => s.emptyWs w 6) s) :=
    List.foldlRecOn _ _ (motive := fun t => DictAlone s t) (.refl s) fun t h w _ => h.trans (hempty w t)
  have hended := hsets.trans (State.endBarrier_alone _ Abort.noResponse)
  exact .ite ((hended.dict).trans (State.snapIncomplete_alone _)) (hended.dict)

/-! ### Entries of the queues that end (R152, R154, R161) -/

theorem State.finishEntry_alone (s : State) (q i stamp word3 : Nat) : DictAlone s (s.finishEntry q i stamp word3) := by
  have hwrite : ∀ a d, DictAlone s (s.dmaWrite .linkq a d) := by
    intro a d
    unfold State.dmaWrite
    split
    · exact (DictAlone.refl s).pokes _ _
    · exact (DictAlone.refl s).report (by simp)
  exact ((hwrite _ _).put LINKQ.IRQ_STAT_DONE _).upd rfl rfl

theorem State.advanceHead_alone (s : State) (q : Nat) : DictAlone s (s.advanceHead q) :=
  (DictAlone.refl s).set _ _ (by simp) (by simp only [offTimeAndRing, LINKQ.Q_HEAD, Bool.or_eq_true, decide_eq_true_eq]; omega)

theorem State.dropQueue_alone (q k : Nat) (s : State) : DictAlone s (State.dropQueue q k s) := by
  induction k generalizing s with
  | zero => exact .refl s
  | succ k ih =>
    unfold State.dropQueue
    split
    · exact ((s.finishEntry_alone _ _ _ _).trans (State.advanceHead_alone _ q)).trans (ih _)
    · exact .refl s

/-- Other frames of this node on the ring, DICTENG's and the queues'. -/
def State.withTx (s : State) (d : List (DictFrame × Nat)) (l : List (Nat × Nat × Nat)) : State :=
  { s with dict := { s.dict with onRing := d }, ring := { s.ring with txOut := l } }

theorem DictAlone.withTx (h : DictAlone s t) (d : List (DictFrame × Nat)) (l : List (Nat × Nat × Nat)) :
    DictAlone (s.withTx d l) (t.withTx d l) :=
  ⟨fun g hl hg => h.regs g hl hg, congrArg (fun x : State => x.withTx d l) h.fields⟩

/-- The number of frames of this node on the ring. -/
def State.onRing (s : State) : Nat := s.dict.onRing.length + s.ring.txOut.length

theorem DictAlone.onRing (h : DictAlone s t) : t.onRing = s.onRing := by
  rw [h.fields]; rfl

/-- The oldest entry on the ring completes, where there is one. -/
theorem State.completeTx_alone (s : State) (ack res : Nat) :
    DictAlone (s.withTx s.dict.onRing s.ring.txOut.tail) (s.completeTx ack res) := by
  unfold State.completeTx
  split
  case h_1 hnone => rw [hnone, List.tail_nil, ← hnone]; exact .refl s
  case h_2 q i t rest hsome =>
    rw [hsome]
    exact (State.finishEntry_alone _ q i t _).trans (State.advanceHead_alone _ q)

/-- One frame leaves the ring, where there is one. -/
theorem State.frameBack_alone (s : State) (ack res : Nat) :
    ∃ d l, DictAlone (s.withTx d l) (s.frameBack ack res) ∧ d.length + l.length = s.onRing - 1 := by
  unfold State.frameBack State.onRing
  cases hd : s.dict.onRing with
  | nil =>
    have hold : s.dictOlder = false := by rw [State.dictOlder, hd]
    rw [hold]
    refine ⟨_, _, s.completeTx_alone ack res, ?_⟩
    rw [hd]; simp
  | cons f rest =>
    cases hold : s.dictOlder with
    | true => exact ⟨rest, s.ring.txOut, State.dictFrameBack_alone _ f.1 res, by simp⟩
    | false =>
      refine ⟨_, _, s.completeTx_alone ack res, ?_⟩
      have hsome : s.ring.txOut ≠ [] := by
        intro hnone
        rw [State.dictOlder, hd, hnone] at hold
        cases hold
      have := List.length_pos_of_ne_nil hsome
      rw [hd, List.length_tail, List.length_cons]; omega

theorem State.framesBack_alone (s : State) (k : Nat) :
    ∃ d l, DictAlone (s.withTx d l) ((List.range k).foldl (fun s _ => s.frameBack 0 4) s) ∧ d.length + l.length = s.onRing - k := by
  induction k with
  | zero => exact ⟨s.dict.onRing, s.ring.txOut, .refl s, rfl⟩
  | succ k ih =>
    obtain ⟨d, l, halone, hlen⟩ := ih
    rw [List.range_succ, List.foldl_append, List.foldl_cons, List.foldl_nil]
    obtain ⟨d', l', halone', hlen'⟩ := State.frameBack_alone _ 0 4
    have hleft : _ = d.length + l.length := halone.onRing
    exact ⟨d', l', (halone.withTx d' l').trans halone', by rw [hlen', hleft]; omega⟩

/-- Every frame of this node has ended (R161). -/
theorem State.dropTx_alone (s : State) : DictAlone (s.withTx [] []) s.dropTx := by
  obtain ⟨d, l, halone, hlen⟩ := s.framesBack_alone s.onRing
  obtain rfl : d = [] := List.length_eq_zero_iff.1 (by omega)
  obtain rfl : l = [] := List.length_eq_zero_iff.1 (by omega)
  exact (halone.trans (State.dropQueue_alone 1 256 _)).trans (State.dropQueue_alone 5 256 _)

end

end Sys2Proof.Machine

/-! ## RSTATE, the ports and the claims (07_gnourlink.md, R142 to R145, R158, R159) -/

namespace Sys2Proof.Machine

section
variable {s t : State} {p : Fin 2}

/-! ### Conditions that other registers do not touch -/

theorem State.on_congr {f : RF} (h : t.get f = s.get f) : t.on f = s.on f := by rw [State.on, h, State.on]

theorem State.domOn_congr (hdocked : t.get AONCTL.MODE_DOCKED = s.get AONCTL.MODE_DOCKED) (hpwr : t.pwr = s.pwr) (d : Dom) :
    t.domOn d = s.domOn d := by
  rw [State.domOn, State.dom, State.on_congr hdocked, hpwr, State.domOn, State.dom]

theorem State.outPort_congr (h : ∀ p : Fin 2, t.get (PORT.STAT_LOST p) = s.get (PORT.STAT_LOST p)) (p : Fin 2) :
    t.outPort p = s.outPort p := by
  have hlost : t.lost (other p) = s.lost (other p) := State.on_congr (h _)
  rw [State.outPort, hlost, State.outPort]

/-! ### RSTATE (R158) -/

@[simp] theorem State.get_hear (s : State) (g : RF) : s.hear.get g = s.get g := rfl

theorem State.setRstate_change {st : Nat} (h : s.get RINGCTL.STAT_RSTATE ≠ st) :
    s.setRstate st =
      let u := (s.set RINGCTL.STAT_RSTATE st).set RINGCTL.IRQ_STAT_STATE_CHG 1
      if st = 1 then u.hear else if st = 2 then { u with ring := { u.ring with clmAt := none } } else u := by
  simp only [State.setRstate, if_neg h]

theorem State.regs_setRstate (s : State) (st : Nat) :
    (s.setRstate st).regs = (if s.get RINGCTL.STAT_RSTATE = st then s
      else (s.set RINGCTL.STAT_RSTATE st).set RINGCTL.IRQ_STAT_STATE_CHG 1).regs := by
  unfold State.setRstate
  extract_lets u
  split
  · rfl
  · split <;> rfl

theorem State.get_setRstate_self (s : State) {st : Nat} (h : st < 8) : (s.setRstate st).get RINGCTL.STAT_RSTATE = st := by
  rw [State.get_of_regs (s.regs_setRstate st)]
  split
  · assumption
  · rw [State.get_set_other (by decide), State.get_set_self]
    exact Nat.mod_eq_of_lt h

theorem State.get_setRstate_other {g : RF} (hst : g.key ≠ RINGCTL.STAT_RSTATE.key) (hchg : g.key ≠ RINGCTL.IRQ_STAT_STATE_CHG.key)
    (s : State) (st : Nat) : (s.setRstate st).get g = s.get g := by
  rw [State.get_of_regs (s.regs_setRstate st)]
  split
  · rfl
  · rw [State.get_set_other hchg, State.get_set_other hst]

/-- RSTATE and what begins with it leave the rest of the state alone. -/
theorem State.setRstate_fields (s : State) (st : Nat) : s.setRstate st =
    { s with regs := (s.setRstate st).regs, now := (s.setRstate st).now, ring := (s.setRstate st).ring } := by
  unfold State.setRstate
  repeat' split
  all_goals rfl

theorem State.setRstate_memory (s : State) (st : Nat) : SameMemory s (s.setRstate st) := by
  intro a
  rw [State.setRstate_fields]; rfl

theorem State.sent_setRstate (s : State) (st : Nat) : (s.setRstate st).sent = s.sent := by
  rw [State.setRstate_fields]

/-- In LISTEN the silence of R158 counts from the present tick. -/
theorem State.quietAt_setRstate_listen (s : State) : (s.setRstate 1).ring.quietAt = s.tick := by
  unfold State.setRstate
  split <;> rfl

/-- A claimant has sent no claim yet (R159). -/
theorem State.setRstate_claim (h : s.get RINGCTL.STAT_RSTATE ≠ 2) :
    s.setRstate 2 = (({ s with ring := { s.ring with clmAt := none } } : State).set RINGCTL.STAT_RSTATE 2).set
      RINGCTL.IRQ_STAT_STATE_CHG 1 := by
  rw [State.setRstate_change h]; rfl

theorem State.ringUp_of_running (hlink : s.domOn .link = true) (h : s.get RINGCTL.STAT_RSTATE ∈ [1, 2, 3, 4]) : s.ringUp = true := by
  simp only [List.mem_cons, List.not_mem_nil, or_false] at h
  rw [State.ringUp, hlink]
  rcases h with h | h | h | h <;> rw [h] <;> rfl

/-! ### Frames with a bad CRC (R140) -/

theorem State.outPort_count (s : State) (q p : Fin 2) :
    (s.count (PORT.CRC_ERR_COUNT q) (PORT.CRC_ERR_OVF q)).outPort p = s.outPort p := by
  refine State.outPort_congr (fun r => ?_) p
  rw [State.get_count]
  split <;> exact if_neg (by simp only [RF.key, PORT.CRC_ERR, PORT.STAT]; omega)

theorem State.badFrame_forwarded (s : State) (p : Fin 2) :
    s.badFrame p true = (s.count (PORT.CRC_ERR_COUNT p) (PORT.CRC_ERR_OVF p)).emit (.abt (s.outPort p)) := by
  rw [State.badFrame]
  simp only [if_true, State.outPort_count]

end

end Sys2Proof.Machine

/-! ## Forming the ring (07_gnourlink.md, R51, R157 to R161) -/

namespace Sys2Proof.Machine

section
variable {s t : State} {p : Fin 2} {v : Word}

/-! ### A write of CTRL (R157, R158) -/

/-- RINGCTL.CTRL written, EN at `en`. -/
def State.writeRingCtrl (s : State) (v : Word) (en : Nat) : State :=
  (s.writeFields (fun f => !f.row) RINGCTL.CTRL v.toNat false).set RINGCTL.CTRL_EN en

/-- The registers that a write of CTRL may change. -/
def ringCtrlRegs (a : Nat) : Bool := a == RINGCTL.CTRL || a == RINGCTL.STAT || a == RINGCTL.IRQ_STAT

theorem State.writeRingCtrl_frame (s : State) (v : Word) (en : Nat) :
    RegsOutside (· == RINGCTL.CTRL) s (s.writeRingCtrl v en) ∧ SameMemory s (s.writeRingCtrl v en) ∧
    RegsAlone s (s.writeRingCtrl v en) := by
  obtain ⟨hregs, hmem, hfields⟩ := s.writeFields_frame (fun f => !f.row) RINGCTL.CTRL v.toNat false
  have hwritten : RegsAlone s (s.writeFields (fun f => !f.row) RINGCTL.CTRL v.toNat false) := ⟨hfields.trans (by rw [hfields])⟩
  exact ⟨hregs.set (by decide) (by decide) _, hmem, hwritten.set _ _⟩

/-- INSERT takes the bit written. -/
theorem State.on_writeRingCtrl_insert (s : State) (v : Word) (en : Nat) :
    (s.writeRingCtrl v en).on RINGCTL.CTRL_INSERT = getBit v.toNat 30 := by
  have hfield : (s.writeFields (fun f => !f.row) RINGCTL.CTRL v.toNat false).get RINGCTL.CTRL_INSERT = bits v.toNat 30 30 :=
    (State.get_writeFields s _ RINGCTL.CTRL v.toNat false ⟨30, 30, .rw, 0, .any, false⟩ (by decide) rfl (by decide)).trans
      (State.get_writeField_rw s RINGCTL.CTRL v.toNat false rfl)
  rw [State.writeRingCtrl, State.on_congr (State.get_set_other (by decide) _ _), State.on, hfield, Bool.eq_iff_iff, beq_iff_eq]
  exact bits_one_iff v.toNat 30

theorem State.get_writeRingCtrl_en (s : State) (v : Word) (en : Nat) : (s.writeRingCtrl v en).get RINGCTL.CTRL_EN = en % 2 :=
  State.get_set_self _ _ _

theorem State.domOn_writeRingCtrl (s : State) (v : Word) (en : Nat) (d : Dom) : (s.writeRingCtrl v en).domOn d = s.domOn d := by
  obtain ⟨hregs, _, hfields⟩ := s.writeRingCtrl_frame v en
  exact State.domOn_congr (hregs _ (by decide) (by decide)) (by rw [hfields.fields]) d

/-- BYPASS_HOLD after a write of CTRL (R157). -/
theorem State.on_setBypass_writeRingCtrl (s : State) (v : Word) (en : Nat) :
    (s.writeRingCtrl v en).setBypass.on RINGCTL.STAT_BYPASS = (en % 2 == 1 && getBit v.toNat 30 && s.domOn .link) := by
  rw [State.setBypass, State.on_setF_self rfl, State.domOn_writeRingCtrl, State.on_writeRingCtrl_insert, State.on,
    State.get_writeRingCtrl_en]

theorem State.setBypass_writeRingCtrl_frame (s : State) (v : Word) (en : Nat) :
    RegsOutside ringCtrlRegs s (s.writeRingCtrl v en).setBypass ∧ SameMemory s (s.writeRingCtrl v en).setBypass ∧
    RegsAlone s (s.writeRingCtrl v en).setBypass := by
  obtain ⟨hregs, hmem, hfields⟩ := s.writeRingCtrl_frame v en
  have hctrl : ∀ a, (a == RINGCTL.CTRL) = true → ringCtrlRegs a = true := fun a ha => by rw [ringCtrlRegs, ha]; rfl
  exact ⟨(hregs.mono hctrl).set (by decide) (by decide) _, hmem, hfields.set _ _⟩

theorem State.get_setBypass_other {g : RF} (h : g.key ≠ RINGCTL.STAT_BYPASS.key) (s : State) : s.setBypass.get g = s.get g :=
  State.get_setF_other h s _

/-- A node that is DOWN while Docked listens (R158). -/
def State.enableRing (s : State) : State :=
  if s.get RINGCTL.STAT_RSTATE = 0 && s.on AONCTL.MODE_DOCKED && s.domOn .link then s.setRstate 1 else s

theorem exec_ringEnable_reached (hup : s.accessible RINGCTL.CTRL = true) : exec (.ringEnable v) s =
    .next { ((s.writeRingCtrl v 1).setBypass.noteEn (s.on RINGCTL.CTRL_EN)).enableRing with bus := .ok 0 } :=
  State.busDo_reached hup fun s => ((s.writeRingCtrl v 1).setBypass.noteEn (s.on RINGCTL.CTRL_EN)).enableRing

theorem exec_ringDisable_reached (hup : s.accessible RINGCTL.CTRL = true) :
    exec (.ringDisable v) s = .next { (s.writeRingCtrl v 0).setBypass.setRstate 0 with bus := .ok 0 } :=
  State.busDo_reached hup fun s => (s.writeRingCtrl v 0).setBypass.setRstate 0

theorem State.noteEn_fields (s : State) (was : Bool) : s.noteEn was = { s with ring := (s.noteEn was).ring } := by
  unfold State.noteEn
  split <;> rfl

theorem State.get_noteEn (s : State) (was : Bool) (g : RF) : (s.noteEn was).get g = s.get g := by
  rw [State.noteEn_fields, State.get_fields]

theorem State.setRstate_regs (s : State) (st : Nat) : RegsOutside ringCtrlRegs s (s.setRstate st) := by
  refine RegsOutside.regs ?_ (s.regs_setRstate st)
  split
  · exact .refl _ s
  · exact ((RegsOutside.refl _ s).set (by decide) (by decide) _).set (by decide) (by decide) _

theorem State.enableRing_regs (s : State) : RegsOutside ringCtrlRegs s s.enableRing := by
  unfold State.enableRing
  split
  · exact s.setRstate_regs 1
  · exact .refl _ s

theorem State.enableRing_memory (s : State) : SameMemory s s.enableRing := by
  unfold State.enableRing
  split
  · exact s.setRstate_memory 1
  · exact fun _ => rfl

theorem State.get_enableRing_other {g : RF} (hst : g.key ≠ RINGCTL.STAT_RSTATE.key)
    (hchg : g.key ≠ RINGCTL.IRQ_STAT_STATE_CHG.key) (s : State) : s.enableRing.get g = s.get g := by
  unfold State.enableRing
  split
  · exact State.get_setRstate_other hst hchg s 1
  · rfl

theorem State.enableRing_down (hst : s.get RINGCTL.STAT_RSTATE = 0) (hdocked : s.on AONCTL.MODE_DOCKED = true)
    (hlink : s.domOn .link = true) :
    s.enableRing = ((s.set RINGCTL.STAT_RSTATE 1).set RINGCTL.IRQ_STAT_STATE_CHG 1).hear := by
  rw [State.enableRing, hst, hdocked, hlink]
  exact State.setRstate_change (st := 1) (by rw [hst]; decide)

/-! ### Silence and claims (R158, R159) -/

theorem exec_listenTimeout_silent (hst : s.get RINGCTL.STAT_RSTATE = 1) (hlink : s.domOn .link = true)
    (hquiet : s.ring.quietAt + 25000 ≤ s.tick) (hins : s.on RINGCTL.CTRL_INSERT = true)
    (hmay : s.on RINGCTL.CTRL_MASTER_CAP = true ∨ s.lost 0 = true ∧ s.lost 1 = true) :
    exec .listenTimeout s = .next (s.setRstate 2) := by
  have hcan : (s.on RINGCTL.CTRL_MASTER_CAP || (s.lost 0 && s.lost 1)) = true := by
    rcases hmay with h | ⟨ha, hb⟩
    · rw [h, Bool.true_or]
    · rw [ha, hb]; simp
  change execListenTimeout s = _
  rw [execListenTimeout, hst, hlink, hins, hcan, decide_eq_true hquiet]; rfl

theorem exec_followerTimeout_silent {tl : Nat} (hl : s.tm.tLast = some tl) (hst : s.get RINGCTL.STAT_RSTATE = 3)
    (hlink : s.domOn .link = true) (hcap : s.on RINGCTL.CTRL_MASTER_CAP = true)
    (hdue : s.due (tl + 8000 * s.get RINGCTL.CYCLE_CUR_TC) = true) : exec .followerTimeout s = .next (s.setRstate 2) := by
  change execFollowerTimeout s = _
  simp only [execFollowerTimeout, hl, hst, hlink, hcap, hdue]
  rfl

/-- What a claimant's entry into CLAIM shows. -/
theorem State.setRstate_claim_shown (h : s.get RINGCTL.STAT_RSTATE ≠ 2) :
    (s.setRstate 2).get RINGCTL.STAT_RSTATE = 2 ∧ OnlyRegs [RINGCTL.STAT_RSTATE, RINGCTL.IRQ_STAT_STATE_CHG]
      { s with ring := { s.ring with clmAt := none } } (s.setRstate 2) := by
  refine ⟨State.get_setRstate_self s (by decide), ?_⟩
  rw [State.setRstate_claim h]
  exact ((OnlyRegs.refl _ _).set (by simp) _).set (by simp) _

theorem exec_clmSend_due (hst : s.get RINGCTL.STAT_RSTATE = 2) (hlink : s.domOn .link = true)
    (hwait : ∀ k, s.ring.clmAt = some k → k + 2000 ≤ s.tick) :
    exec .clmSend s = .next { s with
      ring := { s.ring with clmAt := some s.tick }
      sent := .clm 1 Config.uniqueId (s.get RINGCTL.CTRL_PRIO) (s.get MTIME.STATUS_STATE != 0) ::
      .clm 0 Config.uniqueId (s.get RINGCTL.CTRL_PRIO) (s.get MTIME.STATUS_STATE != 0) :: s.sent } := by
  have hfree : s.ring.clmAt.any (fun t => decide (s.tick < t + 2000)) = false := by
    cases hk : s.ring.clmAt with
    | none => rfl
    | some k => simpa using hwait k hk
  change execClmSend s = _
  simp only [execClmSend, hst, hlink, hfree]
  rfl

/-! ### Claims received (R159, R160) -/

theorem State.noteClaim_best {prio uid : Nat} (h : ∀ k, s.ring.bestKey = some k → prio * 2 ^ 64 + uid < k) :
    s.noteClaim prio uid = { s.setWinner prio uid with ring := { s.ring with bestKey := some (prio * 2 ^ 64 + uid) } } := by
  have hlow : (s.ring.bestKey.any fun k => decide (k ≤ prio * 2 ^ 64 + uid)) = false := by
    cases hk : s.ring.bestKey with
    | none => rfl
    | some k => simpa using h k hk
  simp only [State.noteClaim, hlow]
  rfl

theorem State.noteClaim_worse {prio uid k : Nat} (hk : s.ring.bestKey = some k) (h : k ≤ prio * 2 ^ 64 + uid) :
    s.noteClaim prio uid = s := by
  simp only [State.noteClaim, hk, Option.any_some, decide_eq_true h, if_true]

/-- The winner's registers. -/
theorem State.setWinner_shown (s : State) (prio uid : Nat) :
    (s.setWinner prio uid).get RINGCTL.MASTER_PRIO = prio % 2 ^ 8 ∧
    (s.setWinner prio uid).get RINGCTL.MASTER_UID_LO_UID = uid % 2 ^ 32 ∧
    (s.setWinner prio uid).get RINGCTL.MASTER_UID_HI_UID = uid / 2 ^ 32 % 2 ^ 32 := by
  simp (disch := decide) only [State.setWinner, State.get_set_other, State.get_set_self]
  exact ⟨rfl, Nat.mod_mod _ _, rfl⟩

section
variable {uid : BitVec 64} {prio : Byte} {run : Bool}

theorem exec_clmReceived_bad (hup : s.ringUp = true) (hears : s.hears p = true) :
    exec (.clmReceived p uid prio run false) s = .next (s.badFrame p true) := by
  change execClmReceived p uid prio run false s = _
  rw [execClmReceived, hup, hears]; rfl

theorem exec_clmReceived_passes (hup : s.ringUp = true) (hears : s.hears p = true) (hst : s.get RINGCTL.STAT_RSTATE ≠ 2) :
    exec (.clmReceived p uid prio run true) s =
      .next ((s.hear.noteClaim prio.toNat uid.toNat).emit (.clm (s.outPort p) uid prio.toNat run)) := by
  have hst' : s.hear.get RINGCTL.STAT_RSTATE ≠ 2 := hst
  change execClmReceived p uid prio run true s = _
  unfold execClmReceived
  rw [hup, hears, if_neg (by decide), if_neg (by decide), if_pos hst']

/-- A claimant's answer to a claim: it is elected by its own, gives way to a stronger one, and drops a weaker one. -/
theorem exec_clmReceived_claimant (hup : s.ringUp = true) (hears : s.hears p = true) (hst : s.get RINGCTL.STAT_RSTATE = 2) :
    exec (.clmReceived p uid prio run true) s =
      if prio.toNat * 2 ^ 64 + uid.toNat = s.get RINGCTL.CTRL_PRIO * 2 ^ 64 + ownUid then .next (s.hear.elected.emit (.abt (s.outPort p)))
      else if prio.toNat * 2 ^ 64 + uid.toNat < s.get RINGCTL.CTRL_PRIO * 2 ^ 64 + ownUid then
        .next ((((s.hear.noteClaim prio.toNat uid.toNat).unseated).setRstate 1).emit (.clm (s.outPort p) uid prio.toNat run))
      else .next (s.hear.emit (.abt (s.outPort p))) := by
  have hst' : ¬ s.hear.get RINGCTL.STAT_RSTATE ≠ 2 := not_not.2 hst
  change execClmReceived p uid prio run true s = _
  unfold execClmReceived
  rw [hup, hears, if_neg (by decide), if_neg (by decide), if_neg hst', State.get_hear]

end

/-! ### Election and defeat (R51, R160) -/

theorem State.get_setSync_other {g : RF} (hst : g.key ≠ MTIME.STATUS_STATE.key) (hchg : g.key ≠ MTIME.STATUS_STATE_CHG.key)
    (s : State) (st : Nat) : (s.setSync st).get g = s.get g := by
  unfold State.setSync
  split
  · rfl
  · rw [State.get_set_other hchg, State.get_set_other hst]

theorem State.get_setSync_self (s : State) {st : Nat} (h : st < 8) : (s.setSync st).get MTIME.STATUS_STATE = st := by
  unfold State.setSync
  split
  · assumption
  · rw [State.get_set_other (by decide), State.get_set_self]
    exact Nat.mod_eq_of_lt h

/-- The registers of MTIME. -/
def mtimeRegs (a : Nat) : Bool := decide (MTIME.MT_LO ≤ a) && decide (a ≤ MTIME.CMP_STAT)

/-- Nothing differs but MTIME's registers and the timebase's own state. -/
structure ServoAlone (s t : State) : Prop where
  regs : RegsOutside mtimeRegs s t
  fields : t = { s with regs := t.regs, now := t.now, tm := t.tm }

theorem ServoAlone.refl (s : State) : ServoAlone s s := ⟨.refl _ s, rfl⟩

theorem ServoAlone.set (h : ServoAlone s t) (f : RF) (v : Nat) (hl : f.lo < 32 := by decide)
    (hf : mtimeRegs f.addr = true := by decide) : ServoAlone s (t.set f v) :=
  ⟨h.regs.set hl hf v, congrArg (fun x : State => { x with regs := (t.set f v).regs, now := (t.set f v).now }) h.fields⟩

theorem ServoAlone.tm (h : ServoAlone s t) (m : TmSt) : ServoAlone s { t with tm := m } :=
  ⟨h.regs.regs rfl, congrArg (fun x : State => { x with tm := m }) h.fields⟩

theorem ServoAlone.setSync (h : ServoAlone s t) (st : Nat) : ServoAlone s (t.setSync st) := by
  unfold State.setSync
  split
  · exact h
  · exact (h.set _ _).set _ _

theorem ServoAlone.sent (h : ServoAlone s t) : t.sent = s.sent := by rw [h.fields]

theorem State.trimElected_alone (s : State) : ServoAlone s s.trimElected := by
  unfold State.trimElected
  split
  · exact .refl s
  · exact (((ServoAlone.refl s).set MTIME.MASTER_TRIM_TRIM _).set MTIME.SERVO_FREQ_F _).tm _

/-- A master that gives way becomes a follower in HOLDOVER (R51). -/
theorem State.unseated_alone (s : State) : ServoAlone s s.unseated := by
  unfold State.unseated
  split
  · have hheld := (((ServoAlone.refl s).set MTIME.SERVO_INT_I (s.get MTIME.MASTER_TRIM_TRIM)).set MTIME.SERVO_FREQ_F
      ((s.set MTIME.SERVO_INT_I (s.get MTIME.MASTER_TRIM_TRIM)).get MTIME.SERVO_INT_I)).tm { s.tm with fNext := none }
    exact (hheld.setSync 3).tm _
  · exact .refl s

/-- An election but for the servo's state: RSTATE, the trim, the first boundary and the winner. -/
def State.seat (s : State) : State :=
  let u := ((s.setRstate 4).set RINGCTL.IRQ_STAT_ELECTED 1).trimElected
  let u : State := { u with ring := { u.ring with nextB := some u.firstBoundary, sent4 := [], sleepT := none, cancelLeft := 0 } }
  ((u.set RINGCTL.MASTER_ADDR (u.get RINGCTL.ADDR_ADDR)).setWinner (u.get RINGCTL.CTRL_PRIO) ownUid).set RINGCTL.STAT_MUTED 0

theorem State.elected_eq (s : State) :
    s.elected = if s.seat.get MTIME.STATUS_STATE = 0 then s.seat else s.seat.setSync 4 := rfl

theorem State.elected_alone (s : State) : ServoAlone s.seat s.elected := by
  rw [State.elected_eq]
  split
  · exact .refl _
  · exact (ServoAlone.refl _).setSync 4

theorem State.seat_shown (s : State) : s.seat.get RINGCTL.STAT_RSTATE = 4 ∧ s.seat.get RINGCTL.IRQ_STAT_ELECTED = 1 ∧
    s.seat.get RINGCTL.MASTER_ADDR = s.get RINGCTL.ADDR_ADDR % 2 ^ 7 ∧ s.seat.get RINGCTL.STAT_MUTED = 0 := by
  have htrim : ∀ g, g.lo < 32 → mtimeRegs g.addr = false → ∀ u : State, u.trimElected.get g = u.get g :=
    fun g hl hg u => u.trimElected_alone.regs g hl hg
  have hrstate : (s.setRstate 4).get RINGCTL.STAT_RSTATE = 4 := State.get_setRstate_self s (by decide)
  simp (disch := decide) only [State.seat, State.setWinner, State.get_fields, State.get_set_other, State.get_set_self, htrim,
    State.get_setRstate_other, hrstate]
  exact ⟨trivial, rfl, rfl, rfl⟩

/-- What an election shows (R160). -/
theorem State.elected_shown (s : State) : s.elected.get RINGCTL.STAT_RSTATE = 4 ∧ s.elected.get RINGCTL.IRQ_STAT_ELECTED = 1 ∧
    s.elected.get RINGCTL.MASTER_ADDR = s.get RINGCTL.ADDR_ADDR % 2 ^ 7 ∧ s.elected.get RINGCTL.STAT_MUTED = 0 := by
  have hkept := s.elected_alone.regs
  rw [hkept _ (by decide) (by decide), hkept _ (by decide) (by decide), hkept _ (by decide) (by decide),
    hkept _ (by decide) (by decide)]
  exact s.seat_shown

theorem State.sent_elected (s : State) : s.elected.sent = s.sent := by
  have hseat : s.seat.sent = s.sent := (State.trimElected_alone _).sent.trans (s.sent_setRstate 4)
  rw [s.elected_alone.sent, hseat]

/-- A node that a stronger claim defeats listens, and shows the winner (R159). -/
theorem State.defeated_shown {prio uid : Nat} (h : ∀ k, s.ring.bestKey = some k → prio * 2 ^ 64 + uid < k) :
    let t := (s.noteClaim prio uid).unseated.setRstate 1
    t.get RINGCTL.STAT_RSTATE = 1 ∧ t.get RINGCTL.MASTER_PRIO = prio % 2 ^ 8 ∧ t.get RINGCTL.MASTER_UID_LO_UID = uid % 2 ^ 32 ∧
    t.get RINGCTL.MASTER_UID_HI_UID = uid / 2 ^ 32 % 2 ^ 32 ∧ t.ring.quietAt = s.tick ∧ t.sent = s.sent := by
  intro t
  have hkept := (s.noteClaim prio uid).unseated_alone
  have hwinner : ∀ g, g.lo < 32 → mtimeRegs g.addr = false → g.key ≠ RINGCTL.STAT_RSTATE.key →
      g.key ≠ RINGCTL.IRQ_STAT_STATE_CHG.key → t.get g = (s.setWinner prio uid).get g := by
    intro g hl hg hst hchg
    rw [State.get_setRstate_other hst hchg, hkept.regs g hl hg, State.noteClaim_best h, State.get_fields]
  obtain ⟨hprio, hlo, hhi⟩ := s.setWinner_shown prio uid
  refine ⟨State.get_setRstate_self _ (by decide), ?_, ?_, ?_, ?_, ?_⟩
  · rw [hwinner _ (by decide) (by decide) (by decide) (by decide), hprio]
  · rw [hwinner _ (by decide) (by decide) (by decide) (by decide), hlo]
  · rw [hwinner _ (by decide) (by decide) (by decide) (by decide), hhi]
  · rw [State.quietAt_setRstate_listen, hkept.fields, State.noteClaim_best h]; rfl
  · rw [State.sent_setRstate, hkept.sent, State.noteClaim_best h]; rfl

end

end Sys2Proof.Machine

/-! ## The ring reset (07_gnourlink.md, R47, R161) -/

namespace Sys2Proof.Machine

section
variable {s t : State} {p : Fin 2}

/-- The registers of the ten lanes. -/
def laneRegs (a : Nat) : Bool := decide (LANE.CTRL 0 ≤ a) && decide (a < LANE.CTRL 10)

theorem State.loseTime_lanes (s : State) (n : Fin 10) : LanesAlone laneRegs s (s.loseTime n) := by
  refine (s.loseTime_alone n).mono fun a ha => ?_
  simp only [timeLostRegs, playerRegs, Bool.or_eq_true, beq_iff_eq, LANE.STAT, LANE.IRQ_STAT, LANE.FLT_STAT, LANE.FLT_IRQ_STAT] at ha
  simp only [laneRegs, LANE.CTRL, Bool.and_eq_true, decide_eq_true_eq]
  omega

theorem State.timeHold_alone (s : State) (n : Fin 10) : LanesAlone (fun _ => false) s (s.timeHold n) := by
  unfold State.timeHold
  split
  · exact (LanesAlone.refl _ s).lane n _
  · exact .refl _ s

/-- The fall of TIME_VALID reaches the lanes, and of the rest three fields. -/
theorem State.get_timeFall_other {g : RF} (hl : g.lo < 32) (hlane : laneRegs g.addr = false)
    (hvalid : g.key ≠ MTIME.STATUS_TIME_VALID.key) (hfall : g.key ≠ MTIME.STATUS_VALID_FALL.key)
    (hdisc : g.key ≠ RTC.STAT_DISC_ACT.key) (s : State) : s.timeFall.get g = s.get g := by
  cases hv : s.timeValid with
  | false => rw [State.timeFall_invalid hv]
  | true =>
    rw [State.timeFall_valid hv, (LanesAlone.forLanes (fun n s => State.loseTime_lanes s n) s.timeOff).regs g hl hlane,
      State.get_timeOff, State.get_set_other hdisc, State.get_set_other hfall, State.get_set_other hvalid]

theorem State.timeValid_timeFall (s : State) : s.timeFall.timeValid = false := by
  cases hv : s.timeValid with
  | false => rw [State.timeFall_invalid hv, hv]
  | true =>
    rw [State.timeFall_valid hv, State.timeValid, State.on,
      (LanesAlone.forLanes (fun n s => State.loseTime_lanes s n) s.timeOff).regs _ (by decide) (by decide)]
    simp (disch := decide) only [State.get_timeOff, State.get_set_other, State.get_set_self]
    rfl

/-! ### The two parts of a ring reset -/

/-- F, I, GOOD_CNT and e at a ring reset; a master's I is its trim (R47, R51). -/
def State.resetServo (s : State) : State :=
  let s := if s.get MTIME.STATUS_STATE = 4 then s.set MTIME.SERVO_INT_I (s.get MTIME.MASTER_TRIM_TRIM) else s
  (s.freqHold.set MTIME.STATUS_GOOD_CNT 0).set MTIME.SERVO_ERR_E 0

/-- The part of a ring reset before MT is set: LISTEN, UNLOCKED without valid time, and the lanes' holds (R47, R53, R161). -/
def State.leaveRing (s : State) : State :=
  let s := ((s.setRstate 1).set RINGCTL.IRQ_STAT_RESET 1).resetServo.timeFall
  ((s.setSync 0).set ADCSEQ.STAT_ALIGNED 0).forLanes fun n s => s.timeHold n

/-- MT and what the node knew of its ring are as at the start (R47, R161). -/
def State.forgetRing (s : State) : State :=
  State.syncoutFrom { s with
    mt := 0, tm := { s.tm with tLast := none, missed := false, stepNext := none, frozenAt := s.tick }
    ring := { s.ring with lastCyc := none, bLast := none, nextB := none, sent4 := [], sleepT := none, bestKey := none } } 0

theorem State.get_forgetRing (s : State) (g : RF) : s.forgetRing.get g = s.get g := rfl

theorem State.get_withTx (s : State) (d : List (DictFrame × Nat)) (l : List (Nat × Nat × Nat)) (g : RF) :
    (s.withTx d l).get g = s.get g := rfl

theorem State.ringReset_eq (s : State) :
    s.ringReset = (s.leaveRing.forgetRing.dropTx.set RINGCTL.SLEEP_PEND 0).dictRingReset := by
  simp only [State.ringReset, State.leaveRing, State.resetServo, State.forgetRing]

theorem State.resetServo_alone (s : State) : ServoAlone s s.resetServo := by
  have hhold : ∀ u : State, ServoAlone s u → ServoAlone s ((u.freqHold.set MTIME.STATUS_GOOD_CNT 0).set MTIME.SERVO_ERR_E 0) :=
    fun u h => (((h.set MTIME.SERVO_FREQ_F _).tm _).set MTIME.STATUS_GOOD_CNT 0).set MTIME.SERVO_ERR_E 0
  unfold State.resetServo
  refine hhold _ ?_
  split
  · exact (ServoAlone.refl s).set _ _
  · exact .refl s

/-- What the lanes' holds leave of the registers. -/
theorem State.get_leaveRing (s : State) {g : RF} (hl : g.lo < 32) : s.leaveRing.get g =
    ((((s.setRstate 1).set RINGCTL.IRQ_STAT_RESET 1).resetServo.timeFall.setSync 0).set ADCSEQ.STAT_ALIGNED 0).get g :=
  (LanesAlone.forLanes (fun n s => State.timeHold_alone s n) _).regs g hl rfl

theorem State.leaveRing_shown (s : State) : s.leaveRing.get RINGCTL.STAT_RSTATE = 1 ∧ s.leaveRing.get RINGCTL.IRQ_STAT_RESET = 1 ∧
    s.leaveRing.get MTIME.STATUS_STATE = 0 ∧ s.leaveRing.timeValid = false := by
  have hservo : ∀ g, g.lo < 32 → mtimeRegs g.addr = false → ∀ u : State, u.resetServo.get g = u.get g :=
    fun g hl hg u => u.resetServo_alone.regs g hl hg
  refine ⟨?_, ?_, ?_, ?_⟩
  · simp (disch := decide) only [State.get_leaveRing, State.get_set_other, State.get_setSync_other, State.get_timeFall_other, hservo,
      State.get_setRstate_self]
  · simp (disch := decide) only [State.get_leaveRing, State.get_set_other, State.get_setSync_other, State.get_timeFall_other, hservo,
      State.get_set_self]
    rfl
  · simp (disch := decide) only [State.get_leaveRing, State.get_set_other, State.get_setSync_self]
  · rw [State.timeValid, State.on, State.get_leaveRing _ (by decide), State.get_set_other (by decide),
      State.get_setSync_other (by decide) (by decide)]
    exact State.timeValid_timeFall _

/-- What a ring reset leaves (R47, R161). -/
theorem State.ringReset_shown (s : State) :
    s.ringReset.get RINGCTL.STAT_RSTATE = 1 ∧ s.ringReset.get RINGCTL.IRQ_STAT_RESET = 1 ∧
    s.ringReset.get MTIME.STATUS_STATE = 0 ∧ s.ringReset.timeValid = false ∧ s.ringReset.mt = 0 ∧ s.ringReset.ring.bLast = none ∧
    s.ringReset.ring.txOut = [] ∧ s.ringReset.get RINGCTL.SLEEP_PEND = 0 := by
  have hdrop := s.leaveRing.forgetRing.dropTx_alone
  have hdict := (s.leaveRing.forgetRing.dropTx.set RINGCTL.SLEEP_PEND 0).dictRingReset_alone
  rw [← State.ringReset_eq] at hdict
  have hkept : ∀ g, g.lo < 32 → offTimeAndRing g.addr = false → g.key ≠ RINGCTL.SLEEP_PEND.key →
      s.ringReset.get g = s.leaveRing.get g := by
    intro g hl hg hne
    rw [hdict.regs g hl hg, State.get_set_other hne, hdrop.regs g hl hg, State.get_withTx, State.get_forgetRing]
  obtain ⟨hrstate, hreset, hstate, hvalid⟩ := s.leaveRing_shown
  refine ⟨?_, ?_, ?_, ?_, ?_, ?_, ?_, ?_⟩
  · rw [hkept _ (by decide) (by decide) (by decide), hrstate]
  · rw [hkept _ (by decide) (by decide) (by decide), hreset]
  · rw [hkept _ (by decide) (by decide) (by decide), hstate]
  · rw [State.timeValid, State.on_congr (hkept _ (by decide) (by decide) (by decide))]
    exact hvalid
  · rw [hdict.fields, State.takeDict, State.mt_set, hdrop.fields]; rfl
  · rw [hdict.fields, State.takeDict, State.ring_set, hdrop.fields]; rfl
  · rw [hdict.fields, State.takeDict, State.ring_set, hdrop.fields]; rfl
  · rw [hdict.regs _ (by decide) (by decide), State.get_set_self]; rfl

theorem exec_ringResetWrite_reached (hup : s.accessible RINGCTL.CTRL = true) (hst : s.get RINGCTL.STAT_RSTATE ≠ 0)
    (hlink : s.domOn .link = true) :
    exec .ringResetWrite s = .next { (s.ringReset.emit (.rst 0)).emit (.rst 1) with
      ring := { s.ringReset.ring with rstTick := s.ringReset.tick + 1 }, bus := .ok 0 } := by
  have hgo : (decide (s.get RINGCTL.STAT_RSTATE = 0) || !s.domOn .link) = false := by rw [hlink]; simp [hst]
  change execRingResetWrite s = _
  rw [execRingResetWrite, State.busDo_reached hup]
  simp only [hgo, Bool.false_eq_true, if_false, State.emit]

theorem exec_rstReceived_passes (hlink : s.domOn .link = true) (hst : s.get RINGCTL.STAT_RSTATE ≠ 0)
    (hlast : s.ring.rstTick = 0 ∨ s.ring.rstTick + 2500 < s.tick + 1) :
    exec (.rstReceived p) s = .next { s.ringReset.emit (.rst (other p)) with
      ring := { s.ringReset.ring with rstTick := s.ringReset.tick + 1 } } := by
  have hgo : (decide (s.get RINGCTL.STAT_RSTATE = 0) || !s.domOn .link) = false := by rw [hlink]; simp [hst]
  have hrecent : (decide (s.ring.rstTick ≠ 0) && decide (s.tick + 1 ≤ s.ring.rstTick + 2500)) = false := by
    simp only [Bool.and_eq_false_iff, decide_eq_false_iff_not]
    omega
  change execRstReceived p s = _
  simp only [execRstReceived, hgo, hrecent, Bool.false_eq_true, if_false]

/-! ### EN, and the claims a claimant answers -/

theorem ringEnable_shown (v : Word) (hup : s.accessible RINGCTL.CTRL = true) :
    Yields (.ringEnable v) s fun t => t.get RINGCTL.CTRL_EN = 1 ∧
      t.on RINGCTL.STAT_BYPASS = (getBit v.toNat 30 && s.domOn .link) ∧
      (s.get RINGCTL.STAT_RSTATE = 0 → s.on AONCTL.MODE_DOCKED = true → s.domOn .link = true → t.get RINGCTL.STAT_RSTATE = 1 ∧
        t.get RINGCTL.IRQ_STAT_STATE_CHG = 1 ∧ t.ring.quietAt = s.tick) ∧
      RegsOutside ringCtrlRegs s t ∧ SameMemory s t := by
  obtain ⟨hregs, hmem, hfields⟩ := s.setBypass_writeRingCtrl_frame v 1
  have hnoted := State.noteEn_fields (s.writeRingCtrl v 1).setBypass (s.on RINGCTL.CTRL_EN)
  have hrstate : ((s.writeRingCtrl v 1).setBypass.noteEn (s.on RINGCTL.CTRL_EN)).get RINGCTL.STAT_RSTATE =
      s.get RINGCTL.STAT_RSTATE := by
    rw [State.get_noteEn, State.get_setBypass_other (by decide)]
    exact (s.writeRingCtrl_frame v 1).1 _ (by decide) (by decide)
  have hmode : ((s.writeRingCtrl v 1).setBypass.noteEn (s.on RINGCTL.CTRL_EN)).get AONCTL.MODE_DOCKED =
      s.get AONCTL.MODE_DOCKED := by
    rw [State.get_noteEn, hregs _ (by decide) (by decide)]
  refine ⟨_, exec_ringEnable_reached hup, ?_, ?_, fun hst hdocked hlink => ?_, ?_, ?_⟩
  · simp (disch := decide) only [State.get_fields, State.get_enableRing_other, State.get_noteEn, State.get_setBypass_other,
      State.get_writeRingCtrl_en]
  · rw [State.on, State.get_fields, State.get_enableRing_other (by decide) (by decide), State.get_noteEn]
    exact s.on_setBypass_writeRingCtrl v 1
  · have hdom : ((s.writeRingCtrl v 1).setBypass.noteEn (s.on RINGCTL.CTRL_EN)).domOn .link = true := by
      rw [State.domOn_congr hmode (by rw [hnoted, hfields.fields]), hlink]
    rw [State.enableRing_down (hrstate.trans hst) ((State.on_congr hmode).trans hdocked) hdom]
    refine ⟨?_, ?_, ?_⟩
    · rw [State.get_fields, State.get_hear, State.get_set_other (by decide), State.get_set_self]; rfl
    · rw [State.get_fields, State.get_hear, State.get_set_self]; rfl
    · change State.tick _ = _
      rw [State.tick_set, State.tick_set, hnoted, hfields.fields]
  · exact ((hregs.regs (by rw [hnoted])).trans (State.enableRing_regs _)).regs rfl
  · intro a
    refine (State.enableRing_memory _ a).trans ?_
    rw [hnoted]
    exact hmem a

theorem ringDisable_shown (v : Word) (hup : s.accessible RINGCTL.CTRL = true) :
    Yields (.ringDisable v) s fun t => t.get RINGCTL.CTRL_EN = 0 ∧ t.get RINGCTL.STAT_RSTATE = 0 ∧
      t.get RINGCTL.STAT_BYPASS = 0 ∧ RegsOutside ringCtrlRegs s t ∧ SameMemory s t := by
  obtain ⟨hregs, hmem, -⟩ := s.setBypass_writeRingCtrl_frame v 0
  refine ⟨_, exec_ringDisable_reached hup, ?_, ?_, ?_, ?_, ?_⟩
  · simp (disch := decide) only [State.get_fields, State.get_setRstate_other, State.get_setBypass_other,
      State.get_writeRingCtrl_en]
  · exact State.get_setRstate_self _ (by decide)
  · rw [State.get_fields, State.get_setRstate_other (by decide) (by decide), State.setBypass, State.on, State.get_writeRingCtrl_en,
      State.get_setF, State.get_set_self]
    rfl
  · exact (hregs.trans (State.setRstate_regs _ 0)).regs rfl
  · intro a
    have hdown := (s.writeRingCtrl v 0).setBypass.setRstate_memory 0 a
    rw [← hmem a, ← hdown]; rfl

section
variable {uid : BitVec 64} {prio : Byte} {run : Bool}

theorem clmReceived_own (hup : s.ringUp = true) (hears : s.hears p = true) (hst : s.get RINGCTL.STAT_RSTATE = 2)
    (hkey : prio.toNat * 2 ^ 64 + uid.toNat = s.get RINGCTL.CTRL_PRIO * 2 ^ 64 + ownUid) :
    Yields (.clmReceived p uid prio run true) s fun t => t.get RINGCTL.STAT_RSTATE = 4 ∧ t.get RINGCTL.IRQ_STAT_ELECTED = 1 ∧
      t.get RINGCTL.MASTER_ADDR = s.get RINGCTL.ADDR_ADDR % 2 ^ 7 ∧ t.get RINGCTL.STAT_MUTED = 0 ∧
      t.sent = .abt (s.outPort p) :: s.sent := by
  have hanswer := exec_clmReceived_claimant (uid := uid) (prio := prio) (run := run) hup hears hst
  rw [if_pos hkey] at hanswer
  obtain ⟨hrstate, helected, haddr, hmuted⟩ := s.hear.elected_shown
  exact ⟨_, hanswer, hrstate, helected, haddr, hmuted, congrArg _ s.hear.sent_elected⟩

theorem clmReceived_stronger (hup : s.ringUp = true) (hears : s.hears p = true) (hst : s.get RINGCTL.STAT_RSTATE = 2)
    (hkey : prio.toNat * 2 ^ 64 + uid.toNat < s.get RINGCTL.CTRL_PRIO * 2 ^ 64 + ownUid)
    (hbest : ∀ k, s.ring.bestKey = some k → prio.toNat * 2 ^ 64 + uid.toNat < k) :
    Yields (.clmReceived p uid prio run true) s fun t => t.get RINGCTL.STAT_RSTATE = 1 ∧
      t.get RINGCTL.MASTER_PRIO = prio.toNat ∧ t.get RINGCTL.MASTER_UID_LO_UID = uid.toNat % 2 ^ 32 ∧
      t.get RINGCTL.MASTER_UID_HI_UID = uid.toNat / 2 ^ 32 ∧ t.ring.quietAt = s.tick ∧
      t.sent = .clm (s.outPort p) uid prio.toNat run :: s.sent := by
  have hanswer := exec_clmReceived_claimant (uid := uid) (prio := prio) (run := run) hup hears hst
  rw [if_neg hkey.ne, if_pos hkey] at hanswer
  obtain ⟨hrstate, hprio, hlo, hhi, hquiet, hsent⟩ := State.defeated_shown (s := s.hear) hbest
  have hprioFits : prio.toNat % 2 ^ 8 = prio.toNat := Nat.mod_eq_of_lt prio.isLt
  have huidFits : uid.toNat / 2 ^ 32 % 2 ^ 32 = uid.toNat / 2 ^ 32 :=
    Nat.mod_eq_of_lt (Nat.div_lt_of_lt_mul (lt_of_lt_of_eq uid.isLt (by norm_num)))
  rw [hprioFits] at hprio
  rw [huidFits] at hhi
  exact ⟨_, hanswer, hrstate, hprio, hlo, hhi, hquiet, congrArg _ hsent⟩

end

end

/-- Settles O11: CTRL, the silences and the claims by what each command answers, and a ring reset by its two parts, of which the
second leaves the registers of MTIME alone. -/
theorem ringFormation : Obligations.RingFormation := by
  refine ⟨fun v s hup => ringEnable_shown v hup, fun v s hup => ringDisable_shown v hup, ?listen, ?follower,
    fun s hst hlink hwait => exec_clmSend_due hst hlink hwait, ?claims, ?note,
    fun s hup hst hlink => exec_ringResetWrite_reached hup hst hlink,
    fun p s hlink hst hlast => exec_rstReceived_passes hlink hst hlast, State.ringReset_shown⟩
  case listen =>
    intro s hst hlink hquiet hins hmay
    exact ⟨_, exec_listenTimeout_silent hst hlink hquiet hins hmay, State.setRstate_claim_shown (by rw [hst]; decide)⟩
  case follower =>
    intro tl s hl hst hlink hcap hdue
    exact ⟨_, exec_followerTimeout_silent hl hst hlink hcap hdue, State.setRstate_claim_shown (by rw [hst]; decide)⟩
  case claims =>
    intro p uid prio run s hlink hears
    have hclaims : s.get RINGCTL.STAT_RSTATE = 2 → s.ringUp = true := fun h => State.ringUp_of_running hlink (by rw [h]; decide)
    refine ⟨fun hst => ?pass, fun hst => ?bad, fun hst hkey => ?weaker, fun hst hkey => clmReceived_own (hclaims hst) hears hst hkey,
      fun hst hkey hbest => clmReceived_stronger (hclaims hst) hears hst hkey hbest⟩
    case pass =>
      have hrun : s.get RINGCTL.STAT_RSTATE ∈ [1, 2, 3, 4] ∧ s.get RINGCTL.STAT_RSTATE ≠ 2 := by
        simp only [List.mem_cons, List.not_mem_nil, or_false] at hst ⊢
        omega
      exact exec_clmReceived_passes (State.ringUp_of_running hlink hrun.1) hears hrun.2
    case bad => rw [exec_clmReceived_bad (State.ringUp_of_running hlink hst) hears, State.badFrame_forwarded]
    case weaker => rw [exec_clmReceived_claimant (hclaims hst) hears hst, if_neg hkey.ne', if_neg hkey.not_gt]
  case note =>
    intro s prio uid
    refine ⟨fun h => ?_, fun k hk h => State.noteClaim_worse hk h⟩
    rw [State.noteClaim_best h]
    obtain ⟨hprio, hlo, hhi⟩ := s.setWinner_shown prio uid
    exact ⟨hprio, hlo, hhi, rfl⟩

end Sys2Proof.Machine

/-! ## The ports and their links (07_gnourlink.md, R48, R142, R144, R153, R163) -/

namespace Sys2Proof.Machine

section
variable {s : State} {p : Fin 2}

/-! ### LOST and the loops -/

theorem RF.key_ne_of_addr {f g : RF} (h : f.addr ≠ g.addr) (hf : f.lo < 32 := by simp) (hg : g.lo < 32 := by simp) :
    f.key ≠ g.key := by
  rw [RF.key, RF.key]; omega

/-- A port's STAT is no register of RINGCTL. -/
theorem portStat_lt_ringctl (p : Fin 2) : PORT.STAT p < RINGCTL.CTRL := by
  rw [PORT.STAT, RINGCTL.CTRL]; omega

theorem State.lost_set_lost (s : State) (p q : Fin 2) (v : Nat) :
    (s.set (PORT.STAT_LOST p) v).lost q = if q = p then v % 2 == 1 else s.lost q := by
  rw [State.lost, State.on]
  split
  case isTrue h => rw [h, State.get_set_self]; rfl
  case isFalse h =>
    rw [State.get_set_other (by simp only [RF.key, PORT.STAT]; omega)]; rfl

theorem State.lost_set_other {f : RF} (h : ∀ q : Fin 2, (PORT.STAT_LOST q).key ≠ f.key) (s : State) (v : Nat) (q : Fin 2) :
    (s.set f v).lost q = s.lost q :=
  State.on_congr (State.get_set_other (h q) s v)

theorem State.lost_set_healPend (s : State) (p q : Fin 2) (v : Nat) : (s.set (PORT.STAT_HEAL_PEND p) v).lost q = s.lost q :=
  State.lost_set_other (fun r => by simp only [RF.key, PORT.STAT]; omega) s v q

theorem State.get_setLoops_other {g : RF} (ha : g.key ≠ RINGCTL.STAT_LOOP_A.key) (hb : g.key ≠ RINGCTL.STAT_LOOP_B.key) (s : State) :
    s.setLoops.get g = s.get g := by
  rw [State.setLoops, State.get_setF_other hb, State.get_setF_other ha]

theorem State.on_setLoops (s : State) :
    s.setLoops.on RINGCTL.STAT_LOOP_A = s.lost 0 ∧ s.setLoops.on RINGCTL.STAT_LOOP_B = s.lost 1 := by
  refine ⟨?_, State.on_setF_self rfl _ _⟩
  rw [State.setLoops, State.on_congr (State.get_setF_other (by decide) _ _)]
  exact State.on_setF_self rfl _ _

/-! ### A port is lost (R142, R144) -/

/-- LOST and the loops where a port is lost. -/
def State.openPort (s : State) (p : Fin 2) : State :=
  ((s.set (PORT.STAT_LOST p) 1).set (PORT.STAT_HEAL_PEND p) 0).setLoops

/-- What a port's loss shows outside a formed ring. -/
theorem State.openPort_shown (s : State) (p : Fin 2) : (s.openPort p).lost p = true ∧
    (s.openPort p).get (PORT.STAT_HEAL_PEND p) = 0 ∧ (s.openPort p).on RINGCTL.STAT_LOOP_A = (s.lost 0 || p == 0) ∧
    (s.openPort p).on RINGCTL.STAT_LOOP_B = (s.lost 1 || p == 1) := by
  have hstat : PORT.STAT p ≠ RINGCTL.STAT := ((portStat_lt_ringctl p).trans (by decide)).ne
  have hlost : ∀ q, ((s.set (PORT.STAT_LOST p) 1).set (PORT.STAT_HEAL_PEND p) 0).lost q = (s.lost q || p == q) := by
    intro q
    rw [State.lost_set_healPend, State.lost_set_lost]
    split
    case isTrue h => simp [h]
    case isFalse h => simp [Ne.symm h]
  refine ⟨?_, ?_, (State.on_setLoops _).1.trans (hlost 0), (State.on_setLoops _).2.trans (hlost 1)⟩
  · rw [State.openPort, State.lost, State.on_congr (State.get_setLoops_other (RF.key_ne_of_addr hstat) (RF.key_ne_of_addr hstat) _)]
    exact (hlost p).trans (by simp)
  · rw [State.openPort, State.get_setLoops_other (RF.key_ne_of_addr hstat) (RF.key_ne_of_addr hstat), State.get_set_self]
    exact Nat.zero_mod _

theorem State.losePort_lost (h : s.lost p = true) : s.losePort p = s.set (PORT.STAT_HEAL_PEND p) 0 := if_pos h

/-- In a formed ring the stream of the port is cut, and the break is counted. -/
theorem State.losePort_formed (h : s.lost p = false) (hst : s.get RINGCTL.STAT_RSTATE = 3 ∨ s.get RINGCTL.STAT_RSTATE = 4) :
    s.losePort p = ((({ s with sent := .abt (s.outPort p) :: s.sent } : State).openPort p).count RINGCTL.BREAK_CNT_COUNT
      RINGCTL.BREAK_CNT_OVF).set RINGCTL.IRQ_STAT_BREAK 1 := by
  have hhears : s.hears p = true := by rw [State.hears, h]; rfl
  simp only [State.losePort, h, Bool.false_eq_true, if_false, if_pos hst, State.cutStream, hhears, if_true]
  rfl

theorem State.losePort_unformed (h : s.lost p = false) (hst : ¬ (s.get RINGCTL.STAT_RSTATE = 3 ∨ s.get RINGCTL.STAT_RSTATE = 4)) :
    s.losePort p = s.openPort p := by
  simp only [State.losePort, h, Bool.false_eq_true, if_false, if_neg hst]
  rfl

/-- The registers that a port's loss may change. -/
def lossFields (p : Fin 2) : List RF :=
  [PORT.STAT_LOST p, PORT.STAT_HEAL_PEND p, RINGCTL.STAT_LOOP_A, RINGCTL.STAT_LOOP_B, RINGCTL.BREAK_CNT_COUNT,
    RINGCTL.BREAK_CNT_OVF, RINGCTL.IRQ_STAT_BREAK]

theorem State.openPort_only (s : State) (p : Fin 2) : OnlyRegs (lossFields p) s (s.openPort p) :=
  ((((OnlyRegs.refl _ _).set (by simp [lossFields]) _).set (by simp [lossFields]) _).setF (by simp [lossFields]) _).setF
    (by simp [lossFields]) _

/-- What the loss of a port that was not LOST leaves. -/
theorem State.losePort_shown (h : s.lost p = false) :
    (s.losePort p).lost p = true ∧ (s.losePort p).get (PORT.STAT_HEAL_PEND p) = 0 ∧
    (s.losePort p).on RINGCTL.STAT_LOOP_A = (s.lost 0 || p == 0) ∧ (s.losePort p).on RINGCTL.STAT_LOOP_B = (s.lost 1 || p == 1) ∧
    ((s.get RINGCTL.STAT_RSTATE = 3 ∨ s.get RINGCTL.STAT_RSTATE = 4) →
      (s.losePort p).get RINGCTL.IRQ_STAT_BREAK = 1 ∧ (s.losePort p).sent = .abt (s.outPort p) :: s.sent) ∧
    OnlyRegs (lossFields p) { s with sent := (s.losePort p).sent } (s.losePort p) := by
  by_cases hst : s.get RINGCTL.STAT_RSTATE = 3 ∨ s.get RINGCTL.STAT_RSTATE = 4
  case neg =>
    rw [State.losePort_unformed h hst]
    obtain ⟨hlost, hpend, ha, hb⟩ := s.openPort_shown p
    exact ⟨hlost, hpend, ha, hb, fun hin => absurd hin hst, s.openPort_only p⟩
  case pos =>
    obtain ⟨hlost, hpend, ha, hb⟩ := ({ s with sent := .abt (s.outPort p) :: s.sent } : State).openPort_shown p
    have hkept : ∀ g : RF, g.lo < 32 → (g.addr = PORT.STAT p ∨ g.addr = RINGCTL.STAT) → (s.losePort p).get g =
        (({ s with sent := .abt (s.outPort p) :: s.sent } : State).openPort p).get g := by
      intro g hl hg
      have hne : ∀ f : RF, f.lo < 32 → RINGCTL.STAT < f.addr → g.key ≠ f.key := by
        intro f hf haddr
        have hbelow : PORT.STAT p < RINGCTL.STAT := (portStat_lt_ringctl p).trans (by decide)
        refine RF.key_ne_of_addr ?_ hl hf
        rcases hg with hg | hg <;> omega
      rw [State.losePort_formed h hst, State.get_set_other (hne _ (by decide) (by decide)), State.get_count,
        if_neg (hne _ (by decide) (by decide)), if_neg (hne _ (by decide) (by decide)), ite_self]
    have hsent : (s.losePort p).sent = .abt (s.outPort p) :: s.sent := by
      rw [State.losePort_formed h hst, State.sent_set, State.count]
      split <;> rfl
    refine ⟨?_, ?_, ?_, ?_, fun _ => ⟨?_, hsent⟩, ?_⟩
    · exact (State.on_congr (hkept _ (by simp) (.inl rfl))).trans hlost
    · exact (hkept _ (by simp) (.inl rfl)).trans hpend
    · exact (State.on_congr (hkept _ (by simp) (.inr rfl))).trans ha
    · exact (State.on_congr (hkept _ (by simp) (.inr rfl))).trans hb
    · rw [State.losePort_formed h hst, State.get_set_self]; rfl
    · rw [hsent, State.losePort_formed h hst]
      exact ((State.openPort_only _ p).count (by simp [lossFields]) (by simp [lossFields])).set (by simp [lossFields]) _

theorem exec_portLost (p : Fin 2) (why : LostCause) (s : State) : exec (.portLost p why) s = execPortLost p why s := rfl

/-- The causes of a loss that need no condition of the port (R48, R142). -/
theorem exec_portLost_cause (hlink : s.domOn .link = true) :
    exec (.portLost p .fltReceived) s = .next ((s.set (PORT.STAT_FLT_RX p) 1).losePort p) ∧
    exec (.portLost p .noSymbol) s = .next ((s.loseSignal p).losePort p) ∧
    exec (.portLost p .codeErrors) s = .next (((s.loseSignal p).codeErrors p).losePort p) := by
  simp only [exec_portLost, execPortLost, hlink, Bool.not_true, Bool.false_eq_true, if_false, and_self]

theorem exec_portLost_neverSignal (hlink : s.domOn .link = true) (hsig : s.on (PORT.STAT_SIG p) = false)
    (hen : s.on RINGCTL.CTRL_EN = true) (hwait : s.ring.enAt + 25000 ≤ s.tick) :
    exec (.portLost p .neverSignal) s = .next (s.losePort p) := by
  have hnow : decide (s.tick < s.ring.enAt + 25000) = false := decide_eq_false (by omega)
  simp only [exec_portLost, execPortLost, hlink, hsig, hen, hnow, Bool.not_true, Bool.or_self, Bool.false_eq_true, if_false]

theorem exec_portSignalGained_enabled (hlink : s.domOn .link = true) (hen : s.on (PORT.CTRL_EN p) = true) :
    exec (.portSignalGained p) s =
      .next (((s.set (PORT.STAT_SIG p) 1).set (PORT.STAT_ALIGNED p) 1).set (PORT.STAT_FLT_RX p) 0) := by
  change execPortSignalGained p s = _
  simp only [execPortSignalGained, hlink, hen, Bool.not_true, Bool.or_self, Bool.false_eq_true, if_false]

/-! ### Delay frames (R48, R153) -/

theorem exec_delayRequestSend_due {t1 : Nat} (hlink : s.domOn .link = true) (hsig : s.on (PORT.STAT_SIG p) = true)
    (hdue : s.requestDue p = true) :
    exec (.delayRequestSend p t1) s = .next
      { s with tm := if p = 0 then { s.tm with t1A := some t1 } else { s.tm with t1B := some t1 }
               sent := .dly p (s.dlyFrame p false 0 0) :: s.sent } := by
  change execDelayRequestSend p t1 s = _
  simp only [execDelayRequestSend, hlink, hsig, hdue, Bool.not_true, Bool.or_self, Bool.false_eq_true, if_false]
  split <;> rfl

theorem exec_dlyFrameReceived_bad {f : DlyFrame} {t t3 : Nat} (hlink : s.domOn .link = true) :
    exec (.dlyFrameReceived p f ⟨t, false⟩ t3) s = .next (s.count (PORT.CRC_ERR_COUNT p) (PORT.CRC_ERR_OVF p)) := by
  change execDlyFrameReceived p f ⟨t, false⟩ t3 s = _
  simp only [execDlyFrameReceived, hlink, Bool.not_true, Bool.not_false, Bool.false_eq_true, if_false, if_true]

/-- A response from the neighbour's other port, with no heal proposed, gives a sample. -/
theorem exec_dlyFrameReceived_response {f : DlyFrame} {t t1 t3 : Nat} (hlink : s.domOn .link = true) (hside : f.senderB ≠ (p == 1))
    (hheal : f.heal = none) (hresp : f.resp = true) (ht1 : s.t1 p = some t1) :
    exec (.dlyFrameReceived p f ⟨t, true⟩ t3) s =
      .next (((((s.set (PORT.STAT_FLT_RX p) 0).set (PORT.STAT_NBR_ADDR p) f.addr).setF (PORT.STAT_NBR_READY p) f.ready).set
        (PORT.STAT_MISWIRED p) 0).addSample p (16 * ((t : Int) - (t1 : Int)) - (f.turn : Nat))) := by
  have hwired : (f.senderB == (p == 1)) = false := beq_eq_false_iff_ne.2 hside
  have hout : ((((s.set (PORT.STAT_FLT_RX p) 0).set (PORT.STAT_NBR_ADDR p) f.addr).setF (PORT.STAT_NBR_READY p) f.ready).set
      (PORT.STAT_MISWIRED p) 0).t1 p = some t1 := ht1
  change execDlyFrameReceived p f ⟨t, true⟩ t3 s = _
  simp only [execDlyFrameReceived, hlink, hwired, hheal, hresp, hout, Bool.not_true, Bool.false_eq_true, if_false, if_true]

/-- The registers of port A before its delay is worked out: the samples held, and VALID with the 16th. -/
def State.holdSample (s : State) (q : Int) : State :=
  { (s.set MTIME.LINKDLY_A_SAMPLES ((q :: s.tm.samplesA).take 16).length).setF MTIME.LINKDLY_A_VALID
      (((q :: s.tm.samplesA).take 16).length == 16) with
    tm := { s.tm with samplesA := (q :: s.tm.samplesA).take 16, t1A := none } }

theorem State.addSample_portA (s : State) (q : Int) :
    s.addSample 0 q = if ((q :: s.tm.samplesA).take 16).length ≠ 16 then s.holdSample q
      else (s.holdSample q).setI MTIME.LINKDLY_A_DELAY
        (linkDelay ((q :: s.tm.samplesA).take 16) ((s.holdSample q).getI MTIME.ASYM_ASYM_A)) := rfl

theorem State.addSample_portA_shown (s : State) (q : Int) :
    (s.addSample 0 q).tm.samplesA = (q :: s.tm.samplesA).take 16 ∧ (s.addSample 0 q).tm.t1A = none ∧
    (s.addSample 0 q).on MTIME.LINKDLY_A_VALID = decide (15 ≤ s.tm.samplesA.length) ∧
    (15 ≤ s.tm.samplesA.length → (s.addSample 0 q).get MTIME.LINKDLY_A_DELAY =
      wrap 16 (linkDelay ((q :: s.tm.samplesA).take 16) (s.getI MTIME.ASYM_ASYM_A))) := by
  have hlength : ((q :: s.tm.samplesA).take 16).length = 16 ↔ 15 ≤ s.tm.samplesA.length := by
    rw [List.length_take, List.length_cons]; omega
  have hvalid : (s.holdSample q).on MTIME.LINKDLY_A_VALID = decide (15 ≤ s.tm.samplesA.length) := by
    refine (State.on_setF_self rfl _ _).trans ?_
    rw [Bool.eq_iff_iff, beq_iff_eq, decide_eq_true_iff, hlength]
  have hasym : (s.holdSample q).getI MTIME.ASYM_ASYM_A = s.getI MTIME.ASYM_ASYM_A := by
    rw [State.getI, State.getI]
    congr 1
    simp (disch := decide) only [State.holdSample, State.get_fields, State.get_setF_other, State.get_set_other]
  rw [State.addSample_portA, hasym]
  split
  case isTrue h => exact ⟨rfl, rfl, hvalid, fun hfull => absurd (hlength.2 hfull) h⟩
  case isFalse h =>
    refine ⟨rfl, rfl, ?_, fun _ => State.get_setI_self _ _ _⟩
    rw [State.on_congr (State.get_setI_other (by decide) _ _), hvalid]

/-! ### Links that heal (R163) -/

section
variable (hlink : s.domOn .link = true) (hlost : s.lost p = true) (hready : s.portReady p = true)
  (hnbr : s.on (PORT.STAT_NBR_READY p) = true)
include hlink hlost hready hnbr

theorem exec_linkUsable_unformed (h3 : s.get RINGCTL.STAT_RSTATE ≠ 3) (h4 : s.get RINGCTL.STAT_RSTATE ≠ 4) :
    exec (.linkUsable p) s = .next (s.healPort p) := by
  change execLinkUsable p s = _
  rw [execLinkUsable, hlink, hlost, hready, hnbr]
  have hout : s.get RINGCTL.STAT_RSTATE ≠ 3 ∧ s.get RINGCTL.STAT_RSTATE ≠ 4 := ⟨h3, h4⟩
  exact if_pos hout

theorem exec_linkUsable_formed (hst : s.get RINGCTL.STAT_RSTATE = 3 ∨ s.get RINGCTL.STAT_RSTATE = 4) (hp : p = 1) :
    exec (.linkUsable p) s =
      .next ((s.set (PORT.STAT_HEAL_CYC p) ((s.get RINGCTL.CYCNUM_CYCLE + 6) / 4 * 4 % 65536)).set (PORT.STAT_HEAL_PEND p) 1) := by
  have hin : ¬ (s.get RINGCTL.STAT_RSTATE ≠ 3 ∧ s.get RINGCTL.STAT_RSTATE ≠ 4) := by omega
  change execLinkUsable p s = _
  rw [execLinkUsable, hlink, hlost, hready, hnbr]
  exact (if_neg hin).trans (if_pos hp)

end

theorem exec_linkHeal_due (hlink : s.domOn .link = true) (hpend : s.on (PORT.STAT_HEAL_PEND p) = true) (hready : s.portReady p = true)
    (hnbr : s.on (PORT.STAT_NBR_READY p) = true) (hdue : s.healDue p = true) : exec (.linkHeal p) s = .next (s.healPort p) := by
  change execLinkHeal p s = _
  rw [execLinkHeal, hlink, hpend, hready, hnbr, hdue]; rfl

theorem State.healPort_shown (s : State) (p : Fin 2) :
    (s.healPort p).lost p = false ∧ (s.healPort p).get (PORT.STAT_HEAL_PEND p) = 0 ∧ (s.healPort p).get RINGCTL.IRQ_STAT_HEAL = 1 ∧
    OnlyRegs [PORT.STAT_LOST p, PORT.STAT_HEAL_PEND p, RINGCTL.IRQ_STAT_HEAL, RINGCTL.STAT_LOOP_A, RINGCTL.STAT_LOOP_B] s
      (s.healPort p) := by
  have hstat : PORT.STAT p ≠ RINGCTL.STAT := ((portStat_lt_ringctl p).trans (by decide)).ne
  have hirq : ∀ q : Fin 2, PORT.STAT q ≠ RINGCTL.IRQ_STAT := fun q => ((portStat_lt_ringctl q).trans (by decide)).ne
  refine ⟨?_, ?_, ?_, ?_⟩
  · rw [State.healPort, State.lost, State.on_congr (State.get_setLoops_other (RF.key_ne_of_addr hstat) (RF.key_ne_of_addr hstat) _),
      ← State.lost, State.lost_set_other fun q => RF.key_ne_of_addr (hirq q), State.lost_set_healPend, State.lost_set_lost, if_pos rfl]
    rfl
  · rw [State.healPort, State.get_setLoops_other (RF.key_ne_of_addr hstat) (RF.key_ne_of_addr hstat),
      State.get_set_other (RF.key_ne_of_addr (hirq p)), State.get_set_self]
    exact Nat.zero_mod _
  · rw [State.healPort, State.get_setLoops_other (by decide) (by decide), State.get_set_self]; rfl
  · exact (((((OnlyRegs.refl _ _).set (by simp) _).set (by simp) _).set (by simp) _).setF (by simp) _).setF (by simp) _

end

/-- Settles O8: each command by what it answers; a loss and a heal by the fields of LOST, and the loops that follow them. -/
theorem ringPortsAndDelayFrames : Obligations.RingPortsAndDelayFrames := by
  refine ⟨fun p s hlink => ?causes, fun p s hlost => State.losePort_lost hlost, fun p s hlost => State.losePort_shown hlost,
    fun p s hlink hen => exec_portSignalGained_enabled hlink hen,
    fun t1 s hlink => ⟨fun hsig hdue => exec_delayRequestSend_due hlink hsig hdue,
      fun hsig hdue => exec_delayRequestSend_due hlink hsig hdue⟩,
    fun p f t t1 t3 s hlink hside hheal hresp ht1 => exec_dlyFrameReceived_response hlink hside hheal hresp ht1,
    fun p f t t3 s hlink => exec_dlyFrameReceived_bad hlink, fun q s => s.addSample_portA_shown q,
    fun p s hlink hlost hready hnbr => ⟨exec_linkUsable_unformed hlink hlost hready hnbr,
      exec_linkUsable_formed hlink hlost hready hnbr⟩,
    fun p s hlink hpend hready hnbr hdue => ⟨s.healPort p, exec_linkHeal_due hlink hpend hready hnbr hdue, s.healPort_shown p⟩⟩
  case causes =>
    obtain ⟨hflt, hsymbol, hcode⟩ := exec_portLost_cause (p := p) hlink
    exact ⟨hflt, hsymbol, hcode, exec_portLost_neverSignal hlink⟩

end Sys2Proof.Machine

/-! ## The pins of machine time, the compare channels and the calendar (02_machine_time.md, R46, R58 to R62, R66) -/

namespace Sys2Proof.Machine

section
variable {s t : State} {fs : List RF}

/-! ### Bits of fields (R8) -/

theorem getBit_eq_testBit (v i : Nat) : getBit v i = v.testBit i := by
  rw [Nat.testBit_eq_decide_div_mod_eq, getBit, beq_eq_decide]

theorem getBit_setBit_self (v i : Nat) (b : Bool) : getBit (setBit v i b) i = b := by
  have hpos : 0 < 2 ^ i := Nat.two_pow_pos i
  have hsplit : setBit v i b = v % 2 ^ i + 2 ^ i * (v / 2 ^ i - v / 2 ^ i % 2 + b2n b) := by
    have hle : v / 2 ^ i % 2 * 2 ^ i ≤ 2 ^ i * (v / 2 ^ i) := by
      rw [Nat.mul_comm]; exact Nat.mul_le_mul_left _ (Nat.mod_le _ _)
    have hv : v % 2 ^ i + 2 ^ i * (v / 2 ^ i) = v := Nat.mod_add_div v _
    have hbit : (if b then 2 ^ i else 0) = 2 ^ i * b2n b := by cases b <;> simp [b2n]
    rw [setBit, hbit, Nat.mul_add, Nat.mul_sub, Nat.mul_comm (2 ^ i) (v / 2 ^ i % 2)]
    omega
  rw [getBit, hsplit, Nat.add_mul_div_left _ _ hpos, Nat.div_eq_of_lt (Nat.mod_lt v hpos), Bool.eq_iff_iff, beq_iff_eq]
  cases b
  · simp only [b2n, Bool.false_eq_true, if_false, iff_false]; omega
  · simp only [b2n, if_true, iff_true]; omega

/-- A bit of a field shows what was put into it. -/
theorem State.bit_setBit_self {f : RF} {i : Nat} (hi : i < f.hi + 1 - f.lo) (s : State) (b : Bool) : (s.setBit f i b).bit f i = b := by
  rw [State.bit, State.get_setBit, State.get_set_self, RF.bound, getBit_eq_testBit, Nat.testBit_mod_two_pow, decide_eq_true hi,
    Bool.true_and, ← getBit_eq_testBit, getBit_setBit_self]

theorem State.due_congr (hst : t.get MTIME.STATUS_STATE = s.get MTIME.STATUS_STATE) (hmt : t.mt = s.mt) (x : Nat) :
    t.due x = s.due x := by
  rw [State.due, hst, hmt, State.due]

/-! ### Frames beside events and the timebase's own state -/

theorem State.pulse_fields (s : State) (id n : Nat) : s.pulse id n = { s with ev := (s.pulse id n).ev } := rfl

theorem State.mem_pulse (s : State) (id n : Nat) : (id, s.tick + n) ∈ (s.pulse id n).ev.pulses := List.mem_cons_self ..

theorem OnlyRegs.withEv (h : OnlyRegs fs s t) (e : EvSt) : OnlyRegs fs { s with ev := e } { t with ev := e } :=
  ⟨h.1, h.2.1, congrArg (fun x : State => { x with ev := e }) h.2.2⟩

theorem OnlyRegs.withTm (h : OnlyRegs fs s t) (m : TmSt) : OnlyRegs fs { s with tm := m } { t with tm := m } :=
  ⟨h.1, h.2.1, congrArg (fun x : State => { x with tm := m }) h.2.2⟩

theorem OnlyRegs.setBit (h : OnlyRegs fs s t) {f : RF} (hf : f ∈ fs) (i : Nat) (b : Bool) : OnlyRegs fs s (t.setBit f i b) :=
  (h.put hf _).now _

/-! ### MT_SYNC_IN and the capture of MT (R46, R58) -/

/-- What an edge of MT_SYNC_IN leaves where no master is steered. -/
def State.captureEdge (s : State) (t : Nat) : State :=
  ((s.set MTIME.SYNCIN_CAPT_LO_CAPT (t % 2 ^ 32)).set MTIME.SYNCIN_CAPT_HI_CAPT (t / 2 ^ 32)).set MTIME.STATUS_SYNCIN_EDGE 1

theorem exec_mtSyncInEdge_follower {t : Nat} {rising : Bool} (hedge : rising ≠ s.on MTIME.SYNCIN_CFG_EDGE)
    (hsys : s.domOn .sys = true) (hst : s.get MTIME.STATUS_STATE ≠ 4) :
    exec (.mtSyncInEdge t rising) s = .next ((s.captureEdge t).pulse 0x79 1) := by
  have htaken : (rising == s.on MTIME.SYNCIN_CFG_EDGE || !s.domOn .sys) = false := by
    rw [beq_eq_false_iff_ne.2 hedge, hsys]; rfl
  have hkept : ((s.captureEdge t).pulse 0x79 1).get MTIME.STATUS_STATE = s.get MTIME.STATUS_STATE := by
    rw [State.pulse_fields, State.get_fields]
    simp (disch := decide) only [State.captureEdge, State.get_set_other]
  have hsteers : ¬ ((decide (((s.captureEdge t).pulse 0x79 1).get MTIME.STATUS_STATE = 4) &&
      ((s.captureEdge t).pulse 0x79 1).on MTIME.SYNCIN_CFG_EN) = true) := by
    rw [hkept, decide_eq_false hst]; simp
  change execMtSyncInEdge t rising s = _
  rw [execMtSyncInEdge, htaken]
  exact if_neg hsteers

theorem State.captureEdge_shown (s : State) (t : Nat) :
    (s.captureEdge t).get MTIME.SYNCIN_CAPT_LO_CAPT = t % 2 ^ 32 ∧
    (s.captureEdge t).get MTIME.SYNCIN_CAPT_HI_CAPT = t / 2 ^ 32 % 2 ^ 32 ∧ (s.captureEdge t).get MTIME.STATUS_SYNCIN_EDGE = 1 ∧
    OnlyRegs [MTIME.SYNCIN_CAPT_LO_CAPT, MTIME.SYNCIN_CAPT_HI_CAPT, MTIME.STATUS_SYNCIN_EDGE] s (s.captureEdge t) := by
  refine ⟨?_, ?_, ?_, (((OnlyRegs.refl _ _).set (by simp) _).set (by simp) _).set (by simp) _⟩
  · rw [State.captureEdge, State.get_set_other (by decide), State.get_set_other (by decide), State.get_set_self]
    exact Nat.mod_mod _ _
  · rw [State.captureEdge, State.get_set_other (by decide), State.get_set_self]; rfl
  · rw [State.captureEdge, State.get_set_self]; rfl

theorem exec_syncinTimeout_late (hsys : s.domOn .sys = true)
    (hlate : s.tm.syncinNs + 2 * s.get MTIME.SYNCIN_PERIOD_PERIOD < 4 * s.tick + 4) :
    exec .syncinTimeout s = .next { s.set MTIME.STATUS_SYNCIN_LOCK 0 with tm := { s.tm with syncinGood := 0 } } := by
  change execSyncinTimeout s = _
  rw [execSyncinTimeout, hsys, decide_eq_true hlate]; rfl

theorem exec_mtReadCapture_reached (hup : s.accessible MTIME.MT_LO = true) :
    exec .mtReadCapture s = .next { s with tm := { s.tm with shadow := s.mt / 2 ^ 32 }, bus := .ok (s.mt % 2 ^ 32) } := by
  change execMtReadCapture s = _
  rw [execMtReadCapture, if_pos hup]

/-! ### MT_SYNC_OUT and REF_OUT (R59 to R61) -/

/-- The pattern that starts at `start`, with its first instant at least 32 ns ahead. -/
def State.armPattern (s : State) (start : Nat) : TmSt :=
  { s.tm with
    syncoutBase := start, syncoutNext := some (patternFrom start (s.get MTIME.SYNCOUT_PERIOD_PERIOD) (s.mt + 32)) }

theorem State.get_set_word (s : State) (a : Nat) (v : Word) : (s.set ⟨a, 31, 0⟩ v.toNat).get ⟨a, 31, 0⟩ = v.toNat := by
  rw [State.get_set_self]
  exact Nat.mod_eq_of_lt v.isLt

theorem exec_syncoutArm_reached {hi : Word} (hup : s.accessible MTIME.SYNCOUT_START_HI = true) :
    exec (.syncoutArm hi) s = .next { s.set MTIME.SYNCOUT_START_HI_START hi.toNat with
      tm := s.armPattern (hi.toNat * 2 ^ 32 + s.get MTIME.SYNCOUT_START_LO_START), bus := .ok 0 } := by
  change execSyncoutArm hi s = _
  rw [execSyncoutArm, State.busDo_reached hup]
  simp (disch := decide) only [State.get64, State.get_set_word, State.get_set_other, State.armPattern]
  rfl

theorem exec_mtSyncOutPulse_due {t : Nat} (hnext : s.tm.syncoutNext = some t) (hst : s.get MTIME.STATUS_STATE ≠ 0)
    (hdue : s.due t = true) (hsys : s.domOn .sys = true) (hen : s.on MTIME.OUT_CTRL_SYNCOUT_EN = true)
    (hgate : s.on MTIME.OUT_CTRL_SYNCOUT_GATE = false ∨ s.timeValid = true) :
    exec .mtSyncOutPulse s = .next { s with
      tm := { s.tm with syncoutNext := some (patternFrom s.tm.syncoutBase (s.get MTIME.SYNCOUT_PERIOD_PERIOD) (t + 1)),
                        syncoutRise := s.timebaseNs t,
                        syncoutFall := some (s.timebaseNs t + s.get MTIME.SYNCOUT_WIDTH_WIDTH) },
      sent := .syncPulse t (s.get MTIME.SYNCOUT_WIDTH_WIDTH) :: s.sent } := by
  have hwait : (decide (s.get MTIME.STATUS_STATE = 0) || !s.due t) = false := by rw [decide_eq_false hst, hdue]; rfl
  have hdriven : s.syncoutOn = true := by
    rw [State.syncoutOn, hen]
    rcases hgate with h | h <;> rw [h] <;> simp
  change execMtSyncOutPulse s = _
  simp only [execMtSyncOutPulse, hnext, hwait, hdriven, hsys, Bool.and_self, Bool.false_eq_true, if_false, if_true,
    State.syncoutFrom, Option.map_some]
  rfl

theorem State.refOut_ungated {ns : Nat} (hmode : s.pinMode = .run) (hen : s.on MTIME.OUT_CTRL_REFOUT_EN = true)
    (hgate : s.on MTIME.OUT_CTRL_REFOUT_GATE = false) (hst : s.get MTIME.STATUS_STATE ≠ 0) :
    s.ballAt .refOut ns = .level (decide ((s.mt + ns) % 100 < 50)) := by
  have hlevel : s.refOutAt ns = decide ((s.mt + ns) % 100 < 50) := by
    simp only [State.refOutAt, hen, hgate, if_neg hst, Bool.not_true, Bool.false_eq_true, if_false]
  simp only [State.ballAt, hmode, sysBall, hlevel]

/-! ### Compare channels (R66) -/

section
variable {c : Fin 4} {hi : Word}

/-- The instant that a write of CMPc_HI gives channel `c`, kept. -/
def State.keepInstant (s : State) (c : Fin 4) (hi : Word) : State :=
  { s.set (MTIME.CMP_HI_CMP c) hi.toNat with
    tm := { s.tm with cmp := s.tm.cmp.set c (hi.toNat * 2 ^ 32 + s.get (MTIME.CMP_LO_CMP c)) } }

theorem exec_cmpArm_reached (hup : s.accessible (MTIME.CMP_HI c) = true) :
    exec (.cmpArm c hi) s = .next { (if s.due (hi.toNat * 2 ^ 32 + s.get (MTIME.CMP_LO_CMP c)) then (s.keepInstant c hi).fireCmp c true
      else (s.keepInstant c hi).setBit MTIME.CMP_STAT_ARMED c true) with bus := .ok 0 } := by
  have hlow : (MTIME.CMP_LO_CMP c).key ≠ (MTIME.CMP_HI_CMP c).key := by
    simp only [RF.key, MTIME.CMP_LO, MTIME.CMP_HI]; omega
  have hstate : MTIME.STATUS_STATE.key ≠ (MTIME.CMP_HI_CMP c).key := by
    simp only [RF.key, MTIME.STATUS, MTIME.CMP_HI]; omega
  have hdue : ∀ x, (s.keepInstant c hi).due x = s.due x :=
    State.due_congr (by rw [State.keepInstant, State.get_fields, State.get_set_other hstate]) rfl
  have hinst : (s.set (MTIME.CMP_HI_CMP c) hi.toNat).get64 (MTIME.CMP_HI_CMP c) (MTIME.CMP_LO_CMP c) =
      hi.toNat * 2 ^ 32 + s.get (MTIME.CMP_LO_CMP c) := by
    rw [State.get64, State.get_set_word, State.get_set_other hlow]
  change execCmpArm c hi s = _
  rw [execCmpArm, State.busDo_reached hup, ← hdue]
  simp only [hinst]
  rfl

theorem State.keepInstant_armed (s : State) (c : Fin 4) (hi : Word) :
    ((s.keepInstant c hi).setBit MTIME.CMP_STAT_ARMED c true).get (MTIME.CMP_HI_CMP c) = hi.toNat ∧
    ((s.keepInstant c hi).setBit MTIME.CMP_STAT_ARMED c true).bit MTIME.CMP_STAT_ARMED c = true ∧
    OnlyRegs [MTIME.CMP_HI_CMP c, MTIME.CMP_STAT_ARMED]
      { s with tm := { s.tm with cmp := s.tm.cmp.set c (hi.toNat * 2 ^ 32 + s.get (MTIME.CMP_LO_CMP c)) } }
      ((s.keepInstant c hi).setBit MTIME.CMP_STAT_ARMED c true) := by
  refine ⟨?_, State.bit_setBit_self c.isLt _ _, (((OnlyRegs.refl _ s).set (by simp) _).withTm _).setBit (by simp) _ _⟩
  rw [State.get_setBit, State.get_set_other (by simp only [RF.key, MTIME.CMP_STAT, MTIME.CMP_HI]; omega), State.keepInstant,
    State.get_fields, State.get_set_word]

theorem exec_reached_cmpDisarm {mask : BitVec 4} (hup : s.accessible MTIME.CMP_STAT = true) :
    exec (.cmpDisarm mask) s =
      .next { s.set MTIME.CMP_STAT_ARMED (s.get MTIME.CMP_STAT_ARMED &&& (15 - mask.toNat)) with bus := .ok 0 } :=
  State.busDo_reached hup fun s => s.set MTIME.CMP_STAT_ARMED (s.get MTIME.CMP_STAT_ARMED &&& (15 - mask.toNat))

theorem exec_cmpFire_due (harmed : s.bit MTIME.CMP_STAT_ARMED c = true) (hruns : s.mtRuns = true)
    (hdue : s.due (s.cmpInst c) = true) : exec (.cmpFire c) s = .next (s.fireCmp c false) := by
  change execCmpFire c s = _
  rw [execCmpFire, harmed, hruns, hdue]; rfl

/-- A channel that fires in time is disarmed, and pulses its event. -/
theorem State.fireCmp_shown (s : State) (c : Fin 4) : (s.fireCmp c false).bit MTIME.CMP_STAT_FIRED c = true ∧
    (s.fireCmp c false).bit MTIME.CMP_STAT_ARMED c = false ∧ (1 + c.1, s.tick + 1) ∈ (s.fireCmp c false).ev.pulses ∧
    OnlyRegs [MTIME.CMP_STAT_FIRED, MTIME.CMP_STAT_ARMED] { s with ev := (s.fireCmp c false).ev } (s.fireCmp c false) := by
  have hfire : s.fireCmp c false = ((s.setBit MTIME.CMP_STAT_FIRED c true).setBit MTIME.CMP_STAT_ARMED c false).pulse (1 + c) 1 := rfl
  rw [hfire, State.pulse_fields]
  refine ⟨?_, ?_, State.mem_pulse _ _ _, (((OnlyRegs.refl _ s).setBit (by simp) _ _).setBit (by simp) _ _).withEv _⟩
  · rw [State.bit, State.get_fields, State.get_setBit, State.get_set_other (by decide)]
    exact State.bit_setBit_self c.isLt s true
  · rw [State.bit, State.get_fields]
    exact State.bit_setBit_self c.isLt _ _

end

/-! ### The calendar of a Master (R62) -/

theorem State.publish_calendar (s : State) (sub : Nat) (v : List Byte) :
    s.publish 0x4010 sub v = { s with
      dict := { s.dict with out := s.dict.out ++ [⟨s.ownFrameTo 127 none 3 (publishMsg 0x4010 sub v), 0⟩] }
      tm := (s.publishObj (s.get RINGCTL.ADDR_ADDR) 0x4010 sub v).tm } := by
  unfold State.publish State.publishObj
  split
  · rfl
  · dsimp only
    split <;> rfl

theorem getBit_flagByte (b : Bool) : getBit (leNat (leBytes 1 (b2n b))) 0 = b := by cases b <;> rfl

theorem leNat_quad (v : Nat) : leNat (leBytes 8 v) = v % 2 ^ 64 := by
  rw [leNat_leBytes, show (256 : Nat) ^ 8 = 2 ^ 64 by norm_num]

theorem exec_calendarPublish_due {t : Nat} (hsec : s.rtc.secMt = some t) (hst : s.get MTIME.STATUS_STATE = 4)
    (hlink : s.domOn .link = true) (hdue : s.rtc.calDue = true) (hnow : s.tick ≤ s.rtc.secTick + 2500000) :
    exec .calendarPublish s = .next { s with
      rtc := { s.rtc with calDue := false }
      tm := { s.tm with calMt := t % 2 ^ 64, calSec := s.rtc.secCal % 2 ^ 64, calValid := s.on RTC.STAT_VALID, calHeld := true,
                        calNode := s.get RINGCTL.ADDR_ADDR },
      dict := { s.dict with out := s.dict.out ++
        [⟨s.ownFrameTo 127 none 3 (publishMsg 0x4010 1 (leBytes 8 t)), 0⟩,
         ⟨s.ownFrameTo 127 none 3 (publishMsg 0x4010 2 (leBytes 8 s.rtc.secCal)), 0⟩,
         ⟨s.ownFrameTo 127 none 3 (publishMsg 0x4010 3 (leBytes 1 (b2n (s.on RTC.STAT_VALID)))), 0⟩] } } := by
  have hfresh : decide (s.rtc.secTick + 2500000 < s.tick) = false := decide_eq_false (by omega)
  have hgo : (decide (s.get MTIME.STATUS_STATE ≠ 4) || !s.domOn .link || !s.rtc.calDue ||
      decide (s.rtc.secTick + 2500000 < s.tick)) = false := by
    rw [hst, hlink, hdue, hfresh]; rfl
  change execCalendarPublish s = _
  simp only [execCalendarPublish, hsec, hgo, Bool.false_eq_true, if_false, State.publish_calendar, State.publishObj, leNat_quad,
    getBit_flagByte, State.get_fields, State.on, List.append_assoc, List.cons_append, List.nil_append, ne_eq, not_true_eq_false]
  rfl

end

/-- Settles O7: each command by what it answers, and the fields of the state it answers with. -/
theorem machineTimePinsAndCompareChannels : Obligations.MachineTimePinsAndCompareChannels := by
  refine ⟨?edge, fun s hsys hlate => exec_syncinTimeout_late hsys hlate, fun s hup => exec_mtReadCapture_reached hup, ?arm,
    fun t s hnext hst hdue hsys hen hgate => exec_mtSyncOutPulse_due hnext hst hdue hsys hen hgate, ?cmpArm, ?cmpPast, ?disarm, ?fire,
    fun t s hsec hst hlink hdue hnow => exec_calendarPublish_due hsec hst hlink hdue hnow,
    fun s ns hmode hen hgate hst => State.refOut_ungated hmode hen hgate hst⟩
  case edge =>
    intro t rising s hedge hsys hst
    obtain ⟨hlo, hhi, hset, honly⟩ := s.captureEdge_shown t
    exact ⟨_, exec_mtSyncInEdge_follower hedge hsys hst, hlo, hhi, hset, State.mem_pulse _ _ _, honly.withEv _⟩
  case arm =>
    intro hi s hup
    refine ⟨_, exec_syncoutArm_reached hup, ?_, (((OnlyRegs.refl _ s).set (by simp) _).withTm _).bus _⟩
    rw [State.get_fields, State.get_set_word]
  case cmpArm =>
    intro c hi s hup hdue
    have hanswer := exec_cmpArm_reached (hi := hi) hup
    rw [if_neg (by rw [hdue]; simp)] at hanswer
    obtain ⟨hinst, harmed, honly⟩ := s.keepInstant_armed c hi
    exact ⟨_, hanswer, hinst, harmed, honly.bus _⟩
  case cmpPast =>
    intro c hi s hup hdue
    rw [exec_cmpArm_reached hup, if_pos hdue]
    rfl
  case disarm =>
    intro mask s hup
    refine ⟨_, exec_reached_cmpDisarm hup, ?_, ((OnlyRegs.refl _ s).set (by simp) _).bus _⟩
    rw [State.get_fields, State.get_set_self]; rfl
  case fire =>
    intro c s harmed hruns hdue
    exact ⟨_, exec_cmpFire_due harmed hruns hdue, s.fireCmp_shown c⟩

end Sys2Proof.Machine

/-! ## What a bank that passes verification holds (03_schedules.md, R70 to R73) -/

namespace Sys2Proof.Machine

/-! ### The records of a bank -/

/-- The bytes of record `k` (R68). -/
def recordBytes (bytes : List Byte) (k : Nat) : List Byte := (bytes.drop (k * 32)).take 32

/-- The record in front of record `k`, of the first one `prev`. -/
def recordBefore (prev : Option Seg) (bytes : List Byte) : Nat → Option Seg
  | 0 => prev
  | k + 1 => some (Seg.ofBytes (recordBytes bytes k))

theorem recordBytes_drop (bytes : List Byte) (k : Nat) : recordBytes (bytes.drop 32) k = recordBytes bytes (k + 1) := by
  rw [recordBytes, recordBytes, List.drop_drop]
  congr 2
  omega

theorem recordBytes_take {k n : Nat} (hk : k < n) (bytes : List Byte) : recordBytes (bytes.take (n * 32)) k = recordBytes bytes k := by
  rw [recordBytes, recordBytes, List.drop_take, List.take_take, Nat.min_eq_left (by omega)]

theorem recordBefore_drop (prev : Option Seg) (bytes : List Byte) (k : Nat) :
    recordBefore (some (Seg.ofBytes (bytes.take 32))) (bytes.drop 32) k = recordBefore prev bytes (k + 1) := by
  cases k with
  | zero => rfl
  | succ k => rw [recordBefore, recordBefore, recordBytes_drop]

/-! ### One record (R72) -/

/-- The time of a record behind the one in front of it: it starts when that one has ended, and less than half the 40-bit range later
(R72 f). -/
def Seg.Follows (r p : Seg) : Prop :=
  p.dur ≤ (r.start + 2 ^ 40 - p.start) % 2 ^ 40 ∧ (r.start + 2 ^ 40 - p.start) % 2 ^ 40 < 2 ^ 39

/-- What the checks of R72 that are about a record, its limits, its place at the end and the record in front of it ask for. -/
structure RecordSound (q : SchedSt) (prev : Option Seg) (last : Bool) (bytes : List Byte) : Prop where
  crc : crc16 (bytes.take 30) = (Seg.ofBytes bytes).crc
  format : (Seg.ofBytes bytes).formatOk = true
  duration : (Seg.ofBytes bytes).durationOk = true
  follows : ∀ p, prev = some p → (Seg.ofBytes bytes).Follows p
  position : (Seg.ofBytes bytes).posOk (sgn 32 q.vPosMin) (sgn 32 q.vPosMax) = true
  velocity : (Seg.ofBytes bytes).kind = 0 → (Seg.ofBytes bytes).velOk (q.vVel : Nat) = true
  acceleration : (Seg.ofBytes bytes).kind = 0 → (Seg.ofBytes bytes).accOk (q.vAcc : Nat) = true
  atEnd : (Seg.ofBytes bytes).kind = 4 ↔ last = true

theorem recordReason_sound {q : SchedSt} {start0 : Nat} {prev : Option Seg} {last : Bool} {bytes : List Byte}
    (h : recordReason q start0 prev last bytes = 0) : RecordSound q prev last bytes := by
  simp only [recordReason, ite_eq_right_iff, ite_eq_iff, OfNat.ofNat_ne_zero, and_false, false_or] at h
  obtain ⟨hcrc, hkind, hformat, hdur, htime, hspan, hcont, hpos, hvel, hacc, hend⟩ := h
  simp only [Bool.or_eq_true, not_or, Bool.not_eq_true, Bool.not_eq_false'] at hformat
  refine ⟨not_not.1 hcrc, hformat.1, by simpa using hdur, ?_, by simpa using hpos, ?_, ?_, ?_⟩
  · rintro p rfl
    simp only [Bool.or_eq_true, not_or, Bool.not_eq_true', Bool.not_eq_false, Bool.and_eq_true, decide_eq_true_eq] at htime
    exact htime.1
  · intro hk; simpa [hk] using hvel
  · intro hk; simpa [hk] using hacc
  · have hlast : ((Seg.ofBytes bytes).kind == 4) = last := by simpa using hend
    rw [← hlast, beq_iff_eq]

/-! ### All records, and the bank (R72) -/

theorem recordsReason_sound {q : SchedSt} {start0 n i : Nat} {prev : Option Seg} {bytes : List Byte}
    (h : (recordsReason q start0 prev i n bytes).reason = 0) {k : Nat} (hk : k < n) :
    RecordSound q (recordBefore prev bytes k) (k + 1 == n) (recordBytes bytes k) := by
  induction n generalizing prev i bytes k with
  | zero => omega
  | succ n ih =>
    rw [recordsReason] at h
    split at h
    case isTrue hne => exact absurd h hne
    case isFalse hfirst =>
      cases k with
      | zero =>
        have hlast : (0 + 1 == n + 1) = (n == 0) := by rw [Bool.eq_iff_iff, beq_iff_eq, beq_iff_eq]; omega
        rw [hlast]
        exact recordReason_sound (not_not.1 hfirst)
      | succ k =>
        have hlast : (k + 1 + 1 == n + 1) = (k + 1 == n) := by rw [Bool.eq_iff_iff, beq_iff_eq, beq_iff_eq]; omega
        rw [hlast, ← recordBefore_drop, ← recordBytes_drop]
        exact ih h (by omega)

/-- What a verification that passes has found in the bank. -/
theorem verdict_sound {q : SchedSt} {b : List Byte} (h : (verdict q b).reason = 0) :
    1 ≤ q.vCount ∧ q.vCount ≤ 384 ∧ crc32c (b.take (q.vCount * 32)) = q.vCrc ∧
    ∀ k, k < q.vCount → RecordSound q (recordBefore none (b.take (q.vCount * 32)) k) (k + 1 == q.vCount) (recordBytes b k) := by
  rw [verdict] at h
  split at h
  case isTrue => simp at h
  case isFalse hcount =>
    dsimp only at h
    split at h
    case isTrue => simp at h
    case isFalse hcrc =>
      refine ⟨by omega, by omega, not_not.1 hcrc, fun k hk => ?_⟩
      rw [← recordBytes_take hk]
      exact recordsReason_sound h hk

/-- Settles O15: the verdict passes where every record passes, by induction on the records, each judged with the one in front of
it. -/
theorem verifiedSchedulesAreSound : Obligations.VerifiedSchedulesAreSound := by
  intro q b hpass _
  obtain ⟨hlo, hhi, hcrc, hrecords⟩ := verdict_sound hpass
  refine ⟨hlo, hhi, hcrc, fun i hi => ?_⟩
  have hr := hrecords i hi
  refine ⟨hr.crc, hr.atEnd.trans beq_iff_eq, hr.format, hr.duration, hr.position,
    fun hk => ⟨hr.velocity hk, hr.acceleration hk⟩, fun hpos => ?_⟩
  obtain ⟨k, rfl⟩ : ∃ k, i = k + 1 := ⟨i - 1, by omega⟩
  have hbefore : recordBytes (b.take (q.vCount * 32)) k = recordBytes b k := recordBytes_take (by omega) b
  exact hr.follows _ (by rw [recordBefore, hbefore]; rfl)

end Sys2Proof.Machine

/-! ## Arming, cancelling and making the switch (03_schedules.md, R77 to R80, R88) -/

namespace Sys2Proof.Machine

section
variable {s : State} {n : Fin 10}

/-! ### The back bank's state and the end of a switch attempt (R77, R78) -/

/-- A bank that becomes READY or ARMED keeps BACK_GEN (R77). -/
theorem State.setBack_keepsGen {st : Nat} (h : st = 3 ∨ st = 5) (s : State) (n : Fin 10) :
    s.setBack n st = s.set (SCHEDLD.L_BSTAT_BACK_STATE n) st := by
  rw [State.setBack]
  exact if_pos h

/-- A bank that is emptied shows no generation (R77). -/
theorem State.setBack_empties (s : State) (n : Fin 10) :
    s.setBack n 0 = (s.set (SCHEDLD.L_BSTAT_BACK_STATE n) 0).set (SCHEDLD.L_GEN_BACK_GEN n) 0 := rfl

theorem State.swDone_shown (s : State) (n : Fin 10) {code : Nat} (hcode : code < 32) :
    (s.swDone n code).get (SCHEDLD.L_SWSTAT_OUTCOME n) = code ∧ (s.swDone n code).get (SCHEDLD.L_SWSTAT_ARMED n) = 0 ∧
    (s.swDone n code).bit SCHEDLD.IRQ_STAT_SW_DONE n = true := by
  refine ⟨?_, ?_, State.bit_setBit_self n.isLt _ _⟩
  · simp (disch := (simp only [RF.key]; omega)) only [State.swDone, State.get_setBit, State.get_set_other, State.get_set_self]
    exact Nat.mod_eq_of_lt (by simp [RF.bound]; omega)
  · simp (disch := (simp only [RF.key]; omega)) only [State.swDone, State.get_setBit, State.get_set_other, State.get_set_self]
    rfl

theorem State.swDone_only (s : State) (n : Fin 10) (code : Nat) :
    OnlyRegs [SCHEDLD.L_SWSTAT_OUTCOME n, SCHEDLD.L_SWSTAT_ARMED n, SCHEDLD.IRQ_STAT_SW_DONE] s (s.swDone n code) :=
  (((OnlyRegs.refl _ s).set (by simp) _).set (by simp) _).setBit (by simp) _ _

/-! ### The loader's own state -/

theorem State.sched_schedOf_self (s : State) (n : Fin 10) (f : SchedSt → SchedSt) : (s.schedOf n f).sched[n] = f s.sched[n] :=
  Vector.getElem_set_self _

/-- The record of a command in the tick leaves the instant the lane is armed for. -/
theorem State.armS_landed (s : State) (n : Fin 10) (l : Option Landed) :
    (s.schedOf n fun q => { q with landed := l }).sched[n].armS = s.sched[n].armS := by
  rw [State.sched_schedOf_self]

theorem OnlyRegs.withSched {fs : List RF} {t : State} (h : OnlyRegs fs s t) (v : Vector SchedSt 10) :
    OnlyRegs fs { s with sched := v } { t with sched := v } :=
  ⟨h.1, h.2.1, congrArg (fun x : State => { x with sched := v }) h.2.2⟩

/-! ### The loader's commands (R76, R78, R80) -/

/-- A command of the lane's register, taken by the loader that is free: its own effect, and its record. -/
theorem State.busDo_loader (hup : s.accessible (SCHEDLD.L_CMD n) = true) (hfree : s.LoaderFree n) (c : SwCmd) :
    ∃ l, s.busDo (SCHEDLD.L_CMD n) (fun s => s.loader n c false) =
      .next { (s.loaderDo n c).schedOf n fun q => { q with landed := l } with bus := .ok 0 } := by
  obtain ⟨l, hl⟩ := State.loader_free hfree c false
  exact ⟨l, by rw [State.busDo_reached hup, hl]⟩

/-- ARM accepted, for the full instant `inst`. -/
def State.armFor (s : State) (n : Fin 10) (inst : Nat) : State :=
  (((s.set (SCHEDLD.L_BSTAT_BACK_STATE n) 5).set (SCHEDLD.L_SWSTAT_OUTCOME n) 1).set (SCHEDLD.L_SWSTAT_ARMED n) 1).schedOf n
    fun q => { q with armS := inst }

theorem State.arm_accepted {x : Nat} (hback : s.get (SCHEDLD.L_BSTAT_BACK_STATE n) = 3) (hvalid : s.timeValid = true)
    (hnewer : s.on (SCHEDLD.L_BSTAT_FRONT_VALID n) = false ∨
      newer 16 (s.get (SCHEDLD.L_GEN_BACK_GEN n)) (s.get (SCHEDLD.L_GEN_FRONT_GEN n)) = true)
    (hx : s.get (SCHEDLD.L_SWT_HI_S_HI n) * 2 ^ 32 + s.get (SCHEDLD.L_SWT_LO_S_LO n) = x)
    (hpast : (s.stamp40 x).2 = false) (hdue : s.due (s.stamp40 x).1 = false)
    (hfirst : ((s.seg n (s.backPhys n) 0).start + 2 ^ 40 - x) % 2 ^ 40 < 2 ^ 39) : s.arm n = s.armFor n (s.stamp40 x).1 := by
  have hgen : (s.on (SCHEDLD.L_BSTAT_FRONT_VALID n) &&
      !newer 16 (s.get (SCHEDLD.L_GEN_BACK_GEN n)) (s.get (SCHEDLD.L_GEN_FRONT_GEN n))) = false := by
    rcases hnewer with h | h <;> rw [h] <;> simp
  have hsoon : ((s.stamp40 x).2 || s.due (s.stamp40 x).1) = false := by rw [hpast, hdue]; rfl
  simp only [State.arm, hx, hback, hvalid, hgen, hsoon, Nat.not_le.2 hfirst, State.setBack_keepsGen (.inr rfl)]
  rfl

theorem State.arm_timeInvalid (hback : s.get (SCHEDLD.L_BSTAT_BACK_STATE n) ≠ 5) (hvalid : s.timeValid = false) :
    s.arm n = s.swDone n 0x14 := by
  simp [State.arm, hback, hvalid]

theorem State.arm_notReady (harmed : s.get (SCHEDLD.L_BSTAT_BACK_STATE n) ≠ 5) (hvalid : s.timeValid = true)
    (hback : s.get (SCHEDLD.L_BSTAT_BACK_STATE n) ≠ 3) : s.arm n = s.swDone n 0x10 := by
  simp [State.arm, harmed, hvalid, hback]

theorem State.armFor_shown (s : State) (n : Fin 10) (inst : Nat) :
    (s.armFor n inst).get (SCHEDLD.L_BSTAT_BACK_STATE n) = 5 ∧ (s.armFor n inst).get (SCHEDLD.L_SWSTAT_OUTCOME n) = 1 ∧
    (s.armFor n inst).get (SCHEDLD.L_SWSTAT_ARMED n) = 1 := by
  simp (disch := (simp only [RF.key]; omega)) only [State.armFor, State.get_schedOf, State.get_set_other, State.get_set_self]
  exact ⟨rfl, rfl, rfl⟩

theorem State.armFor_armS (s : State) (n : Fin 10) (inst : Nat) : (s.armFor n inst).sched[n].armS = inst := by
  rw [State.armFor, State.sched_schedOf_self]

theorem State.armFor_only (s : State) (n : Fin 10) (inst : Nat) (v : Vector SchedSt 10) :
    OnlyRegs [SCHEDLD.L_BSTAT_BACK_STATE n, SCHEDLD.L_SWSTAT_OUTCOME n, SCHEDLD.L_SWSTAT_ARMED n] { s with sched := v }
      { s.armFor n inst with sched := v } :=
  ((((OnlyRegs.refl _ s).set (by simp) _).set (by simp) _).set (by simp) _).withSched v

/-- CANCEL of a lane that is armed for an instant still to come (R80). -/
theorem State.cancel_armed (hfree : s.LoaderFree n) (harmed : s.on (SCHEDLD.L_SWSTAT_ARMED n) = true) :
    s.cancel n = (s.setBack n 3).swDone n 3 := by
  have hdue : s.due s.sched[n].armS = false := hfree.1.resolve_left (by rw [harmed]; simp)
  rw [State.cancel, harmed, hdue]; rfl

theorem State.cancel_notArmed (harmed : s.on (SCHEDLD.L_SWSTAT_ARMED n) = false) :
    s.cancel n = s.set (SCHEDLD.L_SWSTAT_TOO_LATE n) 1 := by
  rw [State.cancel, harmed]; rfl

/-! ### The switch (R79, R88) -/

theorem State.switchAt_due (harmed : s.on (SCHEDLD.L_SWSTAT_ARMED n) = true) (hdue : s.due s.sched[n].armS = true)
    (hlane : s.domOn .lane = true) : s.switchAt n = match (s.advance n s.sched[n].armS).switchRefusal n with
      | some c => ((s.advance n s.sched[n].armS).setBack n 3).swDone n c
      | none => (s.advance n s.sched[n].armS).switchBanks n := by
  rw [State.switchAt, harmed, hdue, hlane]; rfl

/-- The registers of a switch (R79): the banks exchange roles, the back bank is empty, and the lane is in no record. -/
def State.swapBanks (s : State) (n : Fin 10) : State :=
  let s := s.set (SCHEDLD.L_GEN_FRONT_GEN n) (s.get (SCHEDLD.L_GEN_BACK_GEN n))
  let s := (s.set (SCHEDLD.L_BSTAT_FRONT_PHYS n) (s.backPhys n)).set (SCHEDLD.L_BSTAT_FRONT_VALID n) 1
  (((s.setBack n 0).swDone n 2).set (LANE.STAT_ENDED n) 0).set (LANE.STAT_IN_SEG n) 0

/-- A lane's player after a switch (R79, R88): it plays from record 0 and holds `p` until that record starts. -/
def LaneSt.awaitFirst (l : LaneSt) (ready : Bool) (p first : Nat) : LaneSt :=
  { l with
    playing := true, started := false, holding := true, coasting := false, acts := [], held := p, nxt := some (0, first)
    iacc := if ready then 0 else l.iacc, iiA := if ready then 0 else l.iiA, iiB := if ready then 0 else l.iiB }

/-- The lane of `s` after a switch that finds it READY or not. -/
def State.awaitFirst (s : State) (n : Fin 10) (ready : Bool) : State :=
  s.lane n fun l => l.awaitFirst ready (s.get (LANE.POS_CMD_P n)) (s.stamp40 (s.seg n (s.frontPhys n) 0).start).1

theorem State.switchBanks_ready (h : s.get (LANE.STAT_LSTATE n) = 2) :
    s.switchBanks n = ((s.swapBanks n).awaitFirst n true).setLstate n 3 := by
  rw [State.switchBanks, h]; rfl

theorem State.switchBanks_notReady (h : s.get (LANE.STAT_LSTATE n) ≠ 2) :
    s.switchBanks n = (s.swapBanks n).awaitFirst n false := by
  rw [State.switchBanks, beq_false_of_ne h]; rfl

/-- The switch shows in the bank registers (R77, R79). -/
theorem State.swapBanks_banks (s : State) (n : Fin 10) :
    (s.swapBanks n).get (SCHEDLD.L_GEN_FRONT_GEN n) = s.get (SCHEDLD.L_GEN_BACK_GEN n) % 2 ^ 16 ∧
    (s.swapBanks n).get (SCHEDLD.L_BSTAT_FRONT_PHYS n) = s.backPhys n % 2 ∧
    (s.swapBanks n).get (SCHEDLD.L_BSTAT_FRONT_VALID n) = 1 ∧ (s.swapBanks n).get (SCHEDLD.L_BSTAT_BACK_STATE n) = 0 ∧
    (s.swapBanks n).get (SCHEDLD.L_GEN_BACK_GEN n) = 0 := by
  have hn := n.isLt
  simp (disch := (simp only [RF.key, SCHEDLD.IRQ_STAT, SCHEDLD.L_BSTAT, SCHEDLD.L_GEN, SCHEDLD.L_SWSTAT, LANE.STAT]; omega)) only
    [State.swapBanks, State.swDone, State.setBack_empties, State.backPhys, State.get_setBit, State.get_set_other, State.get_set_self]
  exact ⟨rfl, rfl, rfl, rfl, rfl⟩

/-- The switch is an end of the attempt, with OUTCOME 2 (R79). -/
theorem State.swapBanks_outcome (s : State) (n : Fin 10) :
    (s.swapBanks n).get (SCHEDLD.L_SWSTAT_OUTCOME n) = 2 ∧ (s.swapBanks n).get (SCHEDLD.L_SWSTAT_ARMED n) = 0 ∧
    (s.swapBanks n).bit SCHEDLD.IRQ_STAT_SW_DONE n = true := by
  have hn := n.isLt
  simp (disch := (simp only [RF.key, SCHEDLD.IRQ_STAT, SCHEDLD.L_SWSTAT, LANE.STAT]; omega)) only
    [State.swapBanks, State.bit, State.get_set_other]
  exact State.swDone_shown _ n (by decide)

theorem State.swapBanks_lane (s : State) (n : Fin 10) :
    (s.swapBanks n).get (LANE.STAT_LSTATE n) = s.get (LANE.STAT_LSTATE n) ∧
    (s.swapBanks n).get (LANE.POS_CMD_P n) = s.get (LANE.POS_CMD_P n) := by
  have hn := n.isLt
  simp (disch := (simp only [RF.key, SCHEDLD.IRQ_STAT, SCHEDLD.L_BSTAT, SCHEDLD.L_GEN, SCHEDLD.L_SWSTAT, LANE.STAT, LANE.POS_CMD]; omega))
    only [State.swapBanks, State.swDone, State.setBack_empties, State.get_setBit, State.get_set_other, and_self]

theorem State.setLstate_fields (s : State) (n st : Nat) :
    s.setLstate n st = { s with regs := (s.setLstate n st).regs, now := (s.setLstate n st).now } := by
  unfold State.setLstate
  split <;> rfl

theorem State.get_switchBanks_sched {g : RF} (hl : g.lo < 32) (hg : SCHEDLD.CTRL ≤ g.addr) (s : State) (n : Fin 10) :
    (s.switchBanks n).get g = (s.swapBanks n).get g := by
  by_cases h : s.get (LANE.STAT_LSTATE n) = 2
  · have hn := n.isLt
    have haddr : 0x50200000 ≤ g.addr := hg
    have hapart : timeLostRegs n g.addr = false := by
      simp [LANE.STAT, LANE.IRQ_STAT, LANE.FLT_STAT, LANE.FLT_IRQ_STAT]; omega
    rw [State.switchBanks_ready h, (State.setLstate_alone _ n 3).regs g hl hapart]
    rfl
  · rw [State.switchBanks_notReady h]
    rfl

/-- What the switch shows in the loader's registers (R77, R79). -/
theorem State.switchBanks_shown (s : State) (n : Fin 10) :
    (s.switchBanks n).get (SCHEDLD.L_GEN_FRONT_GEN n) = s.get (SCHEDLD.L_GEN_BACK_GEN n) % 2 ^ 16 ∧
    (s.switchBanks n).frontPhys n = s.backPhys n % 2 ∧ (s.switchBanks n).on (SCHEDLD.L_BSTAT_FRONT_VALID n) = true ∧
    (s.switchBanks n).get (SCHEDLD.L_BSTAT_BACK_STATE n) = 0 ∧ (s.switchBanks n).get (SCHEDLD.L_GEN_BACK_GEN n) = 0 ∧
    (s.switchBanks n).get (SCHEDLD.L_SWSTAT_OUTCOME n) = 2 ∧ (s.switchBanks n).get (SCHEDLD.L_SWSTAT_ARMED n) = 0 ∧
    (s.switchBanks n).bit SCHEDLD.IRQ_STAT_SW_DONE n = true := by
  obtain ⟨hfrontGen, hphys, hvalid, hstate, hbackGen⟩ := s.swapBanks_banks n
  obtain ⟨houtcome, harmed, hdone⟩ := s.swapBanks_outcome n
  simp (disch := (simp only [SCHEDLD.CTRL, SCHEDLD.IRQ_STAT, SCHEDLD.L_BSTAT, SCHEDLD.L_GEN, SCHEDLD.L_SWSTAT]; omega)) only
    [State.frontPhys, State.on, State.bit, State.get_switchBanks_sched]
  exact ⟨hfrontGen, hphys, beq_iff_eq.2 hvalid, hstate, hbackGen, houtcome, harmed, hdone⟩

/-- A READY lane becomes ACTIVE, another stays as it is (R79). -/
theorem State.switchBanks_lstate (s : State) (n : Fin 10) : (s.switchBanks n).get (LANE.STAT_LSTATE n) =
    if s.get (LANE.STAT_LSTATE n) = 2 then 3 else s.get (LANE.STAT_LSTATE n) := by
  split
  case isTrue h => rw [State.switchBanks_ready h, State.get_setLstate_self _ n (by decide)]
  case isFalse h =>
    rw [State.switchBanks_notReady h]
    exact (s.swapBanks_lane n).1

theorem State.switchBanks_awaits (s : State) (n : Fin 10) : ∃ ready first,
    (s.switchBanks n).lanes[n] = s.lanes[n].awaitFirst ready (s.get (LANE.POS_CMD_P n)) first := by
  have hheld : ∀ ready, ∃ first, ((s.swapBanks n).awaitFirst n ready).lanes[n] =
      s.lanes[n].awaitFirst ready (s.get (LANE.POS_CMD_P n)) first := fun ready =>
    ⟨_, by rw [State.awaitFirst, State.lanes_lane_self, (s.swapBanks_lane n).2]; rfl⟩
  by_cases h : s.get (LANE.STAT_LSTATE n) = 2
  · rw [State.switchBanks_ready h, State.setLstate_fields]
    exact ⟨true, hheld true⟩
  · rw [State.switchBanks_notReady h]
    exact ⟨false, hheld false⟩

theorem State.switchBanks_memory (s : State) (n : Fin 10) : SameMemory s (s.switchBanks n) := by
  by_cases h : s.get (LANE.STAT_LSTATE n) = 2
  · rw [State.switchBanks_ready h, State.setLstate_fields]
    exact fun _ => rfl
  · rw [State.switchBanks_notReady h]
    exact fun _ => rfl

/-! ### The actions of records (R71) -/

/-- The actions that wait for their instant are left, those that are due fall away (R71). -/
def State.dropDueActs (u : State) (n : Fin 10) : State := u.lane n fun l => { l with acts := l.acts.filter fun a => !u.due a.inst }

theorem exec_segmentActionsFire (s : State) (n : Fin 10) :
    let u := (s.switchAt n).advance n (s.mt + 3)
    exec (.segmentActionsFire n) s = if (u.dropDueActs n).get (LANE.STAT_LSTATE n) = 4 then .next (u.dropDueActs n)
      else .next ((u.lanes[n].acts.filter fun a => u.due a.inst).foldl (fun s a => s.fireActs n a) (u.dropDueActs n)) := rfl

end

/-- Settles O14: the loader's commands by what each does to a lane that it finds so, the switch by its registers and by the player
that it leaves. -/
theorem epochSwitching : Obligations.EpochSwitching := by
  refine ⟨?arm, ?refused, ?outcome, ?cancel, ?switch, ?banks, ?actions⟩
  case arm =>
    intro n s hup hfree hback hvalid hnewer x hpast hdue hfirst
    have hx : s.get (SCHEDLD.L_SWT_HI_S_HI n) * 2 ^ 32 + s.get (SCHEDLD.L_SWT_LO_S_LO n) = x := rfl
    clear_value x
    have harm := State.arm_accepted hback hvalid hnewer hx hpast hdue hfirst
    obtain ⟨l, hl⟩ := State.busDo_loader hup hfree .arm
    have hexec : exec (.arm n) s = _ := hl
    rw [State.loaderDo, harm] at hexec
    obtain ⟨hstate, houtcome, harmed⟩ := s.armFor_shown n (s.stamp40 x).1
    refine ⟨_, hexec, ?_, ?_, ?_, ?_, ?_⟩
    · rwa [State.get_fields, State.get_schedOf]
    · rwa [State.get_fields, State.get_schedOf]
    · rwa [State.get_fields, State.get_schedOf]
    · exact (State.armS_landed _ n l).trans (s.armFor_armS n _)
    · exact (s.armFor_only n _ _).bus _
  case refused =>
    intro n s hup hfree harmed
    obtain ⟨l, hl⟩ := State.busDo_loader hup hfree .arm
    exact ⟨fun hvalid => ⟨l, State.arm_timeInvalid harmed hvalid ▸ hl⟩,
      fun hvalid hback => ⟨l, State.arm_notReady harmed hvalid hback ▸ hl⟩⟩
  case outcome =>
    intro n code s hcode
    obtain ⟨houtcome, harmed, hdone⟩ := s.swDone_shown n hcode
    exact ⟨houtcome, harmed, hdone, s.swDone_only n code⟩
  case cancel =>
    intro n s hup hfree
    obtain ⟨l, hl⟩ := State.busDo_loader hup hfree .cancel
    exact ⟨fun harmed => ⟨l, State.cancel_armed hfree harmed ▸ hl⟩, fun harmed => ⟨l, State.cancel_notArmed harmed ▸ hl⟩⟩
  case switch =>
    intro n s harmed hdue hlane u
    have hexec : exec (.epochSwitch n) s = .next (s.switchAt n) := rfl
    rw [State.switchAt_due harmed hdue hlane] at hexec
    exact ⟨fun hnone => by rw [hexec, hnone], fun c hrefused => by rw [hexec, hrefused]⟩
  case banks =>
    intro n s t
    obtain ⟨hfrontGen, hphys, hvalid, hstate, hbackGen, houtcome, harmed, hdone⟩ := s.switchBanks_shown n
    have hlstate : t.get (LANE.STAT_LSTATE n) = _ := s.switchBanks_lstate n
    obtain ⟨ready, first, hawaits⟩ := s.switchBanks_awaits n
    have hlane : t.lanes[n] = s.lanes[n].awaitFirst ready (s.get (LANE.POS_CMD_P n)) first := hawaits
    refine ⟨hfrontGen, hphys, hvalid, hstate, hbackGen, houtcome, harmed, hdone, fun h => by rw [hlstate, if_pos h],
      fun h => by rw [hlstate, if_neg h], ?_, ?_, ?_, ?_, s.switchBanks_memory n⟩
    all_goals rw [hlane]; rfl
  case actions =>
    intro n s u w
    have hexec := exec_segmentActionsFire s n
    exact ⟨fun hst => hexec.trans (if_neg hst), fun hst => hexec.trans (if_pos hst)⟩

end Sys2Proof.Machine

/-! ## A copy started in the clock in which the device sets ERR (00_scope.md, R10; 03_schedules.md, R75, R76) -/

namespace Sys2Proof.Machine

section
variable {s : State} {a v : Nat} {p : Fld → Bool} {lk : Bool} {f : Fld}

/-! ### Bits that the device sets in the clock of a write (R10) -/

/-- A write of plain and read-only fields leaves every other field. -/
theorem State.get_writeFields_plain {g : RF} (h : ∀ f ∈ (fieldsAt a).filter p, g.key ≠ 32 * a + f.lo ∧ f.acc ∈ [Access.rw, .ro])
    (s : State) : (s.writeFields p a v lk).get g = s.get g := by
  refine List.foldlRecOn _ _ (motive := fun t : State => t.get g = s.get g) rfl fun t ht f hf => ?_
  obtain ⟨hkey, hacc⟩ := h f hf
  exact (State.get_writeField_other t a v lk f g hkey fun hi lo hovf => by simp [hovf] at hacc).trans ht

theorem State.raised_writeFields (s : State) (g : RF) : (s.writeFields p a v lk).raised g = s.raised g := by
  rw [(s.writeFields_frame p a v lk).2.2]; rfl

/-- A W1C bit that the device sets in the clock of the write reads 1 afterwards, whatever is written (R10). -/
theorem State.get_writeFields_w1c_raised (hf : f ∈ fieldsAt a) (hp : p f = true) (hacc : f.acc = .w1c) (hbit : f.hi = f.lo)
    (hset : s.get ⟨a, f.hi, f.lo⟩ = 1) (hraised : s.raised ⟨a, f.hi, f.lo⟩ = 1) :
    (s.writeFields p a v lk).get ⟨a, f.hi, f.lo⟩ = 1 := by
  rw [State.get_writeFields s p a v lk f hf hp (by rw [hacc]; decide), State.get_writeField_w1c s a v lk hacc, hset, hraised,
    RF.bound_bit (ovf := ⟨a, f.hi, f.lo⟩) hbit]
  exact Nat.or_mod_two_eq_one.2 (.inr rfl)

/-! ### COPY_START (R75, R76) -/

/-- COPY_CTRL written: its plain fields, then its W1C bits. -/
def State.writeCopyCtrl (s : State) (v : Word) : State :=
  (s.writeFields (fun f => f.acc != .w1c && f.acc != .wo) SCHEDLD.COPY_CTRL v.toNat false).writeFields (fun f => f.acc == .w1c)
    SCHEDLD.COPY_CTRL v.toNat false

/-- What START does once the other fields of COPY_CTRL are in force. -/
def State.startCopy (s : State) : State :=
  if s.on SCHEDLD.COPY_CTRL_BUSY then s
  else
    let src := s.get SCHEDLD.COPY_SRC_SRC * 32
    let cnt := s.get SCHEDLD.COPY_CTRL_COUNT
    let ln := s.get SCHEDLD.COPY_CTRL_LANE
    let b := s.get (SCHEDLD.L_BSTAT_BACK_STATE ln)
    if b = 2 ∨ b = 5 ∨ !inSram src (cnt * 32) then s.set SCHEDLD.COPY_CTRL_ERR 1
    else
      let s := s.set SCHEDLD.COPY_CTRL_BUSY 1
      let s := if h : ln < 10 then s.setBack ⟨ln, h⟩ 1 else s
      { s with copy := ⟨src, cnt, ln, s.on SCHEDLD.COPY_CTRL_AUTO_VERIFY⟩ }

theorem exec_copyStart_reached {v : Word} (hup : s.accessible SCHEDLD.COPY_CTRL = true) :
    exec (.copyStart v) s = .next { (s.writeCopyCtrl v).startCopy with bus := .ok 0 } :=
  State.busDo_reached hup fun s => (s.writeCopyCtrl v).startCopy

theorem State.err_writeCopyCtrl_raised (v : Word) (hset : s.get SCHEDLD.COPY_CTRL_ERR = 1)
    (hraised : s.raised SCHEDLD.COPY_CTRL_ERR = 1) : (s.writeCopyCtrl v).get SCHEDLD.COPY_CTRL_ERR = 1 :=
  State.get_writeFields_w1c_raised (f := ⟨25, 25, .w1c, 0, .any, false⟩) (by decide) rfl rfl rfl
    ((State.get_writeFields_plain (by decide) s).trans hset) ((State.raised_writeFields s _).trans hraised)

theorem State.get_setBack_other {g : RF} {n : Fin 10} (hstate : g.key ≠ (SCHEDLD.L_BSTAT_BACK_STATE n).key)
    (hgen : g.key ≠ (SCHEDLD.L_GEN_BACK_GEN n).key) (s : State) (st : Nat) : (s.setBack n st).get g = s.get g := by
  rw [State.setBack]
  split
  · exact State.get_set_other hstate s st
  · rw [State.get_set_other hgen, State.get_set_other hstate]

/-- Starting a copy clears ERR in no case. -/
theorem State.err_startCopy (hset : s.get SCHEDLD.COPY_CTRL_ERR = 1) : s.startCopy.get SCHEDLD.COPY_CTRL_ERR = 1 := by
  unfold State.startCopy
  split
  case isTrue => exact hset
  case isFalse =>
    extract_lets src cnt ln b t u
    split
    case isTrue => exact State.get_set_self s _ 1
    case isFalse =>
      have hbusy : t.get SCHEDLD.COPY_CTRL_ERR = 1 := (State.get_set_other (by decide) s 1).trans hset
      have hback : u.get SCHEDLD.COPY_CTRL_ERR = 1 := by
        simp only [u]
        split
        · refine (State.get_setBack_other ?_ ?_ t 1).trans hbusy <;> simp only [RF.key, SCHEDLD.L_BSTAT, SCHEDLD.L_GEN] <;> omega
        · exact hbusy
      exact hback

end

/-- Refutes O13, by its first clause: an ERR that the device sets in the clock in which COPY_CTRL is written, as for a copy it
has refused in that tick, reads 1 afterwards (R10), though the copy is legal and ERR is written 1. -/
theorem not_scheduleCopyAndVerify : ¬ Obligations.ScheduleCopyAndVerify := by
  rintro ⟨hcopy, _⟩
  let s : State := (State.reset.set SCHEDLD.COPY_SRC_SRC (0x20000000 / 32)).set SCHEDLD.COPY_CTRL_ERR 1
  have hup : s.accessible SCHEDLD.COPY_CTRL = true := by decide
  obtain ⟨t, hexec, _, hclear, _⟩ := hcopy 0 0x06010000 s hup (by decide) (by decide) (by decide) (by decide) (by decide) (by decide)
    (by decide) (by decide) (by decide)
  have hkept : (s.writeCopyCtrl 0x06010000).startCopy.get SCHEDLD.COPY_CTRL_ERR = 1 :=
    State.err_startCopy (State.err_writeCopyCtrl_raised _ (by decide) (by decide))
  rw [exec_copyStart_reached hup] at hexec
  cases hexec
  rw [State.get_fields, hkept] at hclear
  cases hclear

end Sys2Proof.Machine

/-! ## The bounds of the loops and of the pulse widths (04_lanes.md, R93, R96 to R98) -/

namespace Sys2Proof.Machine

/-! ### The loops (R93, R97) -/

theorem clampI_natAbs_le (x : Int) {l : Int} (h : 0 ≤ l) : (clampI x l).natAbs ≤ l.natAbs := by
  unfold clampI
  omega

theorem currentPi_bounded {vlim : Int} (kpc kic ii e : Int) (h : 0 ≤ vlim) :
    (currentPi kpc kic vlim ii e).1.natAbs ≤ (vlim * 256).natAbs ∧ (currentPi kpc kic vlim ii e).2.natAbs ≤ vlim.natAbs :=
  ⟨clampI_natAbs_le _ (by omega), clampI_natAbs_le _ h⟩

theorem State.posLoop_bounded (s : State) (n : Fin 10) (ep dp dm : Int) :
    (s.posLoop n ep dp dm).1.natAbs ≤ s.get (LANE.IQCFG_IQMAX n) ∧
    (s.posLoop n ep dp dm).2.natAbs ≤ s.get (LANE.IQCFG_IQMAX n) * 2 ^ 24 := by
  have hiqmax : (0 : Int) ≤ s.get (LANE.IQCFG_IQMAX n) := Int.natCast_nonneg _
  have hiq : (s.posLoop n ep dp dm).1.natAbs ≤ (s.get (LANE.IQCFG_IQMAX n) : Int).natAbs := clampI_natAbs_le _ hiqmax
  have hiacc : (s.posLoop n ep dp dm).2.natAbs ≤ ((s.get (LANE.IQCFG_IQMAX n) : Int) * 2 ^ 24).natAbs :=
    clampI_natAbs_le _ (Int.mul_nonneg hiqmax (by decide))
  omega

theorem commonMode_bounded (svm : Bool) (a b c : Int) : (commonMode svm a b c).1.natAbs ≤ 32767 ∧
    (commonMode svm a b c).2.1.natAbs ≤ 32767 ∧ (commonMode svm a b c).2.2.natAbs ≤ 32767 :=
  ⟨clampI_natAbs_le _ (by decide), clampI_natAbs_le _ (by decide), clampI_natAbs_le _ (by decide)⟩

/-! ### The pulse widths (R98) -/

theorem width2_le {v : Int} (hv : v.natAbs ≤ 32767) (p : Nat) : width2 v p ≤ p :=
  Nat.div_le_of_le_mul (Nat.mul_le_mul_right p (by omega))

theorem width3_le {v : Int} (hv : v.natAbs ≤ 32767) (p : Nat) : width3 v p ≤ p :=
  Nat.div_le_of_le_mul (Nat.mul_le_mul_right p (by omega))

theorem limitWidth_short {w minon : Nat} (h : w < minon) (p minoff : Nat) : limitWidth w p minon minoff = 0 := if_pos h

theorem limitWidth_long {w p minon minoff : Nat} (hon : minon ≤ w) (h : p - minoff < w) :
    limitWidth w p minon minoff = p - minoff := by
  rw [limitWidth, if_neg (by omega), if_pos h]

theorem limitWidth_kept {w p minon minoff : Nat} (hon : minon ≤ w) (h : w ≤ p - minoff) : limitWidth w p minon minoff = w := by
  rw [limitWidth, if_neg (by omega), if_neg (by omega)]

theorem limitWidth_bounded {w p : Nat} (minon minoff : Nat) (hw : w ≤ p) :
    let r := limitWidth w p minon minoff
    r ≤ p ∧ (r = 0 ∨ minon ≤ r ∨ r = p - minoff) ∧ (r = w ∨ r = 0 ∨ r = p - minoff) := by
  by_cases hon : w < minon
  · rw [limitWidth_short hon]
    exact ⟨Nat.zero_le p, .inl rfl, .inr (.inl rfl)⟩
  · by_cases hoff : p - minoff < w
    · rw [limitWidth_long (Nat.le_of_not_lt hon) hoff]
      exact ⟨Nat.sub_le p minoff, .inr (.inr rfl), .inr (.inr rfl)⟩
    · rw [limitWidth_kept (Nat.le_of_not_lt hon) (Nat.le_of_not_lt hoff)]
      exact ⟨hw, .inr (.inl (Nat.le_of_not_lt hon)), .inl rfl⟩

/-- What the two outputs of a bridge are high for (R98): they differ by the width, on the side that the voltage's sign names. -/
theorem bridge_differs {w p : Nat} (v : Int) (decay : Bool) (hw : w ≤ p) :
    let o := bridge v w p decay
    o.1 ≤ p ∧ o.2 ≤ p ∧ (0 ≤ v → o.1 = o.2 + w) ∧ (v < 0 → o.2 = o.1 + w) := by
  by_cases hv : 0 ≤ v
  · cases decay <;> simp only [bridge, if_pos hv, if_true, Bool.false_eq_true, if_false] <;> omega
  · cases decay <;> simp only [bridge, if_neg hv, if_true, Bool.false_eq_true, if_false] <;> omega

/-- Settles O18: the loops end in a clamp, and a width is a share of the period that the minimum times take to 0 or to the longest. -/
theorem loopOutputsAreBounded : Obligations.LoopOutputsAreBounded :=
  ⟨fun kpc kic _ ii e => currentPi_bounded kpc kic ii e, State.posLoop_bounded, commonMode_bounded,
    fun _ p hv => ⟨width2_le hv p, width3_le hv p⟩, fun _ _ minon minoff hw => limitWidth_bounded minon minoff hw,
    fun v _ _ decay hw => bridge_differs v decay hw⟩

end Sys2Proof.Machine

/-! ## Lane ticks, the frame sequencer and the writes that wait (04_lanes.md, R83, R85, R100, R105) -/

namespace Sys2Proof.Machine

section
variable {s t : State} {n : Fin 10}

/-! ### A lane's own state -/

theorem State.lanes_lane (s : State) (n m : Fin 10) (f : LaneSt → LaneSt) :
    (s.lane n f).lanes[m] = if m = n then f s.lanes[m] else s.lanes[m] := by
  by_cases h : m = n
  · rw [if_pos h, h, State.lanes_lane_self]
  · rw [if_neg h]
    exact Vector.getElem_set_ne n.isLt m.isLt fun hval => h (Fin.ext hval.symm)

/-! ### What the objects show (R105) -/

/-- A register shows what the state holds, whatever the lane's objects were. -/
theorem State.viewReg_objs (s : State) (n : Fin 10) (objs : List Nat) (a : Nat) :
    (s.lane n fun l => { l with objs := objs }).viewReg a = s.viewReg a := by
  have hshown : ∀ m : Fin 10, (s.lane n fun l => { l with objs := objs }).laneShown m a = s.laneShown m a := by
    intro m
    unfold State.laneShown
    rw [State.lanes_lane]
    by_cases h : m = n
    · rw [if_pos h]; rfl
    · rw [if_neg h]; rfl
  unfold State.viewReg
  iterate 6 refine if_congr Iff.rfl rfl ?_
  generalize blockOf a = b
  split
  next m =>
    by_cases hm : m < 10
    · simp only [dif_pos hm, hshown]
    · simp only [dif_neg hm]
  next => rfl

theorem State.laneObjs_objs (s : State) (n : Fin 10) (objs : List Nat) (k : Nat) :
    (s.lane n fun l => { l with objs := objs }).laneObjs k = s.laneObjs k := by
  have hread : (s.lane n fun l => { l with objs := objs }).readReg = s.readReg := by
    funext a
    rw [State.readReg, State.viewReg_objs]
    rfl
  rw [State.laneObjs, hread, State.laneObjs]

theorem State.completeDue_due {t : Nat} (hdone : s.lanes[n].doneAt = some t) (h : t ≤ s.tick) :
    s.completeDue n = s.completeTick n := by
  rw [State.completeDue, hdone]
  exact if_pos h

theorem State.completeDue_early {t : Nat} (hdone : s.lanes[n].doneAt = some t) (h : s.tick < t) : s.completeDue n = s := by
  rw [State.completeDue, hdone]
  exact if_neg (Nat.not_le.2 h)

theorem State.completeTick_shown (s : State) (n : Fin 10) :
    (s.completeTick n).lanes[n].objs = (s.completeTick n).laneObjs n ∧ (s.completeTick n).lanes[n].shown = [] ∧
    (s.completeTick n).lanes[n].doneAt = none ∧ (s.completeTick n).regs = s.regs := by
  rw [State.completeTick, State.laneObjs_objs]
  simp only [State.lanes_lane_self, State.regs_lane, and_self]

/-! ### Frames start (R83) -/

theorem State.tickFrames_waiting {t : Nat} (hwait : s.frame.startAt = some t) (hst : s.get MTIME.STATUS_STATE ≠ 0) :
    s.tickFrames = if s.mt % s.frame.period = 0 then s.startFrame.set ADCSEQ.STAT_ALIGNED 1 else s := by
  rw [State.tickFrames, hwait]
  exact if_neg hst

theorem State.startFrame_shown (s : State) : s.startFrame.get ADCSEQ.STAT_RUNNING = 1 ∧
    s.startFrame.get ADCSEQ.FRAME_CNT_COUNT = (s.get ADCSEQ.FRAME_CNT_COUNT + 1) % 2 ^ 32 := by
  simp (disch := decide) only [State.startFrame, State.get_fields, State.get_set_other, State.get_set_self]
  exact ⟨rfl, Nat.mod_mod _ _⟩

theorem State.get_startFrame_other {g : RF} (hrun : g.key ≠ ADCSEQ.STAT_RUNNING.key) (hcnt : g.key ≠ ADCSEQ.FRAME_CNT_COUNT.key)
    (s : State) : s.startFrame.get g = s.get g := by
  rw [State.startFrame, State.get_fields, State.get_set_other hcnt, State.get_set_other hrun]

/-! ### SLOT_EN (R85) -/

theorem setBit_split (v i : Nat) (b : Bool) : setBit v i b = 2 ^ i * (2 * (v / 2 ^ i / 2) + b2n b) + v % 2 ^ i := by
  have hv : 2 ^ i * (2 * (v / 2 ^ i / 2) + v / 2 ^ i % 2) + v % 2 ^ i = v := by rw [Nat.div_add_mod, Nat.div_add_mod]
  have hbit : (if b then 2 ^ i else 0) = 2 ^ i * b2n b := by cases b <;> simp [b2n]
  rw [Nat.mul_add] at hv
  rw [setBit, hbit, Nat.mul_add, Nat.mul_comm (v / 2 ^ i % 2)]
  omega

theorem getBit_setBit_other {i j : Nat} (h : j ≠ i) (v : Nat) (b : Bool) : getBit (setBit v i b) j = getBit v j := by
  have hlow : v % 2 ^ i < 2 ^ i := Nat.mod_lt v (Nat.two_pow_pos i)
  rw [getBit_eq_testBit, getBit_eq_testBit, setBit_split, Nat.testBit_two_pow_mul_add _ hlow]
  by_cases hj : j < i
  · rw [if_pos hj, Nat.testBit_mod_two_pow, decide_eq_true hj, Bool.true_and]
  · obtain ⟨k, rfl⟩ : ∃ k, j = i + (k + 1) := ⟨j - i - 1, by omega⟩
    have hhigh : (2 * (v / 2 ^ i / 2) + b2n b) / 2 = v / 2 ^ i / 2 := by unfold b2n; split <;> omega
    rw [if_neg hj, Nat.add_sub_cancel_left, Nat.testBit_succ, hhigh, ← Nat.testBit_succ, Nat.testBit_div_two_pow,
      Nat.add_comm]

/-- One bit of a SLOT_EN write: it changes where its lane is OFF; the flag notes that a change was ignored. -/
def State.writeSlot (s : State) (want old : Nat) (x : Nat × Bool) (i : Nat) : Nat × Bool :=
  if getBit want i = getBit old i then x
  else if s.get (LANE.STAT_LSTATE (i / 2)) = 0 then (Machine.setBit x.1 i (getBit want i), x.2)
  else (x.1, true)

/-- What a CTRL write leaves in SLOT_EN, and whether a change was ignored. -/
def State.slotEn (s : State) (v : Nat) : Nat × Bool :=
  (List.range 20).foldl (s.writeSlot (bits v 19 0) (s.get ADCSEQ.CTRL_SLOT_EN)) (s.get ADCSEQ.CTRL_SLOT_EN, false)

theorem State.writeSlotEn_eq (s : State) (v : Nat) : s.writeSlotEn v =
    if (s.slotEn v).2 then (s.set ADCSEQ.CTRL_SLOT_EN (s.slotEn v).1).set ADCSEQ.STAT_CFG_IGN 1
    else s.set ADCSEQ.CTRL_SLOT_EN (s.slotEn v).1 := rfl

theorem State.writeSlotEn_only (s : State) (v : Nat) :
    OnlyRegs [ADCSEQ.CTRL_SLOT_EN, ADCSEQ.STAT_CFG_IGN] s (s.writeSlotEn v) := by
  have hslots := (OnlyRegs.refl [ADCSEQ.CTRL_SLOT_EN, ADCSEQ.STAT_CFG_IGN] s).set (f := ADCSEQ.CTRL_SLOT_EN) (by simp) (s.slotEn v).1
  rw [State.writeSlotEn_eq]
  split
  · exact hslots.set (by simp) 1
  · exact hslots

theorem State.writeSlotEn_fields (s : State) (v : Nat) : (s.writeSlotEn v).tick = s.tick ∧ (s.writeSlotEn v).frame = s.frame := by
  rw [(s.writeSlotEn_only v).2.2]
  exact ⟨rfl, rfl⟩

theorem State.get_writeSlotEn_other {g : RF} (hen : g.key ≠ ADCSEQ.CTRL_SLOT_EN.key) (hign : g.key ≠ ADCSEQ.STAT_CFG_IGN.key)
    (s : State) (v : Nat) : (s.writeSlotEn v).get g = s.get g :=
  (s.writeSlotEn_only v).1 g (by simpa using ⟨hen, hign⟩)

theorem State.lanesOff_lstate (h : s.lanesOff = true) {k : Nat} (hk : k < 10) : s.get (LANE.STAT_LSTATE k) = 0 :=
  beq_iff_eq.1 (List.all_eq_true.1 h ⟨k, hk⟩ (List.mem_finRange _))

/-- With every lane OFF the bits written so far are in place, the others as before, and none was ignored. -/
theorem State.foldl_writeSlot (hoff : s.lanesOff = true) (want old : Nat) {k : Nat} (hk : k ≤ 20) :
    (∀ j, getBit ((List.range k).foldl (s.writeSlot want old) (old, false)).1 j = if j < k then getBit want j else getBit old j) ∧
    ((List.range k).foldl (s.writeSlot want old) (old, false)).2 = false := by
  induction k with
  | zero => exact ⟨fun j => rfl, rfl⟩
  | succ k ih =>
    obtain ⟨hbits, hign⟩ := ih (by omega)
    rw [List.range_succ, List.foldl_append, List.foldl_cons, List.foldl_nil]
    generalize (List.range k).foldl (s.writeSlot want old) (old, false) = x at hbits hign
    by_cases hsame : getBit want k = getBit old k
    · rw [State.writeSlot, if_pos hsame]
      refine ⟨fun j => ?_, hign⟩
      rw [hbits j]
      by_cases hj : j = k
      · rw [hj, if_neg (Nat.lt_irrefl k), if_pos (Nat.lt_succ_self k), hsame]
      · simp only [show j < k + 1 ↔ j < k by omega]
    · rw [State.writeSlot, if_neg hsame, if_pos (State.lanesOff_lstate hoff (by omega))]
      refine ⟨fun j => ?_, hign⟩
      by_cases hj : j = k
      · rw [hj, getBit_setBit_self, if_pos (Nat.lt_succ_self k)]
      · rw [getBit_setBit_other hj, hbits j]
        simp only [show j < k + 1 ↔ j < k by omega]

theorem State.slotEn_lanesOff (hoff : s.lanesOff = true) (v : Nat) :
    (s.slotEn v).1 % 2 ^ 20 = bits v 19 0 ∧ (s.slotEn v).2 = false := by
  obtain ⟨hbits, hign⟩ := State.foldl_writeSlot hoff (bits v 19 0) (s.get ADCSEQ.CTRL_SLOT_EN) (Nat.le_refl 20)
  refine ⟨Nat.eq_of_testBit_eq fun j => ?_, hign⟩
  have hj : getBit (s.slotEn v).1 j = if j < 20 then getBit (bits v 19 0) j else getBit (s.get ADCSEQ.CTRL_SLOT_EN) j := hbits j
  rw [getBit_eq_testBit, getBit_eq_testBit] at hj
  rw [Nat.testBit_mod_two_pow, hj]
  by_cases hlt : j < 20
  · simp [hlt]
  · have hsmall : bits v 19 0 < 2 ^ j := lt_of_lt_of_le (bits_lt v 19 0) (Nat.pow_le_pow_right (by decide) (by omega))
    simp [hlt, Nat.testBit_lt_two_pow hsmall]

theorem State.writeSlotEn_lanesOff (hoff : s.lanesOff = true) (v : Nat) :
    s.writeSlotEn v = s.set ADCSEQ.CTRL_SLOT_EN (s.slotEn v).1 := by
  rw [State.writeSlotEn_eq, (State.slotEn_lanesOff hoff v).2]
  rfl

/-! ### The frame sequencer's commands (R83, R85) -/

/-- RUN is set, and the frame sequencer waits for its first frame. -/
def State.awaitFrame (u : State) : State :=
  { u.set ADCSEQ.CTRL_RUN 1 with
    frame := { running := false, startAt := some u.tick, period := u.get ADCSEQ.PERIOD_P, frameTick := u.tick, done := 0 } }

/-- RUN is cleared, and no frame follows; writes that wait are still to take effect. -/
def State.stopFrames (u : State) : State :=
  { ((u.set ADCSEQ.CTRL_RUN 0).set ADCSEQ.STAT_RUNNING 0).set ADCSEQ.STAT_ALIGNED 0 with
    frame := { u.frame with running := false, startAt := none } }

/-- What a CTRL write with RUN = 1 does once SLOT_EN is in force. -/
def State.startRun (u : State) : State :=
  if u.on ADCSEQ.CTRL_RUN then u else if u.awaitFrame.get MTIME.STATUS_STATE = 0 then u.awaitFrame.startFrame else u.awaitFrame

/-- What a CTRL write with RUN = 0 does once SLOT_EN is in force. -/
def State.stopRun (u : State) : State :=
  if !u.on ADCSEQ.CTRL_RUN then u
  else if !u.lanesOff then u.set ADCSEQ.STAT_CFG_IGN 1
  else u.stopFrames.forLanes fun n s => s.laneStaged n fun _ => true

theorem exec_adcseqRunStart_reached (v : Word) (hup : s.accessible ADCSEQ.CTRL = true) :
    exec (.adcseqRunStart v) s = .next { (s.writeSlotEn v.toNat).startRun with bus := .ok 0 } :=
  State.busDo_reached hup fun s => (s.writeSlotEn v.toNat).startRun

theorem exec_adcseqRunStop_reached (v : Word) (hup : s.accessible ADCSEQ.CTRL = true) :
    exec (.adcseqRunStop v) s = .next { (s.writeSlotEn v.toNat).stopRun with bus := .ok 0 } :=
  State.busDo_reached hup fun s => (s.writeSlotEn v.toNat).stopRun

theorem State.get_awaitFrame_other {g : RF} (h : g.key ≠ ADCSEQ.CTRL_RUN.key) (u : State) : u.awaitFrame.get g = u.get g :=
  State.get_set_other h u 1

theorem State.startRun_counting (hrun : s.on ADCSEQ.CTRL_RUN = false) (hst : s.get MTIME.STATUS_STATE ≠ 0) :
    s.startRun = s.awaitFrame := by
  rw [State.startRun, hrun, State.get_awaitFrame_other (by decide), if_neg hst]
  exact if_neg Bool.false_ne_true

theorem State.startRun_frozen (hrun : s.on ADCSEQ.CTRL_RUN = false) (hst : s.get MTIME.STATUS_STATE = 0) :
    s.startRun = s.awaitFrame.startFrame := by
  rw [State.startRun, hrun, State.get_awaitFrame_other (by decide), if_pos hst]
  exact if_neg Bool.false_ne_true

theorem State.stopRun_lanesOff (hrun : s.on ADCSEQ.CTRL_RUN = true) (hoff : s.lanesOff = true) :
    s.stopRun = s.stopFrames.forLanes fun n s => s.laneStaged n fun _ => true := by
  rw [State.stopRun, hrun, hoff]
  exact if_neg Bool.false_ne_true

theorem State.stopRun_refused (hrun : s.on ADCSEQ.CTRL_RUN = true) (hoff : s.lanesOff = false) :
    s.stopRun = s.set ADCSEQ.STAT_CFG_IGN 1 := by
  rw [State.stopRun, hrun, hoff]
  exact if_neg Bool.false_ne_true

theorem State.awaitFrame_writeSlotEn (s : State) (v : Nat) : (s.writeSlotEn v).awaitFrame =
    { (s.writeSlotEn v).set ADCSEQ.CTRL_RUN 1 with
      frame := { running := false, startAt := some s.tick, period := s.get ADCSEQ.PERIOD_P, frameTick := s.tick, done := 0 } } := by
  rw [State.awaitFrame, (s.writeSlotEn_fields v).1, State.get_writeSlotEn_other (by decide) (by decide)]

/-- A first frame that starts at once (R85). -/
theorem State.startFrame_awaitFrame (u : State) :
    u.awaitFrame.startFrame.get ADCSEQ.CTRL_RUN = 1 ∧ u.awaitFrame.startFrame.get ADCSEQ.STAT_RUNNING = 1 ∧
    u.awaitFrame.startFrame.get ADCSEQ.FRAME_CNT_COUNT = (u.get ADCSEQ.FRAME_CNT_COUNT + 1) % 2 ^ 32 := by
  obtain ⟨hrunning, hcount⟩ := u.awaitFrame.startFrame_shown
  rw [State.get_awaitFrame_other (by decide)] at hcount
  exact ⟨(State.get_startFrame_other (by decide) (by decide) _).trans (State.get_set_self u _ 1), hrunning, hcount⟩

theorem OnlyRegs.withFrame {fs : List RF} (h : OnlyRegs fs s t) (f : FrameSt) : OnlyRegs fs { s with frame := f } { t with frame := f } :=
  ⟨h.1, h.2.1, congrArg (fun x : State => { x with frame := f }) h.2.2⟩

theorem State.startFrame_awaitFrame_only {u : State} {p k : Nat} (hperiod : u.get ADCSEQ.PERIOD_P = p) (htick : u.tick = k) :
    OnlyRegs [ADCSEQ.CTRL_RUN, ADCSEQ.STAT_RUNNING, ADCSEQ.FRAME_CNT_COUNT]
      { u with frame := { running := true, startAt := none, period := p, frameTick := k, done := 0 } } u.awaitFrame.startFrame := by
  subst hperiod htick
  have hawait := ((OnlyRegs.refl [ADCSEQ.CTRL_RUN, ADCSEQ.STAT_RUNNING, ADCSEQ.FRAME_CNT_COUNT] u).set (f := ADCSEQ.CTRL_RUN)
    (by simp) 1).withFrame u.awaitFrame.frame
  exact ((hawait.set (f := ADCSEQ.STAT_RUNNING) (by simp) 1).set (f := ADCSEQ.FRAME_CNT_COUNT) (by simp)
    ((u.awaitFrame.get ADCSEQ.FRAME_CNT_COUNT + 1) % 2 ^ 32)).withFrame u.awaitFrame.startFrame.frame

theorem exec_adcseqPeriodWrite_reached {v : Word} (hup : s.accessible ADCSEQ.PERIOD = true) : exec (.adcseqPeriodWrite v) s =
    .next { (if s.on ADCSEQ.CTRL_RUN && !s.lanesOff then s.set ADCSEQ.STAT_CFG_IGN 1
      else s.setLegal ADCSEQ.PERIOD_P (.rangeMul 10000 100000 4) (bits v.toNat 16 0)) with bus := .ok 0 } :=
  State.busDo_reached hup fun s => if s.on ADCSEQ.CTRL_RUN && !s.lanesOff then s.set ADCSEQ.STAT_CFG_IGN 1
    else s.setLegal ADCSEQ.PERIOD_P (.rangeMul 10000 100000 4) (bits v.toNat 16 0)

/-! ### Register writes that wait for the lane tick (R100) -/

theorem exec_laneRegisterWrite_reached {off : Nat} {v : Word} (halign : off % 4 = 0) (hin : off < 0x1000)
    (hup : s.accessible (0x50000000 + n.1 * 0x1000 + off) = true) :
    exec (.laneRegisterWrite n off v) s = .next { (s.laneW1c n off v.toNat).laneLand n off v with bus := .ok 0 } := by
  have hexec : exec (.laneRegisterWrite n off v) s = if off % 4 ≠ 0 ∨ 0x1000 ≤ off then .next { s with bus := .error }
      else s.busDo (0x50000000 + n.1 * 0x1000 + off) fun s => (s.laneW1c n off v.toNat).laneLand n off v := rfl
  rw [hexec, if_neg (by omega), State.busDo_reached hup]

theorem State.laneLand_waits {off : Nat} (hoff : laneImmediate off = false) (hrun : s.on ADCSEQ.CTRL_RUN = true) (v : Word) :
    s.laneLand n off v = s.lane n fun l => { l with stage := l.stage ++ [(s.tick, off, v)] } := by
  rw [State.laneLand, hoff, hrun]
  rfl

theorem State.laneLand_atOnce {off : Nat} (h : laneImmediate off = true ∨ s.on ADCSEQ.CTRL_RUN = false) (v : Word) :
    s.laneLand n off v = s.laneApply n off v.toNat := by
  rw [State.laneLand, if_pos (by simpa using h)]

end

/-- Settles O16: each command by what it answers; SLOT_EN by induction on the bits written. -/
theorem laneTicksAndFrames : Obligations.LaneTicksAndFrames := by
  refine ⟨fun n isa isb oc flt s => ⟨fun h => if_pos h, fun h => if_neg (by simp [h])⟩, ?complete, ?first, ?start, ?stop, ?slots,
    ?period, ?ignored, ?write⟩
  case complete =>
    intro n t s hdone
    refine ⟨fun hdue => ?_, fun hearly => State.completeDue_early hdone hearly⟩
    rw [State.completeDue_due hdone hdue]
    exact s.completeTick_shown n
  case first =>
    intro t s hwait hst
    rw [State.tickFrames_waiting hwait hst]
    exact ⟨fun h => ⟨if_pos h, rfl, rfl, s.startFrame_shown.1⟩, fun h => if_neg h⟩
  case start =>
    intro v s hup hrun u
    have hexec := exec_adcseqRunStart_reached v hup
    have hstate : u.get MTIME.STATUS_STATE = s.get MTIME.STATUS_STATE := State.get_writeSlotEn_other (by decide) (by decide) s _
    refine ⟨fun hst => ?_, fun hst => ?_⟩
    · rw [hexec, State.startRun_counting hrun (hstate ▸ hst), State.awaitFrame_writeSlotEn]
    · rw [State.startRun_frozen hrun (hstate.trans hst)] at hexec
      obtain ⟨hrunSet, hrunning, hcount⟩ := u.startFrame_awaitFrame
      rw [State.get_writeSlotEn_other (by decide) (by decide)] at hcount
      have honly := State.startFrame_awaitFrame_only (u := u) (State.get_writeSlotEn_other (by decide) (by decide) s _)
        (s.writeSlotEn_fields v.toNat).1
      exact ⟨_, hexec, hrunSet, hrunning, hcount, honly.bus _⟩
  case stop =>
    intro v s hup hrun u
    have hexec := exec_adcseqRunStop_reached v hup
    refine ⟨fun hoff => ?_, fun hon => ?_⟩
    · rw [hexec, State.stopRun_lanesOff hrun hoff, State.stopFrames, (s.writeSlotEn_fields v.toNat).2]
    · rw [hexec, State.stopRun_refused hrun hon]
  case slots =>
    intro v s hoff
    rw [State.writeSlotEn_lanesOff hoff]
    refine ⟨?_, (OnlyRegs.refl _ s).set (by simp) _⟩
    rw [State.get_set_self]
    exact (State.slotEn_lanesOff hoff v).1
  case period =>
    intro v s hup hfree hlo hhi hstep
    have hrefused : (s.on ADCSEQ.CTRL_RUN && !s.lanesOff) = false := by
      rcases hfree with h | h <;> simp [h]
    rw [exec_adcseqPeriodWrite_reached hup, hrefused]
    have hlegal : Legal.ok (.rangeMul 10000 100000 4) (bits v.toNat 16 0) = true := by simp [Legal.ok, hlo, hhi, hstep]
    simp only [Bool.false_eq_true, if_false, State.setLegal, hlegal, if_true, Legal.take]
  case ignored =>
    intro v s hup hrun hon
    rw [exec_adcseqPeriodWrite_reached hup, hrun, hon]
    rfl
  case write =>
    intro n off v s halign hin hup
    exact ⟨exec_laneRegisterWrite_reached halign hin hup, fun hoff hrun => State.laneLand_waits hoff hrun v,
      fun h => State.laneLand_atOnce h v⟩

end Sys2Proof.Machine

/-! ## A lane enabled, calibrated and disabled; its quadrature counter (04_lanes.md, R90 to R92, R100 to R103) -/

namespace Sys2Proof.Machine

section
variable {s t u : State} {n : Fin 10}

/-! ### A lane's own state and its frames -/

theorem State.lane_lane (s : State) (n : Fin 10) (f g : LaneSt → LaneSt) : (s.lane n f).lane n g = s.lane n fun l => g (f l) := by
  have hvector : (s.lanes.set n.1 (f s.lanes[n])).set n.1 (g (f s.lanes[n])) = s.lanes.set n.1 (g (f s.lanes[n])) :=
    Vector.set_set ..
  rw [State.lane, State.lanes_lane_self, State.lane, hvector]
  rfl

theorem OnlyRegs.withLanes {fs : List RF} (h : OnlyRegs fs s t) (v : Vector LaneSt 10) :
    OnlyRegs fs { s with lanes := v } { t with lanes := v } :=
  ⟨h.1, h.2.1, congrArg (fun x : State => { x with lanes := v }) h.2.2⟩

/-- Beside the lanes' own state nothing differs but the listed registers. -/
theorem OnlyRegs.lane {fs : List RF} (h : OnlyRegs fs s t) (n : Fin 10) (f : LaneSt → LaneSt) :
    OnlyRegs fs { s with lanes := (t.lane n f).lanes } (t.lane n f) := h.withLanes _

theorem OnlyRegs.setLstate {fs : List RF} (h : OnlyRegs fs s t) {n : Nat} (hst : LANE.STAT_LSTATE n ∈ fs)
    (hchg : LANE.IRQ_STAT_STATE_CHG n ∈ fs) (st : Nat) : OnlyRegs fs s (t.setLstate n st) := by
  unfold State.setLstate
  split
  · exact h
  · exact (h.set hst st).set hchg 1

theorem State.setLstate_change {n st : Nat} (h : s.get (LANE.STAT_LSTATE n) ≠ st) :
    s.setLstate n st = (s.set (LANE.STAT_LSTATE n) st).set (LANE.IRQ_STAT_STATE_CHG n) 1 := if_neg h

/-! ### Writes of EN as 1 (R100, R101) -/

theorem exec_laneEnable_reached (v : Word) (hup : s.accessible (LANE.CTRL n) = true) :
    exec (.laneEnable n v) s = .next { (s.laneLand n 0 v).landEnable n with bus := .ok 0 } :=
  State.busDo_reached hup fun s => (s.laneLand n 0 v).landEnable n

theorem State.landEnable_waits (hrun : s.on ADCSEQ.CTRL_RUN = true) :
    s.landEnable n = s.lane n fun l => { l with enAt := some (l.enAt.getD s.tick) } := if_pos hrun

theorem State.landEnable_atOnce (hrun : s.on ADCSEQ.CTRL_RUN = false) : s.landEnable n = s.enableLane n :=
  if_neg (by simp [hrun])

/-- A CTRL write with EN = 1 that waits: the value and the enable land together. -/
theorem State.landEnable_laneLand (hrun : s.on ADCSEQ.CTRL_RUN = true) (v : Word) : (s.laneLand n 0 v).landEnable n =
    s.lane n fun l => { l with stage := l.stage ++ [(s.tick, 0, v)], enAt := some (l.enAt.getD s.tick) } := by
  have hwaits : ∀ f, (s.lane n f).landEnable n = (s.lane n f).lane n fun l => { l with enAt := some (l.enAt.getD s.tick) } :=
    fun f => State.landEnable_waits (s := s.lane n f) hrun
  rw [State.laneLand_waits rfl hrun, hwaits, State.lane_lane]

/-- The waiting writes that `p` selects, in force; an enable that waits is still to be judged. -/
def State.applyStaged (s : State) (n : Fin 10) (p : Nat → Bool) : State :=
  (s.lanes[n].stage.filter fun w => p w.1).foldl (fun s w => s.laneApply n w.2.1 w.2.2.toNat) (s.lane n fun l =>
    { l with stage := l.stage.filter fun w => !p w.1, enAt := l.enAt.filter fun t => !p t })

theorem State.laneStaged_eq (s : State) (n : Fin 10) (p : Nat → Bool) :
    s.laneStaged n p = if s.lanes[n].enAt.any p then (s.applyStaged n p).enableLane n else s.applyStaged n p := rfl

/-- An enable is judged: EN is set, and the record of the lane's first fault returns to its reset value. -/
def State.askEnable (s : State) (n : Fin 10) : State := (s.set (LANE.CTRL_EN n) 1).clearFirst n

theorem State.clearFirst_only {fs : List RF} (h : OnlyRegs fs s t) {n : Nat} (hfirst : LANE.FLT_STAT_FIRST n ∈ fs)
    (haction : LANE.FLT_STAT_ACTION n ∈ fs) (hphase : LANE.FLT_STAT_PHASE n ∈ fs) (hsrc : LANE.FLT_STAT_SRC_LANE n ∈ fs) :
    OnlyRegs fs s (t.clearFirst n) := (((h.set hfirst 0).set haction 0).set hphase 3).set hsrc 0

theorem State.get_clearFirst {g : RF} {n : Nat} (hl : g.lo < 32) (hg : g.addr ≠ LANE.FLT_STAT n) (s : State) :
    (s.clearFirst n).get g = s.get g := by
  simp (disch := (simp only [RF.key]; omega)) only [State.clearFirst, State.get_set_other]

theorem State.get_askEnable {g : RF} (hl : g.lo < 32) (hen : g.key ≠ (LANE.CTRL_EN n).key) (hg : g.addr ≠ LANE.FLT_STAT n)
    (s : State) : (s.askEnable n).get g = s.get g := by
  rw [State.askEnable, State.get_clearFirst hl hg, State.get_set_other hen]

/-- What the lane must have to calibrate (R101): a drive, both its converter slots, and feedback unless DRIVE is 1. -/
def State.mayCalibrate (s : State) (n : Fin 10) : Bool :=
  s.get (LANE.CTRL_DRIVE n) ≠ 0 && getBit (s.get ADCSEQ.CTRL_SLOT_EN) (2 * n) && getBit (s.get ADCSEQ.CTRL_SLOT_EN) (2 * n + 1) &&
    (s.get (LANE.CTRL_DRIVE n) == 1 || s.fbOn n)

/-- The lane goes to CAL, with nothing summed yet (R102). -/
def State.enterCal (s : State) (n : Fin 10) : State :=
  (s.setLstate n 1).lane n fun l => { l with calNew := s.on ADCSEQ.CTRL_RUN, calN := 0, calNB := 0, calA := 0, calB := 0 }

/-- The enable is refused (R101). -/
def State.refuseEnable (s : State) (n : Fin 10) : State := (s.set (LANE.CTRL_EN n) 0).set (LANE.STAT_CFG_ERR n) 1

theorem State.mayCalibrate_askEnable (s : State) (n : Fin 10) : (s.askEnable n).mayCalibrate n = s.mayCalibrate n := by
  have hn := n.isLt
  simp (disch := (simp only [RF.key, LANE.CTRL, LANE.QCFG, LANE.FLT_STAT, ADCSEQ.CTRL]; omega)) only
    [State.mayCalibrate, State.fbOn, State.on, State.get_askEnable]

theorem State.enableLane_off (hoff : s.get (LANE.STAT_LSTATE n) = 0) : s.enableLane n =
    if s.mayCalibrate n then (s.askEnable n).enterCal n else (s.askEnable n).refuseEnable n := by
  have hasked : (s.set (LANE.CTRL_EN n) 1).get (LANE.STAT_LSTATE n) = 0 := by
    rw [State.get_set_other (by simp only [RF.key, LANE.STAT, LANE.CTRL]; omega), hoff]
  rw [← s.mayCalibrate_askEnable n]
  exact if_neg (not_not.2 hasked)

theorem State.enterCal_shown (hst : s.get (LANE.STAT_LSTATE n) = 0) :
    (s.enterCal n).get (LANE.STAT_LSTATE n) = 1 ∧ (s.enterCal n).get (LANE.CTRL_EN n) = s.get (LANE.CTRL_EN n) ∧
    ((s.enterCal n).lanes[n].calN, (s.enterCal n).lanes[n].calNB) = (0, 0) := by
  have hchange := State.setLstate_change (s := s) (n := n) (st := 1) (by rw [hst]; decide)
  rw [State.enterCal, State.lanes_lane_self, hchange]
  simp (disch := (simp only [RF.key, LANE.STAT, LANE.IRQ_STAT, LANE.CTRL]; omega)) only [State.get_lane, State.get_set_other,
    State.get_set_self]
  exact ⟨rfl, trivial, trivial⟩

theorem State.askEnable_shown (s : State) (n : Fin 10) :
    (s.askEnable n).get (LANE.CTRL_EN n) = 1 ∧ (s.askEnable n).get (LANE.STAT_LSTATE n) = s.get (LANE.STAT_LSTATE n) := by
  rw [State.askEnable, State.get_clearFirst (by simp) (by simp only [LANE.CTRL, LANE.FLT_STAT]; omega), State.get_set_self,
    State.get_clearFirst (by simp) (by simp only [LANE.STAT, LANE.FLT_STAT]; omega),
    State.get_set_other (by simp only [RF.key, LANE.STAT, LANE.CTRL]; omega)]
  exact ⟨rfl, rfl⟩

/-- The registers that a granted enable changes (R101). -/
@[simp] def enableFields (n : Nat) : List RF := [LANE.CTRL_EN n, LANE.STAT_LSTATE n, LANE.IRQ_STAT_STATE_CHG n, LANE.FLT_STAT_FIRST n,
  LANE.FLT_STAT_ACTION n, LANE.FLT_STAT_PHASE n, LANE.FLT_STAT_SRC_LANE n]

theorem State.enterCal_askEnable_only (s : State) (n : Fin 10) :
    OnlyRegs (enableFields n) { s with lanes := ((s.askEnable n).enterCal n).lanes } ((s.askEnable n).enterCal n) :=
  ((State.clearFirst_only ((OnlyRegs.refl _ s).set (f := LANE.CTRL_EN n) (by simp) 1) (by simp) (by simp) (by simp) (by simp)).setLstate
    (by simp) (by simp) 1).lane n _

theorem State.refuseEnable_shown (s : State) (n : Fin 10) :
    (s.refuseEnable n).get (LANE.STAT_LSTATE n) = s.get (LANE.STAT_LSTATE n) ∧ (s.refuseEnable n).get (LANE.CTRL_EN n) = 0 ∧
    (s.refuseEnable n).get (LANE.STAT_CFG_ERR n) = 1 := by
  simp (disch := (simp only [RF.key, LANE.STAT, LANE.CTRL]; omega)) only [State.refuseEnable, State.get_set_other, State.get_set_self]
  exact ⟨trivial, rfl, rfl⟩

/-! ### Disabling (R103) -/

/-- EN is 0, after the switch of the tick and against a resume of the tick (R103, R116); the lane is still to stop. -/
def State.landDisable (s : State) (n : Fin 10) : State :=
  ((((s.switchAt n).resumeUndone n).lane n fun l => { l with enAt := none }).set (LANE.CTRL_EN n) 0).clearFirst n

/-- The lane is OFF, with its outputs low and its loops at rest; its player is still to stop. -/
def State.restLane (s : State) (n : Fin 10) : State :=
  ((((s.setLstate n 0).outputsLow n).noLoops n).set (LANE.RES_STAT_PENDING n) 0).set (LANE.STAT_IN_SEG n) 0

/-- The lane stops, and no schedule plays. -/
def State.stopLane (s : State) (n : Fin 10) : State :=
  (s.restLane n).lane n fun l => { l with
    playing := false, started := false, holding := true, held := (s.restLane n).get (LANE.POS_CMD_P n)
    nxt := none, acts := [], coasting := false, ocPend := false }

theorem exec_laneDisable_reached (v : Word) (hup : s.accessible (LANE.CTRL n) = true) :
    exec (.laneDisable n v) s = .next { (s.disableLane n).laneLand n 0 v with bus := .ok 0 } :=
  State.busDo_reached hup fun s => (s.disableLane n).laneLand n 0 v

theorem State.get_resumeUndone {g : RF} (hl : g.lo < 32) (hstat : g.addr ≠ LANE.RES_STAT n) (hirq : g.addr ≠ LANE.FLT_IRQ_STAT n)
    (s : State) : (s.resumeUndone n).get g = s.get g := by
  unfold State.resumeUndone
  split
  · simp (disch := (simp only [RF.key]; omega)) only [State.get_put_other, State.get_set_other]
  · rfl

theorem State.landDisable_shown (s : State) (n : Fin 10) :
    (s.landDisable n).get (LANE.STAT_LSTATE n) = (s.switchAt n).get (LANE.STAT_LSTATE n) ∧
    (s.landDisable n).get (LANE.CTRL_EN n) = 0 ∧ (s.landDisable n).lanes[n].enAt = none := by
  refine ⟨?_, ?_, ?_⟩
  · rw [State.landDisable, State.get_clearFirst (by simp) (by simp only [LANE.STAT, LANE.FLT_STAT]; omega),
      State.get_set_other (by simp only [RF.key, LANE.STAT, LANE.CTRL]; omega), State.get_lane,
      State.get_resumeUndone (by simp) (by simp only [LANE.STAT, LANE.RES_STAT]; omega)
        (by simp only [LANE.STAT, LANE.FLT_IRQ_STAT]; omega)]
  · rw [State.landDisable, State.get_clearFirst (by simp) (by simp only [LANE.CTRL, LANE.FLT_STAT]; omega), State.get_set_self]
    rfl
  · simp only [State.landDisable, State.clearFirst, State.lanes_set, State.lanes_lane_self]

theorem State.disableLane_running (h : (s.switchAt n).get (LANE.STAT_LSTATE n) ≠ 0) : s.disableLane n = (s.landDisable n).stopLane n :=
  if_neg (by rwa [← (s.landDisable_shown n).1] at h)

theorem State.stopLane_shown (hst : s.get (LANE.STAT_LSTATE n) ≠ 0) :
    (s.stopLane n).get (LANE.STAT_LSTATE n) = 0 ∧ (s.stopLane n).get (LANE.CTRL_EN n) = s.get (LANE.CTRL_EN n) ∧
    (s.stopLane n).get (LANE.IRQ_STAT_STATE_CHG n) = 1 ∧ (s.stopLane n).get (LANE.PW_A_W n) = 0 ∧
    (s.stopLane n).get (LANE.PW_B_W n) = 0 ∧ (s.stopLane n).get (LANE.PW_C_W n) = 0 ∧ (s.stopLane n).get (LANE.PW_D_W n) = 0 ∧
    (s.stopLane n).get (LANE.RES_STAT_PENDING n) = 0 := by
  simp (disch := (simp only [RF.key, LANE.STAT, LANE.IRQ_STAT, LANE.CTRL, LANE.PW_A, LANE.PW_B, LANE.PW_C, LANE.PW_D,
    LANE.RES_STAT]; omega)) only [State.stopLane, State.restLane, State.outputsLow, State.noLoops, State.setLstate_change hst,
    State.get_lane, State.get_set_other, State.get_set_self]
  exact ⟨rfl, trivial, rfl, rfl, rfl, rfl, rfl, rfl⟩

theorem State.lanes_setLstate (s : State) (n st : Nat) : (s.setLstate n st).lanes = s.lanes := by
  rw [State.setLstate_fields]

theorem State.outputsLow_enAt (s : State) (n : Fin 10) : (s.outputsLow n).lanes[n].enAt = s.lanes[n].enAt := by
  rw [State.outputsLow, State.lanes_lane_self]
  rfl

theorem State.noLoops_lane (s : State) (n : Fin 10) : (s.noLoops n).lanes[n].enAt = s.lanes[n].enAt ∧
    ((s.noLoops n).lanes[n].iacc, (s.noLoops n).lanes[n].iiA, (s.noLoops n).lanes[n].iiB) = (0, 0, 0) := by
  rw [State.noLoops, State.lanes_lane_self]
  exact ⟨rfl, rfl⟩

theorem State.restLane_lane (s : State) (n : Fin 10) : (s.restLane n).lanes[n].enAt = s.lanes[n].enAt ∧
    ((s.restLane n).lanes[n].iacc, (s.restLane n).lanes[n].iiA, (s.restLane n).lanes[n].iiB) = (0, 0, 0) := by
  obtain ⟨henAt, hloops⟩ := ((s.setLstate n 0).outputsLow n).noLoops_lane n
  rw [State.restLane, State.lanes_set, State.lanes_set]
  exact ⟨by rw [henAt, State.outputsLow_enAt, State.lanes_setLstate], hloops⟩

theorem State.stopLane_lane (s : State) (n : Fin 10) :
    (s.stopLane n).lanes[n].playing = false ∧ (s.stopLane n).lanes[n].nxt = none ∧ (s.stopLane n).lanes[n].acts = [] ∧
    (s.stopLane n).lanes[n].enAt = s.lanes[n].enAt ∧
    ((s.stopLane n).lanes[n].iacc, (s.stopLane n).lanes[n].iiA, (s.stopLane n).lanes[n].iiB) = (0, 0, 0) := by
  obtain ⟨henAt, hloops⟩ := s.restLane_lane n
  rw [State.stopLane, State.lanes_lane_self]
  exact ⟨rfl, rfl, rfl, henAt, hloops⟩

/-! ### Calibration (R102) -/

/-- The lane's offsets are `a` and `b`, and it is READY (R101, R102); its angle is still to start. -/
def State.enterReady (s : State) (n : Fin 10) (a b : Nat) : State :=
  (((s.set (LANE.OFFS_OFFS_A n) a).set (LANE.OFFS_OFFS_B n) b).setLstate n 2).set (LANE.IRQ_STAT_CAL_DONE n) 1

/-- The position from which the lane's angle starts (R95). -/
def State.angleFrom (s : State) (n : Fin 10) : Nat :=
  if s.get (LANE.CTRL_DRIVE n) = 1 then s.get (LANE.POS_CMD_P n) else s.get (LANE.POS_MEAS_P n)

/-- The lane's angle starts at rest (R94, R95). -/
def State.startAngle (s : State) (n : Fin 10) : State :=
  s.lane n fun l => { l with
    theta := wrap 40 ((s.angleFrom n : Int) * (s.get (LANE.ESCALE_ESCALE n) : Nat)), angPrev := s.angleFrom n
    entered := true, still := 65535 }

theorem exec_calEnd_within {a b : Nat} (hst : s.get (LANE.STAT_LSTATE n) = 1) (hA : s.lanes[n].calN = 256)
    (hB : s.lanes[n].calNB = 256)
    (ha : (s.lanes[n].calA + 128) / 256 = a) (hb : (s.lanes[n].calB + 128) / 256 = b)
    (hokA : 2048 ≤ a + s.get (LANE.OFFS_WIN_WIN n) ∧ a ≤ 2048 + s.get (LANE.OFFS_WIN_WIN n))
    (hokB : 2048 ≤ b + s.get (LANE.OFFS_WIN_WIN n) ∧ b ≤ 2048 + s.get (LANE.OFFS_WIN_WIN n)) :
    exec (.calEnd n) s = .next ((s.enterReady n a b).startAngle n) := by
  have hcounted : ¬ ((decide (s.get (LANE.STAT_LSTATE n) ≠ 1) || decide (s.lanes[n].calN ≠ 256) ||
      decide (s.lanes[n].calNB ≠ 256)) = true) := by
    rw [hst, hA, hB]; decide
  have hwithin : ((decide (2048 ≤ a + s.get (LANE.OFFS_WIN_WIN n)) && decide (a ≤ 2048 + s.get (LANE.OFFS_WIN_WIN n))) &&
      (decide (2048 ≤ b + s.get (LANE.OFFS_WIN_WIN n)) && decide (b ≤ 2048 + s.get (LANE.OFFS_WIN_WIN n)))) = true := by
    rw [decide_eq_true hokA.1, decide_eq_true hokA.2, decide_eq_true hokB.1, decide_eq_true hokB.2]; rfl
  subst ha hb
  exact (if_neg hcounted).trans (if_pos hwithin)

theorem State.get_startAngle (s : State) (n : Fin 10) (g : RF) : (s.startAngle n).get g = s.get g := rfl

theorem State.enterReady_shown (hst : s.get (LANE.STAT_LSTATE n) = 1) {a b : Nat} (ha : a < 2 ^ 12) (hb : b < 2 ^ 12) :
    (s.enterReady n a b).get (LANE.STAT_LSTATE n) = 2 ∧ (s.enterReady n a b).get (LANE.IRQ_STAT_CAL_DONE n) = 1 ∧
    (s.enterReady n a b).get (LANE.OFFS_OFFS_A n) = a ∧ (s.enterReady n a b).get (LANE.OFFS_OFFS_B n) = b := by
  have hcal : ((s.set (LANE.OFFS_OFFS_A n) a).set (LANE.OFFS_OFFS_B n) b).get (LANE.STAT_LSTATE n) ≠ 2 := by
    simp (disch := (simp only [RF.key, LANE.STAT, LANE.OFFS]; omega)) only [State.get_set_other, hst]
    decide
  simp (disch := (simp only [RF.key, LANE.STAT, LANE.IRQ_STAT, LANE.OFFS]; omega)) only [State.enterReady, State.setLstate_change hcal,
    State.get_set_other, State.get_set_self]
  exact ⟨rfl, rfl, Nat.mod_eq_of_lt ha, Nat.mod_eq_of_lt hb⟩

/-- The registers that the end of a calibration changes (R101, R102). -/
@[simp] def readyFields (n : Nat) : List RF :=
  [LANE.STAT_LSTATE n, LANE.IRQ_STAT_STATE_CHG n, LANE.IRQ_STAT_CAL_DONE n, LANE.OFFS_OFFS_A n, LANE.OFFS_OFFS_B n]

theorem State.enterReady_only (s : State) (n : Fin 10) (a b : Nat) : OnlyRegs (readyFields n) s (s.enterReady n a b) :=
  ((((OnlyRegs.refl _ s).set (by simp) a).set (by simp) b).setLstate (by simp) (by simp) 2).set (by simp) 1

theorem State.theta_startAngle_enterReady (s : State) (n : Fin 10) (a b : Nat) : ((s.enterReady n a b).startAngle n).lanes[n].theta =
    wrap 40 ((s.angleFrom n : Int) * (s.get (LANE.ESCALE_ESCALE n) : Nat)) := by
  have hkept : ∀ g : RF, g.lo < 32 → g.addr ≠ LANE.STAT n → g.addr ≠ LANE.IRQ_STAT n → g.addr ≠ LANE.OFFS n →
      (s.enterReady n a b).get g = s.get g := by
    intro g hl hstat hirq hoffs
    refine (s.enterReady_only n a b).1 g ?_
    simp only [readyFields, List.forall_mem_cons, List.not_mem_nil, false_imp_iff, implies_true, and_true, RF.key]
    omega
  have hn := n.isLt
  simp (disch := (simp only [LANE.STAT, LANE.IRQ_STAT, LANE.OFFS, LANE.CTRL, LANE.POS_CMD, LANE.POS_MEAS, LANE.ESCALE]; omega)) only
    [State.startAngle, State.lanes_lane_self, State.angleFrom, hkept]

/-! ### The quadrature counter (R90 to R92) -/

theorem State.setQcnt_captured (hidx : s.lanes[n].idxTick = some s.tick) (v : Nat) :
    s.setQcnt n v = (s.set (LANE.QCNT_COUNT n) v).set (LANE.QIDX_CAPT n) v := if_pos hidx

theorem State.setQcnt_uncaptured (hidx : s.lanes[n].idxTick ≠ some s.tick) (v : Nat) :
    s.setQcnt n v = s.set (LANE.QCNT_COUNT n) v := if_neg hidx

theorem State.setQcnt_shown (s : State) (n : Fin 10) {v : Nat} (hv : v < 2 ^ 32) : (s.setQcnt n v).get (LANE.QCNT_COUNT n) = v ∧
    (s.lanes[n].idxTick = some s.tick → (s.setQcnt n v).get (LANE.QIDX_CAPT n) = v) ∧
    (s.lanes[n].idxTick ≠ some s.tick → (s.setQcnt n v).get (LANE.QIDX_CAPT n) = s.get (LANE.QIDX_CAPT n)) := by
  have hapart : (LANE.QIDX_CAPT n).key ≠ (LANE.QCNT_COUNT n).key := by simp only [RF.key, LANE.QIDX, LANE.QCNT]; omega
  have hfits : v % 2 ^ 32 = v := Nat.mod_eq_of_lt hv
  by_cases hidx : s.lanes[n].idxTick = some s.tick
  · rw [State.setQcnt_captured hidx, State.get_set_self, State.get_set_other hapart.symm, State.get_set_self]
    exact ⟨hfits, fun _ => hfits, fun h => absurd hidx h⟩
  · rw [State.setQcnt_uncaptured hidx, State.get_set_self, State.get_set_other hapart]
    exact ⟨hfits, fun h => absurd h hidx, fun _ => rfl⟩

theorem State.setQcnt_only (s : State) (n : Fin 10) (v : Nat) : OnlyRegs [LANE.QCNT_COUNT n, LANE.QIDX_CAPT n] s (s.setQcnt n v) := by
  have hcount := (OnlyRegs.refl [LANE.QCNT_COUNT n, LANE.QIDX_CAPT n] s).set (f := LANE.QCNT_COUNT n) (by simp) v
  by_cases hidx : s.lanes[n].idxTick = some s.tick
  · rw [State.setQcnt_captured hidx]
    exact hcount.set (by simp) v
  · rw [State.setQcnt_uncaptured hidx]
    exact hcount

/-- The levels of A and B that are accepted in the tick (R90). -/
def State.acceptLevels (s : State) (n : Fin 10) (a b ca cb : Bool) : State :=
  s.lane n fun l => { l with
    qa := if ca then a else l.qa, qaNext := if ca then s.nextAccept n else l.qaNext
    qb := if cb then b else l.qb, qbNext := if cb then s.nextAccept n else l.qbNext }

/-- What the counter does with the accepted levels (R90): a double edge is an error, one edge counts. -/
def State.countEdges (t : State) (n : Fin 10) (ca cb : Bool) : State :=
  if ca && cb then t.count (LANE.QERR_COUNT n) (LANE.QERR_OVF n)
  else if !ca && !cb then t
  else t.countQuad n (if (if ca then t.lanes[n].qa != t.lanes[n].qb else t.lanes[n].qa == t.lanes[n].qb) != t.on (LANE.QCFG_DIR n)
    then 1 else -1)

theorem exec_quadEdgeAccepted_enabled {a b ca cb : Bool} (hlane : s.domOn .lane = true) (hen : s.on (LANE.QCFG_EN n) = true)
    (hca : (a != s.lanes[n].qa && decide (s.lanes[n].qaNext ≤ s.tick)) = ca)
    (hcb : (b != s.lanes[n].qb && decide (s.lanes[n].qbNext ≤ s.tick)) = cb) :
    exec (.quadEdgeAccepted n a b) s = .next ((s.acceptLevels n a b ca cb).countEdges n ca cb) := by
  have hdown : ¬ ((!s.on (LANE.QCFG_EN n) || !s.domOn .lane) = true) := by rw [hen, hlane]; decide
  refine (if_neg hdown).trans ?_
  dsimp only
  rw [hca, hcb]
  cases ca <;> cases cb <;> rfl

/-- An edge of A accepted by itself. -/
def State.acceptA (s : State) (n : Fin 10) (a : Bool) : State := s.lane n fun l => { l with qa := a, qaNext := s.nextAccept n }

theorem ite_bne_dir (x d : Bool) : (if (x != d) = true then (1 : Int) else -1) = if x = d then -1 else 1 := by
  cases x <;> cases d <;> rfl

/-- A leads B: the new level of A differs from B's where the count goes up (R90). -/
theorem State.countEdges_edgeA (s : State) (n : Fin 10) (a b : Bool) : (s.acceptLevels n a b true false).countEdges n true false =
    (s.acceptA n a).countQuad n (if (a != s.lanes[n].qb) = s.on (LANE.QCFG_DIR n) then -1 else 1) := by
  have hqa : (s.acceptA n a).lanes[n].qa = a := by rw [State.acceptA, State.lanes_lane_self]
  have hqb : (s.acceptA n a).lanes[n].qb = s.lanes[n].qb := by rw [State.acceptA, State.lanes_lane_self]
  have hcount : (s.acceptLevels n a b true false).countEdges n true false = (s.acceptA n a).countQuad n
      (if ((s.acceptA n a).lanes[n].qa != (s.acceptA n a).lanes[n].qb) != s.on (LANE.QCFG_DIR n) then 1 else -1) := rfl
  rw [hcount, hqa, hqb, ite_bne_dir]

theorem State.countEdges_none (s : State) (n : Fin 10) (a b : Bool) :
    (s.acceptLevels n a b false false).countEdges n false false = s.lane n fun l => l := rfl

/-- The counts of the tick go on with `d` more (R92). -/
def State.noteCounts (s : State) (n : Fin 10) (d : Int) : State :=
  s.lane n fun l => { l with qd := l.countsNow s.tick + d, qdTick := s.tick }

theorem State.countQuad_eq (s : State) (n : Fin 10) (d : Int) :
    s.countQuad n d = (s.noteCounts n d).setQcnt n (wrap 32 ((s.get (LANE.QCNT_COUNT n) : Int) + d)) := rfl

theorem State.lanes_setQcnt (s : State) (n : Fin 10) (v : Nat) : (s.setQcnt n v).lanes = s.lanes := by
  rw [(s.setQcnt_only n v).2.2]

theorem State.countQuad_lane (s : State) (n : Fin 10) (d : Int) :
    (s.countQuad n d).lanes[n] = { s.lanes[n] with qd := s.lanes[n].countsNow s.tick + d, qdTick := s.tick } := by
  rw [State.countQuad_eq, State.lanes_setQcnt, State.noteCounts, State.lanes_lane_self]

theorem State.countQuad_acceptA_lane (s : State) (n : Fin 10) (a : Bool) (d : Int) : ((s.acceptA n a).countQuad n d).lanes[n] =
    { s.lanes[n] with qa := a, qaNext := s.nextAccept n, qd := s.lanes[n].countsNow s.tick + d, qdTick := s.tick } := by
  rw [State.countQuad_lane, State.acceptA, State.lanes_lane_self]
  rfl

theorem State.countQuad_shown (s : State) (n : Fin 10) (d : Int) : let q := wrap 32 ((s.get (LANE.QCNT_COUNT n) : Int) + d)
    (s.countQuad n d).get (LANE.QCNT_COUNT n) = q ∧
    (s.lanes[n].idxTick = some s.tick → (s.countQuad n d).get (LANE.QIDX_CAPT n) = q) ∧
    (s.lanes[n].idxTick ≠ some s.tick → (s.countQuad n d).get (LANE.QIDX_CAPT n) = s.get (LANE.QIDX_CAPT n)) := by
  have hshown := (s.noteCounts n d).setQcnt_shown n (wrap_lt 32 ((s.get (LANE.QCNT_COUNT n) : Int) + d))
  have hidx : (s.noteCounts n d).lanes[n].idxTick = s.lanes[n].idxTick := by rw [State.noteCounts, State.lanes_lane_self]
  rw [hidx] at hshown
  exact hshown

theorem State.countQuad_only (s : State) (n : Fin 10) (d : Int) :
    OnlyRegs [LANE.QCNT_COUNT n, LANE.QIDX_CAPT n] { s with lanes := (s.countQuad n d).lanes } (s.countQuad n d) := by
  rw [State.countQuad_eq, State.lanes_setQcnt]
  exact (s.noteCounts n d).setQcnt_only n _

theorem State.countQuad_acceptA_only (s : State) (n : Fin 10) (a : Bool) (d : Int) : OnlyRegs [LANE.QCNT_COUNT n, LANE.QIDX_CAPT n]
    { s with lanes := ((s.acceptA n a).countQuad n d).lanes } ((s.acceptA n a).countQuad n d) := by
  have honly := (s.acceptA n a).countQuad_only n d
  generalize (s.acceptA n a).countQuad n d = t at honly ⊢
  exact honly

/-- The index edge captures the count and MT (R91). -/
def State.captureIndex (s : State) (n : Fin 10) : State :=
  (((s.set (LANE.QIDX_CAPT n) (s.get (LANE.QCNT_COUNT n))).set (LANE.QIDX_MT_CAPT n) (s.mt % 2 ^ 32)).lane n fun l => { l with
    idxTick := some s.tick, qiNext := s.nextAccept n + s.get (LANE.QCFG_FILT n) + 1 }).set (LANE.IRQ_STAT_IDX n) 1

theorem exec_indexEdge_accepted (hlane : s.domOn .lane = true) (hen : s.on (LANE.QCFG_EN n) = true)
    (hmode : s.get (LANE.QCFG_IDXMODE n) = 1) (hnext : s.lanes[n].qiNext ≤ s.tick) :
    exec (.indexEdge n) s = .next (s.captureIndex n) := by
  have hdown : ¬ ((!s.on (LANE.QCFG_EN n) || s.get (LANE.QCFG_IDXMODE n) == 0 || !s.domOn .lane ||
      decide (s.tick < s.lanes[n].qiNext)) = true) := by
    rw [hen, hmode, hlane, decide_eq_false (Nat.not_lt.2 hnext)]; decide
  have hfilt : ((s.set (LANE.QIDX_CAPT n) (s.get (LANE.QCNT_COUNT n))).set (LANE.QIDX_MT_CAPT n) (s.mt % 2 ^ 32)).get
      (LANE.QCFG_FILT n) = s.get (LANE.QCFG_FILT n) := by
    rw [State.get_set_other (by simp only [RF.key, LANE.QCFG, LANE.QIDX_MT]; omega),
      State.get_set_other (by simp only [RF.key, LANE.QCFG, LANE.QIDX]; omega)]
  refine (if_neg hdown).trans ?_
  dsimp only [State.nextAccept]
  rw [hfilt, hmode]
  rfl

theorem State.captureIndex_shown (s : State) (n : Fin 10) :
    (s.captureIndex n).get (LANE.QIDX_CAPT n) = s.get (LANE.QCNT_COUNT n) % 2 ^ 32 ∧
    (s.captureIndex n).get (LANE.QIDX_MT_CAPT n) = s.mt % 2 ^ 32 ∧ (s.captureIndex n).get (LANE.IRQ_STAT_IDX n) = 1 ∧
    (s.captureIndex n).lanes[n].idxTick = some s.tick := by
  simp (disch := (simp only [RF.key, LANE.QIDX, LANE.QIDX_MT, LANE.IRQ_STAT]; omega)) only [State.captureIndex, State.get_lane,
    State.get_set_other, State.get_set_self, State.lanes_set, State.lanes_lane_self]
  exact ⟨rfl, Nat.mod_mod _ _, rfl, trivial⟩

theorem State.captureIndex_only (s : State) (n : Fin 10) : OnlyRegs [LANE.QIDX_CAPT n, LANE.QIDX_MT_CAPT n, LANE.IRQ_STAT_IDX n]
    { s with lanes := (s.captureIndex n).lanes } (s.captureIndex n) :=
  ((((OnlyRegs.refl _ s).set (by simp) _).set (by simp) _).lane n _).set (by simp) 1

theorem exec_qcntWrite_reached (v : Word) (hup : s.accessible (LANE.QCNT n) = true) : exec (.qcntWrite n v) s =
    .next { (if s.get (LANE.STAT_LSTATE n) < 3 then s.setQcnt n (wrap 32 ((v.toNat : Int) + s.lanes[n].countsNow s.tick))
      else s.set (LANE.STAT_WR_IGN n) 1) with bus := .ok 0 } :=
  State.busDo_reached hup fun s => if s.get (LANE.STAT_LSTATE n) < 3 then
    s.setQcnt n (wrap 32 ((v.toNat : Int) + s.lanes[n].countsNow s.tick)) else s.set (LANE.STAT_WR_IGN n) 1

theorem LaneSt.countsNow_none {l : LaneSt} {k : Nat} (h : l.qdTick ≠ k) : l.countsNow k = 0 := if_neg h

theorem wrap_natCast {w v : Nat} (h : v < 2 ^ w) : wrap w v = v := by
  have hcast : ((v : Int) % 2 ^ w) = ((v % 2 ^ w : Nat) : Int) := by push_cast; rfl
  rw [wrap, hcast, Int.toNat_natCast, Nat.mod_eq_of_lt h]

end

/-- Settles O17: each command by what it answers, and the registers and the lane's own state that it leaves. -/
theorem laneEnablingAndCalibration : Obligations.LaneEnablingAndCalibration := by
  refine ⟨?enable, ?staged, ?judged, ?disable, ?calibrated, ?edge, ?soon, ?double, ?index, ?write⟩
  case enable =>
    intro n v s hup
    refine ⟨fun hrun => ?_, fun hrun happlied => ?_⟩
    · rw [exec_laneEnable_reached v hup, State.landEnable_laneLand hrun]
    · rw [exec_laneEnable_reached v hup, State.laneLand_atOnce (.inr hrun), State.landEnable_atOnce happlied]
  case staged =>
    intro n p t s hen u
    have hstaged : s.laneStaged n p = if p t then u.enableLane n else u := by
      rw [State.laneStaged_eq, hen]; rfl
    exact ⟨fun h => hstaged.trans (if_pos h), fun h => hstaged.trans (if_neg (by simp [h]))⟩
  case judged =>
    intro n u
    refine ⟨fun hoff hdrive hslotA hslotB hfb => ?_, fun hoff hdrive => ?_⟩
    · have hmay : u.mayCalibrate n = true := by
        rw [State.mayCalibrate, decide_eq_true hdrive, hslotA, hslotB]
        simpa using hfb
      rw [State.enableLane_off hoff, if_pos hmay]
      obtain ⟨hen, hst⟩ := u.askEnable_shown n
      obtain ⟨hcal, hkept, hsums⟩ := State.enterCal_shown (hst.trans hoff)
      exact ⟨hcal, hkept.trans hen, hsums, u.enterCal_askEnable_only n⟩
    · have hmay : u.mayCalibrate n = false := by
        rw [State.mayCalibrate, hdrive]; rfl
      rw [State.enableLane_off hoff, hmay]
      obtain ⟨hst, hen, herr⟩ := (u.askEnable n).refuseEnable_shown n
      exact ⟨hst.trans ((u.askEnable_shown n).2.trans hoff), hen, herr⟩
  case disable =>
    intro n v s hup
    refine ⟨exec_laneDisable_reached v hup, fun hst => ?_⟩
    rw [State.disableLane_running hst]
    obtain ⟨hlstate, hen, henAt⟩ := s.landDisable_shown n
    obtain ⟨hoff, hkept, hchg, hwA, hwB, hwC, hwD, hpend⟩ := State.stopLane_shown (s := s.landDisable n) (by rwa [hlstate])
    obtain ⟨hplay, hnxt, hacts, hwait, hloops⟩ := (s.landDisable n).stopLane_lane n
    exact ⟨hoff, hkept.trans hen, hchg, hwA, hwB, hwC, hwD, hpend, hplay, hnxt, hacts, hwait.trans henAt, hloops⟩
  case calibrated =>
    intro n s hst hA hB a b w hloA hhiA hloB hhiB ha hb
    refine ⟨_, exec_calEnd_within hst hA hB rfl rfl ⟨hloA, hhiA⟩ ⟨hloB, hhiB⟩, ?_⟩
    simp only [State.get_startAngle]
    obtain ⟨hready, hdone, hoffsA, hoffsB⟩ := State.enterReady_shown hst ha hb
    refine ⟨hready, hdone, hoffsA, hoffsB, ?_, (s.enterReady_only n a b).lane n _⟩
    rw [State.theta_startAngle_enterReady, State.angleFrom, Nat.cast_ite]
  case edge =>
    intro n a b s hlane hen ha hb hnext q
    have hexec := exec_quadEdgeAccepted_enabled (a := a) (b := b) (ca := true) (cb := false) hlane hen
      (by rw [bne_iff_ne.2 ha, decide_eq_true hnext]; rfl) (by rw [hb, bne_self_eq_false]; rfl)
    rw [State.countEdges_edgeA, ← hb] at hexec
    obtain ⟨hcount, hcapt, hnone⟩ := (s.acceptA n a).countQuad_shown n (if (a != b) = s.on (LANE.QCFG_DIR n) then -1 else 1)
    have hidx : (s.acceptA n a).lanes[n].idxTick = s.lanes[n].idxTick := by rw [State.acceptA, State.lanes_lane_self]
    have hlanes := s.countQuad_acceptA_lane n a (if (a != b) = s.on (LANE.QCFG_DIR n) then -1 else 1)
    rw [hidx] at hcapt hnone
    exact ⟨_, hexec, hcount, congrArg LaneSt.qa hlanes, (congrArg LaneSt.qb hlanes).trans hb.symm, congrArg LaneSt.qaNext hlanes,
      hcapt, hnone, s.countQuad_acceptA_only n a _⟩
  case soon =>
    intro n a b s hlane hen ha hb hnext
    have hexec := exec_quadEdgeAccepted_enabled (a := a) (b := b) (ca := false) (cb := false) hlane hen
      (by rw [decide_eq_false (Nat.not_le.2 hnext), Bool.and_false]) (by rw [hb, bne_self_eq_false]; rfl)
    rw [State.countEdges_none] at hexec
    exact ⟨_, hexec, rfl, s.lanes_lane_self n _, rfl⟩
  case double =>
    intro n a b s hlane hen ha hb hnextA hnextB
    exact exec_quadEdgeAccepted_enabled hlane hen (by rw [bne_iff_ne.2 ha, decide_eq_true hnextA, Bool.and_self])
      (by rw [bne_iff_ne.2 hb, decide_eq_true hnextB, Bool.and_self])
  case index =>
    intro n s hlane hen hmode hnext
    obtain ⟨hcapt, hmt, hirq, hidx⟩ := s.captureIndex_shown n
    exact ⟨_, exec_indexEdge_accepted hlane hen hmode hnext, hcapt, hmt, hirq, hidx, s.captureIndex_only n⟩
  case write =>
    intro n v s hup
    have hexec := exec_qcntWrite_reached v hup
    refine ⟨fun hst => ?_, fun hst => by rw [hexec, if_neg (Nat.not_lt.2 hst)]⟩
    rw [if_pos hst] at hexec
    obtain ⟨hcount, -, hnone⟩ := s.setQcnt_shown n (wrap_lt 32 ((v.toNat : Int) + s.lanes[n].countsNow s.tick))
    refine ⟨_, hexec, hcount, fun hd => ?_, hnone, (s.setQcnt_only n _).bus _⟩
    rw [State.get_fields, hcount, LaneSt.countsNow_none hd, Int.add_zero, wrap_natCast v.isLt]

end Sys2Proof.Machine

/-! ## Lane faults and what their policies do (05_lane_faults.md, R106 to R114) -/

namespace Sys2Proof.Machine

section
variable {s t u : State} {n m : Fin 10}

/-! ### A fault in the tick of a resume (R116) -/

/-- Of the resumes of a lane only one of the present tick counts. -/
theorem State.resNow_stale (hres : ∀ r, s.lanes[n].resNow = some r → r.tick ≠ s.tick) :
    (s.lanes[n].resNow.filter fun r => r.tick == s.tick) = none :=
  Option.filter_eq_none_iff.2 fun r hr => by simpa using hres r hr

/-- A fault leaves a resume alone of which neither the end nor the instant falls in the present tick. -/
theorem State.faultAtResume_apart (hres : ∀ r, s.lanes[n].resNow = some r → r.tick ≠ s.tick)
    (hpend : s.get (LANE.STAT_LSTATE n) ≠ 4 ∨ s.on (LANE.RES_STAT_PENDING n) = false ∨ s.due s.lanes[n].resAt = false) :
    s.faultAtResume n = s := by
  rw [State.faultAtResume, State.resNow_stale hres]
  refine if_neg fun hall => ?_
  simp only [Bool.and_eq_true, decide_eq_true_eq] at hall
  obtain ⟨⟨hst, hon⟩, hdue⟩ := hall
  rcases hpend with hother | hoff | hlater
  · exact hother hst
  · exact Bool.false_ne_true (hoff.symm.trans hon)
  · exact Bool.false_ne_true (hlater.symm.trans hdue)

/-! ### A trip of a fast comparator (R106 to R108) -/

/-- A trip of a lane that drives: OC is live and latched, the outputs are low, and its policy waits for the lane tick. -/
def State.tripOc (s : State) (n : Fin 10) : State :=
  (((s.set (LANE.FLT_STAT_LIVE_OC n) 1).set (LANE.FLT_STAT_OC n) 1).outputsLow n).lane n fun l => { l with ocPend := true }

theorem exec_ocTrip (hst : s.get (LANE.STAT_LSTATE n) ≠ 0) (hlane : s.domOn .lane = true) : exec (.ocTrip n) s =
    if s.get (LANE.STAT_LSTATE n) < 3 then .next ((s.set (LANE.FLT_STAT_LIVE_OC n) 1).detectTick n [(.oc, 3)])
    else .next (((((s.set (LANE.FLT_STAT_LIVE_OC n) 1).faultAtResume n).set (LANE.FLT_STAT_OC n) 1).outputsLow n).lane n
      fun l => { l with ocPend := true }) :=
  if_neg (by simp [hst, hlane])

theorem exec_ocTrip_driving (hst : 3 ≤ s.get (LANE.STAT_LSTATE n)) (hlane : s.domOn .lane = true) (hres : s.NoResumeNow n) :
    exec (.ocTrip n) s = .next (s.tripOc n) := by
  have hapart : (s.set (LANE.FLT_STAT_LIVE_OC n) 1).faultAtResume n = s.set (LANE.FLT_STAT_LIVE_OC n) 1 := by
    refine State.faultAtResume_apart hres.1 (.inr ?_)
    have hn := n.isLt
    simp (disch := (simp only [RF.key, LANE.RES_STAT, LANE.FLT_STAT, MTIME.STATUS]; omega)) only [State.on, State.due,
      State.get_set_other, State.lanes_set, State.mt_set]
    exact hres.2
  rw [exec_ocTrip (by omega) hlane, if_neg (by omega), hapart, State.tripOc]

theorem State.tripOc_shown (s : State) (n : Fin 10) :
    (s.tripOc n).get (LANE.FLT_STAT_LIVE_OC n) = 1 ∧ (s.tripOc n).get (LANE.FLT_STAT_OC n) = 1 ∧
    (s.tripOc n).get (LANE.PW_A_W n) = 0 ∧ (s.tripOc n).get (LANE.PW_B_W n) = 0 ∧ (s.tripOc n).get (LANE.PW_C_W n) = 0 ∧
    (s.tripOc n).get (LANE.PW_D_W n) = 0 := by
  simp (disch := (simp only [RF.key, LANE.FLT_STAT, LANE.PW_A, LANE.PW_B, LANE.PW_C, LANE.PW_D]; omega)) only [State.tripOc,
    State.outputsLow, State.get_lane, State.get_set_other, State.get_set_self]
  exact ⟨rfl, rfl, rfl, rfl, rfl, rfl⟩

theorem State.tripOc_lane (s : State) (n : Fin 10) : (s.tripOc n).lanes[n] = { s.lanes[n] with
    pwNextA := 0, pwNextB := 0, pwNextC := 0, pwNextD := 0, wA := 0, wB := 0, ocPend := true } := by
  rw [State.tripOc, State.outputsLow, State.lane_lane, State.lanes_lane_self]
  rfl

theorem State.tripOc_only (s : State) (n : Fin 10) : OnlyRegs [LANE.FLT_STAT_LIVE_OC n, LANE.FLT_STAT_OC n, LANE.PW_A_W n,
    LANE.PW_B_W n, LANE.PW_C_W n, LANE.PW_D_W n] { s with lanes := (s.tripOc n).lanes } (s.tripOc n) := by
  rw [State.tripOc, State.outputsLow, State.lane_lane]
  exact (((((((OnlyRegs.refl _ s).set (by simp) 1).set (by simp) 1).set (by simp) 0).set (by simp) 0).set (by simp) 0).set
    (by simp) 0).lane n _

/-! ### The other detections (R106, R107) -/

theorem exec_drvFault (hst : s.get (LANE.STAT_LSTATE n) ≠ 0) (hlane : s.domOn .lane = true)
    (hen : s.on (LANE.FLT_CFG_DRV_EN n) = true) : exec (.drvFault n) s =
      .next (((s.set (LANE.FLT_STAT_LIVE_DRV n) 1).lane n fun l => { l with drvQual := true }).detectTick n [(.drv, 3)]) := by
  refine (if_neg (by simp [hlane])).trans (if_neg ?_)
  simp (disch := (simp only [RF.key, LANE.STAT, LANE.FLT_STAT, LANE.FLT_CFG]; omega)) only [State.on, State.get_lane,
    State.get_set_other]
  rw [State.on] at hen
  simp [hst, hen]

theorem State.detectIf_counted {p : Bool} (hst : s.get (LANE.STAT_LSTATE n) ≠ 0) (hp : p = true) :
    s.detectIf n p = .next (s.detectTick n []) := if_pos (by simp [hst, hp])

/-! ### Latches (R112) -/

/-- The classes latch; no policy acts yet. -/
def State.latchClasses (s : State) (n : Fin 10) (cs : List (FaultClass × Nat)) : State :=
  cs.foldl (fun s c => s.set (c.1.latch n) 1) s

/-- The counts that have counted out show their kind of SENSE and begin again. -/
def State.countAgain (s : State) (n : Fin 10) : State :=
  (s.setSubs n).lane n fun l => l.restartSeen (s.on (LANE.FLT_CFG_OPEN_EN n)) (s.feSeen n)

/-- All that a tick's detections leave before a policy acts. -/
def State.noteFaults (s : State) (n : Fin 10) (also : List (FaultClass × Nat)) : State :=
  (s.countAgain n).latchClasses n (also ++ s.detected n)

theorem FaultClass.latch_addr (n : Nat) (c : FaultClass) : (c.latch n).addr = LANE.FLT_STAT n := by cases c <;> rfl
theorem FaultClass.latch_lo (n : Nat) (c : FaultClass) : (c.latch n).lo < 32 := by cases c <;> simp [FaultClass.latch]
theorem FaultClass.latch_bound (n : Nat) (c : FaultClass) : (c.latch n).bound = 2 := by cases c <;> rfl
theorem FaultClass.polField_addr (n : Nat) (c : FaultClass) : (c.polField n).addr = LANE.FLT_CFG n := by cases c <;> rfl
theorem FaultClass.polField_lo (n : Nat) (c : FaultClass) : (c.polField n).lo < 32 := by cases c <;> simp [FaultClass.polField]
theorem FaultClass.code_lt (c : FaultClass) : c.code < 8 := by cases c <;> decide

/-- The register that shows the latches of a lane: FLT_STAT. -/
@[simp] def latchRegs (n : Nat) (a : Nat) : Bool := a == LANE.FLT_STAT n

theorem State.latchClasses_alone (s : State) (n : Fin 10) (cs : List (FaultClass × Nat)) :
    LanesAlone (latchRegs n) s (s.latchClasses n cs) :=
  List.foldlRecOn _ _ (motive := fun t => LanesAlone (latchRegs n) s t) (.refl _ s) fun _ h c _ =>
    h.set _ 1 (c.1.latch_lo n) (by simp [c.1.latch_addr])

theorem State.lanes_latchClasses (s : State) (n : Fin 10) (cs : List (FaultClass × Nat)) :
    (s.latchClasses n cs).lanes = s.lanes :=
  List.foldlRecOn _ _ (motive := fun t : State => t.lanes = s.lanes) rfl fun _ h _ _ => h

/-- A latch that is set stays set when another class latches. -/
theorem State.latch_stays {c : FaultClass} (h : s.get (c.latch n) = 1) (d : FaultClass) :
    (s.set (d.latch n) 1).get (c.latch n) = 1 := by
  rw [State.get_set, d.latch_bound, h, ite_self]

theorem State.latchClasses_stays {c : FaultClass} (h : s.get (c.latch n) = 1) (cs : List (FaultClass × Nat)) :
    (s.latchClasses n cs).get (c.latch n) = 1 :=
  List.foldlRecOn _ _ (motive := fun t : State => t.get (c.latch n) = 1) h fun _ ht d _ => State.latch_stays ht d.1

/-- Each class of the list has latched, by induction on the list. -/
theorem State.latchClasses_latched {cs : List (FaultClass × Nat)} {c : FaultClass} {phase : Nat} (h : (c, phase) ∈ cs)
    (s : State) : (s.latchClasses n cs).get (c.latch n) = 1 := by
  induction cs generalizing s with
  | nil => cases h
  | cons d cs ih =>
    rcases List.mem_cons.1 h with rfl | h
    · exact State.latchClasses_stays (by rw [State.get_set_self, c.latch_bound]) cs
    · exact ih h _

theorem State.setSubs_alone (s : State) (n : Fin 10) : LanesAlone (latchRegs n) s (s.setSubs n) := by
  have hset : ∀ (b : Bool) (f : RF) {t : State}, f.lo < 32 → f.addr = LANE.FLT_STAT n → LanesAlone (latchRegs n) s t →
      LanesAlone (latchRegs n) s (if b then t.set f 1 else t) := by
    intro b f t hl hf h
    split
    · exact h.set f 1 hl (by simp [hf])
    · exact h
  exact hset _ _ (by simp) rfl (hset _ _ (by simp) rfl (hset _ _ (by simp) rfl (.refl _ s)))

theorem State.lanes_setSubs (s : State) (n : Fin 10) : (s.setSubs n).lanes = s.lanes := by
  unfold State.setSubs
  dsimp only
  repeat' split
  all_goals rfl

theorem State.noteFaults_alone (s : State) (n : Fin 10) (also : List (FaultClass × Nat)) :
    LanesAlone (latchRegs n) s (s.noteFaults n also) :=
  ((s.setSubs_alone n).lane n _).trans (State.latchClasses_alone _ n _)

theorem State.noteFaults_lane (s : State) (n : Fin 10) (also : List (FaultClass × Nat)) : (s.noteFaults n also).lanes[n] =
    s.lanes[n].restartSeen (s.on (LANE.FLT_CFG_OPEN_EN n)) (s.feSeen n) := by
  rw [State.noteFaults, State.lanes_latchClasses, State.countAgain, State.lanes_lane_self, State.lanes_setSubs]

/-- The first class of R112's order is one of those detected. -/
theorem mem_of_firstClass {cs : List (FaultClass × Nat)} {x : FaultClass × Nat} (h : firstClass cs = some x) : x ∈ cs := by
  obtain ⟨c, -, hfind⟩ := List.exists_of_findSome?_eq_some h
  exact List.mem_of_find?_eq_some hfind

/-! ### What a suspension shows, and what keeps it (R112, R113) -/

/-- The register does not show the lane's suspension. -/
abbrev BesideSuspension (n a : Nat) : Prop := a ≠ LANE.STAT n ∧ a ≠ LANE.FLT_STAT n ∧ a ≠ LANE.FLT_IRQ_STAT n

/-- What shows the lane's suspension is as it was: STAT, FLT_STAT, FLT_IRQ_STAT, the action in force and the waiting actions. -/
structure SuspensionKept (n : Fin 10) (s t : State) : Prop where
  regs : RegsOutside (fun a => decide (BesideSuspension n a)) s t
  act : t.lanes[n].act = s.lanes[n].act
  acts : t.lanes[n].acts = s.lanes[n].acts

theorem SuspensionKept.refl (n : Fin 10) (s : State) : SuspensionKept n s s := ⟨.refl _ s, rfl, rfl⟩

theorem SuspensionKept.trans (h : SuspensionKept n s t) (k : SuspensionKept n t u) : SuspensionKept n s u :=
  ⟨h.regs.trans k.regs, k.act.trans h.act, k.acts.trans h.acts⟩

/-- Only registers and the lanes' own state have a part in it. -/
theorem SuspensionKept.upd (h : SuspensionKept n s t) (hregs : u.regs = t.regs) (hlanes : u.lanes = t.lanes) :
    SuspensionKept n s u :=
  ⟨h.regs.regs hregs, by rw [hlanes, h.act], by rw [hlanes, h.acts]⟩

theorem SuspensionKept.set (h : SuspensionKept n s t) {f : RF} (hl : f.lo < 32) (hf : BesideSuspension n f.addr) (v : Nat) :
    SuspensionKept n s (t.set f v) := ⟨h.regs.set hl (decide_eq_true hf) v, h.act, h.acts⟩

/-- A change of a lane's own state that leaves its actions. -/
theorem SuspensionKept.lane (h : SuspensionKept n s t) (m : Fin 10) {f : LaneSt → LaneSt}
    (hf : ∀ l, (f l).act = l.act ∧ (f l).acts = l.acts) : SuspensionKept n s (t.lane m f) := by
  refine ⟨h.regs.regs rfl, ?_, ?_⟩
  · rw [State.lanes_lane, apply_ite LaneSt.act, (hf _).1, ite_self, h.act]
  · rw [State.lanes_lane, apply_ite LaneSt.acts, (hf _).2, ite_self, h.acts]

/-- Any change of another lane's own state. -/
theorem SuspensionKept.laneOther (h : SuspensionKept n s t) (hm : n ≠ m) (f : LaneSt → LaneSt) :
    SuspensionKept n s (t.lane m f) := by
  refine ⟨h.regs.regs rfl, ?_, ?_⟩
  · rw [State.lanes_lane, if_neg hm, h.act]
  · rw [State.lanes_lane, if_neg hm, h.acts]

theorem SuspensionKept.count (h : SuspensionKept n s t) {c o : RF} (hcl : c.lo < 32) (hol : o.lo < 32)
    (hc : BesideSuspension n c.addr) (ho : BesideSuspension n o.addr) : SuspensionKept n s (t.count c o) := by
  unfold State.count
  split
  · exact (h.set hcl hc _).upd rfl rfl
  · exact (h.set hol ho _).upd rfl rfl

/-- A report is ERRAGG's. -/
theorem SuspensionKept.report (h : SuspensionKept n s t) {r : Report} (hr : r.src < 64) : SuspensionKept n s (t.report r) := by
  have hn := n.isLt
  have hapart : BesideSuspension n (ERRAGG.SRC r.src) := by
    simp only [BesideSuspension, ERRAGG.SRC, LANE.STAT, LANE.FLT_STAT, LANE.FLT_IRQ_STAT]; omega
  unfold State.report
  split
  · exact h
  · split
    · exact h.count (by simp) (by simp) hapart hapart
    · exact (h.set (f := ERRAGG.SRC_PEND r.src) (by simp) hapart 1).upd rfl rfl

theorem SuspensionKept.setWidths (h : SuspensionKept n s t) (m : Fin 10) (a b c : Int) (off : Nat) :
    SuspensionKept n s (t.setWidths m a b c off) := by
  unfold State.setWidths
  dsimp only
  split
  · exact h.lane m fun _ => ⟨rfl, rfl⟩
  · exact h.lane m fun _ => ⟨rfl, rfl⟩

/-- The pulse widths of a lane are in registers of their own. -/
theorem SuspensionKept.actionOutputs (h : SuspensionKept n s t) (m : Fin 10) (act : Nat) :
    SuspensionKept n s (t.actionOutputs m act) := by
  have hn := n.isLt
  have hm := m.isLt
  unfold State.actionOutputs
  extract_lets p brake two ab d s₁
  split
  · have hwidths : SuspensionKept n s s₁ := by
      refine ((h.set (f := LANE.PW_A_W m) (by simp) ?_ ab).set (f := LANE.PW_B_W m) (by simp) ?_ ab).set (f := LANE.PW_C_W m)
        (by simp) ?_ ab
      all_goals simp only [BesideSuspension, LANE.PW_A, LANE.PW_B, LANE.PW_C, LANE.STAT, LANE.FLT_STAT, LANE.FLT_IRQ_STAT]; omega
    refine (hwidths.set (f := LANE.PW_D_W m) (by simp) ?_ d).lane m fun _ => ⟨rfl, rfl⟩
    simp only [BesideSuspension, LANE.PW_D, LANE.STAT, LANE.FLT_STAT, LANE.FLT_IRQ_STAT]; omega
  · exact h

/-- The suspension of another lane. -/
theorem SuspensionKept.suspendOther (h : SuspensionKept n s t) (hm : n ≠ m) (first action src : Nat) :
    SuspensionKept n s (t.suspend m first action src) := by
  have hapart : (n : Nat) ≠ m := fun hval => hm (Fin.ext hval)
  have hstate : SuspensionKept n s (t.setLstate m 4) := by
    unfold State.setLstate
    split
    · exact h
    · refine (h.set (f := LANE.STAT_LSTATE m) (by simp) ?_ 4).set (f := LANE.IRQ_STAT_STATE_CHG m) (by simp) ?_ 1
      all_goals simp only [BesideSuspension, LANE.STAT, LANE.IRQ_STAT, LANE.FLT_STAT, LANE.FLT_IRQ_STAT]; omega
  refine (((((hstate.set (f := LANE.FLT_STAT_FIRST m) (by simp) ?_ first).set (f := LANE.FLT_STAT_ACTION m) (by simp) ?_
    action).laneOther hm fun l => { l with act := action }).set (f := LANE.FLT_STAT_SRC_LANE m) (by simp) ?_ src).set
    (f := LANE.FLT_IRQ_STAT_FAULT m) (by simp) ?_ 1).laneOther hm fun l => { l with acts := [] }
  all_goals simp only [BesideSuspension, LANE.STAT, LANE.FLT_STAT, LANE.FLT_IRQ_STAT]; omega

/-- The partners that stop do so in registers and a state of their own (R114). -/
theorem SuspensionKept.stopPartners (h : SuspensionKept n s t) : SuspensionKept n s (t.stopPartners n) := by
  unfold State.stopPartners
  dsimp only
  split
  · exact h
  · refine List.foldlRecOn _ _ (motive := fun u => SuspensionKept n s u) h fun u hu m _ => ?_
    dsimp only
    split
    case isFalse => exact hu
    case isTrue hpartner =>
      have hm : n ≠ m := hpartner.1.symm
      have hapart : (n : Nat) ≠ m := fun hval => hm (Fin.ext hval)
      refine ((((hu.laneOther hm _).suspendOther hm _ _ _).set (f := LANE.FLT_STAT_GROUP m) (by simp) ?_ 1).set
        (f := LANE.FLT_STAT_PHASE m) (by simp) ?_ 3).actionOutputs m _
      all_goals simp only [BesideSuspension, LANE.STAT, LANE.FLT_STAT, LANE.FLT_IRQ_STAT]; omega

/-! ### A policy takes effect (R109, R112, R113) -/

/-- The lane is suspended by its own fault: class, action and phase are recorded. -/
def State.suspendFor (s : State) (n : Fin 10) (c : FaultClass) (phase : Nat) : State :=
  (s.suspend n c.code (polAction (s.get (c.polField n))) n).set (LANE.FLT_STAT_PHASE n) phase

theorem polAction_lt (p : Nat) : polAction p < 8 := by
  unfold polAction
  split <;> decide

theorem State.suspendFor_shown (s : State) (n : Fin 10) (c : FaultClass) (phase : Nat) :
    (s.suspendFor n c phase).get (LANE.STAT_LSTATE n) = 4 ∧ (s.suspendFor n c phase).get (LANE.FLT_STAT_FIRST n) = c.code ∧
    (s.suspendFor n c phase).get (LANE.FLT_STAT_ACTION n) = polAction (s.get (c.polField n)) ∧
    (s.suspendFor n c phase).get (LANE.FLT_STAT_PHASE n) = phase % 4 ∧
    (s.suspendFor n c phase).get (LANE.FLT_STAT_SRC_LANE n) = n.1 ∧
    (s.suspendFor n c phase).get (LANE.FLT_IRQ_STAT_FAULT n) = 1 := by
  have hn := n.isLt
  simp (disch := (simp only [RF.key, LANE.STAT, LANE.FLT_STAT, LANE.FLT_IRQ_STAT]; omega)) only [State.suspendFor, State.suspend,
    State.setAction, State.get_lane, State.get_set_other, State.get_set_self]
  exact ⟨State.get_setLstate_self s n (by decide), Nat.mod_eq_of_lt c.code_lt, Nat.mod_eq_of_lt (polAction_lt _), rfl,
    Nat.mod_eq_of_lt (show n.1 < 2 ^ 4 by omega), rfl⟩

theorem State.suspendFor_lane (s : State) (n : Fin 10) (c : FaultClass) (phase : Nat) :
    (s.suspendFor n c phase).lanes[n].act = polAction (s.get (c.polField n)) ∧ (s.suspendFor n c phase).lanes[n].acts = [] := by
  simp only [State.suspendFor, State.suspend, State.setAction, State.lanes_set, State.lanes_lane_self, and_self]

/-- A latch is a field of its own beside what the suspension records. -/
theorem State.get_suspendFor_latch (s : State) (n : Fin 10) (c d : FaultClass) (phase : Nat) :
    (s.suspendFor n c phase).get (d.latch n) = s.get (d.latch n) := by
  have hstate : (s.setLstate n 4).get (d.latch n) = s.get (d.latch n) := by
    unfold State.setLstate
    split
    · rfl
    · cases d <;> simp (disch := (simp only [RF.key, LANE.STAT, LANE.IRQ_STAT, LANE.FLT_STAT]; omega)) only [FaultClass.latch,
        State.get_set_other]
  rw [← hstate]
  cases d <;> simp (disch := (simp only [RF.key, LANE.FLT_STAT, LANE.FLT_IRQ_STAT]; omega)) only [FaultClass.latch,
    State.suspendFor, State.suspend, State.setAction, State.get_lane, State.get_set_other]

/-- All else that a policy does leaves the record of the suspension. -/
theorem State.faultSuspend_kept (s : State) (n : Fin 10) (c : FaultClass) (phase : Nat) :
    SuspensionKept n (s.suspendFor n c phase) (s.faultSuspend n c phase) := by
  have hn := n.isLt
  have hcnt : BesideSuspension n (LANE.FLT_CNT n) := by
    simp only [BesideSuspension, LANE.FLT_CNT, LANE.STAT, LANE.FLT_STAT, LANE.FLT_IRQ_STAT]; omega
  unfold State.faultSuspend
  extract_lets pol act s₁ s₂ s₃ s₄ s₅ s₆
  have hheld : SuspensionKept n (s.suspendFor n c phase) s₃ :=
    ((SuspensionKept.refl n s₁).count (by simp) (by simp) hcnt hcnt).lane n fun _ => ⟨rfl, rfl⟩
  have houtputs : SuspensionKept n (s.suspendFor n c phase) s₄ := by
    by_cases hact : act = 1
    · rw [show s₄ = s₃.holdWidths n from if_pos hact]
      exact hheld.setWidths n _ _ _ _
    · rw [show s₄ = s₃.actionOutputs n act from if_neg hact]
      exact hheld.actionOutputs n act
  have hpulse : SuspensionKept n (s.suspendFor n c phase) s₅ := houtputs.upd rfl rfl
  exact (hpulse.report (by dsimp only; omega)).stopPartners

/-- What a lane that a policy suspends shows (R109, R113). -/
theorem State.faultSuspend_shown (s : State) (n : Fin 10) (c : FaultClass) (phase : Nat) :
    (s.faultSuspend n c phase).get (LANE.STAT_LSTATE n) = 4 ∧ (s.faultSuspend n c phase).get (LANE.FLT_STAT_FIRST n) = c.code ∧
    (s.faultSuspend n c phase).get (LANE.FLT_STAT_ACTION n) = polAction (s.get (c.polField n)) ∧
    (s.faultSuspend n c phase).get (LANE.FLT_STAT_PHASE n) = phase % 4 ∧
    (s.faultSuspend n c phase).get (LANE.FLT_STAT_SRC_LANE n) = n.1 ∧
    (s.faultSuspend n c phase).get (c.latch n) = s.get (c.latch n) ∧
    (s.faultSuspend n c phase).get (LANE.FLT_IRQ_STAT_FAULT n) = 1 := by
  obtain ⟨hregs, -, -⟩ := s.faultSuspend_kept n c phase
  obtain ⟨hst, hfirst, haction, hphase, hsrc, hfault⟩ := s.suspendFor_shown n c phase
  have hlatch := hregs (c.latch n) (c.latch_lo n) (by simp [c.latch_addr])
  exact ⟨(hregs _ (by simp) (by simp)).trans hst, (hregs _ (by simp) (by simp)).trans hfirst,
    (hregs _ (by simp) (by simp)).trans haction, (hregs _ (by simp) (by simp)).trans hphase,
    (hregs _ (by simp) (by simp)).trans hsrc, hlatch.trans (s.get_suspendFor_latch n c c phase),
    (hregs _ (by simp) (by simp)).trans hfault⟩

theorem State.faultSuspend_lane (s : State) (n : Fin 10) (c : FaultClass) (phase : Nat) :
    (s.faultSuspend n c phase).lanes[n].act = polAction (s.get (c.polField n)) ∧
    (s.faultSuspend n c phase).lanes[n].acts = [] := by
  obtain ⟨-, hact, hacts⟩ := s.faultSuspend_kept n c phase
  obtain ⟨hpolicy, hnone⟩ := s.suspendFor_lane n c phase
  exact ⟨hact.trans hpolicy, hacts.trans hnone⟩

/-- Only a SUSPENDED lane can have been stopped as a partner (R114). -/
theorem State.ungroup_other (hst : s.get (LANE.STAT_LSTATE n) ≠ 4) : s.ungroup n = s := by
  unfold State.ungroup
  split
  · exact if_neg (by simp [hst])
  · rfl

theorem State.detect_active {cs : List (FaultClass × Nat)} {c : FaultClass} {phase : Nat}
    (hfirst : firstClass cs = some (c, phase)) (hst : (s.latchClasses n cs).get (LANE.STAT_LSTATE n) = 3)
    (hres : (s.latchClasses n cs).faultAtResume n = s.latchClasses n cs) :
    s.detect n cs = (s.latchClasses n cs).faultSuspend n c phase := by
  rw [State.detect, hfirst]
  dsimp only
  rw [← State.latchClasses, hres, State.ungroup_other (by rw [hst]; decide)]
  exact if_pos (.inl hst)

theorem State.detectTick_active {also : List (FaultClass × Nat)} {c : FaultClass} {phase : Nat}
    (hst : s.get (LANE.STAT_LSTATE n) = 3) (hres : ∀ r, s.lanes[n].resNow = some r → r.tick ≠ s.tick)
    (hfirst : firstClass (also ++ s.detected n) = some (c, phase)) :
    s.detectTick n also = (s.noteFaults n also).faultSuspend n c phase := by
  have hnoted := s.noteFaults_alone n also
  have hactive : (s.noteFaults n also).get (LANE.STAT_LSTATE n) = 3 := (hnoted.regs _ (by simp) (by simp)).trans hst
  have htick : (s.noteFaults n also).tick = s.tick := by rw [hnoted.fields]
  refine State.detect_active (s := s.countAgain n) hfirst hactive
    (State.faultAtResume_apart (s := s.noteFaults n also) ?_ (.inl ?_))
  · rw [s.noteFaults_lane n also, htick]
    exact hres
  · rw [hactive]; decide

/-- The policies are those of before the tick's detections. -/
theorem State.get_noteFaults_polField (s : State) (n : Fin 10) (also : List (FaultClass × Nat)) (c : FaultClass) :
    (s.noteFaults n also).get (c.polField n) = s.get (c.polField n) :=
  (s.noteFaults_alone n also).regs _ (c.polField_lo n) (by simp [c.polField_addr])

/-! ### The outputs under COAST and BRAKE (R110, R111) -/

/-- The width of the brake pattern on PWM_A to PWM_C: the whole period on two-phase bridges, while no trip holds them low. -/
def State.brakeWidth (s : State) (n : Fin 10) (act : Nat) : Nat :=
  if act = 3 ∧ s.get (LANE.CTRL_DRIVE n) ≠ 3 ∧ s.lanes[n].ocPend = false then s.frame.period else 0

/-- The width of the brake pattern on PWM_D. -/
def State.brakeWidthD (s : State) (n : Fin 10) (act : Nat) : Nat :=
  if act == 3 && !s.lanes[n].ocPend then s.frame.period else 0

/-- The outputs have the widths, and the loops are clear. -/
def State.driveStill (s : State) (n : Fin 10) (ab d : Nat) : State :=
  ((((s.set (LANE.PW_A_W n) ab).set (LANE.PW_B_W n) ab).set (LANE.PW_C_W n) ab).set (LANE.PW_D_W n) d).lane n fun l => { l with
    iacc := 0, iiA := 0, iiB := 0, pwNextA := ab, pwNextB := ab, pwNextC := ab, pwNextD := d, wA := 0, wB := 0 }

theorem State.actionOutputs_stop {act : Nat} (hact : act = 2 ∨ act = 3) (s : State) (n : Fin 10) :
    s.actionOutputs n act = s.driveStill n (s.brakeWidth n act) (s.brakeWidthD n act) := by
  have hwidth : s.brakeWidth n act =
      if (act == 3 && !s.lanes[n].ocPend) && s.get (LANE.CTRL_DRIVE n) != 3 then s.frame.period else 0 := by
    unfold State.brakeWidth
    refine if_congr ?_ rfl rfl
    simp only [Bool.and_eq_true, beq_iff_eq, Bool.not_eq_true', bne_iff_ne]
    tauto
  rw [hwidth]
  exact if_pos hact

theorem State.driveStill_shown (s : State) (n : Fin 10) (ab d : Nat) : (s.driveStill n ab d).get (LANE.PW_A_W n) = ab % 2 ^ 17 ∧
    (s.driveStill n ab d).get (LANE.PW_B_W n) = ab % 2 ^ 17 ∧ (s.driveStill n ab d).get (LANE.PW_C_W n) = ab % 2 ^ 17 := by
  simp (disch := (simp only [RF.key, LANE.PW_A, LANE.PW_B, LANE.PW_C, LANE.PW_D]; omega)) only [State.driveStill, State.get_lane,
    State.get_set_other, State.get_set_self]
  exact ⟨rfl, rfl, rfl⟩

theorem State.driveStill_lane (s : State) (n : Fin 10) (ab d : Nat) :
    ((s.driveStill n ab d).lanes[n].iacc, (s.driveStill n ab d).lanes[n].iiA, (s.driveStill n ab d).lanes[n].iiB) = (0, 0, 0) := by
  simp only [State.driveStill, State.lanes_lane_self]

theorem State.driveStill_only (s : State) (n : Fin 10) (ab d : Nat) : OnlyRegs [LANE.PW_A_W n, LANE.PW_B_W n, LANE.PW_C_W n,
    LANE.PW_D_W n] { s with lanes := (s.driveStill n ab d).lanes } (s.driveStill n ab d) :=
  (((((OnlyRegs.refl _ s).set (by simp) ab).set (by simp) ab).set (by simp) ab).set (by simp) d).lane n _

/-! ### Later detections (R112) -/

theorem laterAction_coast (c : FaultClass) (pol : Nat) : laterAction 2 c pol = 2 := rfl

theorem laterAction_brake (c : FaultClass) (pol : Nat) : laterAction 3 c pol = if c = .oc ∨ c = .drv then 2 else 3 := rfl

theorem laterAction_hold {act : Nat} (h : act = 1 ∨ act = 4) (c : FaultClass) (pol : Nat) :
    laterAction act c pol = if pol = 1 then 2 else polAction pol := if_pos h

end

/-- Settles O19: each detection by what it answers; of the suspension, what the policy's own record shows and what everything after
it keeps. -/
theorem laneFaultDetection : Obligations.LaneFaultDetection := by
  refine ⟨?immediate, ?sampled, ?active, ?outputs, ?later⟩
  case immediate =>
    intro n s hst hlane
    refine ⟨fun hlow => (exec_ocTrip hst hlane).trans (if_pos hlow), fun hdrives hres => ?_, exec_drvFault hst hlane⟩
    obtain ⟨hlive, hoc, hA, hB, hC, hD⟩ := s.tripOc_shown n
    have hl := s.tripOc_lane n
    exact ⟨_, exec_ocTrip_driving hdrives hlane hres, hlive, hoc, hA, hB, hC, hD, by rw [hl], by rw [hl], s.tripOc_only n⟩
  case sampled =>
    intro n s hst
    exact ⟨State.detectIf_counted hst, State.detectIf_counted hst, State.detectIf_counted hst, State.detectIf_counted hst,
      State.detectIf_counted hst⟩
  case active =>
    intro n also c phase s hst hres hfirst t
    have ht : t = (s.noteFaults n also).faultSuspend n c phase := State.detectTick_active hst hres hfirst
    have hlatched : (s.noteFaults n also).get (c.latch n) = 1 := State.latchClasses_latched (mem_of_firstClass hfirst) _
    obtain ⟨hstate, hcode, haction, hphase, hsrc, hlatch, hfault⟩ := (s.noteFaults n also).faultSuspend_shown n c phase
    obtain ⟨hact, hacts⟩ := (s.noteFaults n also).faultSuspend_lane n c phase
    rw [s.get_noteFaults_polField n also c] at haction hact
    rw [ht]
    exact ⟨hstate, hcode, haction, hphase, hsrc, hlatch.trans hlatched, hfault, hact, hacts⟩
  case outputs =>
    intro n act s hact t w
    have ht : t = s.driveStill n (s.brakeWidth n act) (s.brakeWidthD n act) := State.actionOutputs_stop hact s n
    have hw : s.brakeWidth n act % 2 ^ 17 = w := apply_ite (· % 2 ^ 17) _ _ _
    obtain ⟨hA, hB, hC⟩ := s.driveStill_shown n (s.brakeWidth n act) (s.brakeWidthD n act)
    rw [ht]
    exact ⟨hA.trans hw, hB.trans hw, hC.trans hw, s.driveStill_lane n _ _, s.driveStill_only n _ _⟩
  case later =>
    intro act c pol
    refine ⟨laterAction_coast c pol, laterAction_brake .oc pol, laterAction_brake .drv pol, laterAction_brake .sense pol,
      laterAction_brake .openPhase pol, laterAction_brake .fe pol, fun h => ⟨laterAction_hold h c 1, laterAction_hold h c 2,
      laterAction_hold h c 0⟩⟩

end Sys2Proof.Machine

/-! ## The end of HOLD_SAFE, and resumption (05_lane_faults.md, R111, R115, R116) -/

namespace Sys2Proof.Machine

section
variable {s t u : State} {n : Fin 10} {fs : List RF}

/-! ### The end of HOLD_SAFE (R111) -/

theorem exec_holdSafeEnd_due (hst : s.get (LANE.STAT_LSTATE n) = 4) (hact : s.lanes[n].act = 1)
    (hend : s.lanes[n].holdEnd ≤ 4 * s.frame.frameTick + s.centre n)
    (hnow : 4 * s.frame.frameTick + s.centre n < 4 * s.tick + 4) :
    exec (.holdSafeEnd n) s = .next (((s.setAction n 2).set (LANE.FLT_IRQ_STAT_HOLD_END n) 1).actionOutputs n 2) :=
  if_pos (by rw [hst, hact, decide_eq_true hend, decide_eq_true hnow]; rfl)

/-! ### The end of a resume (R115) -/

theorem State.resDone_shown (s : State) (n : Nat) {code : Nat} (hcode : code < 2 ^ 8) :
    (s.resDone n code).get (LANE.RES_STAT_PENDING n) = 0 ∧ (s.resDone n code).get (LANE.RES_STAT_OUTCOME n) = code ∧
    (s.resDone n code).get (LANE.FLT_IRQ_STAT_RES_DONE n) = 1 := by
  simp (disch := (simp only [RF.key, LANE.RES_STAT, LANE.FLT_IRQ_STAT]; omega)) only [State.resDone, State.get_set_other,
    State.get_set_self]
  exact ⟨rfl, Nat.mod_eq_of_lt hcode, rfl⟩

theorem State.get_resDone_other {g : RF} {n : Nat} (hl : g.lo < 32) (hstat : g.addr ≠ LANE.RES_STAT n)
    (hirq : g.addr ≠ LANE.FLT_IRQ_STAT n) (s : State) (code : Nat) : (s.resDone n code).get g = s.get g := by
  simp (disch := (simp only [RF.key]; omega)) only [State.resDone, State.get_set_other]

theorem OnlyRegs.resDone (h : OnlyRegs fs s t) {n : Nat} (hpend : LANE.RES_STAT_PENDING n ∈ fs)
    (hout : LANE.RES_STAT_OUTCOME n ∈ fs) (hdone : LANE.FLT_IRQ_STAT_RES_DONE n ∈ fs) (code : Nat) :
    OnlyRegs fs s (t.resDone n code) := ((h.set hpend 0).set hout code).set hdone 1

/-! ### A RESUME lands (R115, R116) -/

/-- RES_AT's upper bits are written; the resume is still to be judged. -/
def State.writeResHi (s : State) (n : Fin 10) (v : Word) : State := s.set (LANE.RESUME_RES_AT_HI n) (bits v.toNat 7 0)

/-- A resume waits for the full instant `inst`. -/
def State.pendResume (s : State) (n : Fin 10) (inst : Nat) : State :=
  (s.set (LANE.RES_STAT_PENDING n) 1).lane n fun l => { l with resAt := inst }

theorem exec_resume_reached (v : Word) (hup : s.accessible (LANE.RESUME n) = true) :
    exec (.resume n v) s = .next { (s.writeResHi n v).resume n with bus := .ok 0 } :=
  State.busDo_reached hup fun s => (s.writeResHi n v).resume n

theorem State.writeResHi_shown (s : State) (n : Fin 10) (v : Word) :
    (s.writeResHi n v).get (LANE.STAT_LSTATE n) = s.get (LANE.STAT_LSTATE n) ∧
    (s.writeResHi n v).get (LANE.RESUME_RES_AT_HI n) = bits v.toNat 7 0 ∧
    (s.writeResHi n v).get (LANE.RES_AT_LO_RES_AT_LO n) = s.get (LANE.RES_AT_LO_RES_AT_LO n) := by
  simp (disch := (simp only [RF.key, LANE.STAT, LANE.RESUME, LANE.RES_AT_LO]; omega)) only [State.writeResHi, State.get_set_other,
    State.get_set_self]
  exact ⟨trivial, Nat.mod_eq_of_lt (bits_lt v.toNat 7 0), trivial⟩

theorem State.resume_notSuspended (hst : s.get (LANE.STAT_LSTATE n) ≠ 4) : s.resume n = s.resDone n 0x10 := if_pos hst

/-- The instant is given as the model reads a pair of registers: the power of 2 in it is then the model's own, and no check of the
proof has to compare it with another form of it. -/
theorem State.resume_future {x : Nat} (hst : s.get (LANE.STAT_LSTATE n) = 4)
    (hx : s.get64 (LANE.RESUME_RES_AT_HI n) (LANE.RES_AT_LO_RES_AT_LO n) = x)
    (hpast : (s.stamp40 x).2 = false) (hnow : (s.stamp40 x).1 ≠ s.mt) : s.resume n = s.pendResume n (s.stamp40 x).1 := by
  rw [State.get64] at hx
  rw [State.resume, if_neg (not_not.2 hst), hx]
  generalize s.stamp40 x = stamp at hpast hnow ⊢
  obtain ⟨full, past⟩ := stamp
  dsimp only at hpast hnow
  exact if_neg (by rw [hpast, beq_false_of_ne hnow]; decide)

theorem State.pendResume_shown (s : State) (n : Fin 10) (inst : Nat) : (s.pendResume n inst).get (LANE.RES_STAT_PENDING n) = 1 ∧
    (s.pendResume n inst).get (LANE.RESUME_RES_AT_HI n) = s.get (LANE.RESUME_RES_AT_HI n) ∧
    (s.pendResume n inst).lanes[n].resAt = inst := by
  simp (disch := (simp only [RF.key, LANE.RES_STAT, LANE.RESUME]; omega)) only [State.pendResume, State.get_lane,
    State.get_set_other, State.get_set_self, State.lanes_lane_self]
  exact ⟨rfl, trivial, trivial⟩

theorem State.pendResume_only (s : State) (n : Fin 10) (v : Word) (inst : Nat) :
    OnlyRegs [LANE.RES_STAT_PENDING n, LANE.RESUME_RES_AT_HI n] { s with lanes := ((s.writeResHi n v).pendResume n inst).lanes }
      ((s.writeResHi n v).pendResume n inst) :=
  (((OnlyRegs.refl _ s).set (by simp) _).set (by simp) 1).lane n _

/-! ### The instant of a pending resume (R115) -/

/-- The pending resume is taken in the present tick; its checks are still to come. -/
def State.takeResume (s : State) (n : Fin 10) : State :=
  (s.set (LANE.RES_STAT_PENDING n) 0).lane n fun l => { l with
    resNow := some ⟨s.tick, s.get (LANE.RES_STAT_OUTCOME n), s.get (LANE.FLT_IRQ_STAT_RES_DONE n), none⟩ }

/-- The lane is ACTIVE again and the resume has ended so; its player is still to go on. -/
def State.reactivate (u : State) (n : Fin 10) : State := (u.setLstate n 3).resDone n 0x02

/-- The player holds the measured position until the record `nxt` starts; ENDED shows that none is left. -/
def State.goOnFrom (u : State) (n : Fin 10) (nxt : Option (Nat × Nat)) : State :=
  let p := u.get (LANE.POS_MEAS_P n)
  ((if nxt.isNone then u.set (LANE.STAT_ENDED n) 1 else u).set (LANE.POS_CMD_P n) p).lane n fun l => { l with
    held := p, holding := true, coasting := false, nxt := nxt, iacc := 0, iiA := 0, iiB := 0, entered := true
    resNow := l.resNow.map fun r => { r with act := some l.act } }

theorem State.takeResume_resAt (s : State) (n : Fin 10) : (s.takeResume n).lanes[n].resAt = s.lanes[n].resAt := by
  rw [State.takeResume, State.lanes_lane_self, State.lanes_set]

theorem State.takeResume_nxt (s : State) (n : Fin 10) : (s.takeResume n).lanes[n].nxt = s.lanes[n].nxt := by
  rw [State.takeResume, State.lanes_lane_self, State.lanes_set]

/-- The record that the lane goes on with: the first after the instant of the resume. -/
def State.resumeNext (s : State) (n : Fin 10) : Option (Nat × Nat) :=
  (s.takeResume n).recordAfter n s.lanes[n].resAt 384 s.lanes[n].nxt

theorem exec_resumeAt_refused (hpend : s.on (LANE.RES_STAT_PENDING n) = true) (hdue : s.due s.lanes[n].resAt = true) {c : Nat}
    (hrefused : (s.takeResume n).resumeRefusal n (s.resumeNext n) = some c) :
    exec (.resumeAt n) s = .next ((s.takeResume n).resDone n c) := by
  rw [State.resumeNext, ← State.takeResume_resAt, ← State.takeResume_nxt] at hrefused
  refine (if_neg (by simp only [hpend, hdue]; decide)).trans ?_
  dsimp only
  rw [← State.takeResume, hrefused]

theorem exec_resumeAt_resumed (hpend : s.on (LANE.RES_STAT_PENDING n) = true) (hdue : s.due s.lanes[n].resAt = true)
    (hpassed : (s.takeResume n).resumeRefusal n (s.resumeNext n) = none) :
    exec (.resumeAt n) s = .next (((s.takeResume n).reactivate n).goOnFrom n (s.resumeNext n)) := by
  rw [State.resumeNext, ← State.takeResume_resAt, ← State.takeResume_nxt] at hpassed ⊢
  refine (if_neg (by simp only [hpend, hdue]; decide)).trans ?_
  dsimp only
  rw [← State.takeResume, hpassed]
  rfl

theorem State.reactivate_shown (hst : u.get (LANE.STAT_LSTATE n) ≠ 3) : (u.reactivate n).get (LANE.STAT_LSTATE n) = 3 ∧
    (u.reactivate n).get (LANE.RES_STAT_PENDING n) = 0 ∧ (u.reactivate n).get (LANE.RES_STAT_OUTCOME n) = 2 ∧
    (u.reactivate n).get (LANE.FLT_IRQ_STAT_RES_DONE n) = 1 ∧
    (u.reactivate n).get (LANE.POS_MEAS_P n) = u.get (LANE.POS_MEAS_P n) := by
  have hpos : (u.setLstate n 3).get (LANE.POS_MEAS_P n) = u.get (LANE.POS_MEAS_P n) := by
    have hn := n.isLt
    simp (disch := (simp only [RF.key, LANE.STAT, LANE.IRQ_STAT, LANE.POS_MEAS]; omega)) only [State.setLstate_change hst,
      State.get_set_other]
  obtain ⟨hclear, houtcome, hdone⟩ := (u.setLstate n 3).resDone_shown n (code := 0x02) (by decide)
  refine ⟨?_, hclear, houtcome, hdone, ?_⟩
  · exact (State.get_resDone_other (by simp) (by simp only [LANE.STAT, LANE.RES_STAT]; omega)
      (by simp only [LANE.STAT, LANE.FLT_IRQ_STAT]; omega) _ _).trans (State.get_setLstate_self u n (by decide))
  · exact (State.get_resDone_other (by simp) (by simp only [LANE.POS_MEAS, LANE.RES_STAT]; omega)
      (by simp only [LANE.POS_MEAS, LANE.FLT_IRQ_STAT]; omega) _ _).trans hpos

theorem OnlyRegs.goOnFrom (h : OnlyRegs fs s t) (hended : LANE.STAT_ENDED n ∈ fs) (hcmd : LANE.POS_CMD_P n ∈ fs)
    (nxt : Option (Nat × Nat)) : OnlyRegs fs { s with lanes := (t.goOnFrom n nxt).lanes } (t.goOnFrom n nxt) := by
  have hshown : OnlyRegs fs s (if nxt.isNone then t.set (LANE.STAT_ENDED n) 1 else t) := by
    split
    · exact h.set hended 1
    · exact h
  exact (hshown.set hcmd _).lane n _

theorem State.get_goOnFrom_other {g : RF} (hended : g.key ≠ (LANE.STAT_ENDED n).key) (hcmd : g.key ≠ (LANE.POS_CMD_P n).key)
    (u : State) (nxt : Option (Nat × Nat)) : (u.goOnFrom n nxt).get g = u.get g :=
  ((OnlyRegs.refl [LANE.STAT_ENDED n, LANE.POS_CMD_P n] u).goOnFrom (by simp) (by simp) nxt).1 g (by simp [hended, hcmd])

theorem State.goOnFrom_shown (u : State) (n : Fin 10) (nxt : Option (Nat × Nat)) :
    (u.goOnFrom n nxt).get (LANE.POS_CMD_P n) = u.get (LANE.POS_MEAS_P n) % 2 ^ 32 ∧ (u.goOnFrom n nxt).lanes[n].nxt = nxt ∧
    (u.goOnFrom n nxt).lanes[n].holding = true ∧ (u.goOnFrom n nxt).lanes[n].held = u.get (LANE.POS_MEAS_P n) := by
  simp only [State.goOnFrom, State.get_lane, State.get_set_self, State.lanes_lane_self, and_self, and_true]
  rfl

/-- The player's registers are apart from those that show the resume. -/
theorem State.goOnFrom_kept (u : State) (n : Fin 10) (nxt : Option (Nat × Nat)) :
    (u.goOnFrom n nxt).get (LANE.STAT_LSTATE n) = u.get (LANE.STAT_LSTATE n) ∧
    (u.goOnFrom n nxt).get (LANE.RES_STAT_PENDING n) = u.get (LANE.RES_STAT_PENDING n) ∧
    (u.goOnFrom n nxt).get (LANE.RES_STAT_OUTCOME n) = u.get (LANE.RES_STAT_OUTCOME n) ∧
    (u.goOnFrom n nxt).get (LANE.FLT_IRQ_STAT_RES_DONE n) = u.get (LANE.FLT_IRQ_STAT_RES_DONE n) := by
  simp (disch := (simp only [RF.key, LANE.STAT, LANE.RES_STAT, LANE.FLT_IRQ_STAT, LANE.POS_CMD]; omega)) only
    [State.get_goOnFrom_other, and_self]

/-! ### A fault in the tick of the instant (R116) -/

theorem State.faultAtResume_pending (hst : s.get (LANE.STAT_LSTATE n) = 4) (hnone : s.lanes[n].resNow = none)
    (hpend : s.on (LANE.RES_STAT_PENDING n) = true) (hdue : s.due s.lanes[n].resAt = true) :
    s.faultAtResume n = (s.resDone n 0x16).lane n fun l => { l with
      resNow := some ⟨s.tick, s.get (LANE.RES_STAT_OUTCOME n), s.get (LANE.FLT_IRQ_STAT_RES_DONE n), none⟩ } := by
  rw [State.faultAtResume, hnone]
  exact if_pos (by rw [hst, hpend, hdue]; rfl)

/-! ### The checks of a resume (R115) -/

theorem State.resumeRefusal_timeInvalid (hvalid : s.timeValid = false) (nxt : Option (Nat × Nat)) :
    s.resumeRefusal n nxt = some 0x13 := if_pos (by rw [hvalid]; rfl)

theorem State.resumeRefusal_holding (hvalid : s.timeValid = true) (hact : s.lanes[n].act = 1) (nxt : Option (Nat × Nat)) :
    s.resumeRefusal n nxt = some 0x11 := (if_neg (by rw [hvalid]; decide)).trans (if_pos hact)

theorem State.resumeRefusal_overcurrent (hvalid : s.timeValid = true) (hact : s.lanes[n].act ≠ 1)
    (hlive : s.on (LANE.FLT_STAT_LIVE_OC n) = true) (nxt : Option (Nat × Nat)) : s.resumeRefusal n nxt = some 0x12 :=
  (if_neg (by rw [hvalid]; decide)).trans ((if_neg hact).trans (if_pos (by rw [hlive]; rfl)))

end

/-- Settles O20: each command by what it answers; the resumed lane by what its return to ACTIVE shows and where its player goes
on. -/
theorem laneResumption : Obligations.LaneResumption := by
  refine ⟨fun n s hst hact hend hnow => exec_holdSafeEnd_due hst hact hend hnow, ?pending, ?notSuspended, ?instant, ?fault,
    ?checks⟩
  case pending =>
    intro n v s hup hst x hpast hnow
    obtain ⟨hstate, hhi, hlo⟩ := s.writeResHi_shown n v
    have hfuture : (s.writeResHi n v).resume n = (s.writeResHi n v).pendResume n (s.stamp40 x).1 :=
      State.resume_future (hstate.trans hst) (by rw [State.get64, hhi, hlo]) hpast hnow
    have hexec := exec_resume_reached v hup
    rw [hfuture] at hexec
    obtain ⟨hpend, hkept, hat⟩ := (s.writeResHi n v).pendResume_shown n (s.stamp40 x).1
    exact ⟨_, hexec, hpend, hkept.trans hhi, hat, (s.pendResume_only n v _).bus _⟩
  case notSuspended =>
    intro n v s hup hst
    rw [exec_resume_reached v hup, State.resume_notSuspended (by rwa [(s.writeResHi_shown n v).1])]
    rfl
  case instant =>
    intro n s hpend hdue u nxt
    refine ⟨fun c hrefused => exec_resumeAt_refused hpend hdue hrefused, fun hpassed hst => ?_⟩
    have hn := n.isLt
    have hkept : ∀ g : RF, g.key ≠ (LANE.RES_STAT_PENDING n).key → u.get g = s.get g := fun g hg => State.get_set_other hg s 0
    have hstate := (hkept (LANE.STAT_LSTATE n) (by simp only [RF.key, LANE.STAT, LANE.RES_STAT]; omega)).trans_ne hst
    have hmeas := hkept (LANE.POS_MEAS_P n) (by simp only [RF.key, LANE.POS_MEAS, LANE.RES_STAT]; omega)
    obtain ⟨hactive, hclear, houtcome, hdone, hpos⟩ := State.reactivate_shown hstate
    obtain ⟨hcmd, hnxt, hholding, hheld⟩ := (u.reactivate n).goOnFrom_shown n nxt
    rw [hpos, hmeas] at hcmd hheld
    obtain ⟨hstateKept, hclearKept, houtcomeKept, hdoneKept⟩ := (u.reactivate n).goOnFrom_kept n nxt
    refine ⟨_, exec_resumeAt_resumed hpend hdue hpassed, hstateKept.trans hactive, hclearKept.trans hclear,
      houtcomeKept.trans houtcome, hdoneKept.trans hdone, hcmd, hnxt, hholding, hheld, ?_⟩
    exact ((((OnlyRegs.refl _ s).set (by simp) 0).lane n _).setLstate (by simp) (by simp) 3 |>.resDone (by simp) (by simp)
      (by simp) 2).goOnFrom (by simp) (by simp) nxt
  case fault =>
    intro n s hst hnone hpend hdue
    rw [State.faultAtResume_pending hst hnone hpend hdue]
    obtain ⟨hclear, houtcome, hdone⟩ := s.resDone_shown n (code := 0x16) (by decide)
    exact ⟨hclear, houtcome, hdone, ((OnlyRegs.refl _ s).resDone (by simp) (by simp) (by simp) _).lane n _⟩
  case checks =>
    intro n nxt s
    exact ⟨fun hvalid => State.resumeRefusal_timeInvalid hvalid nxt,
      fun hvalid hact => State.resumeRefusal_holding hvalid hact nxt,
      fun hvalid hact hlive => State.resumeRefusal_overcurrent hvalid hact hlive nxt⟩

end Sys2Proof.Machine

/-! ## A pin engine's program and what its instructions leave alone (06_pin_engines.md, R122, R123, R128, R129, R133, R135) -/

namespace Sys2Proof.Machine

section
variable {s t u : State} {n : Fin 10} {w : Nat} {fs : List RF}

/-! ### An engine's own state and its frames -/

theorem State.engines_eng_self (s : State) (n : Fin 10) (f : EngSt → EngSt) : (s.eng n f).engines[n] = f s.engines[n] :=
  Vector.getElem_set_self _

theorem OnlyRegs.withEngines (h : OnlyRegs fs s t) (v : Vector EngSt 10) :
    OnlyRegs fs { s with engines := v } { t with engines := v } :=
  ⟨h.1, h.2.1, congrArg (fun x : State => { x with engines := v }) h.2.2⟩

theorem OnlyRegs.setLegal (h : OnlyRegs fs s t) {f : RF} (hf : f ∈ fs) (l : Legal) (v : Nat) : OnlyRegs fs s (t.setLegal f l v) := by
  unfold State.setLegal
  split
  · exact h.put hf _
  · exact h

/-- What changes the listed fields alone leaves every other register as it is. -/
theorem OnlyRegs.outside (h : OnlyRegs fs s t) {p : Nat → Bool} (hfs : ∀ f ∈ fs, f.lo < 32 ∧ p f.addr = true) :
    RegsOutside p s t := by
  intro g hl hp
  refine h.1 g fun f hf => ?_
  obtain ⟨hlo, hin⟩ := hfs f hf
  exact RF.key_ne_of_addr (fun e => by rw [e, hin] at hp; exact Bool.noConfusion hp) hl hlo

theorem OnlyRegs.ofBus (h : OnlyRegs fs s t) (b : BusAns) : OnlyRegs fs { s with bus := b } t := ⟨h.1, h.2.1, h.2.2⟩

/-- Beside the engines' own state nothing differs but the listed registers. -/
def EngineRegs (fs : List RF) (s t : State) : Prop := OnlyRegs fs { s with engines := t.engines } t

theorem OnlyRegs.engineRegs (h : OnlyRegs fs s t) : EngineRegs fs s t := h.withEngines t.engines

theorem EngineRegs.set (h : EngineRegs fs s t) {f : RF} (hf : f ∈ fs) (v : Nat) : EngineRegs fs s (t.set f v) := OnlyRegs.set h hf v

theorem EngineRegs.eng (h : EngineRegs fs s t) (n : Fin 10) (f : EngSt → EngSt) : EngineRegs fs s (t.eng n f) :=
  OnlyRegs.withEngines h _

theorem EngineRegs.get (h : EngineRegs fs s t) {g : RF} (hg : ∀ f ∈ fs, g.key ≠ f.key) : t.get g = s.get g := h.1 g hg

theorem EngineRegs.outside (h : EngineRegs fs s t) {p : Nat → Bool} (hfs : ∀ f ∈ fs, f.lo < 32 ∧ p f.addr = true) :
    RegsOutside p s t :=
  fun g hl hp => OnlyRegs.outside h hfs g hl hp

theorem EngineRegs.memory (h : EngineRegs fs s t) : SameMemory s t := h.2.1

theorem EngineRegs.peFresh (h : EngineRegs fs s t) (hwait : PINENG.E_STAT_WAIT n ∈ fs) : EngineRegs fs s (t.peFresh n) :=
  (h.set hwait 0).eng n _

theorem EngineRegs.peLevels (h : EngineRegs fs s t) (hrx : PINENG.E_FIFO_STAT_RX_LVL n ∈ fs) (htx : PINENG.E_FIFO_STAT_TX_LVL n ∈ fs) :
    EngineRegs fs s (t.peLevels n) :=
  (h.set hrx _).set htx _

theorem State.engines_peLevels (s : State) (n : Fin 10) : (s.peLevels n).engines = s.engines := rfl

theorem State.engines_setBit (s : State) (f : RF) (i : Nat) (b : Bool) : (s.setBit f i b).engines = s.engines := rfl

theorem State.engines_count (s : State) (cnt ovf : RF) : (s.count cnt ovf).engines = s.engines := by
  rw [State.count]; split <;> rfl

theorem State.engines_report (s : State) (r : Report) : (s.report r).engines = s.engines := by
  rw [State.report]
  split
  · rfl
  · split
    · exact State.engines_count s _ _
    · rfl

/-- A report changes registers of ERRAGG alone. -/
theorem State.get_report_other {g : RF} (r : Report) (hpend : g.key ≠ (ERRAGG.SRC_PEND r.src).key)
    (hrep : g.key ≠ (ERRAGG.SRC_REPEAT r.src).key) (hovf : g.key ≠ (ERRAGG.SRC_OVF r.src).key) (s : State) :
    (s.report r).get g = s.get g := by
  rw [State.report]
  split
  · rfl
  · split
    · rw [State.get_count, if_neg hrep, if_neg hovf, ite_self]
    · exact State.get_set_other hpend s 1

/-! ### What a program rests on stays as it is -/

/-- The registers of engine `n` that its instructions leave to their completion, or to the software. -/
def programFields (n : Nat) : List RF := [PINENG.E_STAT_PC n, PINENG.E_RANGE_START n, PINENG.E_RANGE_END n, PINENG.E_CTRL_MSBF n]

/-- From `s` to `t` engine `n` stays at its instruction: its place in the program, the memories and the tick are as before. -/
structure SameProgram (n : Fin 10) (s t : State) : Prop where
  regs : ∀ g ∈ programFields n, t.get g = s.get g
  mem : SameMemory s t
  tick : t.tick = s.tick

theorem SameProgram.refl (n : Fin 10) (s : State) : SameProgram n s s := ⟨fun _ _ => rfl, fun _ => rfl, rfl⟩

theorem SameProgram.set (h : SameProgram n s t) (f : RF) (v : Nat)
    (hf : ∀ g ∈ programFields n, g.key ≠ f.key := by
      simp only [programFields, List.forall_mem_cons, RF.key, PINENG.E_STAT, PINENG.E_RANGE, PINENG.E_CTRL,
        PINENG.E_BASE, PINENG.E_X, PINENG.E_Y, PINENG.E_FIFO_STAT, PINENG.E_LATE_CNT, PINENG.E_RX_OVR, PINENG.IRQ_STAT, LANE.PE_POS,
        List.not_mem_nil, IsEmpty.forall_iff, implies_true, and_true]
      omega) : SameProgram n s (t.set f v) :=
  ⟨fun g hg => (State.get_set_other (hf g hg) t v).trans (h.regs g hg), h.mem, h.tick⟩

theorem SameProgram.put {f : RF} {v : Nat} (h : SameProgram n s (t.set f v)) : SameProgram n s (t.put f v) := ⟨h.regs, h.mem, h.tick⟩

theorem SameProgram.setBit {f : RF} {i : Nat} {b : Bool} (h : SameProgram n s (t.set f (Machine.setBit (t.get f) i b))) :
    SameProgram n s (t.setBit f i b) := ⟨h.regs, h.mem, h.tick⟩

theorem SameProgram.count {cnt ovf : RF} (hcnt : SameProgram n s (t.set cnt (t.get cnt + 1))) (hovf : SameProgram n s (t.set ovf 1)) :
    SameProgram n s (t.count cnt ovf) := by
  rw [State.count]
  split
  · exact ⟨hcnt.regs, hcnt.mem, hcnt.tick⟩
  · exact ⟨hovf.regs, hovf.mem, hovf.tick⟩

theorem SameProgram.eng (h : SameProgram n s t) (f : EngSt → EngSt) : SameProgram n s (t.eng n f) := ⟨h.regs, h.mem, h.tick⟩

theorem SameProgram.pulse (h : SameProgram n s t) (id k : Nat) : SameProgram n s (t.pulse id k) := ⟨h.regs, h.mem, h.tick⟩

theorem SameProgram.withBalls (h : SameProgram n s t) (balls : Nat) : SameProgram n s (t.withBalls balls) := ⟨h.regs, h.mem, h.tick⟩

theorem SameProgram.ite {c : Prop} [Decidable c] (ht : SameProgram n s t) (hu : SameProgram n s u) :
    SameProgram n s (if c then t else u) := by
  split
  · exact ht
  · exact hu

theorem SameProgram.peNext (h : SameProgram n s t) : t.peNext n = s.peNext n :=
  congrArg (· + 1) (h.regs (PINENG.E_STAT_PC n) (by simp [programFields]))

theorem SameProgram.rangeStart (h : SameProgram n s t) : t.get (PINENG.E_RANGE_START n) = s.get (PINENG.E_RANGE_START n) :=
  h.regs _ (by simp [programFields])

theorem SameProgram.rangeEnd (h : SameProgram n s t) : t.get (PINENG.E_RANGE_END n) = s.get (PINENG.E_RANGE_END n) :=
  h.regs _ (by simp [programFields])

theorem SameProgram.msbFirst (h : SameProgram n s t) : t.on (PINENG.E_CTRL_MSBF n) = s.on (PINENG.E_CTRL_MSBF n) :=
  State.on_congr (h.regs _ (by simp [programFields]))

theorem SameProgram.peWord (h : SameProgram n s t) : t.peWord n = s.peWord n := by
  rw [State.peWord, State.peWord, h.regs (PINENG.E_STAT_PC n) (by simp [programFields]), State.mem?_congr h.mem]

/-! ### Timing (R123 to R126) -/

theorem SameProgram.setBase (h : SameProgram n s t) (v : Nat) : SameProgram n s (t.setBase n v) := by
  unfold State.setBase
  exact ((h.set _ _).set _ _).eng _

theorem SameProgram.byDone (h : SameProgram n s t) (w : Nat) : SameProgram n s (t.byDone n w) := .ite ((h.set _ _).setBase _) h

theorem SameProgram.peLate (h : SameProgram n s t) : SameProgram n s (t.peLate n) := .count ((h.set _ _).set _ _) ((h.set _ _).set _ _)

theorem SameProgram.peTimed (h : SameProgram n s t) (w : Nat) : SameProgram n s (t.peTimed n w) := by
  unfold State.peTimed
  split
  · exact h
  · exact h
  · exact .ite (.setBase (.ite h.peLate h) _) (.ite h.peLate h)

/-! ### FIFOs and the instructions' effects (R128, R133) -/

theorem SameProgram.peLevels (h : SameProgram n s t) : SameProgram n s (t.peLevels n) := (h.set _ _).set _ _

theorem SameProgram.pushRx (h : SameProgram n s t) (w : Nat) : SameProgram n s (t.pushRx n w) :=
  have hmissed : SameProgram n s ((t.rxMiss n w).set (PINENG.E_STAT_C n) 0) := (h.eng _).set _ _
  .ite (.count (hmissed.set _ _) (hmissed.set _ _)) ((h.eng _).peLevels.set _ _)

theorem SameProgram.txRemoved (h : SameProgram n s t) : SameProgram n s (t.txRemoved n) := by
  unfold State.txRemoved
  split
  · exact ((SameProgram.ite (h.set _ _).put h).eng _).peLevels
  · exact h

theorem SameProgram.putPos (h : SameProgram n s t) (x : Nat) : SameProgram n s (t.putPos n x) := by
  unfold State.putPos
  exact (h.set _ _).eng _

theorem SameProgram.push (h : SameProgram n s t) (w : Nat) : SameProgram n s (t.push n w) :=
  have hpos := SameProgram.ite (c := peDest w = 1 ∨ peDest w = 2) (h.putPos (t.pushWord n w)) h
  have hemptied := SameProgram.ite (c := peSrc w = 0) (hpos.eng fun e => { e with capw := 0 }) hpos
  .ite (hemptied.set _ _) (hemptied.pushRx _)

theorem SameProgram.act (h : SameProgram n s t) (w ns : Nat) : SameProgram n s (t.act n w ns) := by
  unfold State.act
  exact h.eng _

theorem SameProgram.sample (h : SameProgram n s t) (w : Nat) : SameProgram n s (t.sample n w) := by
  unfold State.sample State.setF
  exact (h.set _ _).eng _

/-- The source of a PULL gives its word. -/
def State.pullSource (s : State) (n : Fin 10) (w : Nat) : State :=
  match peSrc w with
  | 0 => ((s.eng n fun e => { e with tx := e.tx.tail }).peLevels n).txRemoved n
  | 1 => s.eng n fun e => { e with slotNext := e.slotNext + 1, slotLeft := e.slotLeft - 1 }
  | _ => s

/-- The destination of a PULL takes the word `x`. -/
def State.pullDest (s : State) (n : Fin 10) (w x : Nat) : State :=
  match peDest w with
  | 0 => s.eng n fun e => { e with emtw := x }
  | 1 => s.set (PINENG.E_X_X n) x
  | _ => s.set (PINENG.E_Y_Y n) x

theorem State.pull_none (h : s.pullWord n w = none) : s.pull n w = s.set (PINENG.E_STAT_C n) 0 := by rw [State.pull, h]

theorem State.pull_some {x : Nat} (h : s.pullWord n w = some x) :
    s.pull n w = ((s.pullSource n w).pullDest n w x).set (PINENG.E_STAT_C n) 1 := by
  rw [State.pull, h]; rfl

theorem SameProgram.pullSource (h : SameProgram n s t) (w : Nat) : SameProgram n s (t.pullSource n w) := by
  unfold State.pullSource
  split
  · exact (h.eng _).peLevels.txRemoved
  · exact h.eng _
  · exact h

theorem SameProgram.pullDest (h : SameProgram n s t) (w x : Nat) : SameProgram n s (t.pullDest n w x) := by
  unfold State.pullDest
  split
  · exact h.eng _
  · exact h.set _ _
  · exact h.set _ _

theorem SameProgram.pull (h : SameProgram n s t) (w : Nat) : SameProgram n s (t.pull n w) := by
  cases hword : t.pullWord n w with
  | none => rw [State.pull_none hword]; exact h.set _ _
  | some x => rw [State.pull_some hword]; exact ((h.pullSource w).pullDest w x).set _ _

theorem SameProgram.evt (h : SameProgram n s t) (w : Nat) : SameProgram n s (t.evt n w) := by
  have hpulses : SameProgram n s ((List.range 4).foldl
      (fun s j => if getBit (peEvtMask w) j then s.pulse (0x40 + 4 * n + j) 1 else s) t) :=
    List.foldlRecOn _ _ h fun u hu j _ => .ite (hu.pulse _ _) hu
  exact .ite (hpulses.set _ _).setBit hpulses

/-! ### The injected instruction (R135) -/

theorem SameProgram.injected (h : SameProgram n s t) (i : Inject) : SameProgram n s (t.injected n i) := by
  unfold State.injected
  split
  · exact h.act _ _
  · exact h.sample _
  · exact h.evt _
  · exact h.push _
  · exact h.pull _

/-- The injected instruction acts and is gone. -/
def State.runInjected (s : State) (n : Fin 10) (i : Inject) : State :=
  ((s.injected n i).set (PINENG.E_FIFO_STAT_INJ_PEND n) 0).eng n fun e => { e with inj := none }

theorem State.injectStep_none (h : s.engines[n].inj = none) : s.injectStep n = s := by rw [State.injectStep, h]

/-- The injected instruction waits, has missed its instant, or acts. -/
theorem State.injectStep_cases (s : State) (n : Fin 10) : s.injectStep n = s ∨
    ∃ i, s.injectStep n = (s.eng n fun e => { e with inj := some i }) ∨ s.injectStep n = s.runInjected n i ∨
      s.injectStep n = (s.peLate n).runInjected n i := by
  cases hinj : s.engines[n].inj with
  | none => exact .inl (State.injectStep_none hinj)
  | some i =>
    rw [State.injectStep, hinj]
    dsimp only
    split_ifs
    · exact .inl rfl
    · exact .inl rfl
    · exact .inr ⟨_, .inl rfl⟩
    · exact .inr ⟨i, .inr (.inr rfl)⟩
    · exact .inr ⟨i, .inr (.inl rfl)⟩

theorem SameProgram.runInjected (h : SameProgram n s t) (i : Inject) : SameProgram n s (t.runInjected n i) :=
  ((h.injected i).set _ _).eng _

theorem SameProgram.injectStep (h : SameProgram n s t) : SameProgram n s (t.injectStep n) := by
  rcases t.injectStep_cases n with hwaits | ⟨i, hmissed | hacts | hlate⟩
  · rw [hwaits]; exact h
  · rw [hmissed]; exact h.eng _
  · rw [hacts]; exact h.runInjected i
  · rw [hlate]; exact h.peLate.runInjected i

end

end Sys2Proof.Machine

/-! ## The ten pin-engine instructions (06_pin_engines.md, R122 to R126, R128, R129, R131) -/

namespace Sys2Proof.Machine

section
variable {s t u : State} {n : Fin 10} {w pc : Nat}

/-! ### An instruction acts (R122) -/

/-- The instruction at PC is current and has not begun, and its tick has come: it acts after what is injected. -/
theorem State.peRun_acts {op : Nat} (hst : s.get (PINENG.E_STAT_ESTATE n) = 2) (hwait : s.engines[n].wait = .fresh)
    (hcur : s.engines[n].cur = true) (hlane : s.domOn .lane = true) (htime : s.peTime n (s.peWord n) = true)
    (hop : peOp (s.peWord n) = op) (k : Nat → State → State) :
    s.peRun n op k = k (s.peWord n) ((s.injectStep n).peTimed n (s.peWord n)) := by
  rw [State.peRun, if_neg (by rw [hst, hwait, hcur, hlane]; decide)]
  exact if_pos (by rw [hop, htime, decide_eq_true rfl]; rfl)

/-- A SHIFT begins; one at a stated instant sets the step reference. -/
def State.beginShift (u : State) (n : Fin 10) (w : Nat) : State :=
  let v := if peTmode w = 0 then u else u.eng n fun e => { e with stepRef := u.tick }
  (v.set (PINENG.E_STAT_WAIT n) 0).eng n fun e => { e with wait := .shift v.tick, mids := [] }

theorem State.beginShift_shown (u : State) (n : Fin 10) (w : Nat) :
    (u.beginShift n w).engines[n].wait = .shift u.tick ∧ (u.beginShift n w).get (PINENG.E_STAT_WAIT n) = 0 ∧
    (peTmode w ≠ 0 → (u.beginShift n w).engines[n].stepRef = u.tick) := by
  unfold State.beginShift
  extract_lets v
  have htick : v.tick = u.tick := by simp only [v]; split <;> rfl
  refine ⟨?_, ?_, fun htimed => ?_⟩
  · rw [State.engines_eng_self, htick]
  · rw [State.get_eng, State.get_set_self]; rfl
  · rw [State.engines_eng_self, State.engines_set, show v = u.eng n fun e => { e with stepRef := u.tick } from if_neg htimed,
      State.engines_eng_self]

/-! ### Completion (R122, R129) -/

theorem State.engines_peFresh (s : State) (n : Fin 10) : (s.peFresh n).engines[n] =
    { s.engines[n] with wait := .fresh, inst := none, late := false, stale := false, cur := false } :=
  State.engines_eng_self _ n _

theorem State.peDone_within (hlo : s.get (PINENG.E_RANGE_START n) ≤ pc) (hhi : pc ≤ s.get (PINENG.E_RANGE_END n)) :
    s.peDone n pc = ((s.eng n fun e => { e with next := s.tick + 1 }).set (PINENG.E_STAT_PC n) pc).peFresh n :=
  if_pos (by rw [State.get_eng, State.get_eng, decide_eq_true hlo, decide_eq_true hhi]; rfl)

theorem State.peDone_outside (hpc : pc < s.get (PINENG.E_RANGE_START n) ∨ s.get (PINENG.E_RANGE_END n) < pc) :
    s.peDone n pc = (s.eng n fun e => { e with next := s.tick + 1 }).peError n 3 :=
  if_neg (by rw [State.get_eng, State.get_eng, Bool.and_eq_true, decide_eq_true_iff, decide_eq_true_iff]; omega)

/-- From `s` to `t` an instruction of engine `n` has completed: the next one, at `pc`, is awaited from the next tick on. -/
def WentOn (n : Fin 10) (pc : Nat) (s t : State) : Prop :=
  t.get (PINENG.E_STAT_PC n) = pc ∧ t.get (PINENG.E_STAT_WAIT n) = 0 ∧ t.engines[n].wait = .fresh ∧ t.engines[n].cur = false ∧
    t.engines[n].next = s.tick + 1

theorem State.peDone_wentOn (hlo : s.get (PINENG.E_RANGE_START n) ≤ pc) (hhi : pc ≤ s.get (PINENG.E_RANGE_END n)) (hlt : pc < 512) :
    WentOn n pc s (s.peDone n pc) := by
  rw [State.peDone_within hlo hhi, WentOn, State.engines_peFresh, State.engines_set, State.engines_eng_self]
  refine ⟨?_, State.get_set_self _ _ 0, rfl, rfl, rfl⟩
  rw [State.peFresh, State.get_eng, State.get_set_other (by simp [RF.key]), State.get_set_self]
  exact Nat.mod_eq_of_lt hlt

/-- What stays at its instruction until `u` goes on from there as from `s`. -/
theorem SameProgram.wentOn (h : SameProgram n s u) (hlo : s.get (PINENG.E_RANGE_START n) ≤ pc)
    (hhi : pc ≤ s.get (PINENG.E_RANGE_END n)) (hlt : pc < 512) : WentOn n pc s (u.peDone n pc) := by
  have hdone := State.peDone_wentOn (s := u) (n := n) (h.rangeStart ▸ hlo) (h.rangeEnd ▸ hhi) hlt
  rwa [WentOn, h.tick] at hdone

theorem State.peDone_only (hlo : s.get (PINENG.E_RANGE_START n) ≤ pc) (hhi : pc ≤ s.get (PINENG.E_RANGE_END n)) :
    EngineRegs [PINENG.E_STAT_PC n, PINENG.E_STAT_WAIT n] s (s.peDone n pc) := by
  rw [State.peDone_within hlo hhi]
  exact (((OnlyRegs.refl _ s).engineRegs.eng n _).set (by simp) pc).peFresh (by simp)

theorem State.engines_peError (u : State) (n : Fin 10) (code : Nat) : (u.peError n code).engines[n] =
    { u.engines[n] with
      wait := .fresh, inst := none, late := false, stale := false, cur := false
      stored := u.get (PINENG.E_PINCFG_INIT n), clkEnd := none } := by
  have hinit : ((u.set (PINENG.E_STAT_ESTATE n) 3).set (PINENG.E_STAT_ERR_CODE n) code).get (PINENG.E_PINCFG_INIT n) =
      u.get (PINENG.E_PINCFG_INIT n) := by
    simp (disch := (simp only [RF.key, PINENG.E_STAT, PINENG.E_PINCFG]; omega)) only [State.get_set_other]
  rw [State.peError, State.engines_report, State.engines_setBit, State.engines_eng_self, State.engines_peFresh, State.engines_set,
    State.engines_set]
  exact congrArg (fun x => { u.engines[n] with
    wait := .fresh, inst := none, late := false, stale := false, cur := false, stored := x, clkEnd := none }) hinit

theorem State.peError_shown (u : State) (n : Fin 10) {code : Nat} (hcode : code < 16) :
    (u.peError n code).get (PINENG.E_STAT_ESTATE n) = 3 ∧ (u.peError n code).get (PINENG.E_STAT_ERR_CODE n) = code ∧
    (u.peError n code).bit PINENG.IRQ_STAT_ERR n = true := by
  have hn := n.isLt
  have hshown : (u.peError n code).get (PINENG.E_STAT_ESTATE n) = 3 % 2 ^ 3 ∧
      (u.peError n code).get (PINENG.E_STAT_ERR_CODE n) = code % 2 ^ 4 := by
    unfold State.peError
    simp (disch := (simp only [RF.key, ERRAGG.SRC, PINENG.E_STAT, PINENG.IRQ_STAT]; omega)) only [State.get_report_other,
      State.get_setBit, State.get_eng, State.peFresh, State.get_set_other, State.get_set_self]
    exact ⟨rfl, rfl⟩
  refine ⟨hshown.1, hshown.2.trans (Nat.mod_eq_of_lt hcode), ?_⟩
  unfold State.peError
  rw [State.bit, State.get_report_other]
  · exact State.bit_setBit_self hn _ true
  all_goals simp only [RF.key, ERRAGG.SRC, PINENG.IRQ_STAT]; omega

/-! ### What single instructions do (R128) -/

theorem State.sample_shown (s : State) (n : Fin 10) (w : Nat) :
    (s.sample n w).on (PINENG.E_STAT_C n) = (((s.pins n ^^^ peVal w) &&& peMask w) == 0) ∧
    (s.sample n w).engines[n].capw = (s.engines[n].capw * 64 + s.pins n) % 2 ^ 32 := by
  refine ⟨?_, congrArg EngSt.capw (State.engines_eng_self _ n _)⟩
  rw [State.on, State.sample, State.get_eng, State.setF, State.get_set_self]
  cases ((s.pins n ^^^ peVal w) &&& peMask w) == 0 <;> rfl

/-! ### The ends of a wait (R124, R128) -/

/-- What a WAITPIN that goes on leaves before its completion: its time where it has a deadline, and its stamp. -/
def State.endWaitpin (s : State) (n : Fin 10) (w : Nat) : State :=
  if peStamp w then ((s.injectStep n).byDone n w).pushRx n (((s.injectStep n).byDone n w).mt % 2 ^ 32)
  else (s.injectStep n).byDone n w

theorem exec_waitpinComplete_holds {balls t0 : Nat} {prev : Bool} (hwait : s.engines[n].wait = .pin t0 prev)
    (hlane : s.domOn .lane = true)
    (hholds : waitHolds ((s.withBalls balls).peWord n) ((s.withBalls balls).waitLevel n ((s.withBalls balls).peWord n)) prev
      (decide (t0 < s.tick)) = true)
    (hover : (s.withBalls balls).byOver n ((s.withBalls balls).peWord n) = false) :
    exec (.waitpinComplete n balls) s = .next (((s.withBalls balls).endWaitpin n ((s.withBalls balls).peWord n)).peDone n
      (((s.withBalls balls).endWaitpin n ((s.withBalls balls).peWord n)).peNext n)) := by
  have hpin : (s.withBalls balls).engines[n].wait = .pin t0 prev := hwait
  have hdom : (s.withBalls balls).domOn .lane = true := hlane
  have htick : (s.withBalls balls).tick = s.tick := rfl
  change execWaitpinComplete n balls s = _
  rw [execWaitpinComplete]
  dsimp only
  rw [hpin]
  exact if_pos (by rw [htick, hholds, hover, hdom]; rfl)

theorem exec_waitpinComplete_waits {balls t0 : Nat} {prev : Bool} (hwait : s.engines[n].wait = .pin t0 prev)
    (hholds : waitHolds ((s.withBalls balls).peWord n) ((s.withBalls balls).waitLevel n ((s.withBalls balls).peWord n)) prev
      (decide (t0 < s.tick)) = false) :
    exec (.waitpinComplete n balls) s = .next (s.withBalls balls) := by
  have hpin : (s.withBalls balls).engines[n].wait = .pin t0 prev := hwait
  have htick : (s.withBalls balls).tick = s.tick := rfl
  change execWaitpinComplete n balls s = _
  rw [execWaitpinComplete]
  dsimp only
  rw [hpin]
  exact if_neg (by rw [htick, hholds, Bool.false_and, Bool.false_and]; decide)

theorem exec_pushStallEnd_room (hwait : s.engines[n].wait = .push) (hlane : s.domOn .lane = true)
    (hroom : s.engines[n].rx.length < 8) (hover : s.byOver n (s.peWord n) = false) :
    exec (.pushStallEnd n) s = .next ((((s.injectStep n).push n (s.peWord n)).byDone n (s.peWord n)).peDone n
      ((s.injectStep n).peNext n)) :=
  if_pos (by rw [hwait, decide_eq_true hroom, hover, hlane]; rfl)

theorem exec_pullStallEnd_data (hwait : s.engines[n].wait = .pull) (hlane : s.domOn .lane = true)
    (hdata : (s.txHead n).isSome = true) (hover : s.byOver n (s.peWord n) = false) :
    exec (.pullStallEnd n) s = .next ((((s.injectStep n).pull n (s.peWord n)).byDone n (s.peWord n)).peDone n
      ((s.injectStep n).peNext n)) :=
  if_pos (by rw [hwait, hdata, hover, hlane]; rfl)

/-- The levels that a SHIFT leaves on its pins are its own affair; the words are those of all its bits. -/
theorem exec_shiftComplete_due {t0 din : Nat} (hwait : s.engines[n].wait = .shift t0) (hlane : s.domOn .lane = true)
    (hdue : t0 + peCnt (s.peWord n) * 2 * s.peDiv n ≤ s.tick + 1) :
    let u := s.injectStep n
    let done := u.shifted n (peCnt (s.peWord n)) (u.dinBit n din)
    ∃ e : EngSt, e.capw = done.capw ∧ e.emtw = done.emtw ∧
      exec (.shiftComplete n din) s = .next ((u.eng n fun _ => e).peDone n (u.peNext n)) := by
  intro u done
  refine ⟨?e, ?capw, ?emtw, ?exec⟩
  case exec =>
    change execShiftComplete n din s = _
    rw [execShiftComplete, hwait]
    dsimp only
    rw [if_neg (by rw [decide_eq_false (by omega), hlane]; decide)]
    rfl
  case capw => rfl
  case emtw => rfl

/-- What an instruction leaves at its deadline before it is abandoned. -/
def State.abandon (s : State) (n : Fin 10) : State :=
  let u := (if s.engines[n].late then (s.injectStep n).peLate n else s.injectStep n).set (PINENG.E_STAT_TO n) 1
  if s.engines[n].stale then u else u.setBase n (s.peInstant n (s.peWord n))

theorem exec_byDeadlineTimeout_due {t : Nat} (hst : s.get (PINENG.E_STAT_ESTATE n) = 2) (hcur : s.engines[n].cur = true)
    (hlane : s.domOn .lane = true) (hby : peTmode (s.peWord n) = 3) (hinst : s.engines[n].inst = some t) (hdue : s.due t = true) :
    exec (.byDeadlineTimeout n) s = .next ((s.abandon n).peDone n ((s.abandon n).peNext n)) := by
  refine (if_neg (by rw [hst, hcur, hby, hlane]; decide)).trans ?_
  rw [hinst]
  exact if_neg (by rw [hdue]; decide)

theorem SameProgram.endWaitpin (h : SameProgram n s t) (w : Nat) : SameProgram n s (t.endWaitpin n w) :=
  .ite ((h.injectStep.byDone w).pushRx _) (h.injectStep.byDone w)

theorem SameProgram.abandon (h : SameProgram n s t) : SameProgram n s (t.abandon n) :=
  have hout := (SameProgram.ite (c := t.engines[n].late = true) h.injectStep.peLate h.injectStep).set (PINENG.E_STAT_TO n) 1
  .ite hout (hout.setBase _)

end

/-- Settles O21: what acts is `peRun`'s; completion is `peDone`'s; every row that ends a wait leaves the program as it is until it
completes. -/
theorem pinEngineInstructions : Obligations.PinEngineInstructions := by
  refine ⟨?acts, ?samples, ?within, ?outside, fun n w s => s.sample_shown n w, ?waits⟩
  case acts =>
    intro n s hst hwait hcur hlane htime w u
    have hrun : ∀ {op : Nat}, peOp w = op → ∀ k : Nat → State → State, s.peRun n op k = k w u :=
      fun hop => State.peRun_acts hst hwait hcur hlane htime hop
    refine ⟨fun hop => congrArg _ (hrun hop _), fun hop => ?shift, fun hop hroom => ?push, fun hop hdest hstall hfull => ?pushStall,
      fun hop hdata => ?pull, fun hop hsrc hstall hnone => ?pullStall, fun hop => congrArg _ (hrun hop _),
      fun hop => congrArg _ (hrun hop _), fun hop => congrArg _ (hrun hop _), fun hop => congrArg _ (hrun hop _)⟩
    case shift =>
      have htick : u.tick = s.tick := ((SameProgram.refl n s).injectStep.peTimed w).tick
      have hbegun := u.beginShift_shown n w
      rw [htick] at hbegun
      exact ⟨_, congrArg Host.Outcome.next (hrun hop _), hbegun⟩
    case push =>
      refine congrArg Host.Outcome.next ((hrun hop _).trans (if_neg ?_))
      rw [Bool.and_eq_true, Bool.and_eq_true, decide_eq_true_iff, decide_eq_true_iff]
      rintro ⟨⟨hdest, hstall⟩, hfull⟩
      rcases hroom with h | h | h
      · exact hdest h
      · rw [h] at hstall; exact Bool.false_ne_true hstall
      · omega
    case pushStall =>
      exact congrArg Host.Outcome.next
        ((hrun hop _).trans (if_pos (by rw [decide_eq_true hdest, hstall, decide_eq_true hfull]; rfl)))
    case pull =>
      refine congrArg Host.Outcome.next ((hrun hop _).trans (if_neg ?_))
      rw [Bool.and_eq_true, Bool.and_eq_true, decide_eq_true_iff, Option.isNone_iff_eq_none]
      rintro ⟨⟨hsrc, hstall⟩, hnone⟩
      rcases hdata with h | h | h
      · exact h hsrc
      · rw [h] at hstall; exact Bool.false_ne_true hstall
      · rw [hnone] at h; exact Bool.false_ne_true h
    case pullStall => exact congrArg Host.Outcome.next ((hrun hop _).trans (if_pos (by rw [hsrc, hstall, hnone]; rfl)))
  case samples =>
    intro n balls s0 hst hwait hcur hlane s w u htime
    have hrun : ∀ {op : Nat}, peOp w = op → ∀ k : Nat → State → State, s.peRun n op k = k w u :=
      fun hop => State.peRun_acts (s := s) hst hwait hcur hlane htime hop
    exact ⟨fun hop => congrArg _ (hrun hop _), fun hop => congrArg _ (hrun hop _)⟩
  case within =>
    intro n pc s hlo hhi hlt
    obtain ⟨hpc, hwait, hfresh, hcur, hnext⟩ := State.peDone_wentOn hlo hhi hlt
    exact ⟨hpc, hwait, hnext, hcur, hfresh, State.peDone_only hlo hhi⟩
  case outside =>
    intro n pc s hpc t
    obtain ⟨hst, hcode, hirq⟩ := (s.eng n fun e => { e with next := s.tick + 1 }).peError_shown n (code := 3) (by decide)
    have ht : t = (s.eng n fun e => { e with next := s.tick + 1 }).peError n 3 := State.peDone_outside hpc
    rw [ht]
    exact ⟨hst, hcode, hirq, congrArg EngSt.stored (State.engines_peError _ n 3)⟩
  case waits =>
    intro n s hlane hlo hhi hlt _ done w
    have hinj := (SameProgram.refl n s).injectStep
    have hon : ∀ {u : State}, SameProgram n s u → done (u.peDone n (u.peNext n)) := fun h => by
      rw [h.peNext]; exact h.wentOn hlo hhi hlt
    refine ⟨?pin, ?shift, ?push, ?pull, ?deadline⟩
    case pin =>
      intro balls t0 prev hwait hover hholds
      exact ⟨_, exec_waitpinComplete_holds hwait hlane hholds hover,
        hon (((SameProgram.refl n s).withBalls balls).endWaitpin _)⟩
    case shift =>
      intro t0 din hwait hdue
      obtain ⟨e, _, _, hexec⟩ := exec_shiftComplete_due (din := din) hwait hlane hdue
      exact ⟨_, hexec, hon (hinj.eng _)⟩
    case push =>
      intro hwait hroom hover
      refine ⟨_, exec_pushStallEnd_room hwait hlane hroom hover, ?_⟩
      rw [hinj.peNext]
      exact ((hinj.push w).byDone w).wentOn hlo hhi hlt
    case pull =>
      intro hwait hdata hover
      refine ⟨_, exec_pullStallEnd_data hwait hlane hdata hover, ?_⟩
      rw [hinj.peNext]
      exact ((hinj.pull w).byDone w).wentOn hlo hhi hlt
    case deadline =>
      intro t hst hcur hby hinst hdue
      exact ⟨_, exec_byDeadlineTimeout_due hst hcur hlane hby hinst hdue, hon (SameProgram.refl n s).abandon⟩

end Sys2Proof.Machine

/-! ## Waits, deadlines and injection of the pin engines (06_pin_engines.md, R123 to R128, R135) -/

namespace Sys2Proof.Machine

section
variable {s t u : State} {n : Fin 10} {w pc : Nat}

/-! ### The words of a SHIFT (R128) -/

theorem testBit_shiftIn {c : Nat} (hc : c < 2 ^ 32) (b : Bool) (i : Nat) :
    (c / 2 + b2n b * 2 ^ 31).testBit i = if i < 31 then c.testBit (i + 1) else (b2n b).testBit (i - 31) := by
  rw [Nat.add_comm, Nat.mul_comm, Nat.testBit_two_pow_mul_add _ (by omega), Nat.testBit_add_one]

/-- The bit shifted in becomes the most significant. -/
theorem getBit_shiftIn_top {c : Nat} (hc : c < 2 ^ 32) (b : Bool) : getBit (c / 2 + b2n b * 2 ^ 31) 31 = b := by
  rw [getBit_eq_testBit, testBit_shiftIn hc, if_neg (by decide)]
  cases b <;> rfl

theorem getBit_shiftIn_below {c i : Nat} (hc : c < 2 ^ 32) (b : Bool) (hi : i < 31) :
    getBit (c / 2 + b2n b * 2 ^ 31) i = getBit c (i + 1) := by
  rw [getBit_eq_testBit, testBit_shiftIn hc, if_pos hi, getBit_eq_testBit]

/-- After `k` bits received, the first least significant (R128), they are the upper bits of the captured word, in order. -/
theorem foldl_shiftBit_in (din : Nat → Bool) (pinD : Nat) {e : EngSt} (he : e.capw < 2 ^ 32) {k : Nat} (hk : k ≤ 32) :
    let r := (List.range k).foldl (fun e i => shiftBit false true (din i) e pinD) e
    r.capw < 2 ^ 32 ∧ ∀ i, i < k → getBit r.capw (32 - k + i) = din i := by
  induction k with
  | zero => exact ⟨he, fun i hi => absurd hi (by omega)⟩
  | succ k ih =>
    obtain ⟨hlt, hbits⟩ := ih (by omega)
    intro r
    have hr : r.capw = ((List.range k).foldl (fun e i => shiftBit false true (din i) e pinD) e).capw / 2 + b2n (din k) * 2 ^ 31 := by
      simp only [r, List.range_succ, List.foldl_append]; rfl
    have hb : b2n (din k) ≤ 1 := by cases din k <;> decide
    rw [hr]
    refine ⟨by omega, fun i hi => ?_⟩
    rcases Nat.lt_succ_iff_lt_or_eq.1 hi with hi | rfl
    · rw [getBit_shiftIn_below hlt _ (by omega), ← hbits i hi]
      exact congrArg _ (by omega)
    · rw [show 32 - (i + 1) + i = 31 by omega, getBit_shiftIn_top hlt]

theorem State.shifted_out (h : peDirIn (s.peWord n) = false) (cnt : Nat) (din : Nat → Bool) :
    (s.shifted n cnt din).capw = s.engines[n].capw := by
  unfold State.shifted
  refine List.foldlRecOn (motive := fun e => e.capw = s.engines[n].capw) _ _ rfl fun (e : EngSt) he i _ => ?_
  rw [h]; exact he

theorem State.shifted_in (h : peDirIn (s.peWord n) = true) (cnt : Nat) (din : Nat → Bool) :
    (s.shifted n cnt din).emtw = s.engines[n].emtw := by
  unfold State.shifted
  refine List.foldlRecOn (motive := fun e => e.emtw = s.engines[n].emtw) _ _ rfl fun (e : EngSt) he i _ => ?_
  rw [h]; exact he

theorem State.shifted_lsbFirst (h : peDirIn (s.peWord n) = true) (hmsb : s.on (PINENG.E_CTRL_MSBF n) = false)
    (hlt : s.engines[n].capw < 2 ^ 32) (din : Nat → Bool) {i : Nat} (hi : i < 32) :
    getBit (s.shifted n 32 din).capw i = din i := by
  have hbits := (foldl_shiftBit_in din (pePinD (s.peWord n)) hlt (Nat.le_refl 32)).2 i hi
  rw [Nat.sub_self, Nat.zero_add] at hbits
  rw [State.shifted, hmsb, h]
  exact hbits

/-- Completion leaves the words of the engine as they are. -/
theorem State.peDone_words (s : State) (n : Fin 10) (pc : Nat) :
    (s.peDone n pc).engines[n].capw = s.engines[n].capw ∧ (s.peDone n pc).engines[n].emtw = s.engines[n].emtw := by
  by_cases hpc : s.get (PINENG.E_RANGE_START n) ≤ pc ∧ pc ≤ s.get (PINENG.E_RANGE_END n)
  · rw [State.peDone_within hpc.1 hpc.2, State.engines_peFresh, State.engines_set, State.engines_eng_self]
    exact ⟨rfl, rfl⟩
  · rw [State.peDone_outside (by omega), State.engines_peError, State.engines_eng_self]
    exact ⟨rfl, rfl⟩

/-! ### Instants of 32 bits (R123) -/

/-- An instant is classified by its distance from MT. -/
theorem State.class32_of_distance {a d : Nat} (h : (a + 2 ^ 32 - s.mt % 2 ^ 32) % 2 ^ 32 = d) :
    s.class32 a = if d < 2 ^ 31 then some (s.mt + d) else none := by
  rw [State.class32, h]

theorem State.class32_farthest (s : State) : s.class32 ((s.mt % 2 ^ 32 + 2 ^ 31 - 1) % 2 ^ 32) = some (s.mt + 2 ^ 31 - 1) := by
  rw [State.class32_of_distance (d := 2 ^ 31 - 1) (by omega), if_pos (by decide), Nat.add_sub_assoc (by decide)]

theorem State.class32_past (s : State) : s.class32 ((s.mt % 2 ^ 32 + 2 ^ 31) % 2 ^ 32) = none := by
  rw [State.class32_of_distance (d := 2 ^ 31) (by omega), if_neg (by decide)]

/-! ### A stale BASE, and the injection slot (R126, R135) -/

theorem exec_baseStale_due (hlane : s.domOn .lane = true) (hdue : s.due s.engines[n].staleAt = true) :
    exec (.baseStale n) s = .next (s.set (PINENG.E_STAT_STALE n) 1) := if_pos (by rw [hdue, hlane]; rfl)

/-- The slot takes an instruction. -/
def State.holdInjected (s : State) (n : Fin 10) (i : Inject) : State :=
  (s.set (PINENG.E_FIFO_STAT_INJ_PEND n) 1).eng n fun e => { e with inj := some i }

/-- An injected word as the slot keeps it: with its instant where it has one, or as a past one. -/
def State.classifyInjected (s : State) (n : Fin 10) (w : Nat) : Inject :=
  if peTmode w = 0 then ⟨w, none, false⟩
  else match s.class32 (s.peInstant n w) with
    | some t => ⟨w, some t, false⟩
    | none => ⟨w, none, true⟩

/-- A word written to the slot. -/
def State.offerInjected (s : State) (n : Fin 10) (w : Nat) : State :=
  if s.on (PINENG.E_FIFO_STAT_INJ_PEND n) then s.set (PINENG.E_STAT_INJ_BUSY n) 1
  else if !injectOk w (s.peIdle n) then s.set (PINENG.E_STAT_INJ_REJ n) 1
  else s.holdInjected n (s.classifyInjected n w)

theorem exec_inject_reached (v : Word) (hup : s.accessible (PINENG.E_INJECT n) = true) :
    exec (.inject n v) s = .next { s.offerInjected n v.toNat with bus := .ok 0 } :=
  State.busDo_reached hup fun s => s.offerInjected n v.toNat

theorem State.offerInjected_busy (hpend : s.on (PINENG.E_FIFO_STAT_INJ_PEND n) = true) :
    s.offerInjected n w = s.set (PINENG.E_STAT_INJ_BUSY n) 1 := if_pos hpend

theorem State.offerInjected_rejected (hpend : s.on (PINENG.E_FIFO_STAT_INJ_PEND n) = false) (hok : injectOk w (s.peIdle n) = false) :
    s.offerInjected n w = s.set (PINENG.E_STAT_INJ_REJ n) 1 :=
  (if_neg (by rw [hpend]; decide)).trans (if_pos (by rw [hok]; rfl))

theorem State.offerInjected_taken (hpend : s.on (PINENG.E_FIFO_STAT_INJ_PEND n) = false) (hok : injectOk w (s.peIdle n) = true) :
    s.offerInjected n w = s.holdInjected n (s.classifyInjected n w) :=
  (if_neg (by rw [hpend]; decide)).trans (if_neg (by rw [hok]; decide))

/-! ### The injected instruction acts (R135) -/

theorem State.injectStep_now {i : Inject} (hinj : s.engines[n].inj = some i) (hlane : s.domOn .lane = true) (hpast : i.past = false)
    (hinst : i.inst = none) (hshift : s.shifting n = false) (hstep : s.atBoundary n = true) (hnext : s.engines[n].next ≤ s.tick) :
    s.injectStep n = s.runInjected n i := by
  rw [State.injectStep, hinj]
  simp only [hinst, hpast, hlane, hshift, hstep, decide_eq_true hnext]
  rfl

theorem State.injectStep_instant {i : Inject} {x : Nat} (hinj : s.engines[n].inj = some i) (hlane : s.domOn .lane = true)
    (hpast : i.past = false) (hinst : i.inst = some x) (hdue : s.due x = true) (hmt : s.mt < x + 4) (hshift : s.shifting n = false) :
    s.injectStep n = s.runInjected n i := by
  rw [State.injectStep, hinj]
  simp only [hinst, hpast, hlane, hshift, hdue, decide_eq_false (Nat.not_le.2 hmt)]
  rfl

end

/-- Settles O22: each wait by what ends it; the words of a SHIFT by induction on its bits. -/
theorem pinEngineWaitsAndDeadlines : Obligations.PinEngineWaitsAndDeadlines := by
  refine ⟨?pin, ?shift, fun n s hwait hlane hroom hover => exec_pushStallEnd_room hwait hlane hroom hover,
    fun n s hwait hlane hdata hover => exec_pullStallEnd_data hwait hlane hdata hover,
    fun n t s hst hcur hlane hby hinst hdue => exec_byDeadlineTimeout_due hst hcur hlane hby hinst hdue,
    fun n s hlane hdue => exec_baseStale_due hlane hdue, ?class32, ?inject,
    fun n v s hup hpend => by rw [exec_inject_reached v hup, State.offerInjected_busy hpend], ?injected⟩
  case pin =>
    intro n balls t0 prev s0 hwait hlane s w
    exact ⟨fun hholds hover => exec_waitpinComplete_holds hwait hlane hholds hover,
      fun hholds => exec_waitpinComplete_waits hwait hholds⟩
  case shift =>
    intro n t0 din s hwait hlane hdue u
    have hsame : SameProgram n s u := (SameProgram.refl n s).injectStep
    obtain ⟨e, hcapw, hemtw, hexec⟩ := exec_shiftComplete_due (din := din) hwait hlane hdue
    obtain ⟨hdoneCapw, hdoneEmtw⟩ := (u.eng n fun _ => e).peDone_words n (u.peNext n)
    rw [State.engines_eng_self] at hdoneCapw hdoneEmtw
    refine ⟨_, hexec, fun hout => ?_, fun hin => ?_, fun hin hcnt hmsb hlt i hi => ?_⟩
    · rw [← hsame.peWord] at hout
      exact (hdoneCapw.trans hcapw).trans (State.shifted_out hout _ _)
    · rw [← hsame.peWord] at hin
      exact (hdoneEmtw.trans hemtw).trans (State.shifted_in hin _ _)
    · rw [hdoneCapw, hcapw, hcnt]
      exact State.shifted_lsbFirst (hsame.peWord ▸ hin) (hsame.msbFirst ▸ hmsb) hlt _ hi
  case class32 =>
    rintro a s rfl
    exact ⟨s.class32_farthest, s.class32_past⟩
  case inject =>
    intro n v s hup hpend
    refine ⟨fun hok => ?_, fun hok hnow => ?_⟩
    · rw [exec_inject_reached v hup, State.offerInjected_rejected hpend hok]
    · rw [exec_inject_reached v hup, State.offerInjected_taken hpend hok, State.classifyInjected, if_pos hnow]
      rfl
  case injected =>
    intro n balls i s0 hinj hlane hpast
    exact ⟨fun hinst hshift hstep hnext =>
        congrArg _ (State.injectStep_now (s := s0.withBalls balls) hinj hlane hpast hinst hshift hstep hnext),
      fun t hinst hdue hmt hshift =>
        congrArg _ (State.injectStep_instant (s := s0.withBalls balls) hinj hlane hpast hinst hdue hmt hshift)⟩

end Sys2Proof.Machine

/-! ## Starting and stopping pin engines, their store, FIFOs and the synchronous start (06_pin_engines.md, R121, R130, R133, R136, R137) -/

namespace Sys2Proof.Machine

section
variable {s t u : State} {n : Fin 10} {w : Nat} {fs : List RF}

/-! ### En_CTRL (R121) -/

/-- The fields that a write of En_CTRL touches beside EN. -/
def ctrlFields (n : Nat) : List RF :=
  [PINENG.E_CTRL_ARM n, PINENG.E_CTRL_TSCALE n, PINENG.E_CTRL_MSBF n, PINENG.E_STAT_WR_IGN n]

theorem OnlyRegs.peCtrl (h : OnlyRegs fs s t) (hfs : ctrlFields n ⊆ fs) (v : Nat) : OnlyRegs fs s (t.peCtrl n v) := by
  have harm := h.set (hfs (by simp [ctrlFields]) : PINENG.E_CTRL_ARM n ∈ fs) (bits v 30 30)
  unfold State.peCtrl
  dsimp only
  split
  · exact (harm.setLegal (hfs (by simp [ctrlFields])) _ _).set (hfs (by simp [ctrlFields])) _
  · split
    · exact harm.set (hfs (by simp [ctrlFields])) 1
    · exact harm

theorem State.peCtrl_only (s : State) (n : Fin 10) (v : Nat) : OnlyRegs (ctrlFields n) s (s.peCtrl n v) :=
  (OnlyRegs.refl _ s).peCtrl (List.Subset.refl _) v

theorem State.get_peCtrl_other {g : RF} (hl : g.lo < 32) (hctrl : g.addr ≠ PINENG.E_CTRL n) (hstat : g.addr ≠ PINENG.E_STAT n)
    (s : State) (v : Nat) : (s.peCtrl n v).get g = s.get g :=
  (s.peCtrl_only n v).1 g (by
    simp only [ctrlFields, List.forall_mem_cons, List.not_mem_nil, IsEmpty.forall_iff, implies_true, and_true, RF.key]; omega)

/-- En_CTRL as a write of EN and ARM leaves it. -/
def State.writeEngCtrl (s : State) (n : Fin 10) (v arm en : Nat) : State :=
  ((s.peCtrl n v).set (PINENG.E_CTRL_ARM n) arm).set (PINENG.E_CTRL_EN n) en

/-- An idle engine whose En_CTRL was written starts, with MT as its BASE. -/
def State.startEngine (s : State) (n : Fin 10) : State := s.peStart n (s.mt % 2 ^ 32) s.tick

theorem exec_engineStart_idle (v : Word) (hup : s.accessible (PINENG.E_CTRL n) = true) (hidle : s.peIdle n = true) :
    exec (.engineStart n v) s =
      .next { (s.writeEngCtrl n v.toNat 0 1).peStart n (s.mt % 2 ^ 32) s.tick with bus := .ok 0 } := by
  have hmt : (s.writeEngCtrl n v.toNat 0 1).mt = s.mt := (congrArg State.mt (s.peCtrl_only n v.toNat).2.2 :)
  have htick : (s.writeEngCtrl n v.toNat 0 1).tick = s.tick := (congrArg State.tick (s.peCtrl_only n v.toNat).2.2 :)
  have hreached : exec (.engineStart n v) s = .next { (if s.peIdle n then (s.writeEngCtrl n v.toNat 0 1).startEngine n else
      s.writeEngCtrl n v.toNat 0 1) with bus := .ok 0 } :=
    State.busDo_reached hup fun s => if s.peIdle n then (s.writeEngCtrl n v.toNat 0 1).startEngine n else s.writeEngCtrl n v.toNat 0 1
  rw [hreached, if_pos hidle, State.startEngine, hmt, htick]

/-- An idle engine whose En_CTRL was written waits for a synchronous start. -/
def State.armEngine (s : State) (n : Fin 10) : State :=
  (((s.set (PINENG.E_STAT_ESTATE n) 1).set (PINENG.E_STAT_ERR_CODE n) 0).peFresh n).eng n fun e =>
    { e with stored := s.get (PINENG.E_PINCFG_INIT n), clkEnd := none }

theorem exec_engineArm_idle (v : Word) (hup : s.accessible (PINENG.E_CTRL n) = true) (hidle : s.peIdle n = true) :
    exec (.engineArm n v) s = .next { (s.writeEngCtrl n v.toNat 1 1).armEngine n with bus := .ok 0 } := by
  have hreached : exec (.engineArm n v) s = .next { (if s.peIdle n then (s.writeEngCtrl n v.toNat 1 1).armEngine n else
      s.writeEngCtrl n v.toNat 1 1) with bus := .ok 0 } :=
    State.busDo_reached hup fun s => if s.peIdle n then (s.writeEngCtrl n v.toNat 1 1).armEngine n else s.writeEngCtrl n v.toNat 1 1
  rw [hreached, if_pos hidle]

theorem State.get_writeEngCtrl_init (s : State) (n : Fin 10) (v arm en : Nat) :
    (s.writeEngCtrl n v arm en).get (PINENG.E_PINCFG_INIT n) = s.get (PINENG.E_PINCFG_INIT n) := by
  simp (disch := (simp only [RF.key, PINENG.E_CTRL, PINENG.E_STAT, PINENG.E_PINCFG]; omega)) only [State.writeEngCtrl,
    State.get_set_other, State.get_peCtrl_other]

theorem State.armEngine_shown (s : State) (n : Fin 10) (v : Nat) :
    ((s.writeEngCtrl n v 1 1).armEngine n).get (PINENG.E_STAT_ESTATE n) = 1 ∧
    ((s.writeEngCtrl n v 1 1).armEngine n).get (PINENG.E_STAT_ERR_CODE n) = 0 ∧
    ((s.writeEngCtrl n v 1 1).armEngine n).get (PINENG.E_CTRL_EN n) = 1 ∧
    ((s.writeEngCtrl n v 1 1).armEngine n).get (PINENG.E_CTRL_ARM n) = 1 ∧
    ((s.writeEngCtrl n v 1 1).armEngine n).engines[n].stored = s.get (PINENG.E_PINCFG_INIT n) := by
  have hstored := s.get_writeEngCtrl_init n v 1 1
  rw [State.armEngine, State.engines_eng_self, hstored]
  simp (disch := (simp only [RF.key, PINENG.E_CTRL, PINENG.E_STAT]; omega)) only [State.writeEngCtrl, State.get_eng, State.peFresh,
    State.get_set_other, State.get_set_self]
  exact ⟨rfl, rfl, rfl, rfl, trivial⟩

/-! ### Stopping (R121) -/

/-- An engine whose SHIFT has been cut off stops. -/
def State.stopEngine (s : State) (n : Fin 10) : State :=
  let u := (((s.set (PINENG.E_STAT_ESTATE n) 0).set (PINENG.E_FIFO_STAT_SLOT_PEND n) 0).set (PINENG.E_FIFO_STAT_INJ_PEND n) 0).peFresh n
  (u.eng n fun e => { e with
    tx := [], rx := [], txLost := none, rxLost := none, trigs := [], inj := none, slot := none
    stored := u.get (PINENG.E_PINCFG_INIT n), clkEnd := none }).peLevels n

/-- En_CTRL as a write of EN as 0 leaves it, a SHIFT being cut off. -/
def State.cutEngine (s : State) (n : Fin 10) (v : Nat) : State := ((s.peCtrl n v).set (PINENG.E_CTRL_EN n) 0).cutShift n

theorem exec_engineStop_reached (v : Word) (hup : s.accessible (PINENG.E_CTRL n) = true) :
    exec (.engineStop n v) s = .next { (s.cutEngine n v.toNat).stopEngine n with bus := .ok 0 } :=
  State.busDo_reached hup fun s => (s.cutEngine n v.toNat).stopEngine n

theorem EngineRegs.cutShift (h : EngineRegs fs s t) (n : Fin 10) : EngineRegs fs s (t.cutShift n) := by
  unfold State.cutShift
  split
  · exact h.eng n _
  · exact h

theorem State.get_cutShift (s : State) (n : Fin 10) (g : RF) : (s.cutShift n).get g = s.get g := by
  unfold State.cutShift
  split <;> rfl

/-- The fields that stopping an engine touches. -/
def stopFields (n : Nat) : List RF :=
  ctrlFields n ++ [PINENG.E_CTRL_EN n, PINENG.E_STAT_ESTATE n, PINENG.E_STAT_WAIT n, PINENG.E_FIFO_STAT_SLOT_PEND n,
    PINENG.E_FIFO_STAT_INJ_PEND n, PINENG.E_FIFO_STAT_RX_LVL n, PINENG.E_FIFO_STAT_TX_LVL n]

theorem State.cutEngine_only (s : State) (n : Fin 10) (v : Nat) : EngineRegs (stopFields n) s (s.cutEngine n v) :=
  (((OnlyRegs.refl (stopFields n) s).peCtrl (List.subset_append_left ..) v).set (by simp [stopFields]) 0).engineRegs.cutShift n

theorem EngineRegs.stopEngine (h : EngineRegs (stopFields n) s t) : EngineRegs (stopFields n) s (t.stopEngine n) := by
  have hstate := ((h.set (f := PINENG.E_STAT_ESTATE n) (by simp [stopFields]) 0).set (f := PINENG.E_FIFO_STAT_SLOT_PEND n)
    (by simp [stopFields]) 0).set (f := PINENG.E_FIFO_STAT_INJ_PEND n) (by simp [stopFields]) 0
  exact ((hstate.peFresh (by simp [stopFields])).eng n _).peLevels (by simp [stopFields]) (by simp [stopFields])

/-- Only registers of the engine itself change. -/
theorem State.stopEngine_regs (s : State) (n : Fin 10) (v : Nat) :
    RegsOutside (fun a => a == PINENG.E_CTRL n || a == PINENG.E_STAT n || a == PINENG.E_FIFO_STAT n) s
      ((s.cutEngine n v).stopEngine n) :=
  (s.cutEngine_only n v).stopEngine.outside (by simp [stopFields, ctrlFields])

/-- What a stopped engine shows. -/
theorem State.stopEngine_shown (s : State) (n : Fin 10) : (s.stopEngine n).get (PINENG.E_STAT_ESTATE n) = 0 ∧
    (s.stopEngine n).get (PINENG.E_FIFO_STAT_SLOT_PEND n) = 0 ∧ (s.stopEngine n).get (PINENG.E_FIFO_STAT_INJ_PEND n) = 0 ∧
    (s.stopEngine n).get (PINENG.E_FIFO_STAT_RX_LVL n) = 0 ∧ (s.stopEngine n).get (PINENG.E_FIFO_STAT_TX_LVL n) = 0 := by
  simp (disch := (simp only [RF.key, PINENG.E_FIFO_STAT, PINENG.E_STAT]; omega)) only [State.stopEngine, State.peLevels, State.peFresh,
    State.engines_set, State.engines_eng_self, State.get_eng, State.get_set_other, State.get_set_self, List.length_nil, Nat.zero_mod,
    and_self]

/-- Everything pending is gone, and the pins have their initial levels. -/
theorem State.stopEngine_engine (s : State) (n : Fin 10) :
    let e := (s.stopEngine n).engines[n]
    e.tx = [] ∧ e.rx = [] ∧ e.trigs = [] ∧ e.inj = none ∧ e.stored = s.get (PINENG.E_PINCFG_INIT n) := by
  have hinit : ((((s.set (PINENG.E_STAT_ESTATE n) 0).set (PINENG.E_FIFO_STAT_SLOT_PEND n) 0).set
      (PINENG.E_FIFO_STAT_INJ_PEND n) 0).peFresh n).get (PINENG.E_PINCFG_INIT n) = s.get (PINENG.E_PINCFG_INIT n) := by
    simp (disch := (simp only [RF.key, PINENG.E_STAT, PINENG.E_FIFO_STAT, PINENG.E_PINCFG]; omega)) only [State.peFresh, State.get_eng,
      State.get_set_other]
  simp only [State.stopEngine, State.peLevels, State.engines_set, State.engines_eng_self, hinit, and_self]

theorem State.stopEngine_en (s : State) (n : Fin 10) (v : Nat) :
    ((s.cutEngine n v).stopEngine n).get (PINENG.E_CTRL_EN n) = 0 := by
  have hcut : (s.cutEngine n v).get (PINENG.E_CTRL_EN n) = 0 := by
    rw [State.cutEngine, State.get_cutShift]
    exact State.get_set_self _ _ 0
  simp (disch := (simp only [RF.key, PINENG.E_FIFO_STAT, PINENG.E_STAT, PINENG.E_CTRL]; omega)) only [State.stopEngine, State.peLevels,
    State.peFresh, State.get_eng, State.get_set_other, hcut]

theorem State.get_cutEngine_init (s : State) (n : Fin 10) (v : Nat) :
    (s.cutEngine n v).get (PINENG.E_PINCFG_INIT n) = s.get (PINENG.E_PINCFG_INIT n) :=
  (s.cutEngine_only n v).get (by
    simp only [stopFields, ctrlFields, List.cons_append, List.nil_append, List.forall_mem_cons, List.not_mem_nil, IsEmpty.forall_iff,
      implies_true, and_true, RF.key, PINENG.E_CTRL, PINENG.E_STAT, PINENG.E_FIFO_STAT, PINENG.E_PINCFG]
    omega)

/-! ### The first instruction (R121, R122) -/

/-- A RUNNING engine with its flags and words cleared, and `ref` as its step reference. -/
def State.clearRun (s : State) (n : Fin 10) (ref : Nat) : State :=
  ((((s.set (PINENG.E_STAT_ESTATE n) 2).set (PINENG.E_STAT_ERR_CODE n) 0).set (PINENG.E_STAT_C n) 0).set (PINENG.E_STAT_TO n) 0).eng n
    fun e => { e with capw := 0, emtw := 0, stepRef := ref, next := ref, slotLeft := 0 }

/-- An engine RUNNING from RANGE.START, before its first instruction has become current. -/
def State.launch (s : State) (n : Fin 10) (base ref : Nat) : State :=
  (((s.clearRun n ref).setBase n base).set (PINENG.E_STAT_PC n) ((s.clearRun n ref).get (PINENG.E_RANGE_START n))).peFresh n

theorem State.peStart_eq (s : State) (n : Fin 10) (base ref : Nat) : s.peStart n base ref = (s.launch n base ref).peBegin n := rfl

theorem State.get_setBase_other {g : RF} (hbase : g.key ≠ (PINENG.E_BASE_BASE n).key) (hstale : g.key ≠ (PINENG.E_STAT_STALE n).key)
    (s : State) (v : Nat) : (s.setBase n v).get g = s.get g := by
  unfold State.setBase
  rw [State.get_eng, State.get_set_other hstale, State.get_set_other hbase]

theorem State.setBase_shown (s : State) (n : Fin 10) (v : Nat) :
    (s.setBase n v).get (PINENG.E_BASE_BASE n) = v % 2 ^ 32 ∧ (s.setBase n v).get (PINENG.E_STAT_STALE n) = 0 := by
  unfold State.setBase
  rw [State.get_eng, State.get_eng, State.get_set_other (by simp only [RF.key, PINENG.E_BASE, PINENG.E_STAT]; omega),
    State.get_set_self, State.get_set_self]
  exact ⟨Nat.mod_mod _ _, rfl⟩

theorem State.get_launch_other {g : RF} (hpc : g.key ≠ (PINENG.E_STAT_PC n).key) (hwait : g.key ≠ (PINENG.E_STAT_WAIT n).key)
    (s : State) (base ref : Nat) : (s.launch n base ref).get g = ((s.clearRun n ref).setBase n base).get g := by
  rw [State.launch, State.peFresh, State.get_eng, State.get_set_other hwait, State.get_set_other hpc]

theorem State.clearRun_shown (s : State) (n : Fin 10) (ref : Nat) : (s.clearRun n ref).get (PINENG.E_STAT_ESTATE n) = 2 ∧
    (s.clearRun n ref).get (PINENG.E_STAT_C n) = 0 ∧ (s.clearRun n ref).get (PINENG.E_STAT_TO n) = 0 ∧
    (s.clearRun n ref).get (PINENG.E_RANGE_START n) = s.get (PINENG.E_RANGE_START n) := by
  simp (disch := (simp only [RF.key, PINENG.E_STAT, PINENG.E_RANGE]; omega)) only [State.clearRun, State.get_eng, State.get_set_other,
    State.get_set_self]
  exact ⟨rfl, rfl, rfl, trivial⟩

theorem State.launch_shown (s : State) (n : Fin 10) (base ref : Nat) :
    let u := s.launch n base ref
    u.get (PINENG.E_STAT_ESTATE n) = 2 ∧ u.get (PINENG.E_STAT_PC n) = s.get (PINENG.E_RANGE_START n) % 2 ^ 9 ∧
    u.get (PINENG.E_BASE_BASE n) = base % 2 ^ 32 ∧ u.get (PINENG.E_STAT_C n) = 0 ∧ u.get (PINENG.E_STAT_TO n) = 0 ∧
    u.get (PINENG.E_STAT_STALE n) = 0 := by
  obtain ⟨hst, hc, hto, hstart⟩ := s.clearRun_shown n ref
  obtain ⟨hbase, hstale⟩ := (s.clearRun n ref).setBase_shown n base
  have hpc : (s.launch n base ref).get (PINENG.E_STAT_PC n) = s.get (PINENG.E_RANGE_START n) % 2 ^ 9 := by
    rw [State.launch, State.peFresh, State.get_eng, State.get_set_other (by simp [RF.key]), State.get_set_self, hstart]
    rfl
  intro u
  simp (disch := (simp only [RF.key, PINENG.E_STAT, PINENG.E_BASE]; omega)) only [u, State.get_launch_other,
    State.get_setBase_other, hst, hpc, hbase, hc, hto, hstale, and_self]

theorem State.setBase_engine (s : State) (n : Fin 10) (v : Nat) :
    ∃ x, (s.setBase n v).engines[n] = { s.engines[n] with staleAt := x } := ⟨_, State.engines_eng_self _ n _⟩

theorem State.launch_engine (s : State) (n : Fin 10) (base ref : Nat) :
    let e := (s.launch n base ref).engines[n]
    e.cur = false ∧ e.next = ref ∧ e.stepRef = ref ∧ e.capw = 0 ∧ e.emtw = 0 := by
  obtain ⟨x, hx⟩ := (s.clearRun n ref).setBase_engine n base
  rw [State.launch, State.engines_peFresh, State.engines_set, hx, State.clearRun, State.engines_eng_self]
  exact ⟨rfl, rfl, rfl, rfl, rfl⟩

theorem State.peBegin_first (hst : s.get (PINENG.E_STAT_ESTATE n) = 2) (hcur : s.engines[n].cur = false)
    (hnext : s.engines[n].next ≤ s.tick) (hstep : s.engines[n].stepRef = s.tick) : s.peBegin n = s.peCurrent n :=
  if_pos (by rw [hst, hcur, decide_eq_true hnext, State.atBoundary, hstep, Nat.sub_self, Nat.zero_mod]; exact Bool.or_true _)

/-- From `s` to `t` the instruction at PC of engine `n` has become current. -/
structure Began (n : Fin 10) (s t : State) : Prop where
  regs : RegsBut [PINENG.E_STAT_WAIT n] s t
  cur : t.engines[n].cur = true
  capw : t.engines[n].capw = s.engines[n].capw
  emtw : t.engines[n].emtw = s.engines[n].emtw

theorem Began.wait (h : Began n s t) (v : Nat) : Began n s (t.set (PINENG.E_STAT_WAIT n) v) :=
  ⟨h.regs.set (by simp) v, h.cur, h.capw, h.emtw⟩

theorem Began.eng (h : Began n s t) {f : EngSt → EngSt} (hcur : ∀ e, (f e).cur = e.cur := by exact fun _ => rfl)
    (hcapw : ∀ e, (f e).capw = e.capw := by exact fun _ => rfl) (hemtw : ∀ e, (f e).emtw = e.emtw := by exact fun _ => rfl) :
    Began n s (t.eng n f) := by
  refine ⟨h.regs, ?_, ?_, ?_⟩ <;> rw [State.engines_eng_self]
  · exact (hcur _).trans h.cur
  · exact (hcapw _).trans h.capw
  · exact (hemtw _).trans h.emtw

/-- A legal word becomes current. -/
theorem State.peCurrent_began (hlegal : peIllegal (s.peWord n) = 0) (hstale : s.get (PINENG.E_STAT_STALE n) = 0) :
    Began n s (s.peCurrent n) := by
  rw [State.peCurrent, if_neg (not_not.2 hlegal)]
  extract_lets u
  have hu : Began n s u := by
    refine ⟨fun _ _ => rfl, ?_, ?_, ?_⟩ <;> simp only [u, State.engines_eng_self]
  have hnow : u.on (PINENG.E_STAT_STALE n) = false := by rw [State.on, State.get_eng, hstale]; rfl
  rw [hnow, if_neg Bool.false_ne_true]
  split
  · exact hu
  · split
    · split
      · exact (hu.wait 1).eng
      · exact hu.eng
    · exact hu.eng

theorem State.peStart_shown (s : State) (n : Fin 10) (base : Nat)
    (hlegal : peIllegal (s.mem? (0x50100800 + 4 * (s.get (PINENG.E_RANGE_START n) % 2 ^ 9)) 4) = 0) :
    let t := s.peStart n base s.tick
    t.get (PINENG.E_STAT_ESTATE n) = 2 ∧ t.get (PINENG.E_STAT_PC n) = s.get (PINENG.E_RANGE_START n) % 2 ^ 9 ∧
    t.get (PINENG.E_BASE_BASE n) = base % 2 ^ 32 ∧ t.get (PINENG.E_STAT_C n) = 0 ∧ t.get (PINENG.E_STAT_TO n) = 0 ∧
    t.engines[n].cur = true ∧ t.engines[n].capw = 0 ∧ t.engines[n].emtw = 0 := by
  obtain ⟨hst, hpc, hbase, hc, hto, hstale⟩ := s.launch_shown n base s.tick
  obtain ⟨hcur, hnext, hstep, hcapw, hemtw⟩ := s.launch_engine n base s.tick
  have hword : (s.launch n base s.tick).peWord n = s.mem? (0x50100800 + 4 * (s.get (PINENG.E_RANGE_START n) % 2 ^ 9)) 4 := by
    have hmem : SameMemory s (s.launch n base s.tick) := fun _ => rfl
    rw [State.peWord, hpc, State.mem?_congr hmem]
  have hbegan := State.peCurrent_began (hword ▸ hlegal) hstale
  have hkept : ∀ g : RF, g.key ≠ (PINENG.E_STAT_WAIT n).key →
      ((s.launch n base s.tick).peCurrent n).get g = (s.launch n base s.tick).get g := fun g hg => hbegan.regs g (by simpa using hg)
  intro t
  have ht : t = (s.launch n base s.tick).peCurrent n :=
    (s.peStart_eq n base s.tick).trans (State.peBegin_first hst hcur (Nat.le_of_eq hnext) hstep)
  rw [ht]
  refine ⟨(hkept _ ?_).trans hst, (hkept _ ?_).trans hpc, (hkept _ ?_).trans hbase, (hkept _ ?_).trans hc, (hkept _ ?_).trans hto,
    hbegan.cur, hbegan.capw.trans hcapw, hbegan.emtw.trans hemtw⟩
  all_goals simp only [RF.key, PINENG.E_STAT, PINENG.E_BASE]; omega

/-! ### The program store and the FIFOs (R130, R133) -/

theorem exec_programStoreWrite_busy {k : Fin 512} (v : Word) (hbusy : s.storeBusy k = true) :
    exec (.programStoreWrite k v) s = .next { s with bus := .error } := if_pos (by rw [hbusy, Bool.or_true])

theorem exec_programStoreWrite_free {k : Fin 512} (v : Word) (hup : s.accessible PINENG.SS_CTRL = true) (hfree : s.storeBusy k = false) :
    exec (.programStoreWrite k v) s = .next { s.pokeWord (0x50100800 + 4 * k.1) v.toNat with bus := .ok 0 } :=
  if_neg (by rw [hup, hfree]; decide)

/-- A word written to En_TXFIFO. -/
def State.offerTx (s : State) (n : Fin 10) (x : Nat) : State :=
  if 8 ≤ s.engines[n].tx.length then (s.txMiss n x).set (PINENG.E_STAT_TX_OVR n) 1
  else (s.eng n fun e => { e with tx := e.tx ++ [(s.tick, x)] }).peLevels n

theorem exec_txfifoWrite_reached (v : Word) (hup : s.accessible (PINENG.E_TXFIFO n) = true) :
    exec (.txfifoWrite n v) s = .next { s.offerTx n v.toNat with bus := .ok 0 } :=
  State.busDo_reached hup fun s => s.offerTx n v.toNat

theorem State.offerTx_room (hroom : s.engines[n].tx.length < 8) (x : Nat) :
    (s.offerTx n x).engines[n].tx = s.engines[n].tx ++ [(s.tick, x)] ∧
    (s.offerTx n x).get (PINENG.E_FIFO_STAT_TX_LVL n) = s.engines[n].tx.length + 1 := by
  rw [State.offerTx, if_neg (Nat.not_le.2 hroom)]
  refine ⟨?_, ?_⟩
  · rw [State.engines_peLevels, State.engines_eng_self]
  · rw [State.peLevels, State.get_set_self, State.engines_eng_self, List.length_append]
    exact Nat.mod_eq_of_lt (Nat.lt_of_le_of_lt hroom (by simp [RF.bound]))

theorem State.offerTx_full (hfull : 8 ≤ s.engines[n].tx.length) (x : Nat) :
    (s.offerTx n x).get (PINENG.E_STAT_TX_OVR n) = 1 ∧ (s.offerTx n x).engines[n].tx = s.engines[n].tx ∧
    EngineRegs [PINENG.E_STAT_TX_OVR n] s (s.offerTx n x) := by
  rw [State.offerTx, if_pos hfull]
  exact ⟨State.get_set_self _ _ 1, by rw [State.engines_set, State.txMiss, State.engines_eng_self],
    (((OnlyRegs.refl _ s).engineRegs).eng n _).set (by simp) 1⟩

theorem exec_rxfifoRead_empty (hup : s.accessible (PINENG.E_RXFIFO n) = true) (hempty : ∀ x ∈ s.engines[n].rx, s.tick ≤ x.1) :
    exec (.rxfifoRead n) s = .next { s.set (PINENG.E_STAT_RX_UNDER n) 1 with bus := .ok 0 } := by
  have hfind : (s.engines[n].rx.find? fun x => decide (x.1 < s.tick)) = none :=
    List.find?_eq_none.2 fun x hx => by simpa using hempty x hx
  change execRxfifoRead n s = _
  rw [execRxfifoRead, if_neg (by rw [hup]; decide), hfind]

/-- The oldest word of the RX FIFO is taken. -/
def State.takeRx (s : State) (n : Fin 10) (x : Nat × Nat) : State := (s.eng n fun e => { e with rx := e.rx.erase x }).peLevels n

theorem exec_rxfifoRead_word {k x : Nat} {r : List (Nat × Nat)} (hup : s.accessible (PINENG.E_RXFIFO n) = true)
    (hrx : s.engines[n].rx = (k, x) :: r) (hk : k < s.tick) :
    exec (.rxfifoRead n) s = .next { (s.takeRx n (k, x)).rxRemoved n with bus := .ok x } := by
  have hfind : (s.engines[n].rx.find? fun x => decide (x.1 < s.tick)) = some (k, x) := by
    rw [hrx, List.find?_cons_of_pos (by simpa using hk)]
  change execRxfifoRead n s = _
  rw [execRxfifoRead, if_neg (by rw [hup]; decide), hfind]
  rfl

theorem State.takeRx_engine {k x : Nat} {r : List (Nat × Nat)} (hrx : s.engines[n].rx = (k, x) :: r) :
    (s.takeRx n (k, x)).engines[n] = { s.engines[n] with rx := r } := by
  rw [State.takeRx, State.engines_peLevels, State.engines_eng_self, hrx, List.erase_cons_head]

theorem State.rxRemoved_none (h : s.engines[n].rxLost = none) : s.rxRemoved n = s := by rw [State.rxRemoved, h]; rfl

/-- The only word that found the FIFO full in this tick goes in after all. -/
theorem State.rxRemoved_one {cnt ovf : Nat} (h : s.engines[n].rxLost = some ⟨s.tick, [w], cnt, ovf⟩) :
    (s.rxRemoved n).engines[n].rx = s.engines[n].rx ++ [(s.tick, w)] ∧ (s.rxRemoved n).get (PINENG.E_STAT_C n) = 1 := by
  have hkept : (some (⟨s.tick, [w], cnt, ovf⟩ : FifoLost)).filter (fun l => l.tick == s.tick) = some ⟨s.tick, [w], cnt, ovf⟩ := by
    simp
  rw [State.rxRemoved, h, hkept]
  dsimp only [List.foldl_nil]
  rw [if_pos rfl, State.engines_set, State.engines_peLevels, State.engines_eng_self]
  exact ⟨rfl, State.get_set_self _ _ 1⟩

/-! ### The injection slot (R135) -/

theorem State.holdInjected_shown (s : State) (n : Fin 10) (i : Inject) :
    (s.holdInjected n i).get (PINENG.E_FIFO_STAT_INJ_PEND n) = 1 ∧ (s.holdInjected n i).engines[n].inj = some i ∧
    EngineRegs [PINENG.E_FIFO_STAT_INJ_PEND n] s (s.holdInjected n i) := by
  refine ⟨State.get_set_self s _ 1, ?_, ((OnlyRegs.refl _ s).set (by simp) 1).engineRegs.eng n _⟩
  rw [State.holdInjected, State.engines_eng_self]

/-! ### The synchronous start (R136, R137) -/

/-- A write of SS_CTRL with GO as 1. -/
def State.writeGo (s : State) (v : Nat) : State :=
  let t := (s.writeFields (fun f => !f.row) PINENG.SS_CTRL v false).ssGo
  if getBit v 30 then t.ssCancel else t

theorem exec_ssGo_reached (v : Word) (hup : s.accessible PINENG.SS_CTRL = true) :
    exec (.ssGo v) s = .next { s.writeGo v.toNat with bus := .ok 0 } :=
  State.busDo_reached hup fun s => s.writeGo v.toNat

theorem State.writeGo_kept {v : Nat} (hcancel : getBit v 30 = false) :
    s.writeGo v = (s.writeFields (fun f => !f.row) PINENG.SS_CTRL v false).ssGo := if_neg (by rw [hcancel]; decide)

theorem State.ssGo_arms {x : Nat} (hmask : s.get PINENG.SS_CTRL_MASK ≠ 0)
    (hdoes : s.on PINENG.SS_CTRL_START = true ∨ s.on PINENG.SS_CTRL_CLKRST = true)
    (hat : s.class32 (s.get PINENG.SS_AT_AT) = some x) (hnow : x ≠ s.mt) :
    s.ssGo = { s.set PINENG.SS_STAT_ARMED 1 with
      ss := ⟨x, s.get PINENG.SS_CTRL_MASK, s.on PINENG.SS_CTRL_START, s.on PINENG.SS_CTRL_CLKRST⟩ } := by
  have hgo : ¬ (decide (s.get PINENG.SS_CTRL_MASK = 0) || (!s.on PINENG.SS_CTRL_START && !s.on PINENG.SS_CTRL_CLKRST)) = true := by
    rw [decide_eq_false hmask]
    rcases hdoes with hstart | hclkrst
    · simp [hstart]
    · simp [hclkrst]
  refine (if_neg hgo).trans ?_
  rw [hat]
  exact if_neg hnow

theorem State.ssCancel_before (harmed : s.on PINENG.SS_STAT_ARMED = true) (hdue : s.due s.ss.inst = false) :
    s.ssCancel = s.set PINENG.SS_STAT_ARMED 0 := if_pos (by rw [harmed, hdue]; rfl)

theorem exec_syncStartInstant_due (harmed : s.on PINENG.SS_STAT_ARMED = true) (hdue : s.due s.ss.inst = true)
    (hlane : s.domOn .lane = true) :
    exec .syncStartInstant s = .next ((((s.forLanes fun n s => if getBit s.ss.mask n then s.ssEngine n else s).set
      PINENG.SS_STAT_ARMED 0).set PINENG.SS_STAT_DONE 1).set PINENG.IRQ_STAT_SS_DONE 1) :=
  if_neg (by rw [harmed, hdue, hlane]; decide)

end

/-- Settles O23: each command by what it answers; a start by what the engine is before and after its first instruction becomes
current; a stop by the fields that it touches. -/
theorem pinEngineStartStopAndStore : Obligations.PinEngineStartStopAndStore := by
  refine ⟨?starts, ?stops, ?first, ?store, ?tx, ?rx, fun v s hup hcancel => by rw [exec_ssGo_reached v hup, State.writeGo_kept hcancel],
    fun t s hmask hdoes hat hnow => State.ssGo_arms hmask hdoes hat hnow, ?cancel,
    fun s harmed hdue hlane => exec_syncStartInstant_due harmed hdue hlane, ?stale, ?inject, ?noInjected, ?injected⟩
  case starts =>
    intro n v s hup hidle
    refine ⟨exec_engineStart_idle v hup hidle, ?_⟩
    have hexec := exec_engineArm_idle v hup hidle
    have hshown := s.armEngine_shown n v.toNat
    generalize (s.writeEngCtrl n v.toNat 1 1).armEngine n = t at hexec hshown
    exact ⟨_, hexec, hshown⟩
  case stops =>
    intro n v s hup
    obtain ⟨hst, hslot, hinjPend, hrx, htx⟩ := (s.cutEngine n v.toNat).stopEngine_shown n
    obtain ⟨htxList, hrxList, htrigs, hinj, hstored⟩ := (s.cutEngine n v.toNat).stopEngine_engine n
    have hexec := exec_engineStop_reached v hup
    have hen := s.stopEngine_en n v.toNat
    have hmem := (s.cutEngine_only n v.toNat).stopEngine.memory
    have hregs := s.stopEngine_regs n v.toNat
    rw [s.get_cutEngine_init n v.toNat] at hstored
    generalize (s.cutEngine n v.toNat).stopEngine n = t
      at hexec hst hen hslot hinjPend hrx htx htxList hrxList htrigs hinj hstored hmem hregs
    exact ⟨_, hexec, hst, hen, hslot, hinjPend, hrx, htx, htxList, hrxList, htrigs, hinj, hstored, hmem, hregs⟩
  case first =>
    rintro n base ref s rfl hlegal
    exact s.peStart_shown n base hlegal
  case store =>
    intro k v s hup
    exact ⟨exec_programStoreWrite_busy v, exec_programStoreWrite_free v hup⟩
  case tx =>
    intro n v s hup
    refine ⟨fun hroom => ⟨_, exec_txfifoWrite_reached v hup, State.offerTx_room hroom v.toNat⟩, fun hfull => ?_⟩
    obtain ⟨hovr, hkept, honly⟩ := State.offerTx_full hfull v.toNat
    exact ⟨_, exec_txfifoWrite_reached v hup, hovr, hkept, OnlyRegs.bus honly _⟩
  case rx =>
    intro n s hup
    refine ⟨exec_rxfifoRead_empty hup, fun k x r hrx hk => ?_⟩
    have htaken := State.takeRx_engine hrx
    refine ⟨fun hlost => ⟨_, exec_rxfifoRead_word hup hrx hk, rfl, ?_⟩, fun w cnt ovf hlost => ?_⟩
    · rw [← State.rxRemoved_none (s := s.takeRx n (k, x)) (n := n) (by rw [htaken]; exact hlost)] at htaken
      exact congrArg EngSt.rx htaken
    · obtain ⟨hlist, hc⟩ := State.rxRemoved_one (s := s.takeRx n (k, x)) (n := n) (by rw [htaken]; exact hlost)
      rw [htaken] at hlist
      exact ⟨_, exec_rxfifoRead_word hup hrx hk, rfl, hlist, hc⟩
  case cancel =>
    intro s hup harmed hdue
    exact (State.busDo_reached hup State.ssCancel).trans (by rw [State.ssCancel_before harmed hdue])
  case stale =>
    intro n s hlane hdue
    exact ⟨_, exec_baseStale_due hlane hdue, State.get_set_self _ _ 1, (OnlyRegs.refl _ s).set (by simp) 1⟩
  case inject =>
    intro n v s hup
    refine ⟨fun hpend => ⟨_, exec_inject_reached v hup, ?_⟩, fun hpend hok => ⟨_, exec_inject_reached v hup, ?_⟩,
      fun hpend hok => ⟨_, exec_inject_reached v hup, ?_⟩⟩
    · rw [State.offerInjected_busy hpend]
      exact ⟨State.get_set_self _ _ 1, rfl⟩
    · rw [State.offerInjected_rejected hpend hok]
      exact ⟨State.get_set_self _ _ 1, rfl⟩
    · rw [State.offerInjected_taken hpend hok]
      obtain ⟨hpend', hinj, honly⟩ := s.holdInjected_shown n (s.classifyInjected n v.toNat)
      exact ⟨hpend', by rw [hinj]; rfl, (OnlyRegs.bus honly _).ofBus _⟩
  case noInjected =>
    intro n balls s hnone
    exact ⟨_, rfl, State.injectStep_none (s := s.withBalls balls) hnone⟩
  case injected =>
    intro n balls i s hinj hinst hpast hshift hstep hnext hlane
    refine ⟨_, congrArg Host.Outcome.next
      (State.injectStep_now (s := s.withBalls balls) hinj hlane hpast hinst hshift hstep hnext), ?_, ?_⟩
    · exact congrArg EngSt.inj (State.engines_eng_self _ n _)
    · exact State.get_set_self _ _ 0

end Sys2Proof.Machine

/-! ## The token, acyclic frames and the queues (07_gnourlink.md, R150, R152, R154) -/

namespace Sys2Proof.Machine

section
variable {s : State} {p : Fin 2}

/-- A port that is not LOST is heard (R144). -/
theorem State.hears_of_usable (h : s.lost p = false) : s.hears p = true := by rw [State.hears, h]; rfl

/-! ### The token (R150) -/

theorem exec_tokSend_due {b cyc : Nat} (hlast : s.ring.bLast = some (b, cyc)) (hst : s.get RINGCTL.STAT_RSTATE = 4)
    (hlink : s.domOn .link = true) (hnew : s.ring.tokSent = false)
    (hdue : s.due (b + 64 + 20 * s.get RINGCTL.ACYC_CUR_POS) = true) :
    exec .tokSend s = .next { s with ring := { s.ring with tokSent := true }, sent := .tok s.masterPort :: s.sent } := by
  change execTokSend s = _
  simp only [execTokSend, hlast, hst, hlink, hnew, hdue]
  rfl

section
variable {pos : Nat} (hup : s.ringUp = true) (hears : s.hears p = true)
include hup hears

theorem exec_tokReceived_late (hlate : s.acycEnd < pos) : exec (.tokReceived p pos) s = .next s := by
  change execTokReceived p pos s = _
  rw [execTokReceived, hup, hears]
  exact if_pos hlate

/-- A token in time goes on, behind the frame that is sent in its place where there is one. -/
theorem exec_tokReceived_inTime (htime : pos ≤ s.acycEnd) :
    exec (.tokReceived p pos) s = .next (((s.sendAcyclic (s.outPort p) pos).getD s).emit (.tok (s.outPort p))) := by
  change execTokReceived p pos s = _
  rw [execTokReceived, hup, hears]
  refine (if_neg htime.not_gt).trans ?_
  cases hsend : s.sendAcyclic (s.outPort p) pos <;> rfl

end

/-! ### Acyclic frames received (R152) -/

section
variable {f : AcyclicFrame} {t : Nat} (hup : s.ringUp = true) (hears : s.hears p = true)
include hup hears

/-- The node's own frame leaves the ring (R152). -/
theorem exec_acyclicFrameReceived_own (hown : s.isSource f = true) (ok : Bool) : exec (.acyclicFrameReceived p f ⟨t, ok⟩) s =
    .next (if ok then (s.frameBack f.ack (ackResult f true)).emit (.abt (s.outPort p))
      else (s.frameBack f.ack (ackResult f false)).badFrame p true) := by
  change execAcyclicFrameReceived p f ⟨t, ok⟩ s = _
  simp only [execAcyclicFrameReceived, hup, hears, hown, Bool.not_true, Bool.or_self, Bool.false_eq_true, if_false, if_true]
  cases ok
  · simp only [Bool.false_eq_true, if_false]
  · simp only [if_true]

variable (hother : s.isSource f = false)
include hother

theorem exec_acyclicFrameReceived_bad : exec (.acyclicFrameReceived p f ⟨t, false⟩) s = .next (s.badFrame p true) := by
  change execAcyclicFrameReceived p f ⟨t, false⟩ s = _
  rw [execAcyclicFrameReceived, hup, hears, hother]; rfl

theorem exec_acyclicFrameReceived_orphan (hhops : 255 ≤ f.hops) : exec (.acyclicFrameReceived p f ⟨t, true⟩) s =
    .next ((s.count RINGCTL.ORPHAN_COUNT RINGCTL.ORPHAN_OVF).emit (.abt (s.outPort p))) := by
  change execAcyclicFrameReceived p f ⟨t, true⟩ s = _
  rw [execAcyclicFrameReceived, hup, hears, hother]
  exact if_pos hhops

theorem exec_acyclicFrameReceived_forwarded (hhops : f.hops < 255) (hdest : s.isDest f = false) :
    exec (.acyclicFrameReceived p f ⟨t, true⟩) s = .next (s.emit (.acyc (s.outPort p) { f with hops := f.hops + 1 })) := by
  change execAcyclicFrameReceived p f ⟨t, true⟩ s = _
  rw [execAcyclicFrameReceived, hup, hears, hother, hdest]
  exact if_neg hhops.not_ge

theorem exec_acyclicFrameReceived_stored (hhops : f.hops < 255) (hdest : s.isDest f = true) :
    exec (.acyclicFrameReceived p f ⟨t, true⟩) s = .next ((s.storeFrame p t f).1.emit (.acyc (s.outPort p)
      { f with hops := f.hops + 1, ack := f.ack ||| (s.storeFrame p t f).2 })) := by
  change execAcyclicFrameReceived p f ⟨t, true⟩ s = _
  rw [execAcyclicFrameReceived, hup, hears, hother, hdest]
  exact if_neg hhops.not_ge

end

/-! ### The oldest frame ends (R152) -/

theorem State.frameBack_queue (hold : s.dictOlder = false) (ack res : Nat) : s.frameBack ack res = s.completeTx ack res := by
  rw [State.frameBack, hold]; rfl

theorem State.frameBack_dict {f : DictFrame} {t : Nat} {rest : List (DictFrame × Nat)} (hold : s.dictOlder = true)
    (hring : s.dict.onRing = (f, t) :: rest) (ack res : Nat) :
    s.frameBack ack res = State.dictFrameBack { s with dict := { s.dict with onRing := rest } } f res := by
  rw [State.frameBack, hold, hring]; rfl

theorem State.oldestSent_queue {q i t : Nat} {rest : List (Nat × Nat × Nat)} (hold : s.dictOlder = false)
    (hout : s.ring.txOut = (q, i, t) :: rest) : s.oldestSent = some t := by
  rw [State.oldestSent, hold, hout]; rfl

theorem State.oldestSent_dict {f : DictFrame} {t : Nat} {rest : List (DictFrame × Nat)} (hold : s.dictOlder = true)
    (hring : s.dict.onRing = (f, t) :: rest) : s.oldestSent = some t := by
  rw [State.oldestSent, hold, hring]; rfl

theorem exec_acyclicTxLost_late {t : Nat} (hsent : s.oldestSent = some t) (hlink : s.domOn .link = true)
    (hlate : s.txLate t = true) : exec .acyclicTxLost s = .next (s.frameBack 0 4) := by
  change execAcyclicTxLost s = _
  simp only [execAcyclicTxLost, hsent, hlink, hlate]
  rfl

/-! ### An entry of a queue completes (R154) -/

/-- A descriptor's last 8 bytes: the stamp, and DONE with word 3. -/
def doneBytes (stamp word3 : Nat) : List Byte := wordBytes (stamp % 2 ^ 32) ++ wordBytes (2 ^ 31 + word3)

theorem doneBytes_length (stamp word3 : Nat) : (doneBytes stamp word3).length = 8 := rfl

theorem State.finishEntry_inSram {q i : Nat} (hin : inSram (s.descAddr q i + 8) 8 = true) (stamp word3 : Nat) :
    s.finishEntry q i stamp word3 = (s.pokes (s.descAddr q i + 8) (doneBytes stamp word3)).setBit LINKQ.IRQ_STAT_DONE q true := by
  rw [State.finishEntry, State.dmaWrite, if_pos (.inr hin)]; rfl

/-- QHEAD moves on past a finished entry (R154). -/
theorem State.advanceHead_done_shown {q : Nat} (hq : q < 8) (s : State) :
    let u := (s.setBit LINKQ.IRQ_STAT_DONE q true).advanceHead q
    u.get (LINKQ.Q_HEAD_HEAD q) = (s.get (LINKQ.Q_HEAD_HEAD q) + 1) % s.get (LINKQ.Q_CFG_SIZE q) % 2 ^ 8 ∧
    u.bit LINKQ.IRQ_STAT_DONE q = true ∧ OnlyRegs [LINKQ.Q_HEAD_HEAD q, LINKQ.IRQ_STAT_DONE] s u := by
  have hhead : (LINKQ.Q_HEAD_HEAD q).key ≠ LINKQ.IRQ_STAT_DONE.key := by
    simp only [RF.key, LINKQ.Q_HEAD, LINKQ.IRQ_STAT]; omega
  have hsize : (LINKQ.Q_CFG_SIZE q).key ≠ LINKQ.IRQ_STAT_DONE.key := by
    simp only [RF.key, LINKQ.Q_CFG, LINKQ.IRQ_STAT]; omega
  refine ⟨?_, ?_, ((OnlyRegs.refl _ s).setBit (by simp) q true).set (by simp) _⟩
  · rw [State.advanceHead, State.get_set_self, State.get_setBit, State.get_setBit, State.get_set_other hhead,
      State.get_set_other hsize]
    rfl
  · rw [State.bit, State.advanceHead, State.get_set_other hhead.symm, ← State.bit]
    exact State.bit_setBit_self hq s true

/-- What the completion of an entry whose descriptor lies in SRAM leaves. -/
theorem State.finishEntry_advanceHead_shown {q i : Nat} (hq : q < 8) (hin : inSram (s.descAddr q i + 8) 8 = true)
    (stamp word3 : Nat) :
    let u := (s.finishEntry q i stamp word3).advanceHead q
    u.ring = s.ring ∧
    u.get (LINKQ.Q_HEAD_HEAD q) = (s.get (LINKQ.Q_HEAD_HEAD q) + 1) % s.get (LINKQ.Q_CFG_SIZE q) % 2 ^ 8 ∧
    u.bit LINKQ.IRQ_STAT_DONE q = true ∧ MemoryBut (s.descAddr q i + 8) 8 s u ∧
    OnlyRegs [LINKQ.Q_HEAD_HEAD q, LINKQ.IRQ_STAT_DONE] { s with mem := u.mem } u := by
  have hmem : MemoryBut (s.descAddr q i + 8) 8 s (s.pokes (s.descAddr q i + 8) (doneBytes stamp word3)) :=
    fun a ha => State.byte_pokes_other _ s (by rw [doneBytes_length]; exact ha)
  have hwritten := s.pokes_fields (doneBytes stamp word3) (s.descAddr q i + 8)
  rw [State.finishEntry_inSram hin]
  generalize s.pokes (s.descAddr q i + 8) (doneBytes stamp word3) = w at hmem hwritten
  obtain ⟨hnext, hdone, honly⟩ := State.advanceHead_done_shown hq w
  have hread : ∀ g, w.get g = s.get g := fun g => by rw [hwritten, State.get_fields]
  rw [hread, hread] at hnext
  have hring : w.ring = s.ring := by rw [hwritten]
  refine ⟨hring, hnext, hdone, hmem, ?_⟩
  change OnlyRegs _ { s with mem := w.mem } _
  rw [← hwritten]
  exact honly

theorem State.completeTx_cons {q i t : Nat} {rest : List (Nat × Nat × Nat)} (hout : s.ring.txOut = (q, i, t) :: rest)
    (ack res : Nat) : s.completeTx ack res =
      (State.finishEntry { s with ring := { s.ring with txOut := rest } } q i t (ack * 2 ^ 16 + res)).advanceHead q := by
  simp only [State.completeTx, hout]

theorem exec_queueTailWrite_reached {q : Fin 8} {v : Word} (hup : s.accessible (LINKQ.Q_TAIL q) = true) :
    exec (.queueTailWrite q v) s = .next { s.set (LINKQ.Q_TAIL_TAIL q) (bits v.toNat 7 0) with bus := .ok 0 } :=
  State.busDo_reached hup fun s => s.set (LINKQ.Q_TAIL_TAIL q) (bits v.toNat 7 0)

end

/-- Settles O10: the token and each kind of frame by what it answers, a frame that ends by which of the node's frames is the older,
and a completion by its write of the descriptor and QHEAD's advance. -/
theorem ringTokenAndAcyclicFrames : Obligations.RingTokenAndAcyclicFrames := by
  refine ⟨fun b cyc s hlast hst hlink hnew hdue => exec_tokSend_due hlast hst hlink hnew hdue, ?token, ?frames, ?own,
    ?lost, ?lostDict, ?complete, ?tail⟩
  case token =>
    intro p pos s hlink hst hlost
    have hup := State.ringUp_of_running hlink hst
    have hears := State.hears_of_usable hlost
    refine ⟨exec_tokReceived_late hup hears, fun htime hnone => ?_, fun htime u hsome => ?_⟩
    · rw [exec_tokReceived_inTime hup hears htime, hnone]; rfl
    · rw [exec_tokReceived_inTime hup hears htime, hsome]; rfl
  case frames =>
    intro p t f s hlink hst hlost hother
    have hup := State.ringUp_of_running hlink hst
    have hears := State.hears_of_usable hlost
    refine ⟨exec_acyclicFrameReceived_forwarded hup hears hother, exec_acyclicFrameReceived_orphan hup hears hother,
      exec_acyclicFrameReceived_stored hup hears hother, ?_⟩
    rw [exec_acyclicFrameReceived_bad hup hears hother, State.badFrame_forwarded]
  case own =>
    intro p t f s hlink hst hlost hown hold
    have hanswer := exec_acyclicFrameReceived_own (t := t) (State.ringUp_of_running hlink hst) (State.hears_of_usable hlost) hown
    simp only [State.frameBack_queue hold] at hanswer
    exact ⟨hanswer true, hanswer false⟩
  case lost =>
    intro q i t rest s hold hout hlink hlate
    rw [exec_acyclicTxLost_late (State.oldestSent_queue hold hout) hlink hlate, State.frameBack_queue hold]
  case lostDict =>
    intro f t rest s hold hring hlink hlate
    rw [exec_acyclicTxLost_late (State.oldestSent_dict hold hring) hlink hlate, State.frameBack_dict hold hring]
  case complete =>
    rintro q _ t ack res rest s hout hq rfl hin u
    have hu : u = _ := State.completeTx_cons hout ack res
    obtain ⟨hring, hnext, hdone, hmem, honly⟩ := State.finishEntry_advanceHead_shown
      (s := { s with ring := { s.ring with txOut := rest } }) hq hin t (ack * 2 ^ 16 + res)
    rw [hu]
    exact ⟨congrArg RingSt.txOut hring, hnext, hdone, hmem, honly⟩
  case tail =>
    intro q v s hup
    refine ⟨_, exec_queueTailWrite_reached hup, ?_, rfl, ((OnlyRegs.refl _ s).set (by simp) _).bus _⟩
    rw [State.get_fields, State.get_set_self]
    exact Nat.mod_eq_of_lt (bits_lt v.toNat 7 0)

end Sys2Proof.Machine

/-! ## Ring sleep (07_gnourlink.md, R165 to R168) -/

namespace Sys2Proof.Machine

section
variable {s : State} {v : Word}

theorem OnlyRegs.withRing {fs : List RF} {t : State} (h : OnlyRegs fs s t) (r : RingSt) :
    OnlyRegs fs { s with ring := r } { t with ring := r } :=
  ⟨h.1, h.2.1, congrArg (fun x : State => { x with ring := r }) h.2.2⟩

/-! ### The announcement and its end (R165, R166) -/

/-- SLEEP written: AHEAD, and the sleep announced for cycle `c`. -/
def State.announceSleep (s : State) (v : Word) (c : Nat) : State :=
  { ((s.writeFields (fun f => !f.row) RINGCTL.SLEEP v.toNat false).set RINGCTL.SLEEP_PEND 1).set RINGCTL.SLEEP_CYC_T c with
    ring := { s.ring with sleepT := some c } }

/-- AHEAD takes a legal value written (R15, R165). -/
theorem State.get_writeSleep_ahead (hlo : 4 ≤ bits v.toNat 15 0) (hhi : bits v.toNat 15 0 ≤ 32767) :
    (s.writeFields (fun f => !f.row) RINGCTL.SLEEP v.toNat false).get RINGCTL.SLEEP_AHEAD = bits v.toNat 15 0 := by
  have hlegal : (Legal.range 4 32767).ok (bits v.toNat 15 0) = true := by
    rw [Legal.ok, decide_eq_true hlo, decide_eq_true hhi]; rfl
  have hfield := (State.get_writeFields s (fun f => !f.row) RINGCTL.SLEEP v.toNat false ⟨15, 0, .rw, 0x10, .range 4 32767, false⟩
    (by decide) rfl (by decide)).trans (State.get_writeField_rw s RINGCTL.SLEEP v.toNat false rfl)
  exact hfield.trans (if_pos hlegal)

theorem exec_sleepGo_master (hup : s.accessible RINGCTL.SLEEP = true) (hst : s.get RINGCTL.STAT_RSTATE = 4) (hno : s.ring.sleepT = none)
    (hlo : 4 ≤ bits v.toNat 15 0) (hhi : bits v.toNat 15 0 ≤ 32767) : exec (.sleepGo v) s =
      .next { s.announceSleep v ((s.get RINGCTL.CYCNUM_CYCLE + bits v.toNat 15 0) % 65536) with bus := .ok 0 } := by
  obtain ⟨hregs, -, hfields⟩ := s.writeFields_frame (fun f => !f.row) RINGCTL.SLEEP v.toNat false
  have hring : (s.writeFields (fun f => !f.row) RINGCTL.SLEEP v.toNat false).ring = s.ring := by rw [hfields]
  change execSleepGo v s = _
  rw [execSleepGo, State.busDo_reached hup]
  simp only [hregs RINGCTL.STAT_RSTATE (by decide) (by decide), hst, hring, hno, hregs RINGCTL.CYCNUM_CYCLE (by decide) (by decide),
    State.get_writeSleep_ahead hlo hhi]
  rfl

theorem State.announceSleep_shown (s : State) (v : Word) (n : Nat) :
    (s.announceSleep v (n % 65536)).get RINGCTL.SLEEP_PEND = 1 ∧
    (s.announceSleep v (n % 65536)).get RINGCTL.SLEEP_CYC_T = n % 65536 := by
  simp (disch := decide) only [State.announceSleep, State.get_fields, State.get_set_other, State.get_set_self]
  exact ⟨rfl, Nat.mod_mod _ _⟩

/-- The master withdraws an announced sleep (R166). -/
def State.withdrawSleep (s : State) : State :=
  { (s.set RINGCTL.SLEEP_PEND 0).set RINGCTL.IRQ_STAT_CANCELLED 1 with ring := { s.ring with sleepT := none, cancelLeft := 4 } }

theorem State.sleepCancel_announced {c : Nat} (hst : s.get RINGCTL.STAT_RSTATE = 4) (hc : s.ring.sleepT = some c)
    (hbefore : s.get RINGCTL.CYCNUM_CYCLE ≠ (c + 65535) % 65536) : s.sleepCancel = s.withdrawSleep := by
  simp only [State.sleepCancel, hc, hst, beq_eq_false_iff_ne.2 hbefore]
  rfl

/-! ### The ring sleeps (R166, R167) -/

/-- The node is in SLEEP: RSTATE and what shows it. -/
def State.enterSleep (s : State) : State := ((s.setRstate 5).set RINGCTL.IRQ_STAT_SLEPT 1).set RINGCTL.SLEEP_PEND 0

/-- The node sleeps with its wake reason held; no sleep is announced any more, and the master plans no boundary. -/
def State.fallAsleep (s : State) : State :=
  { if s.on RINGCTL.WAKE_REQ then s.enterSleep.set RINGCTL.STAT_HELD 1 else s.enterSleep with
    ring := { s.ring with sleepT := none, nextB := none } }

theorem State.enterSleep_awake (h : s.get RINGCTL.STAT_RSTATE ≠ 5) : s.enterSleep =
    (((s.set RINGCTL.STAT_RSTATE 5).set RINGCTL.IRQ_STAT_STATE_CHG 1).set RINGCTL.IRQ_STAT_SLEPT 1).set RINGCTL.SLEEP_PEND 0 := by
  rw [State.enterSleep, State.setRstate_change h]; rfl

/-- A node of a formed ring does not sleep. -/
theorem State.awake_of_formed (h : s.get RINGCTL.STAT_RSTATE ∈ [3, 4]) : s.get RINGCTL.STAT_RSTATE ≠ 5 := by
  intro hslept
  rw [hslept] at h
  simp at h

theorem exec_ringSleep_due {c : Nat} (hc : s.ring.sleepT = some c) (hlink : s.domOn .link = true)
    (hst : s.get RINGCTL.STAT_RSTATE ∈ [3, 4]) (hcyc : s.get RINGCTL.CYCNUM_CYCLE = (c + 65535) % 65536) :
    exec .ringSleep s = .next s.fallAsleep := by
  have hawake := State.awake_of_formed hst
  have hruns : (decide (s.get RINGCTL.STAT_RSTATE ≠ 3) && decide (s.get RINGCTL.STAT_RSTATE ≠ 4)) = false := by
    simp only [List.mem_cons, List.not_mem_nil, or_false] at hst
    rcases hst with h | h <;> rw [h] <;> rfl
  have hreq : s.enterSleep.on RINGCTL.WAKE_REQ = s.on RINGCTL.WAKE_REQ := by
    refine State.on_congr ?_
    rw [State.enterSleep_awake hawake]
    simp (disch := decide) only [State.get_set_other]
  have hring : s.enterSleep.ring = s.ring := by rw [State.enterSleep_awake hawake]; rfl
  have hgo : (!s.domOn .link || (decide (s.get RINGCTL.STAT_RSTATE ≠ 3) && decide (s.get RINGCTL.STAT_RSTATE ≠ 4)) ||
      decide (s.get RINGCTL.CYCNUM_CYCLE ≠ (c + 65535) % 65536)) = false := by
    rw [hlink, hruns, hcyc, decide_eq_false (not_not.2 rfl)]; rfl
  change execRingSleep s = _
  simp only [execRingSleep, hc, hgo, Bool.false_eq_true, if_false]
  rw [← State.enterSleep, hreq, State.fallAsleep]
  split <;> simp only [State.ring_set, hring]

/-- The registers that a node's sleep may change. -/
def sleepFields : List RF :=
  [RINGCTL.STAT_RSTATE, RINGCTL.IRQ_STAT_STATE_CHG, RINGCTL.IRQ_STAT_SLEPT, RINGCTL.SLEEP_PEND, RINGCTL.STAT_HELD]

theorem State.fallAsleep_shown (h : s.get RINGCTL.STAT_RSTATE ≠ 5) :
    s.fallAsleep.get RINGCTL.STAT_RSTATE = 5 ∧ s.fallAsleep.get RINGCTL.IRQ_STAT_SLEPT = 1 ∧
    s.fallAsleep.get RINGCTL.SLEEP_PEND = 0 ∧ (s.on RINGCTL.WAKE_REQ = true → s.fallAsleep.get RINGCTL.STAT_HELD = 1) ∧
    OnlyRegs sleepFields { s with ring := { s.ring with sleepT := none, nextB := none } } s.fallAsleep := by
  have hslept : ∀ g : RF, g.key ≠ RINGCTL.STAT_HELD.key → s.fallAsleep.get g = s.enterSleep.get g := by
    intro g hg
    rw [State.fallAsleep, State.get_fields]
    split
    · exact State.get_set_other hg _ _
    · rfl
  have hentered : OnlyRegs sleepFields s s.enterSleep := by
    rw [State.enterSleep_awake h]
    exact ((((OnlyRegs.refl _ s).set (by simp [sleepFields]) _).set (by simp [sleepFields]) _).set (by simp [sleepFields]) _).set
      (by simp [sleepFields]) _
  refine ⟨?_, ?_, ?_, fun hreq => ?_, ?_⟩
  · rw [hslept _ (by decide), State.enterSleep, State.get_set_other (by decide), State.get_set_other (by decide)]
    exact State.get_setRstate_self s (by decide)
  · rw [hslept _ (by decide), State.enterSleep, State.get_set_other (by decide), State.get_set_self]; rfl
  · rw [hslept _ (by decide), State.enterSleep, State.get_set_self]; rfl
  · rw [State.fallAsleep, State.get_fields, if_pos hreq, State.get_set_self]; rfl
  · rw [State.fallAsleep]
    split
    · exact (hentered.set (by simp [sleepFields]) 1).withRing _
    · exact hentered.withRing _

/-! ### The ring wakes (R167, R168) -/

theorem State.ringWake_asleep (h : s.get RINGCTL.STAT_RSTATE = 5) : s.ringWake =
    (((({ s with sent := .wake 1 :: .wake 0 :: s.sent } : State).set RINGCTL.STAT_RSTATE 1).set RINGCTL.IRQ_STAT_STATE_CHG 1).hear) := by
  have hchange : ((s.emit (.wake 0)).emit (.wake 1)).get RINGCTL.STAT_RSTATE ≠ 1 := by
    rw [State.get_emit, State.get_emit, h]; decide
  rw [State.ringWake, State.setRstate_change hchange]; rfl

theorem State.ringWake_shown (h : s.get RINGCTL.STAT_RSTATE = 5) :
    s.ringWake.get RINGCTL.STAT_RSTATE = 1 ∧ s.ringWake.get RINGCTL.IRQ_STAT_STATE_CHG = 1 ∧ s.ringWake.ring.quietAt = s.tick ∧
    OnlyRegs [RINGCTL.STAT_RSTATE, RINGCTL.IRQ_STAT_STATE_CHG]
      { s with sent := .wake 1 :: .wake 0 :: s.sent, ring := { s.ring with quietAt := s.tick } } s.ringWake := by
  rw [State.ringWake_asleep h]
  have hwoken : OnlyRegs [RINGCTL.STAT_RSTATE, RINGCTL.IRQ_STAT_STATE_CHG] { s with sent := .wake 1 :: .wake 0 :: s.sent }
      ((({ s with sent := .wake 1 :: .wake 0 :: s.sent } : State).set RINGCTL.STAT_RSTATE 1).set RINGCTL.IRQ_STAT_STATE_CHG 1) :=
    ((OnlyRegs.refl _ _).set (by simp) _).set (by simp) _
  refine ⟨?_, ?_, rfl, hwoken.withRing _⟩
  · rw [State.get_hear, State.get_set_other (by decide), State.get_set_self]; rfl
  · rw [State.get_hear, State.get_set_self]; rfl

theorem State.pwr_ringWake (s : State) : s.ringWake.pwr = s.pwr := by
  rw [State.ringWake, State.setRstate_fields]; rfl

section
variable (hst : s.get RINGCTL.STAT_RSTATE = 5) (hlink : s.domOn .link = true)
include hst hlink

theorem exec_heldWake_run (hheld : s.on RINGCTL.STAT_HELD = true) (hentry : s.pwr.entry = none) (hrun : s.pwr.step = .run) :
    exec .heldWake s = .next s.ringWake := by
  change execHeldWake s = _
  simp only [execHeldWake, State.asleep, hst, hheld, hentry, hlink, State.pwr_ringWake, hrun, if_true]
  rfl

/-- In Hover the wake begins the exit (R167). -/
theorem exec_heldWake_hover (hheld : s.on RINGCTL.STAT_HELD = true) (hentry : s.pwr.entry = none) (hhover : s.pwr.step = .hover)
    (hexit : s.pwr.exit = none) :
    exec .heldWake s = .next { s.ringWake with pwr := { s.pwr with exit := some .hover, req := none } } := by
  change execHeldWake s = _
  simp only [execHeldWake, State.asleep, hst, hheld, hentry, hlink, State.pwr_ringWake, hhover, hexit, if_true]
  rfl

theorem exec_ringActivityWake_enabled {p : Fin 2} (hen : s.on (PORT.CTRL_EN p) = true) :
    exec (.ringActivityWake p) s = .next s.ringWake := by
  change execRingActivityWake p s = _
  rw [execRingActivityWake, hst, hlink, hen]; rfl

end

end

/-- Settles O12: each command by what it answers; the states it names are those of the announcement, its withdrawal, the sleep and
the wake. -/
theorem ringSleepCommands : Obligations.RingSleepCommands := by
  refine ⟨?announce, ?cancel, ?sleep, fun s hst hlink => ⟨exec_heldWake_run hst hlink, exec_heldWake_hover hst hlink,
      fun p hen => exec_ringActivityWake_enabled hst hlink hen⟩,
    fun v s hup => State.busDo_reached hup fun s => (s.writeFields (fun _ => true) RINGCTL.WAKE v.toNat false).wakeRing,
    fun s hst => State.ringWake_shown hst⟩
  case announce =>
    intro v s hup hst hno hlo hhi
    obtain ⟨hpend, hcyc⟩ := s.announceSleep_shown v (s.get RINGCTL.CYCNUM_CYCLE + bits v.toNat 15 0)
    exact ⟨_, exec_sleepGo_master hup hst hno hlo hhi, hpend, hcyc, rfl⟩
  case cancel =>
    intro c s hup hst hc hbefore
    have hcancel : exec .sleepCancel s = .next { s.sleepCancel with bus := .ok 0 } := State.busDo_reached hup State.sleepCancel
    rw [hcancel, State.sleepCancel_announced hst hc hbefore]; rfl
  case sleep =>
    intro c s hc hlink hst hcyc
    exact ⟨_, exec_ringSleep_due hc hlink hst hcyc, State.fallAsleep_shown (State.awake_of_formed hst)⟩

end Sys2Proof.Machine

/-! ## The cycle and the slots (07_gnourlink.md, R143, R146, R148, R149, R155) -/

namespace Sys2Proof.Machine

section
variable {s t u : State} {p : Fin 2}

/-! ### What snapshots leave alone (08_dictionary.md, R188, R189) -/

/-- The registers that show a snapshot. -/
def snapRegs (a : Nat) : Bool := a == DICTENG.STAT || a == DICTENG.IRQ_STAT

/-- Nothing differs but what a snapshot's collection may write. -/
structure SnapAlone (s t : State) : Prop where
  regs : RegsOutside snapRegs s t
  fields : t = { s with regs := t.regs, mem := t.mem, now := t.now, dict := t.dict }

theorem SnapAlone.refl (s : State) : SnapAlone s s := ⟨.refl _ s, rfl⟩

theorem SnapAlone.set (h : SnapAlone s t) (f : RF) (v : Nat) (hl : f.lo < 32 := by decide)
    (hf : snapRegs f.addr = true := by decide) : SnapAlone s (t.set f v) :=
  ⟨h.regs.set hl hf v, congrArg (fun x : State => { x with regs := (t.set f v).regs, now := (t.set f v).now }) h.fields⟩

theorem SnapAlone.dict (h : SnapAlone s t) (d : DictSt) : SnapAlone s { t with dict := d } :=
  ⟨h.regs.regs rfl, congrArg (fun x : State => { x with dict := d }) h.fields⟩

theorem SnapAlone.pokes (h : SnapAlone s t) (a : Nat) (l : List Byte) : SnapAlone s (t.pokes a l) := by
  rw [State.pokes_fields]
  exact ⟨h.regs.regs rfl, congrArg (fun x : State => { x with mem := (t.pokes a l).mem }) h.fields⟩

theorem SnapAlone.ite {c : Prop} [Decidable c] (ht : SnapAlone s t) (hu : SnapAlone s u) : SnapAlone s (if c then t else u) := by
  split <;> assumption

theorem SnapAlone.phase (h : SnapAlone s t) (k : Nat) : SnapAlone s (t.snapPhase k) := h.dict _

theorem SnapAlone.showSnap (h : SnapAlone s t) (st : Nat) : SnapAlone s (t.showSnap st) := .ite h ((h.dict _).set DICTENG.STAT_SNAP st)

theorem SnapAlone.incomplete (h : SnapAlone s t) : SnapAlone s t.snapIncomplete :=
  ((h.phase 3).showSnap 5).set DICTENG.IRQ_STAT_SNAP_INC 1

theorem SnapAlone.finish (h : SnapAlone s t) : SnapAlone s t.snapFinish :=
  .ite (((h.phase 0).showSnap 4).set DICTENG.IRQ_STAT_SNAP_DONE 1) h

theorem State.snapCollect_alone (s : State) (src : Nat) (data : List Byte) : SnapAlone s (s.snapCollect src data) :=
  .ite (.refl s) (((SnapAlone.refl s).pokes _ _).dict _).finish

theorem State.snapCycle_alone (s : State) (cyc : Nat) : SnapAlone s (s.snapCycle cyc) := by
  have h := SnapAlone.refl s
  unfold State.snapCycle
  extract_lets sn own
  split
  · exact h
  · refine .ite (.ite (((h.pokes _ _).dict _).showSnap 3).finish (h.phase 0)) ?_
    split
    · exact .ite (.ite (h.dict _).incomplete (h.dict _)) (.ite ((h.phase 2).showSnap 3) h)
    · exact h

/-! ### A boundary (R148, R155) -/

/-- CYCLE and the ring's own state as a cycle begins. -/
def State.beginCycle (s : State) (b cyc : Nat) : State :=
  let s := s.set RINGCTL.CYCNUM_CYCLE cyc
  { s with
    ring := { s.ring with
      bLast := some (b, cyc), bestKey := none, slotEn := s.on RINGCTL.SLOT_EN, slotLen := s.get RINGCTL.SLOT_LEN
      slotIdx := s.get RINGCTL.SLOT_IDX, slotPos := s.get RINGCTL.SLOT_POS, slotDone := false, tokSent := false
      stored := [], srcsPrev := s.ring.srcs, srcs := [] }
    dict := { s.dict with barrierHold := false } }

theorem State.newCycle_eq (s : State) (b cyc : Nat) : s.newCycle b cyc = ((s.beginCycle b cyc).snapCycle cyc).pulse 0x78 1 := rfl

/-- A boundary of the cycle leaves the registers but CYCLE and those that show a snapshot, and the timebase. -/
theorem State.newCycle_kept (s : State) (b cyc : Nat) :
    (∀ g : RF, g.lo < 32 → snapRegs g.addr = false → (s.newCycle b cyc).get g = (s.set RINGCTL.CYCNUM_CYCLE cyc).get g) ∧
    (s.newCycle b cyc).ring = (s.beginCycle b cyc).ring ∧ (s.newCycle b cyc).tm = s.tm ∧ (s.newCycle b cyc).sent = s.sent := by
  have hsnap := (s.beginCycle b cyc).snapCycle_alone cyc
  rw [State.newCycle_eq, State.pulse_fields]
  exact ⟨fun g hl hg => hsnap.regs g hl hg, (congrArg State.ring hsnap.fields :), (congrArg State.tm hsnap.fields :),
    (congrArg State.sent hsnap.fields :)⟩

/-! ### The Master's Cycle Start (R145 to R147, R160) -/

theorem State.sleepCancel_cases (s : State) : s.sleepCancel = s ∨ s.sleepCancel = s.withdrawSleep := by
  unfold State.sleepCancel
  split
  · exact .inl rfl
  · split
    · exact .inl rfl
    · exact .inr rfl

theorem State.get_sleepCancel_other {g : RF} (hpend : g.key ≠ RINGCTL.SLEEP_PEND.key)
    (hcancelled : g.key ≠ RINGCTL.IRQ_STAT_CANCELLED.key) (s : State) : s.sleepCancel.get g = s.get g := by
  rcases s.sleepCancel_cases with h | h <;> rw [h]
  rw [State.withdrawSleep, State.get_fields, State.get_set_other hcancelled, State.get_set_other hpend]

theorem State.sent_sleepCancel (s : State) : s.sleepCancel.sent = s.sent := by
  rcases s.sleepCancel_cases with h | h <;> rw [h]
  rfl

theorem State.showDisc_cases (s : State) : s.showDisc = s.setF RTC.STAT_DISC_ACT s.discNow ∨
    s.showDisc = (s.setF RTC.STAT_DISC_ACT s.discNow).endWindow := by
  cases h : s.discNow with
  | true => left; simp only [State.showDisc, h, if_true]
  | false => right; simp only [State.showDisc, h, Bool.false_eq_true, if_false]

theorem State.get_showDisc_other {g : RF} (hg : g.key ≠ RTC.STAT_DISC_ACT.key) (s : State) : s.showDisc.get g = s.get g := by
  rcases s.showDisc_cases with h | h <;> rw [h]
  · exact State.get_setF_other hg s _
  · exact State.get_setF_other hg s _

theorem State.get_timeRise_other {g : RF} (hvalid : g.key ≠ MTIME.STATUS_TIME_VALID.key) (hdisc : g.key ≠ RTC.STAT_DISC_ACT.key)
    (s : State) : s.timeRise.get g = s.get g := by
  rw [State.timeRise, State.get_showDisc_other hdisc, State.get_set_other hvalid, State.get_fields]

theorem State.timeValid_timeRise (s : State) : s.timeRise.get MTIME.STATUS_TIME_VALID = 1 := by
  rw [State.timeRise, State.get_showDisc_other (by decide), State.get_set_self]; rfl

theorem State.sent_timeRise (s : State) : s.timeRise.sent = s.sent := by
  unfold State.timeRise
  rcases State.showDisc_cases _ with h | h <;> rw [h] <;> rfl

theorem State.sent_setSync (s : State) (st : Nat) : (s.setSync st).sent = s.sent := ((ServoAlone.refl s).setSync st).sent

/-- A wake reason withdraws the sleep (R166). -/
def State.vetoSleep (s : State) : State := if s.wakeReason then s.sleepCancel else s

theorem State.get_vetoSleep_other {g : RF} (hpend : g.key ≠ RINGCTL.SLEEP_PEND.key)
    (hcancelled : g.key ≠ RINGCTL.IRQ_STAT_CANCELLED.key) (s : State) : s.vetoSleep.get g = s.get g := by
  unfold State.vetoSleep
  split
  · exact State.get_sleepCancel_other hpend hcancelled s
  · rfl

theorem State.sent_vetoSleep (s : State) : s.vetoSleep.sent = s.sent := by
  unfold State.vetoSleep
  split
  · exact s.sent_sleepCancel
  · rfl

/-- The Master's time is valid, a wake reason has withdrawn the sleep, and the cycle's length and window are in force. -/
def State.readyCycle (s : State) : State :=
  let u := (s.setSync 4).timeRise.vetoSleep
  (u.set RINGCTL.CYCLE_CUR_TC (u.get RINGCTL.CYCLE_TC_US)).set RINGCTL.ACYC_CUR_POS (u.get RINGCTL.ACYC_POS)

/-- The Cycle Start that a Master sends for the boundary `b` of cycle `cyc` (R146). -/
def State.ownCs (s : State) (b cyc : Nat) : CycleStart :=
  { tm := b, corr := 1024, cyc := cyc, tc := s.get RINGCTL.CYCLE_CUR_TC, acycPos := s.get RINGCTL.ACYC_CUR_POS
    master := s.get RINGCTL.ADDR_ADDR, flags := b2n s.ring.sleepT.isSome + 2 * b2n (decide (0 < s.ring.cancelLeft))
    sleepCyc := s.ring.sleepT.getD 0 }

theorem State.master_ownCs (s : State) (b cyc : Nat) : (s.ownCs b cyc).master = s.get RINGCTL.ADDR_ADDR := rfl

/-- The boundary after `b` is planned, and the Cycle Start of `b` is kept among the last four. -/
def State.planNext (s : State) (b cyc : Nat) : State :=
  { s with ring := { s.ring with
      nextB := some (b + s.get RINGCTL.CYCLE_CUR_TC * 1000, (cyc + 1) % 65536)
      sent4 := (s.ownCs b cyc :: s.ring.sent4).take 4, slotBy := s.masterPort, cancelLeft := s.ring.cancelLeft - 1 } }

/-- The Master sends its Cycle Start, and a cycle begins. -/
def State.sendCs (s : State) (b cyc : Nat) : State :=
  ((s.planNext b cyc).newCycle b cyc).emit (.cs (s.planNext b cyc).masterPort (s.ownCs b cyc))

theorem exec_cycleStartSend_due {b cyc : Nat} (hnext : s.ring.nextB = some (b, cyc)) (hst : s.get RINGCTL.STAT_RSTATE = 4)
    (hlink : s.domOn .link = true) (hdue : s.due b = true) (hsleep : s.ring.sleepT ≠ some cyc) :
    exec .cycleStartSend s = .next (s.readyCycle.sendCs b cyc) := by
  have hgo : ¬ (decide (s.get RINGCTL.STAT_RSTATE ≠ 4) || !s.domOn .link || !s.due b || s.ring.sleepT == some cyc) = true := by
    rw [hst, hlink, hdue, beq_eq_false_iff_ne.2 hsleep]; decide
  change execCycleStartSend s = _
  simp only [execCycleStartSend, hnext, if_neg hgo]
  rfl

/-- The registers that a Master may change before its Cycle Start leaves. -/
def boundaryFields : List RF :=
  [MTIME.STATUS_STATE, MTIME.STATUS_STATE_CHG, MTIME.STATUS_TIME_VALID, RTC.STAT_DISC_ACT, RINGCTL.SLEEP_PEND,
    RINGCTL.IRQ_STAT_CANCELLED, RINGCTL.CYCLE_CUR_TC, RINGCTL.ACYC_CUR_POS]

theorem State.readyCycle_regs (s : State) : RegsBut boundaryFields s s.readyCycle := by
  intro g hg
  simp only [boundaryFields, List.mem_cons, List.not_mem_nil, or_false, forall_eq_or_imp, forall_eq] at hg
  obtain ⟨hstate, hchg, hvalid, hdisc, hpend, hcancelled, htc, hpos⟩ := hg
  rw [State.readyCycle, State.get_set_other hpos, State.get_set_other htc, State.get_vetoSleep_other hpend hcancelled,
    State.get_timeRise_other hvalid hdisc, State.get_setSync_other hstate hchg]

theorem State.readyCycle_shown (s : State) :
    s.readyCycle.get MTIME.STATUS_STATE = 4 ∧ s.readyCycle.get MTIME.STATUS_TIME_VALID = 1 ∧
    s.readyCycle.get RINGCTL.CYCLE_CUR_TC = s.get RINGCTL.CYCLE_TC_US % 2 ^ 10 ∧ s.readyCycle.sent = s.sent := by
  refine ⟨?_, ?_, ?_, ?_⟩
  · simp (disch := decide) only [State.readyCycle, State.get_set_other, State.get_vetoSleep_other, State.get_timeRise_other,
      State.get_setSync_self]
  · simp (disch := decide) only [State.readyCycle, State.get_set_other, State.get_vetoSleep_other, State.timeValid_timeRise]
  · simp (disch := decide) only [State.readyCycle, State.get_set_other, State.get_set_self, State.get_vetoSleep_other,
      State.get_timeRise_other, State.get_setSync_other]
    rfl
  · rw [State.readyCycle, State.sent_set, State.sent_set, State.sent_vetoSleep, State.sent_timeRise, State.sent_setSync]

theorem State.sendCs_shown (s : State) (b cyc : Nat) :
    let t := s.sendCs b cyc
    t.get RINGCTL.CYCNUM_CYCLE = cyc % 65536 ∧
    (∀ g : RF, g.lo < 32 → snapRegs g.addr = false → g.key ≠ RINGCTL.CYCNUM_CYCLE.key → t.get g = s.get g) ∧
    t.ring.nextB = some (b + s.get RINGCTL.CYCLE_CUR_TC * 1000, (cyc + 1) % 65536) ∧ t.ring.bLast = some (b, cyc) ∧
    t.ring.tokSent = false ∧ t.ring.slotBy = s.masterPort ∧ t.sent = .cs s.masterPort (s.ownCs b cyc) :: s.sent := by
  obtain ⟨hregs, hring, -, hsent⟩ := (s.planNext b cyc).newCycle_kept b cyc
  have hport : (s.planNext b cyc).masterPort = s.masterPort := rfl
  refine ⟨?_, fun g hl hg hne => ?_, ?_, ?_, ?_, ?_, ?_⟩
  · rw [State.sendCs, State.get_emit, hregs _ (by decide) (by decide), State.get_set_self]; rfl
  · rw [State.sendCs, State.get_emit, hregs g hl hg, State.get_set_other hne, State.planNext, State.get_fields]
  all_goals rw [State.sendCs, State.emit]
  · rw [hring]; rfl
  · rw [hring]; rfl
  · rw [hring]; rfl
  · rw [hring]; rfl
  · rw [hsent, hport]; rfl

/-- What a Master's Cycle Start at its instant leaves (R145, R146). -/
theorem cycleStartSend_shown {b cyc : Nat} (hnext : s.ring.nextB = some (b, cyc)) (hst : s.get RINGCTL.STAT_RSTATE = 4)
    (hlink : s.domOn .link = true) (hdue : s.due b = true) (hsleep : s.ring.sleepT ≠ some cyc) :
    Yields .cycleStartSend s fun t =>
      t.get RINGCTL.CYCNUM_CYCLE = cyc % 65536 ∧ t.get RINGCTL.CYCLE_CUR_TC = s.get RINGCTL.CYCLE_TC_US % 2 ^ 10 ∧
      t.get MTIME.STATUS_STATE = 4 ∧ t.get MTIME.STATUS_TIME_VALID = 1 ∧
      t.ring.nextB = some (b + s.get RINGCTL.CYCLE_TC_US % 2 ^ 10 * 1000, (cyc + 1) % 65536) ∧ t.ring.bLast = some (b, cyc) ∧
      t.ring.tokSent = false ∧ t.ring.slotBy = s.masterPort ∧ ∃ f : CycleStart, t.sent = .cs s.masterPort f :: s.sent ∧
        f.tm = b ∧ f.cyc = cyc ∧ f.corr = 1024 ∧ f.master = s.get RINGCTL.ADDR_ADDR := by
  obtain ⟨hcyc, hkept, hplan, hlast, htok, hslot, hsent⟩ := s.readyCycle.sendCs_shown b cyc
  obtain ⟨hstate, hvalid, htc, hready⟩ := s.readyCycle_shown
  have hport : s.readyCycle.masterPort = s.masterPort := by
    have hlost : s.readyCycle.lost 1 = s.lost 1 := State.on_congr (s.readyCycle_regs _ (by decide))
    rw [State.masterPort, hlost, State.masterPort]
  have haddr : (s.readyCycle.ownCs b cyc).master = s.get RINGCTL.ADDR_ADDR := by
    rw [State.master_ownCs]
    exact s.readyCycle_regs _ (by decide)
  rw [hport] at hslot hsent
  rw [htc] at hplan
  rw [hready] at hsent
  rw [← hkept _ (by decide) (by decide) (by decide)] at hstate hvalid htc
  exact ⟨_, exec_cycleStartSend_due hnext hst hlink hdue hsleep, hcyc, htc, hstate, hvalid, hplan, hlast, htok, hslot,
    s.readyCycle.ownCs b cyc, hsent, rfl, rfl, rfl, haddr⟩

end

end Sys2Proof.Machine
namespace Sys2Proof.Machine

section
variable {s t u : State} {p : Fin 2}

/-! ### What a follower's servo leaves of the ring (R50 to R53) -/

/-- RSTATE, the LOST ports, the cycle received, its transmitter, the silence and Missed stay, and of outputs only falls of
MT_SYNC_OUT are added. -/
structure RingStays (s t : State) : Prop where
  rstate : t.get RINGCTL.STAT_RSTATE = s.get RINGCTL.STAT_RSTATE
  lost : ∀ q, t.lost q = s.lost q
  lastCyc : t.ring.lastCyc = s.ring.lastCyc
  slotBy : t.ring.slotBy = s.ring.slotBy
  quietAt : t.ring.quietAt = s.ring.quietAt
  missed : t.tm.missed = s.tm.missed
  sent : ∃ l, (∀ o ∈ l, o = Out.syncLow) ∧ t.sent = l ++ s.sent

namespace RingStays

theorem refl (s : State) : RingStays s s := ⟨rfl, fun _ => rfl, rfl, rfl, rfl, rfl, [], by simp, rfl⟩

theorem trans (h : RingStays s t) (k : RingStays t u) : RingStays s u := by
  obtain ⟨l, hl, hsent⟩ := h.sent
  obtain ⟨m, hm, hsent'⟩ := k.sent
  refine ⟨k.rstate.trans h.rstate, fun q => (k.lost q).trans (h.lost q), k.lastCyc.trans h.lastCyc, k.slotBy.trans h.slotBy,
    k.quietAt.trans h.quietAt, k.missed.trans h.missed, m ++ l, fun o ho => ?_, by rw [hsent', hsent, List.append_assoc]⟩
  exact (List.mem_append.1 ho).elim (hm o) (hl o)

theorem outPort (h : RingStays s t) (p : Fin 2) : t.outPort p = s.outPort p := by
  rw [State.outPort, h.lost, State.outPort]

theorem set (h : RingStays s t) (f : RF) (v : Nat) (hst : RINGCTL.STAT_RSTATE.key ≠ f.key := by decide)
    (hlost : ∀ q : Fin 2, (PORT.STAT_LOST q).key ≠ f.key := by decide) : RingStays s (t.set f v) :=
  h.trans ⟨State.get_set_other hst t v, State.lost_set_other hlost t v, rfl, rfl, rfl, rfl, [], by simp, rfl⟩

theorem ite {c : Prop} [Decidable c] (ht : RingStays s t) (hu : RingStays s u) : RingStays s (if c then t else u) := by
  split <;> assumption

theorem put (h : RingStays s t) (f : RF) (v : Nat) (hst : RINGCTL.STAT_RSTATE.key ≠ f.key := by decide)
    (hlost : ∀ q : Fin 2, (PORT.STAT_LOST q).key ≠ f.key := by decide) : RingStays s (t.put f v) :=
  h.trans ⟨State.get_put_other hst t v, fun q => State.on_congr (State.get_put_other (hlost q) t v), rfl, rfl, rfl, rfl, [], by simp,
    rfl⟩

/-- An update of the timebase's own state that leaves Missed. -/
theorem tm (h : RingStays s t) {m : TmSt} (hm : m.missed = t.tm.missed := by rfl) : RingStays s { t with tm := m } :=
  h.trans ⟨rfl, fun _ => rfl, rfl, rfl, rfl, hm, [], by simp, rfl⟩

theorem count (h : RingStays s t) (c o : RF) (hcst : RINGCTL.STAT_RSTATE.key ≠ c.key := by decide)
    (hclost : ∀ q : Fin 2, (PORT.STAT_LOST q).key ≠ c.key := by decide) (host : RINGCTL.STAT_RSTATE.key ≠ o.key := by decide)
    (holost : ∀ q : Fin 2, (PORT.STAT_LOST q).key ≠ o.key := by decide) : RingStays s (t.count c o) :=
  have noted : ∀ {v : State}, RingStays s v → RingStays s (v.noteCounted c) := fun k =>
    k.trans ⟨rfl, fun _ => rfl, rfl, rfl, rfl, rfl, [], by simp, rfl⟩
  noted (ite (h.put c _ hcst hclost) (h.put o _ host holost))

theorem endWindow (h : RingStays s t) : RingStays s t.endWindow :=
  h.trans ⟨rfl, fun _ => rfl, rfl, rfl, rfl, rfl, [], by simp, rfl⟩

theorem showDisc (h : RingStays s t) : RingStays s t.showDisc := by
  rcases t.showDisc_cases with hd | hd <;> rw [hd]
  · exact h.set _ _
  · exact (h.set _ _).endWindow

theorem setSync (h : RingStays s t) (st : Nat) : RingStays s (t.setSync st) := .ite h ((h.set _ _).set _ _)

theorem timeRise (h : RingStays s t) : RingStays s t.timeRise := showDisc (h.tm.set _ _)

/-- A pulse of MT_SYNC_OUT cut off is a fall (R61). -/
theorem syncoutCut (h : RingStays s t) : RingStays s t.syncoutCut := by
  unfold State.syncoutCut
  split
  · split
    · exact h.trans ⟨rfl, fun _ => rfl, rfl, rfl, rfl, rfl, [.syncLow], by simp, rfl⟩
    · exact h
  · exact h

theorem lanes (h : RingStays s t) (k : LanesAlone laneRegs t u) : RingStays s u := by
  refine h.trans ⟨k.regs _ (by decide) (by decide), fun q => State.on_congr (k.regs _ (by simp) ?_), ?_, ?_, ?_, ?_, [], by simp, ?_⟩
  · simp only [laneRegs, LANE.CTRL, PORT.STAT, Bool.and_eq_false_iff, decide_eq_false_iff_not]; omega
  all_goals rw [k.fields]
  rfl

theorem timeFall (h : RingStays s t) : RingStays s t.timeFall := by
  cases hv : t.timeValid with
  | false => rw [State.timeFall_invalid hv]; exact h
  | true =>
    rw [State.timeFall_valid hv]
    exact lanes ((h.set _ _).set _ _).syncoutCut.showDisc (LanesAlone.forLanes (fun n s => State.loseTime_lanes s n) _)

theorem freqHold (h : RingStays s t) : RingStays s t.freqHold := (h.set _ _).tm

theorem unseated (h : RingStays s t) : RingStays s t.unseated :=
  .ite (tm ((h.set _ _).freqHold.setSync 3) ((refl _).setSync 3).missed.symm) h

theorem callStep (h : RingStays s t) (v a : Nat) : RingStays s (t.callStep v a) := h.tm

theorem servoUpdate (h : RingStays s t) (track : Bool) (e : Int) (a : Nat) : RingStays s (t.servoUpdate track e a) :=
  ((h.set MTIME.SERVO_ERR_E _).set MTIME.SERVO_INT_I _).tm

end RingStays

/-- The path delay and the arrival of an accepted Cycle Start are noted (R49, R51). -/
def State.noteArrival (s : State) (dpath tArr : Nat) : State :=
  { s.set MTIME.PATH_DELAY_D_PATH dpath with tm := { s.tm with tLast := some tArr, missed := false } }

theorem State.servoAccept_stays (s : State) (tm dpath tArr : Nat) :
    RingStays (s.noteArrival dpath tArr) (s.servoAccept tm dpath tArr) := by
  have h := RingStays.refl (s.noteArrival dpath tArr)
  unfold State.servoAccept
  extract_lets u m v e w far
  change RingStays v _
  split
  · exact ((h.callStep _ _).set _ _).setSync 1
  · refine .ite ((h.callStep _ _).set _ _) (.ite ?_ ((h.servoUpdate _ _ _).set _ _))
    have hgood := (h.servoUpdate false e tArr).set MTIME.STATUS_GOOD_CNT
      (min ((v.servoUpdate false e tArr).get MTIME.STATUS_GOOD_CNT + 1) 64)
    exact .ite (hgood.setSync 2).timeRise hgood
  · exact .ite (h.servoUpdate _ _ _) (((h.servoUpdate _ _ _).set _ _).setSync 1).timeFall
  · exact .ite ((h.servoUpdate _ _ _).setSync 2).timeRise
      (((RingStays.ite (h.callStep _ _) (h.servoUpdate _ _ _)).set _ _).setSync 1).timeFall
  · exact h

/-! ### A Cycle Start accepted (R143, R148) -/

section
variable {f : CycleStart}

/-- The cycle's length and window as a follower takes them from a Cycle Start; a Master of old is unseated (R51). -/
def State.adoptCycle (s : State) (f : CycleStart) : State :=
  (s.unseated.set RINGCTL.CYCLE_CUR_TC f.tc).set RINGCTL.ACYC_CUR_POS f.acycPos

/-- The follower's servo takes the Cycle Start, and the registers show its Master (R49, R168). -/
def State.followMaster (s : State) (p : Fin 2) (t : Nat) (f : CycleStart) : State :=
  (((s.servoAccept f.tm (f.corr + s.linkDly p) t).set RINGCTL.MASTER_ADDR f.master).setF RINGCTL.STAT_WRAP
    (getBit f.flags 2)).clearReasons f

/-- The cycle received last, and the transmitter that its Cycle Start took (R148, R149). -/
def State.noteCs (s : State) (p : Fin 2) (f : CycleStart) : State :=
  { s with ring := { s.ring with lastCyc := some f.cyc, slotBy := s.outPort p } }

/-- A node that listens becomes a FOLLOWER (R158). -/
def State.joinRing (s : State) : State := if s.get RINGCTL.STAT_RSTATE = 1 then s.setRstate 3 else s

theorem State.acceptCs_eq (s : State) (p : Fin 2) (t : Nat) (f : CycleStart) : s.acceptCs p t f =
    ((((((s.adoptCycle f).followMaster p t f).noteCs p f).seeSleep f).slotMute
      (phaseError f.tm (f.corr + (s.adoptCycle f).linkDly p) t)).newCycle f.tm f.cyc).joinRing := rfl

theorem State.adoptCycle_stays (s : State) (f : CycleStart) : RingStays s (s.adoptCycle f) :=
  ((RingStays.refl s).unseated.set _ _).set _ _

theorem RingStays.clearReasons (h : RingStays s t) : RingStays s (t.clearReasons f) := .ite h ((h.set _ _).set _ _)

theorem State.followMaster_stays (s : State) (p : Fin 2) (t : Nat) (f : CycleStart) :
    RingStays (s.noteArrival (f.corr + s.linkDly p) t) (s.followMaster p t f) :=
  (((s.servoAccept_stays _ _ _).set _ _).set RINGCTL.STAT_WRAP _).clearReasons

theorem RingStays.seeSleep (h : RingStays s t) : RingStays s (t.seeSleep f) := by
  have hring : ∀ {v : State} {r : RingSt}, RingStays s v → r.lastCyc = v.ring.lastCyc → r.slotBy = v.ring.slotBy →
      r.quietAt = v.ring.quietAt → RingStays s { v with ring := r } := fun k hc hs hq =>
    k.trans ⟨rfl, fun _ => rfl, hc, hs, hq, rfl, [], by simp, rfl⟩
  exact .ite (hring ((h.set _ _).set _ _) rfl rfl rfl) (hring (h.set _ _) rfl rfl rfl)

theorem RingStays.slotMute (h : RingStays s t) (e : Int) : RingStays s (t.slotMute e) := by
  refine .ite (.ite (h.set _ _) ?_) (.ite h (.ite (.ite ((h.set _ _).set _ _) (h.set _ _)) (h.set _ _)))
  exact (((h.set _ _).set _ _).set _ _).count _ _

theorem State.joinRing_shown (hst : s.get RINGCTL.STAT_RSTATE ∈ [1, 3]) :
    s.joinRing.get RINGCTL.STAT_RSTATE = 3 ∧ s.joinRing.get RINGCTL.CYCNUM_CYCLE = s.get RINGCTL.CYCNUM_CYCLE ∧
    s.joinRing.ring = s.ring ∧ s.joinRing.tm = s.tm ∧ s.joinRing.sent = s.sent := by
  simp only [List.mem_cons, List.not_mem_nil, or_false] at hst
  rcases hst with h | h
  · have hchange : s.get RINGCTL.STAT_RSTATE ≠ 3 := by rw [h]; decide
    rw [State.joinRing, if_pos h]
    refine ⟨State.get_setRstate_self s (by decide), State.get_setRstate_other (by decide) (by decide) s 3, ?_, ?_, ?_⟩
    all_goals rw [State.setRstate_change hchange]; rfl
  · have hin : s.joinRing = s := if_neg (by rw [h]; decide)
    rw [hin]
    exact ⟨h, rfl, rfl, rfl, rfl⟩

/-- RSTATE, the ports and what was sent, up to the cycle that an accepted Cycle Start begins. -/
theorem State.followMaster_shown (s : State) (p : Fin 2) (a : Nat) (f : CycleStart) :
    let w := (s.adoptCycle f).followMaster p a f
    w.get RINGCTL.STAT_RSTATE = s.get RINGCTL.STAT_RSTATE ∧ w.outPort p = s.outPort p ∧ w.ring.quietAt = s.ring.quietAt ∧
    w.tm.missed = false ∧ ∃ l, (∀ o ∈ l, o = Out.syncLow) ∧ w.sent = l ++ s.sent := by
  have hadopt := s.adoptCycle_stays f
  have hfollow := (s.adoptCycle f).followMaster_stays p a f
  generalize s.adoptCycle f = v at hadopt hfollow
  have hnoted : ∀ d, (v.noteArrival d a).get RINGCTL.STAT_RSTATE = v.get RINGCTL.STAT_RSTATE ∧
      (v.noteArrival d a).outPort p = v.outPort p := fun d =>
    ⟨State.get_set_other (by decide) _ _, State.outPort_congr (fun q => State.get_set_other (by revert q; decide) _ _) p⟩
  obtain ⟨l, hl, hsent⟩ := hadopt.sent
  obtain ⟨m, hm, hsent'⟩ := hfollow.sent
  refine ⟨?_, ?_, hfollow.quietAt.trans hadopt.quietAt, hfollow.missed, m ++ l, fun o ho => ?_, ?_⟩
  · rw [hfollow.rstate, (hnoted _).1, hadopt.rstate]
  · rw [hfollow.outPort, (hnoted _).2, hadopt.outPort]
  · exact (List.mem_append.1 ho).elim (hm o) (hl o)
  · rw [hsent', List.append_assoc, ← hsent]; rfl

/-- What a follower that accepts a Cycle Start leaves (R148). -/
theorem State.acceptCs_shown (hst : s.get RINGCTL.STAT_RSTATE ∈ [1, 3]) (hcyc : f.cyc < 65536) (a : Nat) :
    let t := s.acceptCs p a f
    t.get RINGCTL.STAT_RSTATE = 3 ∧ t.get RINGCTL.CYCNUM_CYCLE = f.cyc ∧ t.ring.lastCyc = some f.cyc ∧
    t.ring.quietAt = s.ring.quietAt ∧ t.ring.bLast = some (f.tm, f.cyc) ∧ t.ring.slotBy = s.outPort p ∧ t.tm.missed = false ∧
    ∃ l, (∀ o ∈ l, o = Out.syncLow) ∧ t.sent = l ++ s.sent := by
  intro t
  obtain ⟨hrstate, hport, hquiet, hmissed, l, hl, hsent⟩ := s.followMaster_shown p a f
  have hmuted := ((RingStays.refl (((s.adoptCycle f).followMaster p a f).noteCs p f)).seeSleep (f := f)).slotMute
    (phaseError f.tm (f.corr + (s.adoptCycle f).linkDly p) a)
  have ht : t = _ := s.acceptCs_eq p a f
  rw [ht]
  generalize (s.adoptCycle f).followMaster p a f = w at hrstate hport hquiet hmissed hsent hmuted
  generalize ((w.noteCs p f).seeSleep f).slotMute _ = y at hmuted
  obtain ⟨hregs, hring, htm, hout⟩ := y.newCycle_kept f.tm f.cyc
  have hin : (y.newCycle f.tm f.cyc).get RINGCTL.STAT_RSTATE = s.get RINGCTL.STAT_RSTATE := by
    rw [hregs _ (by decide) (by decide), State.get_set_other (by decide), hmuted.rstate]
    exact hrstate
  obtain ⟨hjoined, hnum, hring', htm', hout'⟩ := State.joinRing_shown (hin ▸ hst)
  obtain ⟨m, hm, hsent'⟩ := hmuted.sent
  refine ⟨hjoined, ?_, ?_, ?_, ?_, ?_, ?_, m ++ l, fun o ho => (List.mem_append.1 ho).elim (hm o) (hl o), ?_⟩
  · rw [hnum, hregs _ (by decide) (by decide), State.get_set_self]
    exact Nat.mod_eq_of_lt hcyc
  · rw [hring', hring]; exact hmuted.lastCyc
  · rw [hring', hring]; exact hmuted.quietAt.trans hquiet
  · rw [hring', hring]; rfl
  · rw [hring', hring]; exact hmuted.slotBy.trans hport
  · rw [htm', htm]; exact hmuted.missed.trans hmissed
  · rw [hout', hout, hsent', List.append_assoc, ← hsent]; rfl

end

end

end Sys2Proof.Machine
namespace Sys2Proof.Machine

section
variable {s t u : State} {p : Fin 2}

/-! ### Cycle Starts received (R143, R148) -/

section
variable {f : CycleStart} {a : Nat} (hup : s.ringUp = true) (hears : s.hears p = true)
include hup hears

theorem exec_cycleStartReceived_bad : exec (.cycleStartReceived p a f false) s =
    .next (s.badFrame p (s.get RINGCTL.STAT_RSTATE != 4 || !s.isReturn p)) := by
  change execCycleStartReceived p a f false s = _
  rw [execCycleStartReceived, hup, hears]; rfl

theorem exec_cycleStartReceived_accepted (hst : s.get RINGCTL.STAT_RSTATE ∈ [1, 3]) (hvalid : s.linkValid p = true)
    (hnew : s.ring.lastCyc ≠ some f.cyc) :
    exec (.cycleStartReceived p a f true) s = .next ((s.hear.forwardCs p f).acceptCs p a f) := by
  simp only [List.mem_cons, List.not_mem_nil, or_false] at hst
  have hmaster : ¬ s.get RINGCTL.STAT_RSTATE = 4 := by omega
  have hclaims : ¬ s.get RINGCTL.STAT_RSTATE = 2 := by omega
  have hvalid' : s.hear.linkValid p = true := hvalid
  have hnew' : s.hear.ring.lastCyc ≠ some f.cyc := hnew
  change execCycleStartReceived p a f true s = _
  simp only [execCycleStartReceived, hup, hears, if_neg hmaster, hclaims, hvalid', beq_eq_false_iff_ne.2 hnew', Bool.not_true,
    Bool.or_self, Bool.false_eq_true, if_false, decide_false]

end

theorem cycleStartReceived_shown {f : CycleStart} (a : Nat) (hlink : s.domOn .link = true)
    (hst : s.get RINGCTL.STAT_RSTATE ∈ [1, 3]) (hlost : s.lost p = false) (hvalid : s.linkValid p = true)
    (hnew : s.ring.lastCyc ≠ some f.cyc) (hcyc : f.cyc < 65536) :
    Yields (.cycleStartReceived p a f true) s fun t =>
      t.get RINGCTL.STAT_RSTATE = 3 ∧ t.get RINGCTL.CYCNUM_CYCLE = f.cyc ∧ t.ring.lastCyc = some f.cyc ∧ t.ring.quietAt = s.tick ∧
      t.ring.bLast = some (f.tm, f.cyc) ∧ t.ring.slotBy = s.outPort p ∧ t.tm.missed = false ∧
      ∃ l, (∀ o ∈ l, o = Out.syncLow) ∧ t.sent = l ++ .cs (s.outPort p) { f with
        corr := f.corr + s.linkDly p + 1024, flags := if s.looped then f.flags ||| 4 else f.flags } :: s.sent := by
  have hruns : s.get RINGCTL.STAT_RSTATE ∈ [1, 2, 3, 4] := by
    simp only [List.mem_cons, List.not_mem_nil, or_false] at hst ⊢
    omega
  have hforwarded : (s.hear.forwardCs p f).get RINGCTL.STAT_RSTATE ∈ [1, 3] := hst
  exact ⟨_, exec_cycleStartReceived_accepted (State.ringUp_of_running hlink hruns) (State.hears_of_usable hlost) hst hvalid hnew,
    State.acceptCs_shown hforwarded hcyc a⟩

/-! ### The payload of a slot (R155) -/

theorem padTo_length (n : Nat) (l : List Byte) : (padTo n l).length = n := by
  rw [padTo, List.length_take, List.length_append, List.length_replicate]; omega

theorem State.report_kept (s : State) (r : Report) : (s.report r).ring = s.ring ∧ SameMemory s (s.report r) := by
  unfold State.report State.count
  repeat' split
  all_goals exact ⟨rfl, fun _ => rfl⟩

/-- A read by a DMA master leaves the ring's own state and the memories. -/
theorem State.dmaRead_kept (s : State) (m : Master) (a n : Nat) :
    (s.dmaRead m a n).1.ring = s.ring ∧ SameMemory s (s.dmaRead m a n).1 := by
  have hfree : ∀ u : State, u.ring = s.ring ∧ SameMemory s u → (u.freeBytes n).1.ring = s.ring ∧ SameMemory s (u.freeBytes n).1 :=
    fun _ h => h
  have hcount : ∀ c o : RF, (s.count c o).ring = s.ring ∧ SameMemory s (s.count c o) := by
    intro c o
    refine ⟨?_, fun a => State.byte_count s c o a⟩
    unfold State.count
    split <;> rfl
  unfold State.dmaRead
  split
  · exact ⟨rfl, fun _ => rfl⟩
  split
  · exact hfree _ (s.report_kept _)
  split
  · exact ⟨rfl, fun _ => rfl⟩
  split
  · exact ⟨rfl, fun _ => rfl⟩
  split
  · refine hfree _ ?_
    obtain ⟨hring, hmem⟩ := hcount MEMCTL.ECC_UNCORR_COUNT MEMCTL.ECC_UNCORR_OVF
    unfold State.sramDouble
    extract_lets u
    obtain ⟨hring', hmem'⟩ := u.report_kept ⟨1, 0x01, _, 0, 0, false⟩
    exact ⟨hring'.trans hring, fun a => (hmem' a).trans (hmem a)⟩
  · exact hcount MEMCTL.ECC_CORR_COUNT MEMCTL.ECC_CORR_OVF

theorem State.marchHolds_busy {a n : Nat} (h : s.marchHolds a n = true) : s.on MEMCTL.MT_STAT_BUSY = true := by
  simp only [State.marchHolds, Bool.and_eq_true] at h
  exact h.1.1

/-- A payload has the slot's length, and is the last one again only with nothing to send. -/
theorem State.takePayload_shown (s : State) (n : Nat) :
    (s.takePayload n).1.ring = s.ring ∧ SameMemory s (s.takePayload n).1 ∧ (s.takePayload n).2.1.length = n ∧
    ((s.takePayload n).2.2.1 = true →
      s.snapChunk n = none ∧ (s.queueHas (s.cyclicQ s.ring.slotBy) = false ∨ s.on MEMCTL.MT_STAT_BUSY = true)) := by
  unfold State.takePayload
  extract_lets q a b len
  split
  case h_1 d hchunk => exact ⟨rfl, fun _ => rfl, padTo_length n d, fun h => by cases h⟩
  case h_2 hchunk =>
    split
    case isTrue hentry =>
      obtain ⟨hring, hmem⟩ := s.dmaRead_kept .linkq b len
      exact ⟨hring, hmem, padTo_length n _, fun h => by cases h⟩
    case isFalse hnone =>
      refine ⟨rfl, fun _ => rfl, padTo_length n _, fun _ => ⟨hchunk, ?_⟩⟩
      simp only [Bool.and_eq_true, Bool.not_eq_true', not_and_or, Bool.not_eq_true, Bool.not_eq_false] at hnone
      rcases hnone with (hempty | hheld) | hheld
      · exact .inl hempty
      · exact .inr (State.marchHolds_busy hheld)
      · exact .inr (State.marchHolds_busy hheld)

/-- The payload taken for the slot of cycle `cyc`. -/
def State.fetchSlot (s : State) (cyc n : Nat) : State :=
  let u := (s.takePayload n).1
  { u with ring := { u.ring with fetched := some (s.takePayload n).2, fetchCyc := cyc } }

theorem exec_slotPayloadFetch_due {cyc at_ n : Nat} (hnext : s.nextSlot = some (cyc, at_, n)) (hup : s.ringUp = true)
    (hdue : s.due (at_ - 2000) = true) : exec .slotPayloadFetch s = .next (s.fetchSlot cyc n) := by
  change execSlotPayloadFetch s = _
  simp only [execSlotPayloadFetch, hnext, hup, hdue]
  rfl

theorem slotPayloadFetch_shown {cyc at_ n : Nat} (hnext : s.nextSlot = some (cyc, at_, n)) (hup : s.ringUp = true)
    (hdue : s.due (at_ - 2000) = true) :
    Yields .slotPayloadFetch s fun t => ∃ d stale dict q, d.length = n ∧
      t.ring = { s.ring with fetched := some (d, stale, dict, q), fetchCyc := cyc } ∧ SameMemory s t ∧
      (stale = true → s.snapChunk n = none ∧ (s.queueHas (s.cyclicQ s.ring.slotBy) = false ∨ s.on MEMCTL.MT_STAT_BUSY = true)) := by
  obtain ⟨hring, hmem, hlen, hstale⟩ := s.takePayload_shown n
  refine ⟨_, exec_slotPayloadFetch_due hnext hup hdue, (s.takePayload n).2.1, (s.takePayload n).2.2.1, (s.takePayload n).2.2.2.1,
    (s.takePayload n).2.2.2.2, hlen, ?_, hmem, hstale⟩
  rw [State.fetchSlot, hring]

/-! ### Slots sent (R149) -/

section
variable {at_ : Nat} (hat : s.slotInstant = some at_) (hallowed : s.slotAllowed = true) (hdue : s.due at_ = true)
include hat hallowed hdue

theorem exec_slotSend_collides : exec (.slotSend true) s = .next (State.count { s with ring := { s.ring with slotDone := true } }
    RINGCTL.SLOT_COLL_COUNT RINGCTL.SLOT_COLL_OVF) := by
  change execSlotSend true s = _
  simp only [execSlotSend, hat, hallowed, hdue]
  rfl

theorem exec_slotSend_fetched {x : SlotPay} (hx : s.ring.fetched = some x) (hcyc : s.ring.fetchCyc = s.get RINGCTL.CYCNUM_CYCLE) :
    exec (.slotSend false) s = .next (State.sendSlot { s with ring := { s.ring with slotDone := true } } at_ x) := by
  change execSlotSend false s = _
  have hpay : State.slotPayload { s with ring := { s.ring with slotDone := true } } (8 * s.ring.slotLen) =
      ({ s with ring := { s.ring with slotDone := true } }, x) := by
    simp only [State.slotPayload, hx, State.get_fields, if_pos hcyc]
  simp only [execSlotSend, hat, hallowed, hdue, hpay, Bool.not_true, Bool.or_self, Bool.false_eq_true, if_false]

end

/-- The flags of a slot: VETO, STALE and DICT (R149). -/
theorem getBit_slotFlags (veto stale dict : Bool) : getBit (b2n veto + 2 * b2n stale + 4 * b2n dict) 1 = stale ∧
    getBit (b2n veto + 2 * b2n stale + 4 * b2n dict) 2 = dict := by
  cases veto <;> cases stale <;> cases dict <;> decide

/-- A slot whose payload came from no queue. -/
theorem State.sendSlot_shown (s : State) (t : Nat) (d : List Byte) (stale dict : Bool) :
    let u := s.sendSlot t (d, stale, dict, none)
    u.ring.slotDone = s.ring.slotDone ∧ u.ring.fetched = none ∧ u.regs = s.regs ∧ SameMemory s u ∧
    ∃ fl, u.sent = .slot s.ring.slotBy s.ring.slotIdx (s.get RINGCTL.ADDR_ADDR) fl (padTo (8 * s.ring.slotLen) d) :: s.sent ∧
      getBit fl 1 = stale ∧ getBit fl 2 = dict :=
  ⟨rfl, rfl, rfl, fun _ => rfl, _, rfl, getBit_slotFlags _ stale dict⟩

/-! ### Slots received (R155, R166, R189) -/

/-- A slot as it goes on, its sender noted (R143). -/
def State.passSlot (s : State) (p : Fin 2) (f : SlotFrame) : State :=
  let u := if s.get RINGCTL.STAT_RSTATE == 4 && s.isReturn p then s else s.emit (.slot (s.outPort p) f.idx f.src f.flags f.data)
  { u with ring := { u.ring with srcs := f.src :: u.ring.srcs.filter (· ≠ f.src) } }

/-- What the node collects of a slot: the sender's veto of the sleep, and its slice of a snapshot. -/
def State.collectSlot (s : State) (f : SlotFrame) : State :=
  let u := if getBit f.flags 0 then s.sleepCancel else s
  if getBit f.flags 2 then u.snapCollect f.src f.data else u

/-- A slot that is subscribed and new in its cycle is stored. -/
def State.storeSlot (s : State) (p : Fin 2) (a : Nat) (f : SlotFrame) : State :=
  if !s.subscribed f.idx || s.ring.stored.contains f.idx then s
  else (State.rxStore { s with ring := { s.ring with stored := f.idx :: s.ring.stored } } (if p = 0 then 2 else 6) 0 f.src a
    (f.flags * 2 ^ 16 + f.idx * 2 ^ 8) f.data).1

theorem exec_slotReceived_good {f : SlotFrame} {a : Nat} (hup : s.ringUp = true) (hears : s.hears p = true) :
    exec (.slotReceived p f ⟨a, true⟩) s = .next (((s.passSlot p f).collectSlot f).storeSlot p a f) := by
  change execSlotReceived p f ⟨a, true⟩ s = _
  simp only [execSlotReceived, hup, hears, Bool.not_true, Bool.or_self, Bool.false_eq_true, if_false, ← apply_ite]
  rfl

theorem State.collectSlot_cases (s : State) (f : SlotFrame) :
    ∃ u, (u = s ∨ u = s.withdrawSleep) ∧ SnapAlone u (s.collectSlot f) := by
  have hcollect : ∀ u : State, SnapAlone u (if getBit f.flags 2 then u.snapCollect f.src f.data else u) :=
    fun u => .ite (u.snapCollect_alone f.src f.data) (.refl u)
  refine ⟨_, ?_, hcollect (if getBit f.flags 0 then s.sleepCancel else s)⟩
  split
  · exact s.sleepCancel_cases
  · exact .inl rfl

theorem State.subscribed_congr (h : ∀ k : Fin 4, t.get (LINKQ.SUB_SUB k) = s.get (LINKQ.SUB_SUB k)) (i : Nat) :
    t.subscribed i = s.subscribed i := by
  unfold State.subscribed State.bit
  split
  · exact congrArg (getBit · (i % 32)) (h 0)
  · exact congrArg (getBit · (i % 32)) (h 1)
  · exact congrArg (getBit · (i % 32)) (h 2)
  · exact congrArg (getBit · (i % 32)) (h 3)

/-- What a node collects of a slot leaves its subscriptions and what it stored in this cycle. -/
theorem State.collectSlot_kept (s : State) (f : SlotFrame) :
    (s.collectSlot f).subscribed f.idx = s.subscribed f.idx ∧ (s.collectSlot f).ring.stored = s.ring.stored := by
  obtain ⟨u, hu, hsnap⟩ := s.collectSlot_cases f
  have hregs : ∀ k : Fin 4, (s.collectSlot f).get (LINKQ.SUB_SUB k) = s.get (LINKQ.SUB_SUB k) := by
    intro k
    rw [hsnap.regs _ (by revert k; decide) (by revert k; decide)]
    rcases hu with rfl | rfl
    · rfl
    · rw [State.withdrawSleep, State.get_fields, State.get_set_other (by revert k; decide), State.get_set_other (by revert k; decide)]
  refine ⟨State.subscribed_congr hregs _, ?_⟩
  have hring := (congrArg State.ring hsnap.fields :)
  rw [hring]
  rcases hu with rfl | rfl
  · rfl
  · rfl

/-- A slot goes on, but on the Master's return port. -/
theorem State.passSlot_eq (s : State) (p : Fin 2) (f : SlotFrame) : s.passSlot p f = { s with
    sent := if s.get RINGCTL.STAT_RSTATE = 4 ∧ s.isReturn p = true then s.sent
      else .slot (s.outPort p) f.idx f.src f.flags f.data :: s.sent
    ring := { s.ring with srcs := f.src :: s.ring.srcs.filter (· ≠ f.src) } } := by
  by_cases hremoved : s.get RINGCTL.STAT_RSTATE = 4 ∧ s.isReturn p = true
  · have htest : (s.get RINGCTL.STAT_RSTATE == 4 && s.isReturn p) = true := by simpa using hremoved
    rw [State.passSlot, if_pos htest, if_pos hremoved]
  · have htest : ¬ (s.get RINGCTL.STAT_RSTATE == 4 && s.isReturn p) = true := by simpa using hremoved
    rw [State.passSlot, if_neg htest, if_neg hremoved]
    rfl

theorem State.storeSlot_eq {f : SlotFrame} (hsub : t.subscribed f.idx = s.subscribed f.idx) (hstored : t.ring.stored = s.ring.stored)
    (a : Nat) : t.storeSlot p a f = if s.subscribed f.idx = false ∨ f.idx ∈ s.ring.stored then t
      else (State.rxStore { t with ring := { t.ring with stored := f.idx :: s.ring.stored } } (if p = 0 then 2 else 6) 0 f.src a
        (f.flags * 2 ^ 16 + f.idx * 2 ^ 8) f.data).1 := by
  rw [State.storeSlot, hsub, hstored]
  simp only [Bool.or_eq_true, Bool.not_eq_true', List.contains_iff_mem]

theorem exec_slotReceived_shown {f : SlotFrame} {a : Nat} (hup : s.ringUp = true) (hears : s.hears p = true) :
    let u0 : State := { s with
      sent := if s.get RINGCTL.STAT_RSTATE = 4 ∧ s.isReturn p = true then s.sent
        else .slot (s.outPort p) f.idx f.src f.flags f.data :: s.sent
      ring := { s.ring with srcs := f.src :: s.ring.srcs.filter (· ≠ f.src) } }
    let u2 := u0.collectSlot f
    exec (.slotReceived p f ⟨a, true⟩) s = .next (if s.subscribed f.idx = false ∨ f.idx ∈ s.ring.stored then u2
      else (State.rxStore { u2 with ring := { u2.ring with stored := f.idx :: s.ring.stored } } (if p = 0 then 2 else 6) 0 f.src a
        (f.flags * 2 ^ 16 + f.idx * 2 ^ 8) f.data).1) := by
  intro u0 u2
  have hpass : s.passSlot p f = u0 := s.passSlot_eq p f
  obtain ⟨hsub, hstored⟩ := u0.collectSlot_kept f
  rw [exec_slotReceived_good hup hears, hpass, State.storeSlot_eq hsub hstored]
  rfl

end

/-- Settles O9: each command's effect is the lemma on it. -/
theorem ringCycleAndSlots : Obligations.RingCycleAndSlots := by
  unfold Obligations.RingCycleAndSlots
  refine ⟨?sent, ?accepted, ?bad, ?fetched, ?collides, ?slotSent, ?slotReceived⟩
  case sent =>
    intro b cyc s hnext hst hlink hdue hsleep
    exact cycleStartSend_shown hnext hst hlink hdue hsleep
  case accepted =>
    intro p a f s hlink hst hlost hvalid hnew hcyc
    exact cycleStartReceived_shown a hlink hst hlost hvalid hnew hcyc
  case bad =>
    intro p a f s hlink hst hlost
    rw [exec_cycleStartReceived_bad (State.ringUp_of_running hlink hst) (State.hears_of_usable hlost)]
    refine ⟨fun hpasses => ?_, fun hmaster hreturn => ?_⟩
    · have htest : (s.get RINGCTL.STAT_RSTATE != 4 || !s.isReturn p) = true := by simpa using hpasses
      rw [htest, State.badFrame_forwarded]
    · rw [hmaster, hreturn]
      rfl
  case fetched =>
    intro cyc at_ n s hnext hup hdue
    exact slotPayloadFetch_shown hnext hup hdue
  case collides =>
    intro at_ s hat hallowed hdue
    exact exec_slotSend_collides hat hallowed hdue
  case slotSent =>
    intro at_ d stale dict s hat hallowed hdue hx hcyc
    exact ⟨_, exec_slotSend_fetched hat hallowed hdue hx hcyc, State.sendSlot_shown _ at_ d stale dict⟩
  case slotReceived =>
    intro p a f s hlink hst hlost
    exact exec_slotReceived_shown (State.ringUp_of_running hlink hst) (State.hears_of_usable hlost)

end Sys2Proof.Machine

/-! ## Dictionary requests (08_dictionary.md, R172 to R176) -/

namespace Sys2Proof.Machine

section
variable {s₀ t : State} {m : DictMsg} {op : Nat} {run : State → State}

/-! ### A request is taken (R172 to R175) -/

/-- The state once the bad messages that have waited are answered (R174, R176). -/
abbrev State.served (s₀ : State) : State := s₀.serveBad s₀.dict.reqs.length

/-- An engine that serves and is not busy takes the request, and goes on from `t`. -/
structure State.TakesReq (s₀ : State) (op : Nat) (m : DictMsg) (t : State) : Prop where
  serves : s₀.served.dictServes = true
  idle : s₀.served.dictBusy = false
  taken : s₀.served.takeReq op m = some t

/-- The message is for another node (R175). -/
def forOther (m : DictMsg) : Bool := hasNode m.via && decide (1 ≤ m.node.toNat ∧ m.node.toNat ≤ 126) && !m.rsv

theorem State.TakesReq.request_eq (h : s₀.TakesReq op m t) (run : State → State) : State.request op m run s₀ =
    if forOther m then .next (t.forward op m)
    else if msgAbort op m ≠ 0 then .next (t.answer op m (msgAbort op m) [])
    else if !t.domOn .link && 3 < op then .next (t.answer op m Abort.badOp [])
    else .next (run (t.toAll op m)) := by
  simp only [State.request, h.serves, h.idle, h.taken, Bool.not_true, Bool.false_eq_true, if_false]
  rfl

theorem State.toAll_one (h : hasNode m.via = false ∨ m.node ≠ 127) (t : State) (op : Nat) : t.toAll op m = t := by
  rw [State.toAll]
  refine if_pos ?_
  rcases h with hnode | hone
  · rw [hnode]; rfl
  · rw [beq_false_of_ne hone, Bool.and_false]; rfl

theorem forOther_zero (h : hasNode m.via = false ∨ m.node = 0) : forOther m = false := by
  rw [forOther]
  rcases h with hnode | hzero
  · rw [hnode]; rfl
  · rw [hzero]; exact Bool.and_eq_false_imp.2 fun hnode => absurd (Bool.and_eq_true_iff.1 hnode).2 (by decide)

/-- A well-formed request for this node alone is handled. -/
theorem State.TakesReq.handled (h : s₀.TakesReq op m t) (hlink : t.domOn .link = true) (hhere : hasNode m.via = false ∨ m.node = 0)
    (hok : msgAbort op m = 0) : State.request op m run s₀ = .next (run t) := by
  have hone : hasNode m.via = false ∨ m.node ≠ 127 := hhere.imp_right fun hzero => by rw [hzero]; decide
  rw [h.request_eq, forOther_zero hhere, hok, hlink, State.toAll_one hone]
  rfl

theorem State.TakesReq.forwarded (h : s₀.TakesReq op m t) (hnode : hasNode m.via = true) (hlo : 1 ≤ m.node.toNat)
    (hhi : m.node.toNat ≤ 126) (hrsv : m.rsv = false) : State.request op m run s₀ = .next (t.forward op m) := by
  have hon : forOther m = true := by rw [forOther, hnode, hrsv, decide_eq_true ⟨hlo, hhi⟩]; rfl
  rw [h.request_eq, if_pos hon]

/-- A reserved field that is not 0. -/
theorem State.TakesReq.badField (h : s₀.TakesReq op m t) (hrsv : m.rsv = true) :
    State.request op m run s₀ = .next (t.answer op m 0x11 []) := by
  have hstay : forOther m = false := by rw [forOther, hrsv, Bool.not_true, Bool.and_false]
  have habort : msgAbort op m = 0x11 := if_pos hrsv
  rw [h.request_eq, hstay, habort]
  rfl

theorem State.request_held (hserves : s₀.served.dictServes = true)
    (hwait : s₀.served.dictBusy = true ∨ s₀.served.takeReq op m = none) :
    State.request op m run s₀ = .next (s₀.served.holdReq op m) := by
  rw [State.request, hserves]
  cases hbusy : s₀.served.dictBusy with
  | true => rfl
  | false =>
    have hnone := hwait.resolve_left (by rw [hbusy]; decide)
    rw [Bool.not_true, if_neg Bool.false_ne_true, if_neg Bool.false_ne_true, hnone]

/-- A well-formed BARRIER to every node (R191). -/
theorem State.TakesReq.barrier (h : s₀.TakesReq 0x30 m t) (hlink : t.domOn .link = true) (hnode : hasNode m.via = true)
    (hall : m.node = 127) (hok : msgAbort 0x30 m = 0) : State.request 0x30 m (State.dictBarrier m) s₀ =
      .next { t.sendNumbered (t.requestFrame 0x30 m) with
        dict := { (t.sendNumbered (t.requestFrame 0x30 m)).dict with
          barrier := some ⟨0x30, m⟩, barrierHold := true, barrierId := t.dict.nextId } } := by
  have hstay : forOther m = false := by rw [forOther, hall]; simp
  have hsent : t.toAll 0x30 m = { t.sendNumbered (t.requestFrame 0x30 m) with
      dict := { (t.sendNumbered (t.requestFrame 0x30 m)).dict with barrierId := t.dict.nextId } } := by
    rw [State.toAll, hnode, hall, hlink]; rfl
  rw [h.request_eq, hstay, hok, hlink, hsent, State.dictBarrier, hnode]
  rfl

/-! ### Whose turn it is (R174) -/

/-- The first of a rising list at which something is found. -/
theorem findSome?_of_rising {α : Type} {f : Nat → Option α} {x : α} {l : List Nat} (hl : l.Pairwise (· < ·))
    (h : l.findSome? f = some x) : ∃ k ∈ l, f k = some x ∧ ∀ j ∈ l, j < k → f j = none := by
  induction l with
  | nil => cases h
  | cons a l ih =>
    obtain ⟨habove, hl⟩ := List.pairwise_cons.1 hl
    cases ha : f a with
    | some y =>
      rw [List.findSome?_cons, ha] at h
      refine ⟨a, List.mem_cons_self .., ha.trans h, fun j hj hlt => ?_⟩
      rcases List.mem_cons.1 hj with rfl | hj
      · exact absurd hlt (lt_irrefl _)
      · exact absurd hlt (habove j hj).not_gt
    | none =>
      rw [List.findSome?_cons, ha] at h
      obtain ⟨k, hk, hfk, hbefore⟩ := ih hl h
      refine ⟨k, List.mem_cons_of_mem _ hk, hfk, fun j hj hlt => ?_⟩
      rcases List.mem_cons.1 hj with rfl | hj
      · exact ha
      · exact hbefore j hj hlt

theorem mem_turns {k : Nat} : k ∈ [1, 2, 3, 4, 5] ↔ 1 ≤ k ∧ k ≤ 5 := by
  simp only [List.mem_cons, List.not_mem_nil, or_false]; omega

theorem State.nextReq_turn {s : State} {r : DictReq} (h : s.nextReq = some r) :
    ∃ k, 1 ≤ k ∧ k ≤ 5 ∧ transport r.via = (s.dict.turn + k) % 5 ∧
      ∀ r' ∈ s.dict.reqs, ∀ j, 1 ≤ j → j < k → transport r'.via ≠ (s.dict.turn + j) % 5 := by
  obtain ⟨k, hk, hfound, hbefore⟩ := findSome?_of_rising (by decide) h
  obtain ⟨hlo, hhi⟩ := mem_turns.1 hk
  have hours := List.find?_some (p := fun r : DictReq => transport r.via == (s.dict.turn + k) % 5) hfound
  refine ⟨k, hlo, hhi, beq_iff_eq.1 hours, fun r' hr' j hj hjk hturn => ?_⟩
  have hnone := List.find?_eq_none.1 (hbefore j (mem_turns.2 ⟨hj, by omega⟩) hjk) r' hr'
  exact hnone (beq_iff_eq.2 hturn)

/-! ### Answers (R172 to R174, R176) -/

/-- The registers that count requests and refusals. -/
def requestCounters : List RF := [DICTENG.REQ_CNT_COUNT, DICTENG.REQ_CNT_OVF, DICTENG.ABORT_CNT_COUNT, DICTENG.ABORT_CNT_OVF]

/-- A request is counted as executed, and as refused where it is. -/
def State.countReq (s : State) (status : Nat) : State :=
  let s := s.count DICTENG.REQ_CNT_COUNT DICTENG.REQ_CNT_OVF
  if status = 0 then s else s.count DICTENG.ABORT_CNT_COUNT DICTENG.ABORT_CNT_OVF

theorem State.countReq_only (s : State) (status : Nat) : OnlyRegs requestCounters s (s.countReq status) := by
  have hcounted : OnlyRegs requestCounters s (s.count DICTENG.REQ_CNT_COUNT DICTENG.REQ_CNT_OVF) :=
    (OnlyRegs.refl _ s).count (by simp [requestCounters]) (by simp [requestCounters])
  unfold State.countReq
  split
  · exact hcounted
  · exact hcounted.count (by simp [requestCounters]) (by simp [requestCounters])

theorem State.answer_eq (s : State) (op : Nat) (m : DictMsg) (status : Nat) (data : List Byte) : s.answer op m status data =
    State.sendBack { s.countReq status with abort := status } m.via
      (respMsg op m.tid.toNat status m.aux.toNat m.index.toNat m.sub.toNat (if status = 0 then data else [])) := rfl

theorem State.countReq_kept (s : State) (status : Nat) : (s.countReq status).sent = s.sent ∧ (s.countReq status).dict = s.dict := by
  obtain ⟨-, -, hfields⟩ := s.countReq_only status
  rw [hfields]
  exact ⟨rfl, rfl⟩

theorem State.answer_ring {src : Nat} {u : Option Nat} (hvia : m.via = .ring src u) (s : State) (op status : Nat) (data : List Byte) :
    let t := s.answer op m status data
    t.abort = status ∧
    t.sent = .resp m.via (respMsg op m.tid.toNat status m.aux.toNat m.index.toNat m.sub.toNat (if status = 0 then data else [])) :: s.sent ∧
    t.dict.out.length = s.dict.out.length + 1 ∧ SameMemory s t ∧ RegsBut requestCounters s t := by
  obtain ⟨hsent, hdict⟩ := s.countReq_kept status
  obtain ⟨hregs, hmem, -⟩ := s.countReq_only status
  intro t
  simp only [show t = _ from s.answer_eq op m status data, hvia]
  refine ⟨rfl, congrArg _ hsent, ?_, hmem, hregs⟩
  change ((s.countReq status).dict.out ++ _).length = _
  rw [hdict, List.length_append, List.length_singleton]

theorem State.answer_bcast {src : Nat} (hvia : m.via = .bcast src) (s : State) (op status : Nat) (data : List Byte) :
    let t := s.answer op m status data
    t.abort = status ∧ t.sent = s.sent ∧ t.dict.out = s.dict.out := by
  obtain ⟨hsent, hdict⟩ := s.countReq_kept status
  intro t
  simp only [show t = _ from s.answer_eq op m status data, hvia]
  exact ⟨rfl, hsent, congrArg DictSt.out hdict⟩

/-! ### A response's bytes (R172) -/

theorem leNat_byte (n : Nat) : leNat [BitVec.ofNat 8 n] = n % 256 := by
  rw [leNat, leNat, BitVec.toNat_ofNat, Nat.mul_zero, Nat.add_zero]

theorem respMsg_shown (op tid status aux index sub : Nat) {data : List Byte} (hlen : data.length < 65536) :
    let l := respMsg op tid status aux index sub data
    l.length = 12 + data.length ∧ msgOp l = op % 128 + 128 ∧ field l 1 1 = tid % 256 ∧ field l 3 1 = status % 256 ∧
    field l 10 2 = data.length ∧ l.drop 12 = data := by
  refine ⟨?_, ?_, leNat_byte tid, leNat_byte status, ?_, rfl⟩
  · simp only [respMsg, leBytes, List.length_append, List.length_cons, List.length_nil]
  · have hop : msgOp (respMsg op tid status aux index sub data) = (op % 128 + 128) % 256 := leNat_byte _
    omega
  · have hfield : field (respMsg op tid status aux index sub data) 10 2 = field (leBytes 2 data.length ++ data) 0 2 := rfl
    rw [hfield, field_leBytes_append hlen]

end

/-- Settles O24: a request by the ways in which it is taken, an answer by what it counts and sends. -/
theorem dictionaryRequests : Obligations.DictionaryRequests := by
  unfold Obligations.DictionaryRequests
  refine ⟨?handled, ?forwarded, ?badField, ?held, ?barrier, ?second, ?turn, ?ring, ?bcast, ?bytes⟩
  case handled =>
    intro m s₀ t s hserves hidle hlink hhere
    have handled {op : Nat} {run : State → State} (htaken : s.takeReq op m = some t) (hok : msgAbort op m = 0) :
        State.request op m run s₀ = .next (run t) := State.TakesReq.handled ⟨hserves, hidle, htaken⟩ hlink hhere hok
    exact ⟨handled, handled, handled, handled, handled, handled, handled, handled⟩
  case forwarded =>
    intro m s₀ t s hserves hidle hnode hlo hhi hrsv
    have forwarded {op : Nat} {run : State → State} (htaken : s.takeReq op m = some t) :
        State.request op m run s₀ = .next (t.forward op m) := State.TakesReq.forwarded ⟨hserves, hidle, htaken⟩ hnode hlo hhi hrsv
    exact ⟨forwarded, forwarded⟩
  case badField =>
    intro m s₀ t s hserves hidle hrsv
    have refused {op : Nat} {run : State → State} (htaken : s.takeReq op m = some t) :
        State.request op m run s₀ = .next (t.answer op m 0x11 []) := State.TakesReq.badField ⟨hserves, hidle, htaken⟩ hrsv
    exact ⟨refused, refused⟩
  case held =>
    intro m s₀ s hserves hwait
    exact State.request_held hserves hwait
  case barrier =>
    intro m s₀ t s hserves hidle hlink hnode hall hfree htaken hok
    change execBarrier m s₀ = _
    rw [execBarrier, hfree, Option.isSome_none, Bool.and_false, if_neg Bool.false_ne_true]
    exact State.TakesReq.barrier ⟨hserves, hidle, htaken⟩ hlink hnode hall hok
  case second =>
    intro m s hnode hfirst
    change execBarrier m s = _
    rw [execBarrier, hnode, Option.isSome_iff_ne_none.2 hfirst]
    rfl
  case turn =>
    intro r s hnext
    exact State.nextReq_turn hnext
  case ring =>
    intro op status m data src u s hvia
    exact State.answer_ring hvia s op status data
  case bcast =>
    intro op status m data src s hvia
    exact State.answer_bcast hvia s op status data
  case bytes =>
    intro op tid status aux index sub data hlen
    exact respMsg_shown op tid status aux index sub hlen

end Sys2Proof.Machine

/-! ## Objects read, described and written; requests that others end (08_dictionary.md, R169, R170, R173 to R178) -/

namespace Sys2Proof.Machine

section
variable {s t : State} {m : DictMsg} {o : Obj} {op i sub : Nat}

/-! ### The object that a request names (R170, R177) -/

/-- An index below or above the application's. -/
theorem State.notApp (happ : isApp i = false) : (isApp i && !s.boot.recovery && s.lifeCycle != 4) = false := by
  rw [happ]; rfl

theorem State.withObject_missing {c : Nat} (happ : isApp m.index.toNat = false)
    (hobj : s.lookup m.index.toNat m.sub.toNat = .error c) (op : Nat) (run : Obj → State) :
    s.withObject op m run = s.answer op m c [] := by
  rw [State.withObject, State.notApp happ, if_neg Bool.false_ne_true, hobj]

theorem State.withObject_found (happ : isApp m.index.toNat = false) (hobj : s.lookup m.index.toNat m.sub.toNat = .ok o) (op : Nat)
    (run : Obj → State) : s.withObject op m run = run o := by
  rw [State.withObject, State.notApp happ, if_neg Bool.false_ne_true, hobj]

theorem State.objAt_of_lookup (h : s.lookup i sub = .ok o) : objAt i sub = some o := by
  unfold State.lookup at h
  split at h
  · cases h
  split at h
  · cases h
  split at h
  · cases h
  split at h
  · cases h
  next hat =>
    split at h
    · cases h
    · cases h; exact hat

/-- The index is none of those listed. -/
theorem index_ne {x : BitVec 16} {l : List (BitVec 16)} (h : x ∉ l) : ∀ y ∈ l, x.toNat ≠ y.toNat :=
  fun _ hy he => h (BitVec.eq_of_toNat_eq he ▸ hy)

/-! ### READ and DESCRIBE (R170, R173) -/

section
variable (happ : isApp m.index.toNat = false) (hobj : s.lookup m.index.toNat m.sub.toNat = .ok o)
include happ hobj

theorem State.dictRead_found : s.dictRead m =
    if o.acc = .wo then s.answer 1 m Abort.writeOnly []
    else if s.domainOff m.index.toNat then s.answer 1 m Abort.domainOff []
    else (s.objRead m.index.toNat m.sub.toNat).2.2.answer 1 m (s.objRead m.index.toNat m.sub.toNat).1
      (s.objRead m.index.toNat m.sub.toNat).2.1 := by
  rw [State.dictRead, State.withObject_found happ hobj]

theorem State.dictDescribe_found : s.dictDescribe m = s.answer 3 m 0 (descBytes o m.index.toNat m.sub.toNat) := by
  rw [State.dictDescribe, State.withObject_found happ hobj]

/-! ### WRITE (R170, R173, R176) -/

theorem State.dictWrite_refused {ok : Bool} (hc : s.writeAbort o m.index.toNat m.sub.toNat m.data ≠ 0) :
    s.dictWrite m ok = s.answer 2 m (s.writeAbort o m.index.toNat m.sub.toNat m.data) [] := by
  rw [State.dictWrite, State.withObject_found happ hobj]
  exact if_pos hc

/-- A WRITE of a value that passes its checks is answered with the status of its effect. -/
theorem State.dictWrite_done {ok : Bool} {c : Nat} (hc : s.writeAbort o m.index.toNat m.sub.toNat m.data = 0)
    (hdone : s.objWrite m.via m.tid.toNat m.index.toNat m.sub.toNat m.data ok = (some c, t)) :
    s.dictWrite m ok = t.answer 2 m c [] := by
  rw [State.dictWrite, State.withObject_found happ hobj]
  simp only [hc, hdone, ne_eq, not_true, if_false]

/-- A WRITE whose response waits (R287). -/
theorem State.dictWrite_waits {ok : Bool} (hc : s.writeAbort o m.index.toNat m.sub.toNat m.data = 0)
    (hwait : s.objWrite m.via m.tid.toNat m.index.toNat m.sub.toNat m.data ok = (none, t)) : s.dictWrite m ok = t := by
  rw [State.dictWrite, State.withObject_found happ hobj]
  simp only [hc, hwait, ne_eq, not_true, if_false]

end

/-- Objects whose value another block gives as it is read. -/
theorem State.objRead_plain (h : i ∉ [0x5001, 0x7010, 0x7030, 0x7040]) : s.objRead i sub = (0, s.objVal i sub, s) := by
  simp only [List.mem_cons, List.not_mem_nil, or_false, not_or] at h
  obtain ⟨hkey, hatt, hdebug, hlog⟩ := h
  rw [State.objRead, if_neg (fun hsel => hdebug hsel.1), if_neg]
  rintro (⟨hi, -⟩ | ⟨hi, -⟩ | ⟨hi, -⟩)
  · exact hatt hi
  · exact hkey hi
  · exact hlog hi

theorem State.writeAbort_readOnly (hacc : o.acc = .ro) (hflags : flagsObj i sub = false) (d : List Byte) :
    s.writeAbort o i sub d = 0x03 := by
  rw [State.writeAbort, if_pos ⟨hacc, by rw [hflags]; rfl⟩]

theorem State.writeAbort_needsCommit (hacc : o.acc = .rwc) (d : List Byte) : s.writeAbort o i sub d = 0x08 := by
  rw [State.writeAbort, if_neg (by simp [hacc]), if_pos hacc]

theorem State.writeAbort_badLength (hacc : o.acc = .rw) (hscalar : o.typ.scalar = true) (hdom : s.domainOff i = false) {d : List Byte}
    (hlen : d.length ≠ o.typ.size) : s.writeAbort o i sub d = 0x05 := by
  have hval : valueAbort o i sub d = 0x05 := by rw [valueAbort, if_pos hscalar, if_neg hlen]
  rw [State.writeAbort, if_neg (by simp [hacc]), if_neg (by simp [hacc]), hdom, hval]
  rfl

/-- The one object of a lane that takes bytes of a bank is no scalar (R81). -/
theorem notScalar_bankData (hi : 0x2000 ≤ i ∧ i < 0x2A00) (hg : i % 0x100 = 0x40) (hobj : objAt i 2 = some o) :
    o.typ.scalar = false := by
  have hlane : objectsAt i = laneObjects (i % 0x100) := if_pos hi
  rw [objAt, hlane, hg] at hobj
  obtain rfl : (⟨.blob 256, .wo⟩ : Obj) = o := Option.some.inj hobj
  rfl

/-- A scalar that is not one of the objects with an effect of their own takes its value. -/
theorem State.objWrite_scalar {via : Via} {tid : Nat} {d : List Byte} {ok : Bool} (hobj : objAt i sub = some o)
    (hscalar : o.typ.scalar = true) (hlow : low40 i sub = false) (h : i ∉ [0x1010, 0x7010, 0x7020, 0x7030, 0x7050, 0x7051]) :
    s.objWrite via tid i sub d ok = (some 0, s.setObj i sub (leNat d)) := by
  have hbank : ¬ (0x2000 ≤ i ∧ i < 0x2A00 ∧ i % 0x100 = 0x40 ∧ sub = 2) := by
    rintro ⟨hlo, hhi, hg, rfl⟩
    rw [notScalar_bankData ⟨hlo, hhi⟩ hg hobj] at hscalar
    cases hscalar
  unfold State.objWrite
  split
  case h_10 => rw [if_neg hbank, hlow, if_neg Bool.false_ne_true]
  all_goals simp at h

/-! ### Requests to the application's objects (R178) -/

/-- A request is shown to firmware. -/
def State.showApp (s : State) (op : Nat) (m : DictMsg) : State :=
  ((((((s.set DICTENG.APP_REQ_OP op).set DICTENG.APP_REQ_SUB m.sub.toNat).set DICTENG.APP_REQ_INDEX m.index.toNat).set
    DICTENG.APP_LEN_LEN m.data.length).set DICTENG.STAT_APP_PEND 1).set DICTENG.STAT_BUSY 1).set DICTENG.IRQ_STAT_APP_REQ 1

theorem State.toApp_enabled (hen : s.on DICTENG.APP_CFG_EN = true) (op : Nat) (m : DictMsg) : s.toApp op m =
    let u := (s.pokes (s.get DICTENG.APP_BUF_BUF * 4) m.data).showApp op m
    { u with dict := { u.dict with app := some ⟨op, m⟩, appAt := s.tick } } := by
  rw [State.toApp, hen, Bool.not_true, if_neg Bool.false_ne_true]
  rw [State.pokes_fields]
  rfl

theorem State.showApp_shown (s : State) (op : Nat) (m : DictMsg) :
    (s.showApp op m).get DICTENG.APP_REQ_OP = op % 128 ∧ (s.showApp op m).get DICTENG.APP_REQ_INDEX = m.index.toNat ∧
    (s.showApp op m).get DICTENG.APP_REQ_SUB = m.sub.toNat ∧ (s.showApp op m).get DICTENG.STAT_APP_PEND = 1 ∧
    (s.showApp op m).get DICTENG.STAT_BUSY = 1 ∧ (s.showApp op m).get DICTENG.IRQ_STAT_APP_REQ = 1 := by
  have hindex : m.index.toNat % 65536 = m.index.toNat := Nat.mod_eq_of_lt m.index.isLt
  have hsub : m.sub.toNat % 256 = m.sub.toNat := Nat.mod_eq_of_lt m.sub.isLt
  simp [State.showApp, State.get_set, RF.key, RF.bound, DICTENG.APP_REQ, DICTENG.APP_LEN, DICTENG.STAT, DICTENG.IRQ_STAT, hindex, hsub]

theorem State.toApp_shown (hen : s.on DICTENG.APP_CFG_EN = true) (op : Nat) (m : DictMsg) :
    let t := s.toApp op m
    t.dict.app = some ⟨op, m⟩ ∧ t.get DICTENG.APP_REQ_OP = op % 128 ∧ t.get DICTENG.APP_REQ_INDEX = m.index.toNat ∧
    t.get DICTENG.APP_REQ_SUB = m.sub.toNat ∧ t.get DICTENG.STAT_APP_PEND = 1 ∧ t.get DICTENG.STAT_BUSY = 1 ∧
    t.get DICTENG.IRQ_STAT_APP_REQ = 1 ∧ t.dict.appAt = s.tick ∧ MemoryBut (s.get DICTENG.APP_BUF_BUF * 4) m.data.length s t := by
  obtain ⟨hop, hindex, hsub, hpend, hbusy, hirq⟩ := (s.pokes (s.get DICTENG.APP_BUF_BUF * 4) m.data).showApp_shown op m
  intro t
  rw [show t = _ from State.toApp_enabled hen op m]
  exact ⟨rfl, hop, hindex, hsub, hpend, hbusy, hirq, rfl, fun a ha => State.byte_pokes_other _ _ ha⟩

theorem exec_appResponse_held {r : HeldReq} (v : Word) (hup : s.accessible DICTENG.APP_RESP = true) (happ : s.dict.app = some r) :
    let u := s.writeFields (fun f => f.acc == .rw) DICTENG.APP_RESP v.toNat false
    exec (.appResponse v) s = .next { u.endApp r (u.get DICTENG.APP_RESP_STATUS)
      (s.bytes (u.get DICTENG.APP_BUF_BUF * 4) (u.get DICTENG.APP_RESP_LEN)) with bus := .ok 0 } := by
  intro u
  obtain ⟨-, hmem, hfields⟩ := s.writeFields_frame (fun f => f.acc == .rw) DICTENG.APP_RESP v.toNat false
  have heldApp : u.dict.app = some r := (congrArg (fun x : State => x.dict.app) hfields).trans happ
  have hbytes : ∀ a n, u.bytes a n = s.bytes a n := fun a n => State.bytes_eq_of_byte fun i _ => hmem (a + i)
  change execAppResponse v s = _
  rw [execAppResponse, State.busDo_reached hup]
  simp only [← hbytes, heldApp, u]

theorem exec_appTimeout_due {r : HeldReq} (happ : s.dict.app = some r) (hlink : s.domOn .link = true)
    (hdue : s.dict.appAt + 250 * s.get DICTENG.APP_CFG_TIMEOUT ≤ s.tick) :
    exec .appTimeout s = .next ((s.count DICTENG.APP_TO_CNT_COUNT DICTENG.APP_TO_CNT_OVF).endApp r 0x15 []) := by
  change execAppTimeout s = _
  simp only [execAppTimeout, happ, hlink, not_lt.2 hdue, Bool.not_true, decide_false, Bool.or_self, Bool.false_eq_true, if_false]

/-! ### Requests that a timeout ends (R41, R175) -/

theorem exec_requestForwardTimeout_due {f : FwdReq} {rest : List FwdReq} (hfwd : s.dict.fwd = f :: rest)
    (hdue : f.tick + 1000 * s.get RINGCTL.CYCLE_CUR_TC ≤ s.tick) : exec .requestForwardTimeout s =
      .next (State.endReq { s with dict := { s.dict with fwd := rest } } f.req 0x14) := by
  change execRequestForwardTimeout s = _
  rw [execRequestForwardTimeout, hfwd]
  exact if_neg (not_lt.2 hdue)

theorem exec_dictengVaultTimeout_due {r : DictReq} (hvault : s.dict.vault = some r)
    (hdue : s.dict.vaultAt + s.fastTicks 4096 ≤ s.tick) : exec .dictengVaultTimeout s =
      .next ((State.set { s with dict := { s.dict with vault := none, reqs := s.dict.reqs.erase r } }
        DICTENG.STAT_BUSY 0).answer (msgOp r.msg) (msgOf r.via r.msg) 0x0A []) := by
  change execDictengVaultTimeout s = _
  have hover : s.dict.vault.filter (fun _ => decide (s.dict.vaultAt + s.fastTicks 4096 ≤ s.tick)) = some r := by
    rw [hvault, decide_eq_true hdue]; rfl
  rw [execDictengVaultTimeout, hover]

/-! ### Local requests (R174, R254, R263) -/

theorem exec_locGo_free (hup : s.accessible DICTENG.LOC_CTRL = true) (hidle : s.on DICTENG.STAT_LOC_BUSY = false) :
    let u := s.set DICTENG.STAT_LOC_BUSY 1
    exec .locGo s = .next { (if u.marchHolds (s.get DICTENG.LOC_BUF_BUF * 4) 512 then
      { u with march := { u.march with waiting := u.march.waiting ++ [.loc] } } else u.locRead) with bus := .ok 0 } := by
  intro u
  have hbuf : u.get DICTENG.LOC_BUF_BUF = s.get DICTENG.LOC_BUF_BUF := State.get_set_other (by decide) s 1
  change execLocGo s = _
  rw [execLocGo, State.busDo_reached hup, hidle, if_neg Bool.false_ne_true, ← hbuf]

/-- A read of system SRAM that shows no error at its first word. -/
theorem State.dmaRead_clean {mst : Master} {a n : Nat} (hin : inSram a n = true) (hnone : Config.dmaError s.tick a = none) :
    s.dmaRead mst a n = (s, s.bytes a n) := by
  rw [State.dmaRead]
  split
  next hzero => rw [hzero]; rfl
  next => rw [hin, Bool.not_true, if_neg Bool.false_ne_true, hnone]

theorem inSram_part {a n k l : Nat} (hin : inSram a n = true) (hpart : k + l ≤ n) : inSram (a + k) l = true := by
  simp only [inSram, Bool.and_eq_true, decide_eq_true_eq] at hin ⊢
  omega

/-- The message read where neither the header nor the data shows an error. -/
theorem State.locRead_clean {a : Nat} (hbuf : s.get DICTENG.LOC_BUF_BUF * 4 = a) (hin : inSram a 512 = true)
    (hhead : Config.dmaError s.tick a = none) (hdata : Config.dmaError s.tick (a + 12) = none) :
    let l := s.bytes a 12 ++ s.bytes (a + 12) (min 500 (field (s.bytes a 12) 10 2))
    s.locRead = State.acceptReq { s with dict := { s.dict with loc := some (field l 1 1) } } .loc l := by
  have hfirst := State.dmaRead_clean (mst := .dict) (inSram_part (k := 0) (l := 12) hin (by omega)) hhead
  have hrest := State.dmaRead_clean (mst := .dict) (inSram_part (k := 12) (l := min 500 (field (s.bytes a 12) 10 2)) hin (by omega)) hdata
  rw [Nat.add_zero] at hfirst
  simp only [State.locRead, hbuf, hfirst, hrest]

theorem State.locRead_shown {a : Nat} (hbuf : s.get DICTENG.LOC_BUF_BUF * 4 = a) (hin : inSram a 512 = true) :
    let l := s.bytes a 12 ++ s.bytes (a + 12) (min 500 (field (s.bytes a 12) 10 2))
    s.locRead = State.acceptReq { s with dict := { s.dict with loc := some (field l 1 1) } } .loc l ∨
      ∃ k w double, k ≤ 12 ∧ Config.dmaError s.tick (a + k) = some (w, double) := by
  cases hhead : Config.dmaError s.tick a with
  | some e => exact .inr ⟨0, e.1, e.2, by omega, hhead⟩
  | none =>
    cases hdata : Config.dmaError s.tick (a + 12) with
    | some e => exact .inr ⟨12, e.1, e.2, le_rfl, hdata⟩
    | none => exact .inl (State.locRead_clean hbuf hin hhead hdata)

end

/-- Settles O25: each operation on an object by its checks in order, each request that something else ends by what ends it. -/
theorem objectReadsAndWrites : Obligations.ObjectReadsAndWrites := by
  unfold Obligations.ObjectReadsAndWrites
  refine ⟨?missing, ?found, ?toApp, ?response, ?timeout, ?forward, ?vault, ?locGo, ?publish⟩
  case missing =>
    intro m c s happ hobj
    exact ⟨State.withObject_missing happ hobj _ _, State.withObject_missing happ hobj _ _, State.withObject_missing happ hobj _ _⟩
  case found =>
    intro m o s happ hobj
    refine ⟨fun hacc => ?_, fun hacc hoff => ?_, fun hacc hon hplain => ?_, State.dictDescribe_found happ hobj, fun hacc hflags => ?_,
      fun hacc => ?_, fun hacc hscalar hon hlen => ?_, fun hok hscalar hlow hplain => ?_⟩
    · rw [State.dictRead_found happ hobj, if_pos hacc]
    · rw [State.dictRead_found happ hobj, if_neg hacc, if_pos hoff]
    · have hi : m.index.toNat ∉ [0x5001, 0x7010, 0x7030, 0x7040] := by simpa using index_ne hplain
      rw [State.dictRead_found happ hobj, if_neg hacc, hon, if_neg Bool.false_ne_true, State.objRead_plain hi]
    · have hc := State.writeAbort_readOnly (s := s) hacc hflags m.data
      rw [State.dictWrite_refused happ hobj (by rw [hc]; decide), hc]
    · have hc := State.writeAbort_needsCommit (s := s) (i := m.index.toNat) (sub := m.sub.toNat) hacc m.data
      rw [State.dictWrite_refused happ hobj (by rw [hc]; decide), hc]
    · have hc := State.writeAbort_badLength (sub := m.sub.toNat) hacc hscalar hon hlen
      rw [State.dictWrite_refused happ hobj (by rw [hc]; decide), hc]
    · have hi : m.index.toNat ∉ [0x1010, 0x7010, 0x7020, 0x7030, 0x7050, 0x7051] := by simpa using index_ne hplain
      exact State.dictWrite_done happ hobj hok (State.objWrite_scalar (State.objAt_of_lookup hobj) hscalar hlow hi)
  case toApp =>
    intro op m s hen
    exact State.toApp_shown hen op m
  case response =>
    intro v r s hup happ
    exact exec_appResponse_held v hup happ
  case timeout =>
    intro r s happ hlink hdue
    exact exec_appTimeout_due happ hlink hdue
  case forward =>
    intro f rest s hfwd hdue
    exact exec_requestForwardTimeout_due hfwd hdue
  case vault =>
    intro r s hvault hdue
    exact exec_dictengVaultTimeout_due hvault hdue
  case locGo =>
    intro s hup hidle u a
    have hbuf : u.get DICTENG.LOC_BUF_BUF * 4 = a := by rw [State.get_set_other (by decide)]
    have hbytes : ∀ x n, u.bytes x n = s.bytes x n := fun _ _ => State.bytes_eq_of_byte fun _ _ => rfl
    have htick : u.tick = s.tick := rfl
    rw [exec_locGo_free hup hidle]
    exact ⟨fun hfree => by rw [hfree, if_neg Bool.false_ne_true], fun hheld => by rw [hheld, if_pos rfl],
      fun hin => by simpa only [hbytes, htick] using State.locRead_shown hbuf hin⟩
  case publish =>
    intro src v s hlink
    constructor
    · change execPublish src 0x4010 1 v s = _
      rw [execPublish, if_pos hlink]
      rfl
    · change execPublish src 0x4010 2 v s = _
      rw [execPublish, if_pos hlink]
      rfl

end Sys2Proof.Machine

/-! ## Write sets (08_dictionary.md, R180 to R184) -/

namespace Sys2Proof.Machine

section
variable {s t : State} {m : DictMsg} {w : Fin 4}

/-! ### Frames beside the engine's own state -/

theorem OnlyRegs.withDict {fs : List RF} (h : OnlyRegs fs s t) (d : DictSt) : OnlyRegs fs { s with dict := d } { t with dict := d } :=
  ⟨h.1, h.2.1, congrArg (fun x : State => { x with dict := d }) h.2.2⟩

/-! ### The set that AUX names -/

theorem State.withWs_named (haux : m.aux.toNat = w.1) (op : Nat) (run : Fin 4 → State) : s.withWs op m run = run w := by
  have hlt : m.aux.toNat < 4 := haux ▸ w.isLt
  have hset : auxWs m = some w := by
    rw [auxWs, dif_pos hlt]
    exact congrArg some (Fin.ext haux)
  rw [State.withWs, hset]

theorem State.withWs_none (haux : 4 ≤ m.aux.toNat) (op : Nat) (run : Fin 4 → State) :
    s.withWs op m run = s.answer op m 0x06 [] := by
  have hset : auxWs m = none := dif_neg (not_lt.2 haux)
  rw [State.withWs, hset]

/-! ### STAGE, COMMIT and DISCARD (R180, R181, R184) -/

theorem State.dictStage_stored {o : Obj} (haux : m.aux.toNat = w.1) (happ : isApp m.index.toNat = false)
    (hobj : s.lookup m.index.toNat m.sub.toNat = .ok o) (hacc : o.acc ≠ .ro) (hstage : o.stageable = true)
    (hdom : s.domainOff m.index.toNat = false) (hval : valueAbort o m.index.toNat m.sub.toNat m.data = 0) (hst : s.dict.ws[w].st ≠ 2)
    (hfits : (stageEntry s.dict.ws[w].entries ⟨m.index.toNat, m.sub.toNat, stagedValue m.index.toNat m.sub.toNat m.data⟩).length ≤ 64) :
    s.dictStage m = (s.setWs w { s.dict.ws[w] with
      entries := stageEntry s.dict.ws[w].entries ⟨m.index.toNat, m.sub.toNat, stagedValue m.index.toNat m.sub.toNat m.data⟩
      st := 1 }).answer 0x10 m 0 [] := by
  rw [State.dictStage, State.withWs_named haux, State.notApp happ, if_neg Bool.false_ne_true, hobj]
  change (if _ then _ else _) = _
  rw [if_neg hacc, hstage, Bool.not_true, if_neg Bool.false_ne_true, hdom, if_neg Bool.false_ne_true, hval,
    if_neg (not_not.2 rfl), if_neg hst, if_neg (not_lt.2 hfits)]

/-- The checks of COMMIT before time: its length, an entry, and a set that is not armed. -/
theorem State.dictCommit_checked (haux : m.aux.toNat = w.1) (hlen : m.data.length = 5) (hsome : s.dict.ws[w].entries ≠ [])
    (hst : s.dict.ws[w].st ≠ 2) : s.dictCommit m =
      if s.timeValid = false then (s.failWs w 3).answer 0x11 m 0 []
      else if (s.stamp40 (leNat m.data)).2 = true ∨ (s.stamp40 (leNat m.data)).1 = s.mt then
        ((s.failWs w 2).count DICTENG.LATE_CNT_COUNT DICTENG.LATE_CNT_OVF).answer 0x11 m 0 []
      else (s.setWs w { s.dict.ws[w] with st := 2, stamp := leNat m.data, inst := (s.stamp40 (leNat m.data)).1 }).answer
        0x11 m 0 [] := by
  rw [State.dictCommit, State.withWs_named haux]
  generalize s.stamp40 (leNat m.data) = p
  obtain ⟨full, past⟩ := p
  simp only [hlen, hsome, hst, ne_eq, not_true, if_false, Bool.not_eq_true', Bool.or_eq_true, beq_iff_eq]

theorem State.dictDiscard_staging (haux : m.aux.toNat = w.1) (hst : s.dict.ws[w].st = 1) :
    s.dictDiscard m = (s.emptyWs w 5).answer 0x12 m 0 [] := by
  simp only [State.dictDiscard, State.withWs_named haux, hst, true_or, if_true]

/-! ### A set put in its place (R184) -/

@[simp] theorem State.dict_setBit (s : State) (f : RF) (i : Nat) (b : Bool) : (s.setBit f i b).dict = s.dict := rfl

/-- Another set in place `w`, before STAT shows it. -/
def State.putWs (s : State) (w : Fin 4) (x : WriteSet) : State := { s with dict := { s.dict with ws := s.dict.ws.set w.1 x } }

theorem State.setWs_eq (s : State) (w : Fin 4) (x : WriteSet) :
    s.setWs w x = (s.putWs w x).setBit DICTENG.STAT_WS_ARMED w (x.st == 2) := rfl

theorem State.ws_setWs_self (s : State) (w : Fin 4) (x : WriteSet) : (s.setWs w x).dict.ws[w] = x := by
  change (s.dict.ws.set w.1 x)[w.1] = x
  exact Vector.getElem_set_self _

theorem State.ws_setWs_other {v : Fin 4} (h : v ≠ w) (s : State) (x : WriteSet) : (s.setWs w x).dict.ws[v] = s.dict.ws[v] := by
  change (s.dict.ws.set w.1 x)[v.1] = s.dict.ws[v.1]
  exact Vector.getElem_set_ne _ _ fun e => h (Fin.ext e.symm)

theorem State.bit_setWs_armed (s : State) (w : Fin 4) (x : WriteSet) : (s.setWs w x).bit DICTENG.STAT_WS_ARMED w = (x.st == 2) :=
  State.bit_setBit_self (show w.1 < 3 + 1 - 0 from w.isLt) _ _

theorem State.setWs_only (s : State) (w : Fin 4) (x : WriteSet) :
    OnlyRegs [DICTENG.IRQ_STAT_WS_FAIL, DICTENG.STAT_WS_ARMED] { s with dict := (s.setWs w x).dict } (s.setWs w x) := by
  have h := (OnlyRegs.refl [DICTENG.IRQ_STAT_WS_FAIL, DICTENG.STAT_WS_ARMED] (s.putWs w x)).setBit
    (f := DICTENG.STAT_WS_ARMED) (by simp) w (x.st == 2)
  exact h

/-! ### A set that fails (R181, R182) -/

theorem State.ws_failWs (s : State) (w : Fin 4) (outcome : Nat) :
    (s.failWs w outcome).dict.ws[w] = { s.dict.ws[w] with st := 1, outcome := outcome } := by
  rw [State.failWs, State.dict_setBit, State.ws_setWs_self]

theorem State.failWs_bits (s : State) (w : Fin 4) (outcome : Nat) :
    (s.failWs w outcome).bit DICTENG.IRQ_STAT_WS_FAIL w = true ∧ (s.failWs w outcome).bit DICTENG.STAT_WS_ARMED w = false := by
  refine ⟨State.bit_setBit_self (show w.1 < 7 + 1 - 4 from w.isLt) _ _, ?_⟩
  have hshown := s.bit_setWs_armed w { s.dict.ws[w] with st := 1, outcome := outcome }
  rw [State.bit, State.failWs, State.get_setBit, State.get_set_other (by decide)]
  exact hshown

theorem OnlyRegs.failWs {fs : List RF} (h : OnlyRegs fs { s with dict := t.dict } t) (hfail : DICTENG.IRQ_STAT_WS_FAIL ∈ fs)
    (harmed : DICTENG.STAT_WS_ARMED ∈ fs) (w : Fin 4) (outcome : Nat) :
    OnlyRegs fs { s with dict := (t.failWs w outcome).dict } (t.failWs w outcome) :=
  ((h.withDict (t.failWs w outcome).dict).setBit harmed w _).setBit hfail w _

/-! ### The tick of S (R182, R183) -/

theorem State.applyWs_idle (h : s.dict.ws[w].st ≠ 2 ∨ s.due s.dict.ws[w].inst = false ∨ s.domOn .link = false) : s.applyWs w = s := by
  rw [State.applyWs]
  refine if_pos ?_
  rcases h with hst | hdue | hlink
  · rw [decide_eq_true hst]; rfl
  · rw [hdue, Bool.not_false, Bool.or_true]; rfl
  · rw [hlink, Bool.not_false, Bool.or_true]

section
variable (hst : s.dict.ws[w].st = 2) (hdue : s.due s.dict.ws[w].inst = true)
include hst hdue

/-- The sets up to `w` are applied in ascending order. -/
theorem exec_writeSetApply_due : exec (.writeSetApply w) s =
    .next (((List.finRange 4).filter fun v => decide (v ≤ w)).foldl State.applyWs s) := by
  change execWriteSetApply w s = _
  rw [execWriteSetApply, hst, hdue]
  rfl

variable (hlink : s.domOn .link = true)
include hlink

theorem State.applyWs_timeless (hvalid : s.timeValid = false) : s.applyWs w = s.failWs w 3 := by
  simp only [State.applyWs, hst, hdue, hlink, hvalid, ne_eq, not_true, decide_false, Bool.not_true, Bool.not_false, Bool.or_self,
    Bool.false_eq_true, if_false, if_true]

variable (hvalid : s.timeValid = true)
include hvalid

theorem State.applyWs_passes (hpass : s.wsFailure s.dict.ws[w] = none) :
    s.applyWs w = ((sortedEntries s.dict.ws[w].entries).filter fun p => !s.overruled w p.2).foldl
      (fun s p => s.setObj p.2.index p.2.sub (leNat p.2.value))
      ((s.setWs w { s.dict.ws[w] with entries := [], st := 0, outcome := 1, commitMt := s.mt }).setBit DICTENG.IRQ_STAT_WS_COMMIT w
        true) := by
  simp only [State.applyWs, hst, hdue, hlink, hvalid, hpass, ne_eq, not_true, decide_false, Bool.not_true, Bool.or_self,
    Bool.false_eq_true, if_false]

theorem State.applyWs_fails {p c : Nat} (hfail : s.wsFailure s.dict.ws[w] = some (p, c)) :
    s.applyWs w = (s.setWs w { s.dict.ws[w] with failPos := p, failCode := c }).failWs w 4 := by
  simp only [State.applyWs, hst, hdue, hlink, hvalid, hfail, ne_eq, not_true, decide_false, Bool.not_true, Bool.or_self,
    Bool.false_eq_true, if_false]

end

theorem finRange_filter_le (w : Fin 4) : ((List.finRange 4).filter fun v => decide (v ≤ w)) =
    ((List.finRange 4).filter fun v => decide (v < w)) ++ [w] := by
  revert w; decide

theorem State.foldl_applyWs_idle {l : List (Fin 4)} (h : ∀ v ∈ l, s.dict.ws[v].st ≠ 2 ∨ s.due s.dict.ws[v].inst = false) :
    l.foldl State.applyWs s = s :=
  List.foldlRecOn l _ (motive := fun t => t = s) rfl fun t ht v hv => by
    subst ht
    exact State.applyWs_idle ((h v hv).imp_right .inl)

/-- A set with no lower one due is applied alone. -/
theorem State.applyWs_first (hlower : ∀ v < w, s.dict.ws[v].st ≠ 2 ∨ s.due s.dict.ws[v].inst = false) :
    ((List.finRange 4).filter fun v => decide (v ≤ w)).foldl State.applyWs s = s.applyWs w := by
  have hbelow : ((List.finRange 4).filter fun v => decide (v < w)).foldl State.applyWs s = s :=
    State.foldl_applyWs_idle fun v hv => hlower v (of_decide_eq_true (List.mem_filter.1 hv).2)
  rw [finRange_filter_le, List.foldl_append, hbelow]
  rfl

end

/-! ### Entries in ascending order (R182) -/

/-- The place of an entry's object in ascending (index, subindex) order. -/
def WsEntry.rank (e : WsEntry) : Nat := e.index * 256 + e.sub

/-- The first entry comes no later than the second. -/
def entryLe (x y : Nat × WsEntry) : Prop := x.2.rank ≤ y.2.rank

theorem placeEntry_perm (x : Nat × WsEntry) (l : List (Nat × WsEntry)) : (placeEntry x l).Perm (x :: l) := by
  induction l with
  | nil => exact .refl _
  | cons y l ih =>
    rw [placeEntry]
    split
    · exact .refl _
    · exact (ih.cons y).trans (.swap x y l)

theorem placeEntry_sorted (x : Nat × WsEntry) {l : List (Nat × WsEntry)} (h : l.Pairwise entryLe) : (placeEntry x l).Pairwise entryLe := by
  induction l with
  | nil => exact List.pairwise_singleton _ _
  | cons y l ih =>
    obtain ⟨hy, hl⟩ := List.pairwise_cons.1 h
    rw [placeEntry]
    split
    next hlt =>
      refine List.pairwise_cons.2 ⟨fun z hz => ?_, h⟩
      rcases List.mem_cons.1 hz with rfl | hz
      · exact hlt.le
      · exact hlt.le.trans (hy z hz)
    next hge =>
      refine List.pairwise_cons.2 ⟨fun z hz => ?_, ih hl⟩
      rcases List.mem_cons.1 ((placeEntry_perm x l).mem_iff.1 hz) with rfl | hz
      · exact not_lt.1 hge
      · exact hy z hz

theorem foldr_placeEntry (l : List (Nat × WsEntry)) :
    (l.foldr placeEntry []).Perm l ∧ (l.foldr placeEntry []).Pairwise entryLe := by
  induction l with
  | nil => exact ⟨.refl _, .nil⟩
  | cons x l ih => exact ⟨(placeEntry_perm x _).trans (ih.1.cons x), placeEntry_sorted x ih.2⟩

theorem sortedEntries_perm (l : List WsEntry) : (sortedEntries l).Perm (l.zipIdx.map fun p => (p.2, p.1)) := (foldr_placeEntry _).1

theorem sortedEntries_sorted (l : List WsEntry) : (sortedEntries l).Pairwise entryLe := (foldr_placeEntry _).2

theorem sortedEntries_entries (l : List WsEntry) : ((sortedEntries l).map (·.2)).Perm l := by
  have hpairs : (l.zipIdx.map fun p => (p.2, p.1)).map (·.2) = l := by rw [List.map_map]; exact List.zipIdx_map_fst 0 l
  have hperm := (sortedEntries_perm l).map (·.2)
  rwa [hpairs] at hperm

theorem sortedEntries_places {l : List WsEntry} {p : Nat × WsEntry} (h : p ∈ sortedEntries l) : l[p.1]? = some p.2 := by
  obtain ⟨q, hq, rfl⟩ := List.mem_map.1 ((sortedEntries_perm l).mem_iff.1 h)
  exact List.mem_zipIdx_iff_getElem?.1 hq

/-! ### One entry for each object (R180) -/

/-- The entries are for different objects. -/
def Apart (x y : WsEntry) : Prop := (x.index, x.sub) ≠ (y.index, y.sub)

/-- An entry takes the place of the one for its object. -/
def WsEntry.replace (e x : WsEntry) : WsEntry := if x.index = e.index ∧ x.sub = e.sub then e else x

theorem WsEntry.replace_other {e x : WsEntry} (h : Apart x e) : e.replace x = x :=
  if_neg fun ⟨hi, hs⟩ => h (by rw [hi, hs])

theorem WsEntry.replace_same {e x : WsEntry} (hi : x.index = e.index) (hs : x.sub = e.sub) : e.replace x = e := if_pos ⟨hi, hs⟩

/-- A replaced entry is still for the same object. -/
theorem WsEntry.replace_object (e x : WsEntry) : ((e.replace x).index, (e.replace x).sub) = (x.index, x.sub) := by
  rw [WsEntry.replace]
  split
  next h => rw [h.1, h.2]
  next => rfl

/-- The object has an entry, whose place the new one takes, or it has none, and the new one is added. -/
theorem stageEntry_cases (l : List WsEntry) (e : WsEntry) :
    ((∃ x ∈ l, x.index = e.index ∧ x.sub = e.sub) ∧ stageEntry l e = l.map e.replace) ∨
    ((∀ x ∈ l, Apart x e) ∧ stageEntry l e = l ++ [e]) := by
  rw [stageEntry]
  split
  next h =>
    obtain ⟨x, hx, hsame⟩ := List.any_eq_true.1 h
    exact .inl ⟨⟨x, hx, by simpa using hsame⟩, rfl⟩
  next h =>
    refine .inr ⟨fun x hx hsame => h ?_, rfl⟩
    obtain ⟨hi, hs⟩ := Prod.mk.injEq .. ▸ hsame
    exact List.any_eq_true.2 ⟨x, hx, by simp [hi, hs]⟩

theorem stageEntry_keeps (l : List WsEntry) (e : WsEntry) : e ∈ stageEntry l e ∧ (stageEntry l e).length ≤ l.length + 1 ∧
    ∀ x ∈ l, Apart x e → x ∈ stageEntry l e := by
  rcases stageEntry_cases l e with ⟨⟨x, hx, hi, hs⟩, heq⟩ | ⟨-, heq⟩
  · rw [heq]
    refine ⟨List.mem_map.2 ⟨x, hx, WsEntry.replace_same hi hs⟩, by simp, fun y hy hne => ?_⟩
    exact List.mem_map.2 ⟨y, hy, WsEntry.replace_other hne⟩
  · rw [heq]
    exact ⟨by simp, by simp, fun y hy _ => List.mem_append_left _ hy⟩

theorem stageEntry_apart {l : List WsEntry} (h : l.Pairwise Apart) (e : WsEntry) : (stageEntry l e).Pairwise Apart := by
  rcases stageEntry_cases l e with ⟨-, heq⟩ | ⟨hnew, heq⟩
  · rw [heq]
    refine List.pairwise_map.2 (h.imp fun {x y} hne => ?_)
    rw [Apart, WsEntry.replace_object, WsEntry.replace_object]
    exact hne
  · rw [heq]
    exact List.pairwise_append.2 ⟨h, List.pairwise_singleton _ _, fun x hx y hy => List.mem_singleton.1 hy ▸ hnew x hx⟩

/-- Settles O26: each command by what it answers, the order of the entries by the insertion that sorts them. -/
theorem writeSets : Obligations.WriteSets := by
  unfold Obligations.WriteSets
  refine ⟨?stage, ?commit, ?discard, ?above, ?due, ?idle, ?passes, ?fails, ?timeless, ?put, ?sorted, ?staged⟩
  case stage =>
    intro m w o s haux happ hobj hacc hstage hdom hval hst l hfits
    exact State.dictStage_stored haux happ hobj hacc hstage hdom hval hst hfits
  case commit =>
    intro m w s haux hlen hsome hst
    rw [State.dictCommit_checked haux hlen hsome hst]
    refine ⟨fun hvalid => ?_, fun hvalid hpast => ?_, fun hvalid hfuture hlater => ?_⟩
    · rw [if_pos hvalid]
    · rw [if_neg (by simp [hvalid]), if_pos hpast]
    · rw [if_neg (by simp [hvalid]), if_neg (by simp [hfuture, hlater])]
  case discard =>
    intro m w s haux hst
    exact State.dictDiscard_staging haux hst
  case above =>
    intro m s haux
    exact ⟨State.withWs_none haux _ _, State.withWs_none haux _ _, State.withWs_none haux _ _⟩
  case due =>
    intro w s hst hdue
    rw [exec_writeSetApply_due hst hdue]
    exact ⟨rfl, fun hlower => by rw [State.applyWs_first hlower]⟩
  case idle =>
    intro w s h
    exact State.applyWs_idle h
  case passes =>
    intro w s hst hdue hlink hvalid hpass
    exact State.applyWs_passes hst hdue hlink hvalid hpass
  case fails =>
    intro w p c s hst hdue hlink hvalid hfail
    rw [State.applyWs_fails hst hdue hlink hvalid hfail]
    obtain ⟨hirq, harmed⟩ := State.failWs_bits (s.setWs w { s.dict.ws[w] with failPos := p, failCode := c }) w 4
    have hset := State.ws_failWs (s.setWs w { s.dict.ws[w] with failPos := p, failCode := c }) w 4
    rw [State.ws_setWs_self] at hset
    refine ⟨?_, ?_, ?_, ?_, ?_, hirq, harmed, (State.setWs_only _ w _).failWs (by simp) (by simp) w 4⟩
    all_goals rw [hset]
  case timeless =>
    intro w s hst hdue hlink hvalid
    exact State.applyWs_timeless hst hdue hlink hvalid
  case put =>
    intro w x s
    exact ⟨s.ws_setWs_self w x, s.bit_setWs_armed w x, fun v hv => State.ws_setWs_other hv s x⟩
  case sorted =>
    intro l
    exact ⟨sortedEntries_entries l, sortedEntries_sorted l, fun p hp => sortedEntries_places hp⟩
  case staged =>
    intro l e hapart
    exact ⟨stageEntry_apart hapart e, stageEntry_keeps l e⟩

end Sys2Proof.Machine

/-! ## Snapshots (08_dictionary.md, R186 to R190) -/

namespace Sys2Proof.Machine

section
variable {s t : State} {m : DictMsg}

/-! ### SNAP (R186) -/

/-- The bytes that the listed values need. -/
def State.snapNeed (s : State) : Nat := (s.snapList.map fun p => slotSize p.1 p.2).foldl (· + ·) 0

/-- A request for a capture at an instant is ARMED. -/
def State.armSnap (s : State) (id b inst : Nat) : State :=
  State.setSnap { s with dict := { s.dict with snap := { s.dict.snap with inst := inst, armId := id, armB := b } } } 1

/-- What a SNAP of B = `b` bytes for the stamp `p` leaves: the first case of R186 that applies. -/
def State.askSnap (s : State) (id b : Nat) (p : Nat × Bool) : State :=
  if s.timeValid = false then s.setSnap 7
  else if p.2 = true ∨ p.1 = s.mt then (s.setSnap 6).count DICTENG.LATE_CNT_COUNT DICTENG.LATE_CNT_OVF
  else if p.1 < s.dict.snap.windowEnd then s.setSnap 8
  else if b < s.snapNeed then s.setSnap 9
  else s.armSnap id b p.1

theorem State.dictSnap_legal (hlen : m.data.length = 7) (hmul : field m.data 5 2 % 8 = 0) (hlo : 8 ≤ field m.data 5 2)
    (hhi : field m.data 5 2 ≤ 256) :
    s.dictSnap m = (s.askSnap m.aux.toNat (field m.data 5 2) (s.stamp40 (field m.data 0 5))).answer 0x20 m 0 [] := by
  have hlegal : ¬ (field m.data 5 2 % 8 ≠ 0 ∨ field m.data 5 2 < 8 ∨ 256 < field m.data 5 2) := by omega
  rw [State.dictSnap, if_neg (not_not.2 hlen), if_neg hlegal]
  simp only [State.askSnap, Bool.not_eq_true', Bool.or_eq_true, beq_iff_eq]
  rfl

theorem State.askSnap_timeless (id b : Nat) (p : Nat × Bool) (hvalid : s.timeValid = false) : s.askSnap id b p = s.setSnap 7 :=
  if_pos hvalid

section
variable {id b : Nat} {p : Nat × Bool} (hvalid : s.timeValid = true)
include hvalid

theorem State.askSnap_late (hpast : p.2 = true ∨ p.1 = s.mt) :
    s.askSnap id b p = (s.setSnap 6).count DICTENG.LATE_CNT_COUNT DICTENG.LATE_CNT_OVF := by
  rw [State.askSnap, if_neg (by simp [hvalid]), if_pos hpast]

variable (hfuture : p.2 = false) (hlater : p.1 ≠ s.mt)
include hfuture hlater

theorem State.askSnap_ahead : s.askSnap id b p =
    if p.1 < s.dict.snap.windowEnd then s.setSnap 8 else if b < s.snapNeed then s.setSnap 9 else s.armSnap id b p.1 := by
  rw [State.askSnap, if_neg (by simp [hvalid]), if_neg (by simp [hfuture, hlater])]

theorem State.askSnap_collecting (hwindow : p.1 < s.dict.snap.windowEnd) : s.askSnap id b p = s.setSnap 8 := by
  rw [State.askSnap_ahead hvalid hfuture hlater, if_pos hwindow]

variable (hafter : s.dict.snap.windowEnd ≤ p.1)
include hafter

theorem State.askSnap_tooLong (hneed : b < s.snapNeed) : s.askSnap id b p = s.setSnap 9 := by
  rw [State.askSnap_ahead hvalid hfuture hlater, if_neg (not_lt.2 hafter), if_pos hneed]

theorem State.askSnap_armed (hneed : s.snapNeed ≤ b) : s.askSnap id b p = s.armSnap id b p.1 := by
  rw [State.askSnap_ahead hvalid hfuture hlater, if_neg (not_lt.2 hafter), if_neg (not_lt.2 hneed)]

end

/-! ### The state of a snapshot as it is shown (R190) -/

theorem State.setSnap_shown (s : State) {st : Nat} (hst : st < 16) :
    (s.setSnap st).dict.snap = { s.dict.snap with st := st } ∧ (s.setSnap st).get DICTENG.STAT_SNAP = st := by
  refine ⟨rfl, ?_⟩
  rw [State.setSnap, State.get_set_self]
  exact Nat.mod_eq_of_lt hst

/-! ### The capture (R187, R188) -/

section
variable (hst : s.dict.snap.st = 1) (hdue : s.due s.dict.snap.inst = true) (hlink : s.domOn .link = true)
include hst hdue hlink

theorem State.captureSnap_due : s.captureSnap = if s.timeValid = false then s.setSnap 7 else
    State.set (State.setSnap { s with dict := { s.dict with snap := { s.dict.snap with
      id := s.dict.snap.armId, stamp := s.dict.snap.inst % 2 ^ 40, b := s.dict.snap.armB, c0 := (s.firstCycle s.dict.snap.inst).2
      windowEnd := (s.firstCycle s.dict.snap.inst).1 + chunks s.dict.snap.armB 8 * (1000 * s.get RINGCTL.CYCLE_CUR_TC)
      cap := some (s.captureBytes s.dict.snap.armB), roster := 0, missing := 0, got := [], re := none, phase := 1 } } } 2)
      DICTENG.IRQ_STAT_SNAP_DONE 1 := by
  have hgo : (decide (s.dict.snap.st ≠ 1) || !s.due s.dict.snap.inst || !s.domOn .link) = false := by rw [hdue, hlink, hst]; rfl
  rw [State.captureSnap]
  simp only [hgo, Bool.false_eq_true, if_false, Bool.not_eq_true']

theorem snapshotCapture_timeless (hvalid : s.timeValid = false) : exec .snapshotCapture s = .next (s.setSnap 7) := by
  change Host.Outcome.next s.captureSnap = _
  rw [State.captureSnap_due hst hdue hlink, if_pos hvalid]

theorem snapshotCapture_shown (hvalid : s.timeValid = true) :
    Yields .snapshotCapture s fun t => t.dict.snap.st = 2 ∧ t.get DICTENG.STAT_SNAP = 2 ∧ t.get DICTENG.IRQ_STAT_SNAP_DONE = 1 ∧
      t.dict.snap.cap = some (s.captureBytes s.dict.snap.armB) ∧ t.dict.snap.id = s.dict.snap.armId ∧
      t.dict.snap.b = s.dict.snap.armB ∧ t.dict.snap.stamp = s.dict.snap.inst % 2 ^ 40 ∧ t.dict.snap.phase = 1 ∧
      t.dict.snap.c0 = (s.firstCycle s.dict.snap.inst).2 ∧ t.dict.snap.windowEnd =
        (s.firstCycle s.dict.snap.inst).1 + chunks s.dict.snap.armB 8 * (1000 * s.get RINGCTL.CYCLE_CUR_TC) ∧
      OnlyRegs [DICTENG.STAT_SNAP, DICTENG.IRQ_STAT_SNAP_DONE] { s with dict := t.dict } t := by
  refine ⟨_, rfl, ?_⟩
  rw [State.captureSnap_due hst hdue hlink, if_neg (by simp [hvalid])]
  refine ⟨rfl, ?_, ?_, rfl, rfl, rfl, rfl, rfl, rfl, rfl, ?_⟩
  · rw [State.get_set_other (by decide)]
    exact (State.setSnap_shown _ (by decide)).2
  · exact State.get_set_self _ _ _
  · exact ((OnlyRegs.refl _ _).set (by simp) _).set (by simp) _

end

/-! ### The collection (R188 to R190) -/

theorem State.showSnap_unarmed (hst : s.dict.snap.st ≠ 1) (st : Nat) : s.showSnap st = s.setSnap st := if_neg hst

theorem State.snapIncomplete_shown (hst : s.dict.snap.st ≠ 1) : s.snapIncomplete.dict.snap.st = 5 ∧
    s.snapIncomplete.get DICTENG.IRQ_STAT_SNAP_INC = 1 ∧ s.snapIncomplete.dict.snap.phase = 3 := by
  have hphase : (s.snapPhase 3).dict.snap.st ≠ 1 := hst
  rw [State.snapIncomplete, State.showSnap_unarmed hphase]
  exact ⟨rfl, State.get_set_self _ _ _, rfl⟩

theorem State.snapFinish_shown (hst : s.dict.snap.st ≠ 1) (hall : s.dict.snap.missing = 0) : s.snapFinish.dict.snap.st = 4 ∧
    s.snapFinish.get DICTENG.IRQ_STAT_SNAP_DONE = 1 ∧ s.snapFinish.dict.snap.phase = 0 := by
  have hphase : (s.snapPhase 0).dict.snap.st ≠ 1 := hst
  rw [State.snapFinish, if_pos hall, State.showSnap_unarmed hphase]
  exact ⟨rfl, State.get_set_self _ _ _, rfl⟩

/-- The window's end, where a capture of this node is being collected in its own window. -/
theorem exec_collectionWindowEnd_due {d : List Byte} (hcap : s.dict.snap.cap = some d) (hre : s.dict.snap.re = none)
    (hdue : s.due s.dict.snap.windowEnd = true) (hlink : s.domOn .link = true) : exec .collectionWindowEnd s =
      if s.dict.snap.phase = 2 then .next (if s.dict.snap.missing = 0 then s.snapFinish else s.snapIncomplete)
      else if s.dict.snap.phase = 1 then .next (s.snapPhase 0) else .next s := by
  change execCollectionWindowEnd s = _
  rw [execCollectionWindowEnd]
  simp only [hcap, hre, hdue, hlink, Option.isNone_some, Option.isSome_none, Bool.not_true, Bool.or_self, Bool.false_eq_true, if_false]

/-- RECOLLECT of the capture held, for a cycle that is at least two ahead, names this node. -/
theorem State.dictRecollect_mine {d : List Byte} {c1 : Nat} (hlen : m.data.length = 18) (hcap : s.dict.snap.cap = some d)
    (hid : s.dict.snap.id = m.aux.toNat) (hc1 : field m.data 0 2 = c1) (hnewer : newer 16 c1 (s.get RINGCTL.CYCNUM_CYCLE) = true)
    (hahead : 2 ≤ (c1 + 65536 - s.get RINGCTL.CYCNUM_CYCLE) % 65536) (haddr : s.get RINGCTL.ADDR_ADDR ≠ 0)
    (hnamed : getBit (field m.data 2 16) (s.get RINGCTL.ADDR_ADDR) = true) : s.dictRecollect m =
      State.answer { s with dict := { s.dict with snap := { s.dict.snap with re := some (c1, true) } } } 0x21 m 0 [] := by
  have hmine : (s.get RINGCTL.ADDR_ADDR != 0 && getBit (field m.data 2 16) (s.get RINGCTL.ADDR_ADDR)) = true := by
    rw [hnamed, Bool.and_true, bne_iff_ne]
    exact haddr
  rw [State.dictRecollect, if_neg (not_not.2 hlen)]
  simp only [hc1, hcap, hid, hnewer, hahead, hmine, Option.isSome_some, beq_self_eq_true, decide_true, Bool.true_or, Bool.and_self,
    if_true]

/-- A chunk that is not awaited. -/
theorem State.snapCollect_unawaited {src : Nat} (h : s.dict.snap.phase ≠ 2 ∨ getBit s.dict.snap.missing src = false)
    (data : List Byte) : s.snapCollect src data = s := by
  rw [State.snapCollect]
  refine if_pos ?_
  rcases h with hphase | hheld
  · exact .inl hphase
  · exact .inr (.inl (by rw [hheld]; rfl))

end

/-- Settles O27: SNAP by the first case of R186 that applies, the capture and the collection by what each shows. -/
theorem snapshots : Obligations.Snapshots := by
  unfold Obligations.Snapshots
  refine ⟨?snap, ?capture, ?timeless, ?windowEnd, ?shown, ?recollect, ?unawaited⟩
  case snap =>
    intro m s hlen hmul hlo hhi
    rw [State.dictSnap_legal hlen hmul hlo hhi]
    refine ⟨fun hvalid => ?_, fun hvalid hpast => ?_, fun hvalid hfuture hlater hwindow => ?_,
      fun hvalid hfuture hlater hafter hneed => ?_, fun hvalid hfuture hlater hafter hneed => ?_⟩
    · rw [State.askSnap_timeless _ _ _ hvalid]
    · rw [State.askSnap_late hvalid hpast]
    · rw [State.askSnap_collecting hvalid hfuture hlater hwindow]
    · rw [State.askSnap_tooLong hvalid hfuture hlater hafter hneed]
    · rw [State.askSnap_armed hvalid hfuture hlater hafter hneed, State.armSnap]
  case capture =>
    intro s hst hdue hlink hvalid
    exact snapshotCapture_shown hst hdue hlink hvalid
  case timeless =>
    intro s hst hdue hlink hvalid
    exact snapshotCapture_timeless hst hdue hlink hvalid
  case windowEnd =>
    intro d s hcap hre hdue hlink
    rw [exec_collectionWindowEnd_due hcap hre hdue hlink]
    refine ⟨fun hphase hall => ?_, fun hphase hsome => ?_, fun hphase => ?_⟩
    · rw [if_pos hphase, if_pos hall]
    · rw [if_pos hphase, if_neg hsome]
    · rw [if_neg (by omega), if_pos hphase]
  case shown =>
    intro s hst
    obtain ⟨hinc, hirq, hphase⟩ := State.snapIncomplete_shown hst
    exact ⟨hinc, hirq, hphase, fun hall => State.snapFinish_shown hst hall⟩
  case recollect =>
    intro m d s hlen hcap hid c1 cyc hnewer hahead haddr hnamed
    exact State.dictRecollect_mine hlen hcap hid rfl hnewer hahead haddr hnamed
  case unawaited =>
    intro src data s h
    exact State.snapCollect_unawaited h data

end Sys2Proof.Machine

/-! ## Rows that are a WRITE of one object (08_dictionary.md, R171; 14_management_trust.md, R284, R287, R288, R290, R303;
16_reset_startup_update.md, R336) -/

namespace Sys2Proof.Machine

section
variable {s₀ s t u : State} {via : Via} {tid : Byte} {d : List Byte} {ok : Bool} {i sub : Nat} {typ : OType}

/-! ### Objects that are commands (R170, R176) -/

/-- The device is in use, with the domains up whose objects are commands. -/
structure State.ServesCommands (t : State) : Prop where
  link : t.domOn .link = true
  mgt : t.domOn .mgt = true
  running : t.boot.recovery = false
  inUse : t.lifeCycle ∈ [1, 2, 3]

/-- A write-only object of the link or the management domain, with no rule on the state of its owner. -/
structure CommandObject (i sub : Nat) (typ : OType) : Prop where
  notApp : isApp i = false := by decide
  object : objAt i sub = some ⟨typ, .wo⟩ := by decide
  dom : objDom i ∈ [Dom.link, Dom.mgt] := by decide
  stateless : i ≠ 0x7051 ∧ ¬ (i = 0x7050 ∧ sub = 6) := by decide

theorem State.ServesCommands.lookup {o : Obj} (h : t.ServesCommands) (hobj : objAt i sub = some o) : t.lookup i sub = .ok o := by
  have hlife := h.inUse
  simp only [List.mem_cons, List.not_mem_nil, or_false] at hlife
  have hdefined : objectsAt i ≠ [] := fun hnone => by rw [objAt, hnone] at hobj; cases hobj
  rw [State.lookup, h.running, Bool.false_and, if_neg Bool.false_ne_true, if_neg (by omega), if_neg hdefined, hobj]
  exact if_neg (by omega)

theorem State.ServesCommands.domainOff (h : t.ServesCommands) (hdom : objDom i ∈ [Dom.link, Dom.mgt]) : t.domainOff i = false := by
  have hon : t.dom (objDom i) = .on := by
    simp only [List.mem_cons, List.not_mem_nil, or_false] at hdom
    rcases hdom with hdom | hdom
    · rw [hdom]; exact beq_iff_eq.1 h.link
    · rw [hdom]; exact beq_iff_eq.1 h.mgt
  rw [State.domainOff, h.running, Bool.and_false, if_neg Bool.false_ne_true, hon]
  rfl

theorem State.ServesCommands.writeAbort (h : t.ServesCommands) (hobj : CommandObject i sub typ)
    (hval : valueAbort ⟨typ, .wo⟩ i sub d = 0) : t.writeAbort ⟨typ, .wo⟩ i sub d = 0 := by
  rw [State.writeAbort, if_neg (by simp), if_neg (by simp), h.domainOff hobj.dom, if_neg Bool.false_ne_true, hval,
    if_neg (not_not.2 rfl), State.stateAbort, if_neg hobj.stateless.1, if_neg hobj.stateless.2]

/-! ### A command's request (R172, R173) -/

theorem msgAbort_objMsg (via : Via) (tid : Byte) (i : BitVec 16) (sub : Byte) (hlen : d.length ≤ 500) :
    msgAbort 2 (objMsg via tid i sub d) = 0 := by
  simp [msgAbort, objMsg, not_lt.2 hlen]

section
variable {i : BitVec 16} {sub : Byte} (hreq : s₀.TakesReq 2 (objMsg via tid i sub d) t) (hserves : t.ServesCommands)
  (hobj : CommandObject i.toNat sub.toNat typ) (hval : valueAbort ⟨typ, .wo⟩ i.toNat sub.toNat d = 0) (hlen : d.length ≤ 500)
include hreq hserves hobj hval hlen

/-- A command that is answered with the status of its effect. -/
theorem State.writeObj_done {x : Nat × State}
    (hdone : t.objWrite via tid.toNat i.toNat sub.toNat d ok = (some x.1, x.2)) :
    s₀.writeObj via tid i sub d ok = .next (x.2.answer 2 (objMsg via tid i sub d) x.1 []) := by
  rw [State.writeObj, hreq.handled hserves.link (.inr rfl) (msgAbort_objMsg via tid i sub hlen)]
  exact congrArg _ (State.dictWrite_done hobj.notApp (hserves.lookup hobj.object) (hserves.writeAbort hobj hval) hdone)

/-- A command whose response waits. -/
theorem State.writeObj_waits (hwait : t.objWrite via tid.toNat i.toNat sub.toNat d ok = (none, u)) :
    s₀.writeObj via tid i sub d ok = .next u := by
  rw [State.writeObj, hreq.handled hserves.link (.inr rfl) (msgAbort_objMsg via tid i sub hlen)]
  exact congrArg _ (State.dictWrite_waits hobj.notApp (hserves.lookup hobj.object) (hserves.writeAbort hobj hval) hwait)

end

/-! ### Values of the objects that take bytes (R176) -/

theorem valueAbort_blob {n : Nat} {acc : OAcc} (hi : i ≠ 0x7010) (hlen : d.length ≤ n) : valueAbort ⟨.blob n, acc⟩ i sub d = 0 := by
  rw [valueAbort, if_neg (by simp [OType.scalar]), if_neg fun h => hi h.1]
  exact if_neg (not_lt.2 hlen)

theorem valueAbort_nonce {acc : OAcc} (hlen : d.length = 32) : valueAbort ⟨.blob 32, acc⟩ 0x7010 1 d = 0 := by
  rw [valueAbort, if_neg (by simp [OType.scalar]), if_neg fun h => h.2.2 hlen]
  exact if_neg (by rw [hlen]; exact lt_irrefl 32)

/-! ### What each command does -/

theorem State.objWrite_store (htrial : s.onTrial = false) (hstore : s.storePersisted = some u) :
    s.objWrite via tid.toNat 0x1010 2 d ok = (some 0, u) := by
  simp only [State.objWrite, htrial, hstore, Bool.false_eq_true, if_false]

theorem State.objWrite_erase (herase : s.eraseStored = some u) : s.objWrite via tid.toNat 0x1010 3 d ok = (some 0, u) := by
  simp only [State.objWrite, herase]

theorem State.nonceOp_taken (hlen : d.length = 32) (hidle : s.sc.attStatus ≠ 1) :
    s.nonceOp d = (0, { s with sc := { s.sc with attStatus := 1, attNonce := d, attReport := [] } }) := by
  rw [State.nonceOp, if_neg (not_not.2 hlen), if_neg hidle]

/-- A change that R286 permits, but for the one into Returned, which is proved with a signature. -/
theorem State.lifeCycleOp_begins {id : Nat} (hfree : s.sc.lcTarget = none) (hmay : lcPermits s.lifeCycle (field d 0 1) = true)
    (hplain : field d 0 1 ≠ 3) (hunit : field d 1 4 = Config.uniqueId.toNat % 2 ^ 32) : s.lifeCycleOp via id d =
      (none, State.startWipe { s with sc := { s.sc with lcTarget := some (field d 0 1), lcReq := some (via, id) } }
        VAULTCTL.STAT_CAUSE_LC) := by
  have hbad : (field d 0 1 == 3 && !s.unlockVerifies (d.drop 5)) = false := by rw [beq_false_of_ne hplain, Bool.false_and]
  simp only [State.lifeCycleOp, hfree, hmay, hunit, hplain, hbad, Option.isSome_none, Bool.not_true, Bool.false_eq_true, ne_eq,
    not_true, or_self, false_and, if_false]

theorem State.ownerHashOp_taken (hfree : s.sc.lcTarget = none) (hlife : s.lifeCycle = 1) (hunset : s.sc.ownerHash = none) :
    s.ownerHashOp d = (0, { s with sc := { s.sc with ownerHash := some d } }) := by
  rw [State.ownerHashOp, hfree, hunset, hlife]
  rfl

theorem State.dlBegin_taken (hst : s.dl.st ∈ [0, 5, 6]) (hreg : s.regNormal = true) :
    s.dlBegin = (0, { s.dropMcache.aimDownload with dl := { s.dl with st := 1, offset := 0, held := 0 } }) := by
  have hidle : s.dl.st = 0 ∨ s.dl.st = 5 ∨ s.dl.st = 6 := by simpa using hst
  rw [State.dlBegin, if_pos hidle, if_pos hreg]

theorem State.dlFinish_whole (hst : s.dl.st = 3) (hall : s.dl.offset = hdrLength (s.header s.inactive)) :
    s.dlFinish = (0, s.dlTo 4) := if_pos (.inr ⟨hst, hall⟩)

theorem State.dlAbort_unarmed (hst : s.dl.st ≠ 7) :
    s.dlAbort = (0, { s.cutErase with dl := { s.dl with st := 0, reason := 0x0D, armedAt := none } }) := by
  have hdl : s.cutErase.dl = s.dl := by unfold State.cutErase; split <;> rfl
  rw [State.dlAbort, if_pos hst]
  simp only [hdl]

end

/-- Settles O28: each row is the WRITE of its object, which passes the checks of R176 and is answered as its effect answers. -/
theorem commandsThatWriteOneObject : Obligations.CommandsThatWriteOneObject := by
  unfold Obligations.CommandsThatWriteOneObject
  intro via tid s₀ t s hserves hidle hlink hmgt hrunning hlife req done
  have hcmd : t.ServesCommands := ⟨hlink, hmgt, hrunning, hlife⟩
  have htakes {i : BitVec 16} {sub : Byte} {d : List Byte} (hreq : req i sub d) : s₀.TakesReq 2 (objMsg via tid i sub d) t :=
    ⟨hserves, hidle, hreq⟩
  refine ⟨?store, ?erase, ?nonce, ?lifeCycle, ?keyHash, ?unlock, ?clearLost, ?begin, ?data, ?finish, ?activate, ?abort⟩
  case store =>
    intro u hreq htrial hstore
    exact State.writeObj_done (typ := .u16) (x := (0, u)) (htakes hreq) hcmd {} (by decide) (by decide) (State.objWrite_store htrial hstore)
  case erase =>
    intro u hreq herase
    exact State.writeObj_done (typ := .u16) (x := (0, u)) (htakes hreq) hcmd {} (by decide) (by decide) (State.objWrite_erase herase)
  case nonce =>
    intro d hreq hlen hfree
    rw [← State.nonceOp_taken hlen hfree]
    exact State.writeObj_done (htakes hreq) hcmd {} (valueAbort_nonce hlen) (by omega) rfl
  case lifeCycle =>
    intro d hreq hlen hfree hmay hplain hunit
    exact State.writeObj_waits (htakes hreq) hcmd {} (valueAbort_blob (by decide) hlen) (by omega)
      (State.lifeCycleOp_begins hfree hmay hplain hunit)
  case keyHash =>
    intro d hreq hlen hfree hdev hunset
    rw [← State.ownerHashOp_taken hfree hdev hunset]
    exact State.writeObj_done (htakes hreq) hcmd {} (valueAbort_blob (by decide) hlen) (by omega) rfl
  case unlock =>
    intro d hreq hlen htap
    have hwrite : exec (.debugUnlock via tid d) s₀ = s₀.writeObj via tid 0x7030 2 d true := if_neg htap
    rw [hwrite]
    exact State.writeObj_done (htakes hreq) hcmd {} (valueAbort_blob (by decide) hlen) (by omega) rfl
  case clearLost =>
    intro hreq
    exact State.writeObj_done (typ := .u8) (x := (0, t.clearLost)) (htakes hreq) hcmd {} (by decide) (by decide) rfl
  case begin =>
    intro hreq hst hreg
    rw [← State.dlBegin_taken hst hreg]
    exact State.writeObj_done (typ := .u8) (htakes hreq) hcmd {} (by decide) (by decide) rfl
  case data =>
    intro d ok hreq hlen
    exact State.writeObj_done (htakes hreq) hcmd {} (valueAbort_blob (by decide) hlen) (by omega) rfl
  case finish =>
    intro hreq hst hall
    rw [← State.dlFinish_whole hst hall]
    exact State.writeObj_done (typ := .u8) (htakes hreq) hcmd {} (by decide) (by decide) rfl
  case activate =>
    intro hreq
    exact State.writeObj_done (typ := .u8) (htakes hreq) hcmd {} (by decide) (by decide) rfl
  case abort =>
    intro hreq hst
    rw [← State.dlAbort_unarmed hst]
    exact State.writeObj_done (typ := .u8) (htakes hreq) hcmd {} (by decide) (by decide) rfl

end Sys2Proof.Machine

/-! ## FLASHCTL (16_reset_startup_update.md, R204, R283, R295, R297) -/

namespace Sys2Proof.Machine

section
variable {s t u : State} {v : Word} {op k : Nat} {f : FlashOp}

/-! ### GO (R204, R283) -/

/-- A FLASHCTL command that ends at once shows its RESULT. -/
theorem State.flashEnd_shown (s : State) {r : Nat} (hr : r < 256) : (s.flashEnd r).get FLASHCTL.STATUS_BUSY = 0 ∧
    (s.flashEnd r).get FLASHCTL.STATUS_DONE = 1 ∧ (s.flashEnd r).get FLASHCTL.STATUS_RESULT = r := by
  refine ⟨?_, ?_, ?_⟩
  · rw [State.flashEnd, State.get_set_other (by decide), State.get_set_other (by decide), State.get_set_self]; rfl
  · rw [State.flashEnd, State.get_set_other (by decide), State.get_set_self]; rfl
  · rw [State.flashEnd, State.get_set_self]; exact Nat.mod_eq_of_lt hr

theorem State.flashEnd_only {fs : List RF} (h : OnlyRegs fs s t) (hbusy : FLASHCTL.STATUS_BUSY ∈ fs) (hdone : FLASHCTL.STATUS_DONE ∈ fs)
    (hres : FLASHCTL.STATUS_RESULT ∈ fs) (r : Nat) : OnlyRegs fs s (t.flashEnd r) :=
  ((h.set hbusy _).set hdone _).set hres _

/-- Every byte of a range is erased exactly where each reads 0xFF. -/
theorem State.bytes_erased_iff (s : State) (a n : Nat) : (s.bytes a n).all (· == 0xFF) = true ↔ ∀ i < n, s.byte (a + i) = 0xFF := by
  induction n generalizing a with
  | zero => simp [State.bytes]
  | succ n ih =>
    rw [State.bytes, List.all_cons, Bool.and_eq_true, beq_iff_eq, ih]
    constructor
    · rintro ⟨hhead, htail⟩ i hi
      cases i with
      | zero => exact hhead
      | succ i => rw [show a + (i + 1) = a + 1 + i by omega]; exact htail i (by omega)
    · intro h
      exact ⟨h 0 (by omega), fun i hi => by rw [show a + 1 + i = a + (i + 1) by omega]; exact h (i + 1) (by omega)⟩

/-- The command that ADDR, SRC and LEN give with an OP. -/
def State.flashAsked (s : State) (op : Nat) : FlashOp :=
  ⟨op, s.get FLASHCTL.ADDR_ADDR * 4, s.get FLASHCTL.SRC_SRC * 4, s.get FLASHCTL.LEN_LEN⟩

/-- The first address and the bytes that a command touches. -/
def FlashOp.span (f : FlashOp) : Nat × Nat := flashSpan f.op f.addr f.len

/-- The RESULT with which GO refuses a command; none for one that it accepts. -/
def State.flashRefusal (s : State) (f : FlashOp) : Option Nat :=
  if s.regNormal = false then some 1
  else if s.dl.st ≠ 0 ∧ s.dl.st ≠ 5 ∧ s.dl.st ≠ 6 then some 5
  else if s.flashHeld = true ∨ f.span.1 < slotBase s.inactive ∨ slotBase s.inactive + 0x100000 < f.span.1 + f.span.2 then some 2
  else if f.op = 1 ∧ (s.bytes f.span.1 f.span.2).all (· == 0xFF) = false then some 3
  else none

/-- A command accepted by GO (R283). -/
def State.acceptFlash (s : State) (f : FlashOp) : State :=
  { s.dropMcache.set FLASHCTL.STATUS_BUSY 1 with flash := some f, dl := { s.dl with st := 0 } }

/-- What GO does with a command while none is in progress. -/
def State.judgeFlash (s : State) (f : FlashOp) : State := (s.flashRefusal f).elim (s.acceptFlash f) s.flashEnd

theorem State.flashWrite_plain (hup : s.accessible FLASHCTL.CMD = true) (h : getBit v.toNat 31 = false ∨ s.on FLASHCTL.STATUS_BUSY = true) :
    s.flashWrite op v = .next { s.set FLASHCTL.CMD_OP op with bus := .ok 0 } := by
  cases hgo : getBit v.toNat 31 with
  | false =>
    rw [State.flashWrite, hgo, if_neg Bool.false_ne_true, State.busDo_reached hup]
  | true =>
    have hbusy : (s.set FLASHCTL.CMD_OP op).on FLASHCTL.STATUS_BUSY = true :=
      (State.on_congr (State.get_set_other (by decide) s op)).trans (h.resolve_left (by simp [hgo]))
    rw [State.flashWrite, hgo, if_pos rfl, State.flashGo, State.busDo_reached hup]
    simp only [hbusy, if_true]

theorem State.flashAsked_setOp (s : State) (v op : Nat) : (s.set FLASHCTL.CMD_OP v).flashAsked op = s.flashAsked op := by
  rw [State.flashAsked, State.get_set_other (by decide), State.get_set_other (by decide), State.get_set_other (by decide),
    State.flashAsked]

theorem State.flashWrite_go (hup : s.accessible FLASHCTL.CMD = true) (hgo : getBit v.toNat 31 = true)
    (hidle : s.on FLASHCTL.STATUS_BUSY = false) : s.flashWrite op v =
      .next { (s.set FLASHCTL.CMD_OP op).judgeFlash (s.flashAsked op) with bus := .ok 0 } := by
  have hbusy : (s.set FLASHCTL.CMD_OP op).on FLASHCTL.STATUS_BUSY = false :=
    (State.on_congr (State.get_set_other (by decide) s op)).trans hidle
  rw [State.flashWrite, hgo, if_pos rfl, State.flashGo, State.busDo_reached hup, ← State.flashAsked_setOp s op op]
  generalize s.set FLASHCTL.CMD_OP op = u at hbusy
  simp only [hbusy, State.judgeFlash, State.flashRefusal, apply_ite fun r : Option Nat => r.elim (u.acceptFlash (u.flashAsked op)) u.flashEnd,
    Bool.not_eq_true', Bool.false_eq_true, if_false]
  rfl

/-- OP has no part in the judgement of a command. -/
theorem State.flashRefusal_setOp (s : State) (op : Nat) (f : FlashOp) :
    (s.set FLASHCTL.CMD_OP op).flashRefusal f = s.flashRefusal f := by
  have hreg : (s.set FLASHCTL.CMD_OP op).regNormal = s.regNormal := by
    have hdocked : (s.set FLASHCTL.CMD_OP op).on AONCTL.MODE_DOCKED = s.on AONCTL.MODE_DOCKED :=
      State.on_congr (State.get_set_other (by decide) s op)
    rw [State.regNormal, State.dom, hdocked, State.regNormal, State.dom]; rfl
  have hbytes : (s.set FLASHCTL.CMD_OP op).bytes f.span.1 f.span.2 = s.bytes f.span.1 f.span.2 :=
    State.bytes_congr (s := s) (t := s.set FLASHCTL.CMD_OP op) (fun _ => rfl) _ _
  rw [State.flashRefusal, hreg, hbytes, State.flashRefusal]; rfl

theorem State.flashRefusal_lowPower (hreg : s.regNormal = false) (f : FlashOp) : s.flashRefusal f = some 1 := if_pos hreg

section
variable (hreg : s.regNormal = true)
include hreg

theorem State.flashRefusal_downloading (h0 : s.dl.st ≠ 0) (h5 : s.dl.st ≠ 5) (h6 : s.dl.st ≠ 6) (f : FlashOp) :
    s.flashRefusal f = some 5 := by
  rw [State.flashRefusal, if_neg (by simp [hreg]), if_pos ⟨h0, h5, h6⟩]

variable (hdl : s.dl.st = 0 ∨ s.dl.st = 5 ∨ s.dl.st = 6)
include hdl

theorem State.flashRefusal_outside (hout : s.flashHeld = true ∨ f.span.1 < slotBase s.inactive ∨
    slotBase s.inactive + 0x100000 < f.span.1 + f.span.2) : s.flashRefusal f = some 2 := by
  rw [State.flashRefusal, if_neg (by simp [hreg]), if_neg (by omega), if_pos hout]

variable (hheld : s.flashHeld = false) (hlo : slotBase s.inactive ≤ f.span.1)
  (hhi : f.span.1 + f.span.2 ≤ slotBase s.inactive + 0x100000)
include hheld hlo hhi

theorem State.flashRefusal_inside : s.flashRefusal f =
    if f.op = 1 ∧ (s.bytes f.span.1 f.span.2).all (· == 0xFF) = false then some 3 else none := by
  have hin : ¬ (s.flashHeld = true ∨ f.span.1 < slotBase s.inactive ∨ slotBase s.inactive + 0x100000 < f.span.1 + f.span.2) := by
    rw [hheld]; simp only [Bool.false_eq_true, false_or]; omega
  rw [State.flashRefusal, if_neg (by simp [hreg]), if_neg (by omega), if_neg hin]

theorem State.flashRefusal_dirty (hop : f.op = 1) (hdirty : ∃ i, i < f.span.2 ∧ s.byte (f.span.1 + i) ≠ 0xFF) :
    s.flashRefusal f = some 3 := by
  obtain ⟨i, hi, hbyte⟩ := hdirty
  rw [State.flashRefusal_inside hreg hdl hheld hlo hhi,
    if_pos ⟨hop, Bool.eq_false_iff.2 fun h => hbyte ((State.bytes_erased_iff s _ _).1 h i hi)⟩]

theorem State.flashRefusal_erased (h : f.op ≠ 1 ∨ ∀ i, i < f.span.2 → s.byte (f.span.1 + i) = 0xFF) : s.flashRefusal f = none := by
  rw [State.flashRefusal_inside hreg hdl hheld hlo hhi, if_neg]
  rintro ⟨hop, hdirty⟩
  exact Bool.eq_false_iff.1 hdirty ((State.bytes_erased_iff s _ _).2 (h.resolve_left (not_not.2 hop)))

end

/-- The registers that a command accepted changes. -/
@[simp] def flashGoFields : List RF := [FLASHCTL.CMD_OP, FLASHCTL.STATUS_BUSY, VAULTCTL.STAT_MCACHE_VALID]

/-- The registers that a command refused shows its RESULT in. -/
@[simp] def flashEndFields : List RF := [FLASHCTL.CMD_OP, FLASHCTL.STATUS_BUSY, FLASHCTL.STATUS_DONE, FLASHCTL.STATUS_RESULT]

section
variable (hup : s.accessible FLASHCTL.CMD = true) (hgo : getBit v.toNat 31 = true) (hidle : s.on FLASHCTL.STATUS_BUSY = false)
include hup hgo hidle

theorem State.flashWrite_refused {r : Nat} (hr : r < 256) (hrefused : s.flashRefusal (s.flashAsked op) = some r) :
    ∃ t, s.flashWrite op v = .next t ∧ t.get FLASHCTL.STATUS_BUSY = 0 ∧ t.get FLASHCTL.STATUS_DONE = 1 ∧
      t.get FLASHCTL.STATUS_RESULT = r ∧ OnlyRegs flashEndFields s t := by
  obtain ⟨hbusy, hdone, hres⟩ := (s.set FLASHCTL.CMD_OP op).flashEnd_shown hr
  refine ⟨_, State.flashWrite_go hup hgo hidle, ?_⟩
  rw [State.judgeFlash, State.flashRefusal_setOp, hrefused]
  exact ⟨hbusy, hdone, hres,
    (State.flashEnd_only ((OnlyRegs.refl _ s).set (by simp) op) (by simp) (by simp) (by simp) r).bus _⟩

theorem State.flashWrite_accepted (haccepted : s.flashRefusal (s.flashAsked op) = none) :
    ∃ t, s.flashWrite op v = .next t ∧ t.get FLASHCTL.STATUS_BUSY = 1 ∧ t.flash = some (s.flashAsked op) ∧ t.dl.st = 0 ∧
      t.get VAULTCTL.STAT_MCACHE_VALID = 0 ∧ OnlyRegs flashGoFields { s with flash := t.flash, dl := t.dl } t := by
  refine ⟨_, State.flashWrite_go hup hgo hidle, ?_⟩
  rw [State.judgeFlash, State.flashRefusal_setOp, haccepted]
  have hmcache : ((s.set FLASHCTL.CMD_OP op).dropMcache.set FLASHCTL.STATUS_BUSY 1).get VAULTCTL.STAT_MCACHE_VALID = 0 := by
    rw [State.get_set_other (by decide), State.dropMcache, State.get_set_self]; rfl
  have honly : OnlyRegs flashGoFields s ((s.set FLASHCTL.CMD_OP op).dropMcache.set FLASHCTL.STATUS_BUSY 1) :=
    (((OnlyRegs.refl _ _).set (by simp) _).set (by simp) _).set (by simp) _
  exact ⟨State.get_set_self _ _ 1, rfl, rfl, hmcache, honly.1, honly.2.1, rfl⟩

end

/-! ### The command completes (R204, R283, R297) -/

theorem State.getElem_bytes (s : State) (a : Nat) {n i : Nat} (h : i < (s.bytes a n).length) : (s.bytes a n)[i] = s.byte (a + i) := by
  induction n generalizing a i with
  | zero => simp [State.bytes] at h
  | succ n ih =>
    cases i with
    | zero => rfl
    | succ i => exact (ih (a + 1) (Nat.lt_of_succ_lt_succ h)).trans (by rw [show a + 1 + i = a + (i + 1) by omega])

/-- A copied byte reads as its source did. -/
theorem State.byte_copied (s u : State) (lo src : Nat) {n i : Nat} (hi : i < n) :
    (u.pokes lo (s.bytes src n)).byte (lo + i) = s.byte (src + i) := by
  rw [State.byte_pokes_self _ _ (by rwa [State.bytes_length]), State.getElem_bytes]

/-- The number of the memories' losses has no part in a write. -/
theorem State.pokes_epoch (s : State) (e a : Nat) (l : List Byte) :
    ({ s with epoch := e } : State).pokes a l = { s.pokes a l with epoch := e } := by
  induction l generalizing s a with
  | nil => rfl
  | cons b l ih => exact ih (s.poke a b) (a + 1)

/-- Bytes that were written outlast the loss of others. -/
theorem State.byte_pokes_garble {l : List Byte} {lo a n i : Nat} (hi : i < l.length) (hout : lo + i < a ∨ a + n ≤ lo + i) (s : State) :
    ((s.pokes lo l).garble a n).byte (lo + i) = l[i] := by
  have hepoch := State.pokes_epoch s ((s.pokes lo l).epoch + 1) lo l
  rw [show (s.pokes lo l).garble a n = State.fillWith { s.pokes lo l with epoch := (s.pokes lo l).epoch + 1 } a n
    (Config.undefByte ((s.pokes lo l).epoch + 1)) from rfl, ← hepoch, State.byte_fillWith, if_neg (by omega),
    State.byte_pokes_self _ _ hi]

/-- What a command leaves in code flash that no word of it has failed. -/
def State.runFlash (s : State) (f : FlashOp) : State :=
  if f.op = 1 then s.pokes f.span.1 (s.bytes f.src f.span.2) else s.eraseRange f.span.1 f.span.2

/-- What a command leaves in code flash that has stopped at its word `k`. -/
def State.failFlash (s : State) (f : FlashOp) (k : Nat) : State :=
  if f.op = 1 then (s.pokes f.span.1 (s.bytes f.src (min f.span.2 (4 * k)))).badWord (f.span.1 + 4 * k)
  else s.garble f.span.1 f.span.2

section
variable (hf : s.flash = some f)
include hf

theorem exec_flashCommandDone_good :
    exec (.flashCommandDone none) s = .next ((State.runFlash { s with flash := none } f).flashEnd 0) := by
  change execFlashCommandDone none s = _
  rw [execFlashCommandDone, hf]; rfl

theorem exec_flashCommandDone_bad : ∃ a, exec (.flashCommandDone (some k)) s =
    .next (((State.failFlash { s with flash := none } f k).flashEnd 4).report ⟨2, 0x11, a, 1, 0, false⟩) := by
  refine ⟨f.span.1 + (if f.op = 1 then 4 * k else 0), ?_⟩
  change execFlashCommandDone (some k) s = _
  rw [execFlashCommandDone, hf]; rfl

end

theorem State.flash_runFlash (s : State) (f : FlashOp) : (s.runFlash f).flash = s.flash := by
  rw [State.runFlash]
  split
  · rw [State.pokes_fields]
  · rfl

theorem State.runFlash_outside (s : State) (f : FlashOp) : MemoryBut f.span.1 f.span.2 s (s.runFlash f) := by
  intro a ha
  rw [State.runFlash]
  split
  · exact State.byte_pokes_other _ _ (by rwa [State.bytes_length])
  · rw [State.byte_eraseRange, if_neg (by omega)]

theorem State.runFlash_programmed (hop : f.op = 1) {i : Nat} (hi : i < f.span.2) :
    (s.runFlash f).byte (f.span.1 + i) = s.byte (f.src + i) := by
  rw [State.runFlash, if_pos hop, State.byte_copied _ _ _ _ hi]

theorem memUnlisted_codeFlash {a : Nat} (hlo : 0x08000000 ≤ a) (hhi : a < 0x08210000) : memUnlisted a = some 0xFF := if_pos ⟨hlo, hhi⟩

theorem State.runFlash_erased (hop : f.op ≠ 1) (hlo : 0x08000000 ≤ f.span.1) (hhi : f.span.1 + f.span.2 ≤ 0x08210000) {i : Nat}
    (hi : i < f.span.2) : (s.runFlash f).byte (f.span.1 + i) = 0xFF := by
  rw [State.runFlash, if_neg hop, State.byte_eraseRange, if_pos (by omega), memUnlisted_codeFlash (by omega) (by omega)]; rfl

theorem State.flash_failFlash (s : State) (f : FlashOp) (k : Nat) : (s.failFlash f k).flash = s.flash := by
  rw [State.failFlash]
  split
  · rw [State.badWord, State.pokes_fields]; rfl
  · rfl

/-- The words before the one that failed are programmed. -/
theorem State.failFlash_programmed (hop : f.op = 1) {i : Nat} (hi : i < f.span.2) (hk : i < 4 * k) :
    (s.failFlash f k).byte (f.span.1 + i) = s.byte (f.src + i) := by
  have hlen : i < (s.bytes f.src (min f.span.2 (4 * k))).length := by rw [State.bytes_length]; omega
  rw [State.failFlash, if_pos hop, State.badWord, State.byte_pokes_garble hlen (by omega), State.getElem_bytes]

theorem State.flash_report (s : State) (r : Report) : (s.report r).flash = s.flash := by
  rw [State.report]
  split
  · rfl
  · split
    · rw [State.count]; split <;> rfl
    · rfl

/-- A report does not show in FLASHCTL. -/
theorem State.get_report_flashctl {g : RF} (hl : g.lo < 32) (hg : g.addr < ERRAGG.CTRL) (s : State) (r : Report) :
    (s.report r).get g = s.get g := by
  have hsrc : g.addr ≠ ERRAGG.SRC r.src := by simp only [ERRAGG.SRC, ERRAGG.CTRL] at *; omega
  exact State.get_report_other r (RF.key_ne_of_addr hsrc hl) (RF.key_ne_of_addr hsrc hl) (RF.key_ne_of_addr hsrc hl) s

end

/-- Settles O38: GO by the order of its refusals, and the completion by what the command leaves in its range and outside it. -/
theorem flashController : Obligations.FlashController := by
  refine ⟨fun op mk v s hmk hup => ?go, fun f s hf => ⟨?good, fun k _ => ?bad⟩⟩
  case go =>
    have hexec : exec (mk v) s = s.flashWrite op v := by
      rcases List.mem_cons.1 hmk with h | h
      · cases h; rfl
      · rcases List.mem_cons.1 h with h | h
        · cases h; rfl
        · cases List.mem_singleton.1 h; rfl
    intro addr len lo n base ends
    simp only [Yields, hexec, ends]
    refine ⟨State.flashWrite_plain hup, fun hgo hidle => ⟨fun hreg => ?_, fun hreg h0 h5 h6 => ?_, fun hreg hdl => ⟨fun hout => ?_,
      fun hheld hlo hhi => ⟨fun hop hdirty => ?_, fun herased => ?_⟩⟩⟩⟩
    · exact State.flashWrite_refused hup hgo hidle (by decide) (State.flashRefusal_lowPower hreg _)
    · exact State.flashWrite_refused hup hgo hidle (by decide) (State.flashRefusal_downloading hreg h0 h5 h6 _)
    · exact State.flashWrite_refused hup hgo hidle (by decide) (State.flashRefusal_outside hreg hdl hout)
    · exact State.flashWrite_refused hup hgo hidle (by decide) (State.flashRefusal_dirty hreg hdl hheld hlo hhi hop hdirty)
    · exact State.flashWrite_accepted hup hgo hidle (State.flashRefusal_erased hreg hdl hheld hlo hhi herased)
  case good =>
    obtain ⟨hbusy, hdone, hres⟩ := (State.runFlash { s with flash := none } f).flashEnd_shown (r := 0) (by decide)
    exact ⟨_, exec_flashCommandDone_good hf, State.flash_runFlash _ f, hbusy, hdone, hres,
      State.runFlash_outside { s with flash := none } f, fun hop i hi => State.runFlash_programmed hop hi,
      fun hop hlo hhi i hi => State.runFlash_erased hop hlo hhi hi⟩
  case bad =>
    obtain ⟨a, hexec⟩ := exec_flashCommandDone_bad (k := k) hf
    obtain ⟨hbusy, hdone, hres⟩ := (State.failFlash { s with flash := none } f k).flashEnd_shown (r := 4) (by decide)
    refine ⟨_, hexec, (State.flash_report _ _).trans (State.flash_failFlash _ f k), ?_, ?_, ?_, fun hop i hi hk => ?_⟩
    · rw [State.get_report_flashctl (by decide) (by decide), hbusy]
    · rw [State.get_report_flashctl (by decide) (by decide), hdone]
    · rw [State.get_report_flashctl (by decide) (by decide), hres]
    · exact ((State.report_kept _ _).2 _).trans (State.failFlash_programmed (s := { s with flash := none }) hop hi hk)

end Sys2Proof.Machine

/-! ## What a domain's loss of power leaves alone (01_architecture.md, R29, R30; 09_power_ladder.md, R193, R206) -/

namespace Sys2Proof.Machine

section
variable {s t u : State} {fs : List RF} {ds es : List Dom} {g : RF}

/-! ### Frames beside the registers -/

theorem OnlyRegs.pwr (h : OnlyRegs fs s t) : t.pwr = s.pwr := by rw [h.2.2]
theorem OnlyRegs.boot (h : OnlyRegs fs s t) : t.boot = s.boot := by rw [h.2.2]
theorem OnlyRegs.mt (h : OnlyRegs fs s t) : t.mt = s.mt := by rw [h.2.2]
theorem OnlyRegs.rtc (h : OnlyRegs fs s t) : t.rtc = s.rtc := by rw [h.2.2]

/-! ### Registers by power domain -/

/-- The registers that return to their reset values with their power domain. -/
def inDom (d : Dom) (a : Nat) : Bool :=
  match blockOf a with
  | some b => b.dom == d && a != SVCWIRE.ADDR
  | none => false

theorem State.resetDomRegs_eq (s : State) (d : Dom) : s.resetDomRegs d = s.resetRegs (inDom d) := rfl

theorem State.get_resetDomRegs_self {d : Dom} (hl : g.lo < 32) (hg : inDom d g.addr = true) (s : State) :
    (s.resetDomRegs d).get g = fieldReset g.key := by
  rw [State.resetDomRegs_eq, State.get_resetRegs_self hl hg]; rfl

/-- The registers that the loss of the domains `ds` may change: theirs, the measurement's and the discipline's status. -/
def lossRegs (ds : List Dom) (a : Nat) : Bool := ds.any (inDom · a) || a == VAULTCTL.STAT || a == RTC.STAT

theorem lossRegs_mono (h : ds ⊆ es) (a : Nat) (ha : lossRegs ds a = true) : lossRegs es a = true := by
  simp only [lossRegs, Bool.or_eq_true, List.any_eq_true] at ha ⊢
  exact ha.imp (.imp (fun ⟨d, hd, hin⟩ => ⟨d, h hd, hin⟩) id) id

/-- Beside the registers of the domains `ds` a loss of power leaves the ladder, the boot record and the RTC's count as they are. -/
structure PowerLoss (ds : List Dom) (s t : State) : Prop where
  regs : RegsOutside (lossRegs ds) s t
  pwr : t.pwr = s.pwr
  boot : t.boot = s.boot
  sub : t.rtc.sub = s.rtc.sub

theorem PowerLoss.refl (ds : List Dom) (s : State) : PowerLoss ds s s := ⟨.refl _ s, rfl, rfl, rfl⟩

theorem PowerLoss.trans (h : PowerLoss ds s t) (k : PowerLoss ds t u) : PowerLoss ds s u :=
  ⟨h.regs.trans k.regs, k.pwr.trans h.pwr, k.boot.trans h.boot, k.sub.trans h.sub⟩

theorem PowerLoss.mono (h : PowerLoss ds s t) (hsub : ds ⊆ es) : PowerLoss es s t :=
  ⟨h.regs.mono (lossRegs_mono hsub), h.pwr, h.boot, h.sub⟩

/-- An update of other fields. -/
theorem PowerLoss.upd (h : PowerLoss ds s t) (hregs : u.regs = t.regs := by rfl) (hpwr : u.pwr = t.pwr := by rfl)
    (hboot : u.boot = t.boot := by rfl) (hsub : u.rtc.sub = t.rtc.sub := by rfl) : PowerLoss ds s u :=
  ⟨h.regs.regs hregs, hpwr.trans h.pwr, hboot.trans h.boot, hsub.trans h.sub⟩

theorem PowerLoss.set (h : PowerLoss ds s t) (f : RF) (v : Nat) (hl : f.lo < 32 := by decide)
    (hf : lossRegs ds f.addr = true := by decide) : PowerLoss ds s (t.set f v) :=
  ⟨h.regs.set hl hf v, h.pwr, h.boot, h.sub⟩

theorem PowerLoss.ite {c : Prop} [Decidable c] (ht : PowerLoss ds s t) (hu : PowerLoss ds s u) : PowerLoss ds s (if c then t else u) := by
  split
  · exact ht
  · exact hu

theorem PowerLoss.resetDom (h : PowerLoss ds s t) {d : Dom} (hd : d ∈ ds) : PowerLoss ds s (t.resetDomRegs d) := by
  refine ⟨fun g hl hg => ?_, h.pwr, h.boot, h.sub⟩
  have hout : inDom d g.addr = false := Bool.eq_false_iff.2 fun hin =>
    Bool.eq_false_iff.1 hg (by simp only [lossRegs, Bool.or_eq_true, List.any_eq_true]; exact .inl (.inl ⟨d, hd, hin⟩))
  rw [State.resetDomRegs_eq, State.get_resetRegs_other hl hout, h.regs g hl hg]

theorem PowerLoss.pokes (h : PowerLoss ds s t) (a : Nat) (l : List Byte) : PowerLoss ds s (t.pokes a l) := by
  rw [State.pokes_fields]; exact h.upd

theorem PowerLoss.garble (h : PowerLoss ds s t) (lo n : Nat) : PowerLoss ds s (t.garble lo n) := h.upd

theorem PowerLoss.eraseRange (h : PowerLoss ds s t) (lo n : Nat) : PowerLoss ds s (t.eraseRange lo n) := h.upd

theorem PowerLoss.get (h : PowerLoss ds s t) (hl : g.lo < 32) (hg : lossRegs ds g.addr = false) : t.get g = s.get g := h.regs g hl hg

/-! ### Work that a loss of power cuts off (R273, R288, R336) -/

theorem PowerLoss.setDirty (h : PowerLoss [.sys] s t) (k : Nat) (b : Bool) : PowerLoss [.sys] s (t.setBit RECSTORE.DIRTY_MASK_DIRTY k b) :=
  (h.set RECSTORE.DIRTY_MASK_DIRTY (setBit (t.get RECSTORE.DIRTY_MASK_DIRTY) k b)).upd

theorem PowerLoss.tearSector (h : PowerLoss [.sys] s t) (k : Nat) : PowerLoss [.sys] s (t.tearSector k) := (h.setDirty k true).upd

theorem PowerLoss.recAct (h : PowerLoss [.sys] s t) (a : RecAct) : PowerLoss [.sys] s (t.recAct a) := by
  cases a with
  | word o w => exact h.pokes _ _
  | erase k => exact ((h.eraseRange _ _).setDirty k false).upd

theorem PowerLoss.recActs (h : PowerLoss [.sys] s t) (l : List RecAct) : PowerLoss [.sys] s (t.recActs l) :=
  List.foldlRecOn l _ (motive := fun t => PowerLoss [.sys] s t) h fun _ ht a _ => ht.recAct a

theorem PowerLoss.halfErased (h : PowerLoss [.sys] s t) (k : Nat) : PowerLoss [.sys] s (t.halfErased k) :=
  (h.garble _ _).tearSector k

theorem PowerLoss.halfWord (h : PowerLoss [.sys] s t) (o : Nat) : PowerLoss [.sys] s (t.halfWord o) := by
  have hbad : PowerLoss [.sys] s (t.badWord (recAddr o)) := h.garble _ _
  rw [State.halfWord]
  split
  · exact hbad.tearSector _
  · exact hbad

theorem PowerLoss.stopRec (h : PowerLoss [.sys] s t) (c : RecCmd) (n : Nat) : PowerLoss [.sys] s (t.stopRec c n) := by
  rw [State.stopRec]
  split
  · exact h.recActs _
  · refine List.foldlRecOn (c.acts.take n) _ (motive := fun t => PowerLoss [.sys] s t) (h.recActs _) fun _ ht a _ => ?_
    cases a with
    | word o w => exact ht
    | erase k => exact ht.tearSector k

/-- A record-store command that is cut off (R273). -/
theorem PowerLoss.cutRec (h : PowerLoss [.sys] s t) : PowerLoss [.sys] s t.cutRec := by
  unfold State.cutRec
  split
  case h_1 => exact h
  case h_2 c _ =>
    have hstop : ∀ n, PowerLoss [.sys] s (t.fresh.2.stopRec c n) := PowerLoss.stopRec (t := t.fresh.2) h.upd c
    dsimp only [State.fresh] at hstop ⊢
    split
    · exact hstop _
    · split
      · exact (hstop _).halfErased _
      · exact (hstop _).halfWord _
      · exact hstop _

theorem PowerLoss.eraseStore (h : PowerLoss [.sys] s t) : PowerLoss [.sys] s t.eraseStore := by
  have hall : PowerLoss [.sys] s ((List.range 32).foldl (fun s k => s.recActs (s.eraseActs k)) t) :=
    List.foldlRecOn _ _ (motive := fun t => PowerLoss [.sys] s t) h fun t ht k _ => ht.recActs (t.eraseActs k)
  rw [State.eraseStore]
  generalize (List.range 32).foldl (fun s k => s.recActs (s.eraseActs k)) t = v at hall ⊢
  exact hall.upd

theorem PowerLoss.eraseForReturn (h : PowerLoss [.sys] s t) : PowerLoss [.sys] s t.eraseForReturn :=
  ((h.eraseRange _ _).set VAULTCTL.STAT_MCACHE_VALID 0).eraseStore

theorem PowerLoss.burnFuses (h : PowerLoss ds s t) (target n : Nat) (key : Bool) : PowerLoss ds s (t.burnFuses target n key) := h.upd

/-- A life-cycle change that is cut off (R288). -/
theorem PowerLoss.cutChange (h : PowerLoss [.sys] s t) : PowerLoss [.sys] s t.cutChange := by
  unfold State.cutChange
  split
  case h_1 => exact h
  case h_2 target _ =>
    extract_lets sc ended x begun n key
    have hended : PowerLoss [.sys] s ended := h.upd
    have hbegun : PowerLoss [.sys] s begun := hended.upd
    clear_value ended begun
    refine .ite hended (.ite (hbegun.burnFuses target n key) ?_)
    split
    · exact hbegun
    · refine List.foldlRecOn _ _ (motive := fun t => PowerLoss [.sys] s t) ?_ fun _ ht k _ => ht.halfErased k
      exact (hbegun.garble 0x08000000 0x210000).set VAULTCTL.STAT_MCACHE_VALID 0
    · exact hbegun.eraseForReturn.burnFuses target n key

/-! ### The domains of the main part (R29, R30) -/

theorem State.offLane_loss (s : State) : PowerLoss [.lane] s s.offLane :=
  ((PowerLoss.refl _ s).resetDom (d := .lane) (by simp)).upd

theorem State.get_offLane (hl : g.lo < 32) (hg : inDom .lane g.addr = true) (s : State) : s.offLane.get g = fieldReset g.key :=
  State.get_resetDomRegs_self hl hg s

theorem PowerLoss.dropSamples (h : PowerLoss [.link, .sys] s t) (p : Fin 2) : PowerLoss [.link, .sys] s (t.dropSamples p) := by
  rw [State.dropSamples]
  split
  · exact ((h.set MTIME.LINKDLY_A_SAMPLES 0).set MTIME.LINKDLY_A_VALID 0).upd
  · exact ((h.set MTIME.LINKDLY_B_SAMPLES 0).set MTIME.LINKDLY_B_VALID 0).upd

theorem State.offLink_loss (s : State) : PowerLoss [.link, .sys] s s.offLink :=
  ((((PowerLoss.refl _ s).dropSamples 0).dropSamples 1).resetDom (d := .link) (by simp)).upd

theorem State.get_offLink (hl : g.lo < 32) (hg : inDom .link g.addr = true) (s : State) : s.offLink.get g = fieldReset g.key :=
  State.get_resetDomRegs_self hl hg ((s.dropSamples 0).dropSamples 1)

theorem State.offMgt_loss (s : State) : PowerLoss [.mgt, .sys] s s.offMgt :=
  (((PowerLoss.refl _ s).cutChange.mono (by simp)).resetDom (d := .mgt) (by simp)).upd

theorem PowerLoss.showMode (h : PowerLoss [.sys] s t) : PowerLoss [.sys] s t.showMode :=
  (h.set PWRCTL.STAT_DOCKED _).set PWRCTL.STAT_REG_LP _

theorem PowerLoss.showDisc (h : PowerLoss [.sys] s t) : PowerLoss [.sys] s t.showDisc := by
  have hact := h.set RTC.STAT_DISC_ACT (b2n t.discNow)
  rcases t.showDisc_cases with hd | hd <;> rw [hd]
  · exact hact
  · exact hact.upd

/-- What PD_SYS cuts off where it loses its power. -/
theorem State.cutSys_loss (s : State) : PowerLoss [.sys] s s.cutErase.resetMarch.resetFlash.resetRec := by
  have herase : PowerLoss [.sys] s s.cutErase := by
    rw [State.cutErase]
    split
    · exact (PowerLoss.refl _ s).upd
    · exact .refl _ s
  have hmarch : PowerLoss [.sys] s s.cutErase.resetMarch := by
    rw [State.resetMarch]
    split
    · exact herase.upd
    · exact herase.upd
  have hflash : PowerLoss [.sys] s s.cutErase.resetMarch.resetFlash := by
    unfold State.resetFlash
    split
    · exact hmarch
    · exact hmarch.upd
  exact hflash.cutRec.upd

theorem State.loseBanks_fields (s : State) (keep : Nat) : s.loseBanks keep =
    { s with mem := (s.loseBanks keep).mem, epoch := (s.loseBanks keep).epoch } := by
  refine List.foldlRecOn _ _ (motive := fun t : State => t = { s with mem := t.mem, epoch := t.epoch }) rfl fun t ht k _ => ?_
  split
  · exact ht
  · rw [ht]; rfl

theorem State.get_loseBanks (s : State) (keep : Nat) (g : RF) : (s.loseBanks keep).get g = s.get g := by
  rw [State.loseBanks_fields, State.get_fields]

theorem State.resetPdSys_loss (s : State) : PowerLoss [.sys] s s.resetPdSys :=
  PowerLoss.showDisc (PowerLoss.showMode ((s.cutSys_loss.resetDom (d := .sys) (by simp)).upd))

theorem State.offSys_loss (s : State) (keep : Nat) : PowerLoss [.sys] s (s.offSys keep) := by
  have hbanks : PowerLoss [.sys] s (s.resetPdSys.loseBanks keep) := by
    rw [State.loseBanks_fields]; exact s.resetPdSys_loss.upd
  exact hbanks.upd

theorem State.get_offSys (hl : g.lo < 32) (hg : inDom .sys g.addr = true) (hmode : g.addr ≠ PWRCTL.STAT) (hdisc : g.addr ≠ RTC.STAT)
    (s : State) (keep : Nat) : (s.offSys keep).get g = fieldReset g.key := by
  have hsys : s.resetPdSys.get g = fieldReset g.key := by
    rw [State.resetPdSys, State.get_showDisc_other (RF.key_ne_of_addr hdisc hl), State.showMode,
      State.get_setF_other (RF.key_ne_of_addr hmode hl), State.get_setF_other (RF.key_ne_of_addr hmode hl)]
    exact State.get_resetDomRegs_self hl hg _
  rw [State.offSys, State.get_lose, State.get_lose, State.get_loseBanks, hsys]

theorem State.mt_offSys (s : State) (keep : Nat) : (s.offSys keep).mt = 0 := by
  have hsys : s.resetPdSys.mt = 0 := by
    rw [State.resetPdSys]
    rcases State.showDisc_cases (State.showMode _) with hd | hd <;> rw [hd] <;> rfl
  rw [State.offSys, State.mt_lose, State.mt_lose, State.loseBanks_fields, hsys]

end

end Sys2Proof.Machine

/-! ## Wake sources, exits from a step and a core brown-out (09_power_ladder.md, R196, R198, R200, R201, R203, R206) -/

namespace Sys2Proof.Machine

section
variable {s t : State} {fs : List RF} {srcs : Nat}

/-! ### Wake events (R198, R200, R201) -/

theorem exec_wakeEvent_sources {srcs : BitVec 10} (h : srcs ≠ 0) : exec (.wakeEvent srcs) s = .next (s.wakeSrc srcs.toNat) :=
  congrArg Host.Outcome.next (if_neg h)

theorem exec_wakeEvent_interrupt (s : State) : exec (.wakeEvent 0) s = .next s.coreWake := rfl

theorem State.coreWake_ends (hreq : s.pwr.req = none) (hentry : s.pwr.entry = none) (hexit : s.pwr.exit = none)
    (hstep : s.pwr.step = .hover ∨ (s.pwr.step = .rest ∧ s.restIrq = true)) :
    s.coreWake = { s with pwr := { s.pwr with exit := some s.pwr.step } } := by
  rw [State.coreWake, if_neg (by simp [hentry]), if_neg (by simp [hreq]), if_neg (by simp [hexit]), if_pos hstep]

theorem State.coreWake_aborts (hentry : s.pwr.entry = none) (hreq : s.pwr.req ≠ none) :
    s.coreWake = State.setStep { s.set PWRCTL.STAT_ABORTED 1 with pwr := { s.pwr with req := none } } .run := by
  rw [State.coreWake, if_neg (by simp [hentry]), if_pos (Option.isSome_iff_ne_none.2 hreq)]

theorem State.coreWake_held (hentry : s.pwr.entry = some .rest) (hirq : s.restIrq = true) :
    s.coreWake = { s with pwr := { s.pwr with irqHeld := true } } := by
  rw [State.coreWake, if_pos (by simp [hentry]), if_pos ⟨hentry, hirq⟩]

/-- The sources of a wake that WAKE_EN and the step let pass (R200). -/
def State.enabledWake (s : State) (srcs : Nat) : Nat :=
  srcs &&& s.get AONCTL.WAKE_EN_EN &&& wakeMask s.pwr.step (s.on AONCTL.MODE_DOCKED)

theorem State.wakeSrc_disabled (hentry : s.pwr.entry = none) (hnone : s.enabledWake srcs = 0) : s.wakeSrc srcs = s := by
  unfold State.wakeSrc
  simp only [hentry]
  exact if_pos (.inl hnone)

section
variable (hreq : s.pwr.req = none) (hentry : s.pwr.entry = none) (hexit : s.pwr.exit = none) (hcold : s.pwr.coldHold = false)
include hreq hentry hexit hcold

/-- A wake from Torpor is recorded, and the exit begins. -/
theorem State.wakeSrc_torpor (hstep : s.pwr.step = .torpor) (hsome : s.enabledWake srcs ≠ 0) : s.wakeSrc srcs =
    { s.recordWake (lowestBit (s.enabledWake srcs)) (s.enabledWake srcs) .torpor with pwr := { s.pwr with exit := some .torpor } } := by
  simp only [State.enabledWake, hstep] at hsome ⊢
  simp only [State.wakeSrc, hstep, hreq, hentry, hexit, hcold, hsome, Option.isSome_none, Bool.false_eq_true, or_self, if_false]

/-- In Diapause sources that go to Cricket alone interrupt it. -/
theorem State.wakeSrc_cricket (hstep : s.pwr.step = .diapause) (hsome : s.enabledWake srcs ≠ 0)
    (hmain : s.enabledWake srcs &&& (1023 - s.get AONCTL.WAKE_DEST_DEST) = 0)
    (hcrk : s.enabledWake srcs &&& s.get AONCTL.WAKE_DEST_DEST ≠ 0) : s.wakeSrc srcs = s.set TOUCH.CRK_IRQ_STAT_WAKE 1 := by
  simp only [State.enabledWake, hstep] at hsome hmain hcrk
  simp only [State.wakeSrc, hstep, hreq, hentry, hexit, hcold, hsome, hmain, hcrk, Option.isSome_none, Bool.false_eq_true, or_self,
    if_false, if_true]

end

theorem OnlyRegs.withPwr (h : OnlyRegs fs s t) (p : PwrSt) : OnlyRegs fs { s with pwr := p } { t with pwr := p } :=
  ⟨h.1, h.2.1, congrArg (fun x : State => { x with pwr := p }) h.2.2⟩

theorem State.portWake_fields (s : State) (srcs : Nat) : s.portWake srcs = { s with ring := (s.portWake srcs).ring } := by
  rw [State.portWake]; split <;> rfl

/-- What WAKE_CAUSE shows of a wake (R201), whatever the ladder's own state becomes with it. -/
theorem State.recordWake_shown (s : State) (first srcs : Nat) (st : PStep) (p : PwrSt) :
    let t : State := { s.recordWake first srcs st with pwr := p }
    t.get AONCTL.WAKE_CAUSE_FIRST = first % 2 ^ 5 ∧ t.get AONCTL.WAKE_CAUSE_CAUSE = (s.get AONCTL.WAKE_CAUSE_CAUSE ||| srcs) % 2 ^ 10 ∧
    t.get AONCTL.WAKE_CAUSE_FROM = st.code % 2 ^ 3 ∧
    OnlyRegs [AONCTL.WAKE_CAUSE_FIRST, AONCTL.WAKE_CAUSE_CAUSE, AONCTL.WAKE_CAUSE_FROM] { s with pwr := p, ring := t.ring } t := by
  intro t
  have hsources : OnlyRegs [AONCTL.WAKE_CAUSE_FIRST, AONCTL.WAKE_CAUSE_CAUSE, AONCTL.WAKE_CAUSE_FROM] s
      ((s.orBits AONCTL.WAKE_CAUSE_CAUSE srcs).set AONCTL.WAKE_CAUSE_FIRST first) :=
    (((OnlyRegs.refl _ s).put (by simp) _).now _).set (by simp) _
  have ht : t = { (State.set { (s.orBits AONCTL.WAKE_CAUSE_CAUSE srcs).set AONCTL.WAKE_CAUSE_FIRST first with ring := t.ring }
      AONCTL.WAKE_CAUSE_FROM st.code) with pwr := p } := by
    simp only [t, State.recordWake]
    rw [State.portWake_fields]; rfl
  refine ⟨?_, ?_, ?_, ?_⟩
  · rw [ht, State.get_fields, State.get_set_other (by decide), State.get_fields, State.get_set_self]; rfl
  · rw [ht, State.get_fields, State.get_set_other (by decide), State.get_fields, State.get_set_other (by decide), State.get_orBits,
      State.get_set_self]; rfl
  · rw [ht, State.get_fields, State.get_set_self]; rfl
  · rw [ht]
    exact ((hsources.withRing _).set (by simp) _).withPwr p

/-! ### The exit ends (R203) -/

/-- The main domain's way back from the step it left. -/
def State.wayBack (s : State) (st : PStep) : State :=
  match st with
  | .rest => s.exitRest.restartWdog.ringUnpark
  | .torpor => s.exitTorpor.restartWdog.ringUnpark
  | .diapause => s.exitDeep.touchExit
  | .pupa => s.exitDeep
  | _ => s

theorem exec_stepExitComplete {st : PStep} (hexit : s.pwr.exit = some st) : exec .stepExitComplete s = .next
    (((((State.setStep { s with pwr := { s.pwr with exit := none } } .run).wayBack st).set PWRCTL.STAT_LAST_EXIT st.code).set
      TOUCH.CRK_IRQ_STAT_MAIN_UP 1).showClocks.tamperReport) := by
  change execStepExitComplete s = _
  rw [execStepExitComplete, hexit]
  cases st <;> rfl

/-! ### A core brown-out (R196, R206) -/

theorem OnlyRegs.withTouch (h : OnlyRegs fs s t) (x : TouchSt) : OnlyRegs fs { s with touch := x } { t with touch := x } :=
  ⟨h.1, h.2.1, congrArg (fun y : State => { y with touch := x }) h.2.2⟩

theorem OnlyRegs.showClocks (h : OnlyRegs fs s t) (hmhz : CLKGEN.STAT_SYS_MHZ ∈ fs) (hrelock : CLKGEN.STAT_RELOCK ∈ fs)
    (hosc : TOUCH.CRK_CTRL_OSC_MHZ ∈ fs) : OnlyRegs fs s t.showClocks :=
  ((h.set hmhz _).setF hrelock _).set hosc _

/-- The main domain leaves Diapause: the touch interface's stage and its own state (R237). -/
theorem OnlyRegs.touchExit (h : OnlyRegs fs s t) (hstage : TOUCH.STAT_STAGE ∈ fs) :
    OnlyRegs fs { s with touch := t.touchExit.touch } t.touchExit := by
  rw [State.touchExit]
  split
  · exact h.withTouch _
  · split
    · exact (h.set hstage _).withTouch _
    · exact (h.set hstage _).withTouch _

/-- After a brown-out in Diapause the touch interface goes on as with the exit. -/
def State.resumeTouch (t : State) (st : PStep) : State := if st = .diapause then t.touchExit else t

/-- What the registers record of a brown-out. -/
def State.noteBrownOut (t : State) : State :=
  ((t.count AONCTL.BOD_CNT_COUNT AONCTL.BOD_CNT_OVF).set TOUCH.CRK_IRQ_STAT_BOD 1).showClocks

theorem exec_coreBrownOut_supplied (h : s.coreSupplied = true) :
    exec .coreBrownOut s = .next ((s.powerCycleMain 5).resumeTouch s.pwr.step).noteBrownOut := by
  change execCoreBrownOut s = _
  rw [execCoreBrownOut, h]; rfl

/-- The registers that a brown-out changes beside those of the domains that power-cycle. -/
@[simp] def brownOutFields : List RF := [TOUCH.STAT_STAGE, AONCTL.BOD_CNT_COUNT, AONCTL.BOD_CNT_OVF, TOUCH.CRK_IRQ_STAT_BOD,
  CLKGEN.STAT_SYS_MHZ, CLKGEN.STAT_RELOCK, TOUCH.CRK_CTRL_OSC_MHZ]

theorem State.noteBrownOut_only (t : State) (st : PStep) :
    OnlyRegs brownOutFields { t with touch := (t.resumeTouch st).touch } (t.resumeTouch st).noteBrownOut := by
  have htouch : OnlyRegs brownOutFields { t with touch := (t.resumeTouch st).touch } (t.resumeTouch st) := by
    unfold State.resumeTouch
    split
    · exact (OnlyRegs.refl _ t).touchExit (by simp)
    · exact .refl _ t
  exact OnlyRegs.showClocks ((htouch.count (by simp) (by simp)).set (by simp) 1) (by simp) (by simp) (by simp)

theorem State.noteBrownOut_shown (t : State) (st : PStep) : let u := (t.resumeTouch st).noteBrownOut
    u.pwr = t.pwr ∧ u.boot = t.boot ∧ u.mt = t.mt ∧ u.rtc = t.rtc ∧ u.get TOUCH.CRK_IRQ_STAT_BOD = 1 ∧
    ∀ g : RF, (∀ f ∈ brownOutFields, g.key ≠ f.key) → u.get g = t.get g := by
  intro u
  have honly := t.noteBrownOut_only st
  refine ⟨honly.pwr, honly.boot, honly.mt, honly.rtc, ?_, fun g hg => honly.1 g hg⟩
  simp only [u]
  rw [State.noteBrownOut, State.showClocks, State.get_set_other (by decide), State.get_setF_other (by decide),
    State.get_set_other (by decide), State.get_set_self]; rfl

/-- What the VCORE domains lose and what they keep, before the ladder starts again. -/
def State.losePower (s : State) : State := s.offLane.offLink.offMgt.offSys 0

theorem State.losePower_loss (s : State) : PowerLoss [.lane, .link, .mgt, .sys] s s.losePower :=
  (((s.offLane_loss.mono (by simp)).trans (s.offLane.offLink_loss.mono (by simp))).trans (s.offLane.offLink.offMgt_loss.mono (by simp))).trans
    ((s.offLane.offLink.offMgt.offSys_loss 0).mono (by simp))

theorem State.losePower_shown (s : State) : s.losePower.get MTIME.STATUS_STATE = 0 ∧ s.losePower.mt = 0 ∧
    (∀ n : Fin 10, s.losePower.get (LANE.STAT_LSTATE n) = 0) ∧ s.losePower.get RINGCTL.STAT_RSTATE = 0 := by
  have hpast : PowerLoss [.link, .mgt, .sys] s.offLane s.losePower :=
    ((s.offLane.offLink_loss.mono (by simp)).trans (s.offLane.offLink.offMgt_loss.mono (by simp))).trans
      ((s.offLane.offLink.offMgt.offSys_loss 0).mono (by simp))
  have hdown : PowerLoss [.mgt, .sys] s.offLane.offLink s.losePower :=
    s.offLane.offLink.offMgt_loss.trans ((s.offLane.offLink.offMgt.offSys_loss 0).mono (by simp))
  refine ⟨?_, State.mt_offSys _ 0, fun n => ?_, ?_⟩
  · exact State.get_offSys (by decide) (by decide) (by decide) (by decide) _ 0
  · revert n
    have hin : ∀ n : Fin 10, inDom .lane (LANE.STAT n) = true := by decide
    have hout : ∀ n : Fin 10, lossRegs [.link, .mgt, .sys] (LANE.STAT n) = false := by decide
    have hzero : ∀ n : Fin 10, fieldReset (LANE.STAT_LSTATE n).key = 0 := by decide
    intro n
    rw [hpast.get (by simp) (hout n), State.get_offLane (by simp) (hin n), hzero n]
  · rw [hdown.get (by decide) (by decide), State.get_offLink (by decide) (by decide)]; rfl

theorem State.powerCycleMain_eq (s : State) (code : Nat) : s.powerCycleMain code = (s.losePower.startMain code).rstCause code := rfl

/-- After a brown-out the ladder starts in Run, unless a cold start holds it. -/
theorem State.powerCycleMain_shown (hcold : s.pwr.coldHold = false) : let t := s.powerCycleMain 5
    t.pwr.step = .run ∧ t.get AONCTL.RST_CAUSE_BOD = 1 ∧ t.boot.code = 5 ∧ t.boot.released = false ∧
    t.mt = 0 ∧ t.rtc.sub = s.rtc.sub := by
  have hloss := s.losePower_loss
  have hmt := State.mt_offSys s.offLane.offLink.offMgt 0
  have hrun : s.losePower.pwr.coldHold = false := by rw [hloss.pwr, hcold]
  rw [State.powerCycleMain_eq]
  change s.losePower.mt = 0 at hmt
  generalize s.losePower = v at hloss hmt hrun
  refine ⟨?_, State.get_set_self _ _ 1, rfl, rfl, hmt, hloss.sub⟩
  change (if v.pwr.coldHold = true then PStep.pupa else PStep.run) = .run
  rw [hrun]; rfl

theorem State.get_powerCycleMain {g : RF} (hstep : g.key ≠ AONCTL.STEP_STEP.key) (hcause : g.key ≠ AONCTL.RST_CAUSE_BOD.key) (s : State) :
    (s.powerCycleMain 5).get g = s.losePower.get g := by
  rw [State.powerCycleMain_eq, State.rstCause, State.get_set_other hcause, State.startMain, State.get_fields, State.get_set_other hstep]

/-- What a brown-out leaves, in the main domain and beside it. -/
theorem coreBrownOut_shown (hsupply : s.coreSupplied = true) (hcold : s.pwr.coldHold = false) : Yields .coreBrownOut s fun t =>
    t.pwr.step = .run ∧ t.get AONCTL.RST_CAUSE_BOD = 1 ∧ t.get TOUCH.CRK_IRQ_STAT_BOD = 1 ∧ t.boot.code = 5 ∧ t.boot.released = false ∧
    t.get MTIME.STATUS_STATE = 0 ∧ t.mt = 0 ∧ (∀ n : Fin 10, t.get (LANE.STAT_LSTATE n) = 0) ∧
    t.get RINGCTL.STAT_RSTATE = 0 ∧ t.get TOUCH.CRK_CTRL_RUN = s.get TOUCH.CRK_CTRL_RUN ∧ t.rtc.sub = s.rtc.sub := by
  refine ⟨_, exec_coreBrownOut_supplied hsupply, ?_⟩
  obtain ⟨hstep, hcause, hcode, hreleased, hmt, hsub⟩ := State.powerCycleMain_shown hcold
  obtain ⟨hstate, _, hlanes, hring⟩ := s.losePower_shown
  obtain ⟨hpwr, hboot, hmtKept, hrtc, hirq, hregs⟩ := (s.powerCycleMain 5).noteBrownOut_shown s.pwr.step
  have hmain {g : RF} := State.get_powerCycleMain (g := g) (s := s)
  generalize ((s.powerCycleMain 5).resumeTouch s.pwr.step).noteBrownOut = u at *
  generalize s.powerCycleMain 5 = t at *
  have hkept {g : RF} (hg : ∀ f ∈ AONCTL.STEP_STEP :: AONCTL.RST_CAUSE_BOD :: brownOutFields, g.key ≠ f.key) :
      u.get g = s.losePower.get g :=
    (hregs g fun f hf => hg f (List.mem_cons_of_mem _ (List.mem_cons_of_mem _ hf))).trans (hmain (hg _ (by simp)) (hg _ (by simp)))
  have hlane : ∀ n : Fin 10, ∀ f ∈ AONCTL.STEP_STEP :: AONCTL.RST_CAUSE_BOD :: brownOutFields, (LANE.STAT_LSTATE n).key ≠ f.key := by
    decide
  exact ⟨by rw [hpwr, hstep], (hregs _ (by decide)).trans hcause, hirq, by rw [hboot, hcode], by rw [hboot, hreleased],
    (hkept (by decide)).trans hstate, by rw [hmtKept, hmt], fun n => (hkept (hlane n)).trans (hlanes n), (hkept (by decide)).trans hring,
    (hkept (by decide)).trans (s.losePower_loss.get (by decide) (by decide)), by rw [hrtc, hsub]⟩

/-! ### FIRST (R201) -/

/-- FIRST names the lowest source of a wake, and nothing where there is none. -/
theorem lowestBit_least {m : Nat} (hm : m < 1024) : (m = 0 → lowestBit m = 0x1F) ∧
    (m ≠ 0 → getBit m (lowestBit m) = true ∧ ∀ i, i < lowestBit m → getBit m i = false) := by
  refine ⟨fun h => by subst h; decide, fun h => ?_⟩
  rw [lowestBit]
  cases hfind : (List.range 10).find? fun i => getBit m i with
  | none =>
    refine absurd (Nat.eq_of_testBit_eq fun i => ?_) h
    rw [Nat.zero_testBit, ← getBit_eq_testBit]
    by_cases hi : i < 10
    · simpa using List.find?_eq_none.1 hfind i (List.mem_range.2 hi)
    · rw [getBit_eq_testBit]
      exact Nat.testBit_lt_two_pow (hm.trans_le (Nat.pow_le_pow_right (n := 2) (by decide) (Nat.le_of_not_lt hi)))
  | some k =>
    obtain ⟨hk, _, hleast⟩ := List.find?_range_eq_some.1 hfind
    exact ⟨hk, fun i hi => by simpa using hleast i hi⟩

end

/-- Settles O31: an event is a wake or an interrupt, a wake is judged in the step it meets, each exit is what its step's way
back does, and a brown-out is what the four VCORE domains lose. -/
theorem wakesAndExits : Obligations.WakesAndExits := by
  refine ⟨fun srcs s h => exec_wakeEvent_sources h, fun s => ⟨fun hreq hentry hexit hstep => ?ends, fun hentry hreq => ?aborts,
    fun hentry hirq => ?held⟩, fun srcs s hstep hreq hentry hexit hcold => ?torpor,
    fun srcs s hstep hreq hentry hexit hcold => ?diapause, fun s => ?exits,
    fun s hsupply hcold => coreBrownOut_shown hsupply hcold, fun m hm => lowestBit_least hm⟩
  case ends => rw [exec_wakeEvent_interrupt, State.coreWake_ends hreq hentry hexit hstep]
  case aborts => rw [exec_wakeEvent_interrupt, State.coreWake_aborts hentry hreq]
  case held => rw [exec_wakeEvent_interrupt, State.coreWake_held hentry hirq]
  case torpor =>
    have hen : srcs &&& s.get AONCTL.WAKE_EN_EN &&& wakeMask .torpor (s.on AONCTL.MODE_DOCKED) = s.enabledWake srcs := by
      rw [State.enabledWake, hstep]
    rw [hen]
    refine ⟨State.wakeSrc_disabled hentry, fun hsome => ?_⟩
    rw [State.wakeSrc_torpor hreq hentry hexit hcold hstep hsome]
    exact ⟨rfl, State.recordWake_shown s _ _ .torpor _⟩
  case diapause =>
    have hen : srcs &&& s.get AONCTL.WAKE_EN_EN &&& wakeMask .diapause (s.on AONCTL.MODE_DOCKED) = s.enabledWake srcs := by
      rw [State.enabledWake, hstep]
    rw [hen]
    exact fun hsome hmain hcrk => State.wakeSrc_cricket hreq hentry hexit hcold hstep hsome hmain hcrk
  case exits =>
    exact ⟨exec_stepExitComplete, exec_stepExitComplete, exec_stepExitComplete, exec_stepExitComplete, exec_stepExitComplete⟩

end Sys2Proof.Machine

/-! ## Docking, detachment and the clocks (09_power_ladder.md, R193, R194, R207, R208; R28) -/

namespace Sys2Proof.Machine

section
variable {s t u : State} {fs : List RF} {v : Word}

/-! ### What docking and detachment show (R193, R194) -/

/-- The registers that a change of mode shows in. -/
@[simp] def modeFields : List RF := [PWRCTL.STAT_MODE_CHG, PWRCTL.STAT_DOCKED, PWRCTL.STAT_REG_LP, TOUCH.CRK_IRQ_STAT_MODE]

theorem State.modeChanged_only (s : State) : OnlyRegs modeFields s s.modeChanged := by
  have hshown : OnlyRegs modeFields s (if s.sysHeld = true then (s.set PWRCTL.STAT_MODE_CHG 1).showMode else s) := by
    split
    · exact (((OnlyRegs.refl _ s).set (by simp) 1).setF (by simp) _).setF (by simp) _
    · exact .refl _ s
  unfold State.modeChanged
  generalize (if s.sysHeld = true then (s.set PWRCTL.STAT_MODE_CHG 1).showMode else s) = m at hshown ⊢
  dsimp only
  split
  · exact hshown.set (by simp) 1
  · exact hshown

theorem State.pwr_showDisc (s : State) : s.showDisc.pwr = s.pwr := by
  rcases s.showDisc_cases with h | h <;> rw [h] <;> rfl

theorem State.pwr_endScLatch (s : State) : s.endScLatch.pwr = s.pwr := by
  rw [State.endScLatch]; split <;> rfl

/-- The registers that a docking shows in. -/
@[simp] def dockFields : List RF := [AONCTL.MODE_DOCKED, AONCTL.MODE_VIN_NOW, AONCTL.MODE_DOCK_EV, AONCTL.DOCK_CNT_COUNT,
  AONCTL.DOCK_CNT_OVF, AONCTL.DOCK_AT_LO_SECS, AONCTL.AT_HI_DOCK_HI]

theorem State.get_count_other {c o g : RF} (hc : g.key ≠ c.key) (ho : g.key ≠ o.key) (s : State) : (s.count c o).get g = s.get g := by
  rw [State.get_count, if_neg hc, if_neg ho, ite_self]

theorem State.noteDock_shown (s : State) : s.noteDock.on AONCTL.MODE_DOCKED = true ∧ s.noteDock.get AONCTL.MODE_VIN_NOW = 1 ∧
    s.noteDock.get AONCTL.MODE_DOCK_EV = 1 ∧ s.noteDock.get AONCTL.DOCK_AT_LO_SECS = s.calSecs % 2 ^ 32 ∧
    OnlyRegs dockFields s s.noteDock := by
  unfold State.noteDock
  refine ⟨beq_iff_eq.2 ?_, ?_, ?_, ?_, ?_⟩
  · simp (disch := decide) only [State.get_set_other, State.get_count_other, State.get_set_self]; rfl
  · simp (disch := decide) only [State.get_set_other, State.get_count_other, State.get_set_self]; rfl
  · simp (disch := decide) only [State.get_set_other, State.get_count_other, State.get_set_self]; rfl
  · simp (disch := decide) only [State.get_set_other, State.get_set_self]
    exact Nat.mod_mod _ _
  · exact ((((((OnlyRegs.refl _ s).set (by simp) _).set (by simp) _).set (by simp) _).count (by simp) (by simp)).set (by simp) _).set
      (by simp) _

/-- The registers that a detachment shows in. -/
@[simp] def detachFields : List RF := [AONCTL.MODE_DOCKED, AONCTL.MODE_VIN_NOW, AONCTL.MODE_DETACH_EV, AONCTL.DETACH_CNT_COUNT,
  AONCTL.DETACH_CNT_OVF, AONCTL.DETACH_AT_LO_SECS, AONCTL.AT_HI_DETACH_HI, AONCTL.STEP_DEEPEST]

/-- A detachment as AONCTL records it, before DEEPEST starts from the present step. -/
def State.recordDetach (s : State) : State :=
  (((((s.set AONCTL.MODE_DOCKED 0).set AONCTL.MODE_VIN_NOW 0).set AONCTL.MODE_DETACH_EV 1).count AONCTL.DETACH_CNT_COUNT
    AONCTL.DETACH_CNT_OVF).set AONCTL.DETACH_AT_LO_SECS (s.calSecs % 2 ^ 32)).set AONCTL.AT_HI_DETACH_HI (s.calSecs / 2 ^ 32)

theorem State.recordDetach_only (s : State) : OnlyRegs detachFields s s.recordDetach :=
  (((((((OnlyRegs.refl _ s).set (by simp) _).set (by simp) _).set (by simp) _).count (by simp) (by simp)).set (by simp) _).set
    (by simp) _)

theorem State.noteDetach_eq (s : State) : s.noteDetach = s.recordDetach.set AONCTL.STEP_DEEPEST s.pwr.step.code := by
  rw [← congrArg PwrSt.step s.recordDetach_only.pwr]; rfl

theorem PStep.code_lt (st : PStep) : st.code < 8 := by cases st <;> decide

theorem State.noteDetach_shown (s : State) : s.noteDetach.get AONCTL.MODE_DOCKED = 0 ∧ s.noteDetach.get AONCTL.MODE_VIN_NOW = 0 ∧
    s.noteDetach.get AONCTL.MODE_DETACH_EV = 1 ∧ s.noteDetach.get AONCTL.STEP_DEEPEST = s.pwr.step.code ∧
    s.noteDetach.get AONCTL.DETACH_AT_LO_SECS = s.calSecs % 2 ^ 32 ∧ s.noteDetach.pwr = s.pwr := by
  rw [State.noteDetach_eq]
  refine ⟨?_, ?_, ?_, ?_, ?_, (State.pwr_set _ _ _).trans s.recordDetach_only.pwr⟩
  · simp (disch := decide) only [State.recordDetach, State.get_set_other, State.get_count_other, State.get_set_self]; rfl
  · simp (disch := decide) only [State.recordDetach, State.get_set_other, State.get_count_other, State.get_set_self]; rfl
  · simp (disch := decide) only [State.recordDetach, State.get_set_other, State.get_count_other, State.get_set_self]; rfl
  · rw [State.get_set_self]
    exact Nat.mod_eq_of_lt s.pwr.step.code_lt
  · simp (disch := decide) only [State.recordDetach, State.get_set_other, State.get_set_self]
    exact Nat.mod_mod _ _

/-! ### The clocks in force (R207, R208, R225) -/

/-- The registers that show the clocks. -/
@[simp] def clockFields : List RF := [CLKGEN.STAT_SYS_LOCK, CLKGEN.STAT_SRC, CLKGEN.STAT_SYS_MHZ, CLKGEN.STAT_RELOCK,
  TOUCH.CRK_CTRL_OSC_MHZ]

/-- SYS_MHZ on the always-on fast oscillator. -/
theorem State.sysMhz_fast (hsrc : s.get CLKGEN.STAT_SRC = 2) :
    s.showClocks.get CLKGEN.STAT_SYS_MHZ = fastMhz (s.get CLKGEN.SYS_CFG_CEIL) % 2 ^ 9 := by
  rw [State.showClocks, State.get_set_other (by decide), State.get_setF_other (by decide), State.get_set_self, hsrc]; rfl

/-- SYS_MHZ on the system PLL. -/
theorem State.sysMhz_pll (hsrc : s.get CLKGEN.STAT_SRC = 0) :
    s.showClocks.get CLKGEN.STAT_SYS_MHZ = pllMhz (s.get CLKGEN.SYS_CFG_MUL) (s.get CLKGEN.SYS_CFG_POST) % 2 ^ 9 := by
  rw [State.showClocks, State.get_set_other (by decide), State.get_setF_other (by decide), State.get_set_self, hsrc]; rfl

theorem State.get_showClocks_other {g : RF} (hmhz : g.key ≠ CLKGEN.STAT_SYS_MHZ.key) (hrelock : g.key ≠ CLKGEN.STAT_RELOCK.key)
    (hosc : g.key ≠ TOUCH.CRK_CTRL_OSC_MHZ.key) (s : State) : s.showClocks.get g = s.get g := by
  rw [State.showClocks, State.get_set_other hosc, State.get_setF_other hrelock, State.get_set_other hmhz]

theorem State.get_pllOff_other {g : RF} (hg : ∀ f ∈ clockFields, g.key ≠ f.key) (s : State) : s.pllOff.get g = s.get g := by
  rw [State.pllOff, State.get_showClocks_other (hg _ (by simp)) (hg _ (by simp)) (hg _ (by simp)), State.get_set_other (hg _ (by simp)),
    State.get_set_other (hg _ (by simp)), State.get_fields]

/-! ### VIN leaves (R193, R210) -/

theorem exec_vinAbsent_cold (hdocked : s.on AONCTL.MODE_DOCKED = true) (hcell : s.cell ≠ 2) : exec .vinAbsent s = .next s.goCold := by
  change execVinAbsent s = _
  rw [execVinAbsent, hdocked]
  exact if_pos hcell

/-- What shows a detachment once PD_LANE and PD_LINK are down. -/
def State.showDetached (s : State) : State :=
  if s.modeChanged.showDisc.sysHeld = true then s.modeChanged.showDisc.pllOff else s.modeChanged.showDisc

theorem exec_vinAbsent_undocks (hdocked : s.on AONCTL.MODE_DOCKED = true) (hcell : s.cell = 2) :
    exec .vinAbsent s = .next s.noteDetach.offLane.offLink.showDetached := by
  change execVinAbsent s = _
  rw [execVinAbsent, hdocked]
  exact if_neg (not_not.2 hcell)

theorem State.showDetached_kept (s : State) : s.showDetached.pwr.step = s.pwr.step ∧
    ∀ g : RF, (∀ f ∈ RTC.STAT_DISC_ACT :: modeFields ++ clockFields, g.key ≠ f.key) → s.showDetached.get g = s.get g := by
  have hmode {g : RF} (hg : ∀ f ∈ RTC.STAT_DISC_ACT :: modeFields ++ clockFields, g.key ≠ f.key) :
      s.modeChanged.showDisc.get g = s.get g :=
    (State.get_showDisc_other (hg _ (by simp)) _).trans
      (s.modeChanged_only.1 g fun f hf => hg f (List.mem_append_left _ (List.mem_cons_of_mem _ hf)))
  have hpwr : s.modeChanged.showDisc.pwr = s.pwr := (State.pwr_showDisc _).trans s.modeChanged_only.pwr
  unfold State.showDetached
  generalize s.modeChanged.showDisc = m at hmode hpwr ⊢
  split
  · have hoff : m.pllOff.pwr.step = m.pwr.step := rfl
    exact ⟨hoff.trans (congrArg PwrSt.step hpwr),
      fun g hg => (State.get_pllOff_other (fun f hf => hg f (List.mem_append_right _ hf)) m).trans (hmode hg)⟩
  · exact ⟨congrArg PwrSt.step hpwr, fun g hg => hmode hg⟩

/-- Undocked, PD_LANE and PD_LINK are Off in every step (R31). -/
theorem State.domOn_undocked (h : s.get AONCTL.MODE_DOCKED = 0) : s.domOn .lane = false ∧ s.domOn .link = false := by
  have hoff : s.on AONCTL.MODE_DOCKED = false := by rw [State.on, h]; rfl
  rw [State.domOn, State.domOn, State.dom, State.dom, hoff]
  exact ⟨rfl, rfl⟩

theorem vinAbsent_shown (hdocked : s.on AONCTL.MODE_DOCKED = true) (hcell : s.cell = 2) : Yields .vinAbsent s fun t =>
    t.get AONCTL.MODE_DOCKED = 0 ∧ t.get AONCTL.MODE_VIN_NOW = 0 ∧ t.get AONCTL.MODE_DETACH_EV = 1 ∧
    t.get AONCTL.STEP_DEEPEST = s.pwr.step.code ∧ t.get AONCTL.DETACH_AT_LO_SECS = s.calSecs % 2 ^ 32 ∧
    t.get RINGCTL.STAT_RSTATE = 0 ∧ t.pwr.step = s.pwr.step ∧ (∀ n : Fin 10, t.get (LANE.STAT_LSTATE n) = 0) ∧
    t.domOn .lane = false ∧ t.domOn .link = false := by
  refine ⟨_, exec_vinAbsent_undocks hdocked hcell, ?_⟩
  obtain ⟨hdock, hvin, hev, hdeep, hat, hpwr⟩ := s.noteDetach_shown
  have hlane := s.noteDetach.offLane_loss
  have hlink := s.noteDetach.offLane.offLink_loss
  have hlstate (n : Fin 10) : s.noteDetach.offLane.offLink.get (LANE.STAT_LSTATE n) = 0 := by
    have hin : ∀ n : Fin 10, inDom .lane (LANE.STAT n) = true ∧ lossRegs [.link, .sys] (LANE.STAT n) = false ∧
        fieldReset (LANE.STAT_LSTATE n).key = 0 := by decide
    obtain ⟨hin, hout, hzero⟩ := hin n
    rw [hlink.get (by simp) hout, State.get_offLane (by simp) hin, hzero]
  have hrstate : s.noteDetach.offLane.offLink.get RINGCTL.STAT_RSTATE = 0 := State.get_offLink (by decide) (by decide) _
  obtain ⟨hstep, hkept⟩ := s.noteDetach.offLane.offLink.showDetached_kept
  have hdown := hlink.pwr.trans (hlane.pwr.trans hpwr)
  have haon {g : RF} (hl : g.lo < 32) (h1 : lossRegs [.lane] g.addr = false) (h2 : lossRegs [.link, .sys] g.addr = false) :
      s.noteDetach.offLane.offLink.get g = s.noteDetach.get g := (hlink.get hl h2).trans (hlane.get hl h1)
  generalize s.noteDetach.offLane.offLink.showDetached = t at *
  generalize s.noteDetach.offLane.offLink = m at *
  have haway : ∀ n : Fin 10, ∀ f ∈ RTC.STAT_DISC_ACT :: modeFields ++ clockFields, (LANE.STAT_LSTATE n).key ≠ f.key := by decide
  have hundocked : t.get AONCTL.MODE_DOCKED = 0 :=
    (hkept _ (by decide)).trans ((haon (by decide) (by decide) (by decide)).trans hdock)
  exact ⟨hundocked, (hkept _ (by decide)).trans ((haon (by decide) (by decide) (by decide)).trans hvin),
    (hkept _ (by decide)).trans ((haon (by decide) (by decide) (by decide)).trans hev),
    (hkept _ (by decide)).trans ((haon (by decide) (by decide) (by decide)).trans hdeep),
    (hkept _ (by decide)).trans ((haon (by decide) (by decide) (by decide)).trans hat),
    (hkept _ (by decide)).trans hrstate, hstep.trans (congrArg PwrSt.step hdown), fun n => (hkept _ (haway n)).trans (hlstate n),
    State.domOn_undocked hundocked⟩

/-! ### VIN comes (R194, R210, R221, R223) -/

/-- What a docking does before the ladder hears of it. -/
abbrev State.dock (s : State) : State := s.noteDock.endScLatch.modeChanged.showDisc

theorem State.pwr_dock (s : State) : s.dock.pwr = s.pwr := by
  obtain ⟨_, _, _, _, hdock⟩ := s.noteDock_shown
  rw [State.pwr_showDisc, s.noteDock.endScLatch.modeChanged_only.pwr, State.pwr_endScLatch, hdock.pwr]

theorem exec_vinPresent_cold (hstep : s.pwr.step = .cold) : exec .vinPresent s = .next (s.coldReset true) := if_pos hstep

section
variable (hrun : s.pwr.step ≠ .cold) (hundocked : s.on AONCTL.MODE_DOCKED = false)
include hrun hundocked

theorem exec_vinPresent_docks : exec .vinPresent s = if s.pwr.coldHold = true then .next s.dock.coldMain else
    .next ((if s.pwr.step = .run ∨ s.pwr.step = .hover then s.dock.relockSys false
      else { s.dock with pwr := { s.dock.pwr with lateDock := true } }).wakeSrc (2 ^ 6)) := by
  rw [← State.pwr_dock s]
  change execVinPresent s = _
  rw [execVinPresent, if_neg hrun, hundocked, if_neg Bool.false_ne_true]

theorem exec_vinPresent_held (hcold : s.pwr.coldHold = true) : exec .vinPresent s = .next s.dock.coldMain := by
  rw [exec_vinPresent_docks hrun hundocked, if_pos hcold]

variable (hcold : s.pwr.coldHold = false)
include hcold

theorem exec_vinPresent_asleep (hstep : s.pwr.step ≠ .run) (hhover : s.pwr.step ≠ .hover) : exec .vinPresent s =
    .next (State.wakeSrc { s.dock with pwr := { s.dock.pwr with lateDock := true } } (2 ^ 6)) := by
  rw [exec_vinPresent_docks hrun hundocked, if_neg (by simp [hcold]), if_neg (not_or.2 ⟨hstep, hhover⟩)]

theorem exec_vinPresent_awake (hstep : s.pwr.step = .run ∨ s.pwr.step = .hover) :
    exec .vinPresent s = .next ((s.dock.relockSys false).wakeSrc (2 ^ 6)) := by
  rw [exec_vinPresent_docks hrun hundocked, if_neg (by simp [hcold]), if_pos hstep]

end

/-! ### SYS_CFG (R28, R207) -/

/-- The ceiling that a write of SYS_CFG gives. -/
def State.takeCeil (s : State) (v : Word) : State := s.put CLKGEN.SYS_CFG_CEIL (bits v.toNat 31 24)

/-- The multiplier and the post-divider that a write of SYS_CFG gives, with the ceiling. -/
def State.takeSysCfg (s : State) (v : Word) : State :=
  ((s.takeCeil v).set CLKGEN.SYS_CFG_MUL (bits v.toNat 4 0)).set CLKGEN.SYS_CFG_POST (bits v.toNat 17 16)

theorem State.get_takeCeil (s : State) (v : Word) : (s.takeCeil v).get CLKGEN.SYS_CFG_CEIL = bits v.toNat 31 24 := by
  rw [State.takeCeil, State.get_put, State.get_set_self]
  exact Nat.mod_eq_of_lt (bits_lt v.toNat 31 24)

theorem State.get_takeCeil_other {g : RF} (hg : g.key ≠ CLKGEN.SYS_CFG_CEIL.key) (s : State) (v : Word) :
    (s.takeCeil v).get g = s.get g := State.get_put_other hg s _

theorem State.get_takeSysCfg_other {g : RF} (hceil : g.key ≠ CLKGEN.SYS_CFG_CEIL.key) (hmul : g.key ≠ CLKGEN.SYS_CFG_MUL.key)
    (hpost : g.key ≠ CLKGEN.SYS_CFG_POST.key) (s : State) (v : Word) : (s.takeSysCfg v).get g = s.get g := by
  rw [State.takeSysCfg, State.get_set_other hpost, State.get_set_other hmul, State.get_takeCeil_other hceil]

theorem State.takeSysCfg_shown (s : State) (v : Word) : (s.takeSysCfg v).get CLKGEN.SYS_CFG_CEIL = bits v.toNat 31 24 ∧
    (s.takeSysCfg v).get CLKGEN.SYS_CFG_MUL = bits v.toNat 4 0 ∧ (s.takeSysCfg v).get CLKGEN.SYS_CFG_POST = bits v.toNat 17 16 := by
  refine ⟨?_, ?_, ?_⟩
  · rw [State.takeSysCfg, State.get_set_other (by decide), State.get_set_other (by decide), State.get_takeCeil]
  · rw [State.takeSysCfg, State.get_set_other (by decide), State.get_set_self]
    exact Nat.mod_eq_of_lt (bits_lt v.toNat 4 0)
  · rw [State.takeSysCfg, State.get_set_self]
    exact Nat.mod_eq_of_lt (bits_lt v.toNat 17 16)

/-- What a write of SYS_CFG does with a setting that lies above its ceiling. -/
def State.refuseSysCfg (s : State) (v : Word) : State :=
  if ((s.takeCeil v).set CLKGEN.STAT_CEIL_REJ 1).overCeil = true then ((s.takeCeil v).set CLKGEN.STAT_CEIL_REJ 1).pllOff
  else ((s.takeCeil v).set CLKGEN.STAT_CEIL_REJ 1).showClocks

/-- What a write of SYS_CFG does with a setting that its ceiling admits. -/
def State.applySysCfg (s : State) (v : Word) : State :=
  if (!(s.takeSysCfg v).on AONCTL.MODE_DOCKED) = true then (s.takeSysCfg v).showClocks
  else if bits v.toNat 4 0 ≠ s.get CLKGEN.SYS_CFG_MUL ∨
      (!((s.takeSysCfg v).on CLKGEN.STAT_SYS_LOCK || (s.takeSysCfg v).pwr.relockSys)) = true then
    (s.takeSysCfg v).relockSys (bits v.toNat 4 0 != s.get CLKGEN.SYS_CFG_MUL)
  else (s.takeSysCfg v).showClocks

theorem exec_sysCfgWrite_legal (hup : s.accessible CLKGEN.SYS_CFG = true) (hlo : 4 ≤ bits v.toNat 31 24) (hhi : bits v.toNat 31 24 ≤ 200)
    (hmul : 16 ≤ bits v.toNat 4 0) : exec (.sysCfgWrite v) s = .next
      { (if 2 * bits v.toNat 31 24 * 2 ^ bits v.toNat 17 16 < 25 * bits v.toNat 4 0 then s.refuseSysCfg v else s.applySysCfg v) with
        bus := .ok 0 } := by
  have hceil : s.setLegal CLKGEN.SYS_CFG_CEIL (.range 4 200) (bits v.toNat 31 24) = s.takeCeil v :=
    if_pos (by simp [Legal.ok, hlo, hhi])
  have hold : (s.takeCeil v).get CLKGEN.SYS_CFG_MUL = s.get CLKGEN.SYS_CFG_MUL := State.get_takeCeil_other (by decide) s v
  change execSysCfgWrite v s = _
  rw [execSysCfgWrite, State.busDo_reached hup]
  simp only [hceil, hold, State.get_takeCeil, if_pos hmul]
  rfl

theorem State.refuseSysCfg_shown (s : State) (v : Word) : (s.refuseSysCfg v).get CLKGEN.STAT_CEIL_REJ = 1 ∧
    (s.refuseSysCfg v).get CLKGEN.SYS_CFG_CEIL = bits v.toNat 31 24 ∧
    (s.refuseSysCfg v).get CLKGEN.SYS_CFG_MUL = s.get CLKGEN.SYS_CFG_MUL ∧
    (s.refuseSysCfg v).get CLKGEN.SYS_CFG_POST = s.get CLKGEN.SYS_CFG_POST := by
  have hkept {g : RF} (hg : ∀ f ∈ clockFields, g.key ≠ f.key) :
      (s.refuseSysCfg v).get g = ((s.takeCeil v).set CLKGEN.STAT_CEIL_REJ 1).get g := by
    unfold State.refuseSysCfg
    split
    · exact State.get_pllOff_other hg _
    · exact State.get_showClocks_other (hg _ (by simp)) (hg _ (by simp)) (hg _ (by simp)) _
  refine ⟨?_, ?_, ?_, ?_⟩
  · rw [hkept (by decide), State.get_set_self]; rfl
  · rw [hkept (by decide), State.get_set_other (by decide), State.get_takeCeil]
  · rw [hkept (by decide), State.get_set_other (by decide), State.get_takeCeil_other (by decide)]
  · rw [hkept (by decide), State.get_set_other (by decide), State.get_takeCeil_other (by decide)]

/-- A relock for another multiplier runs from the always-on fast oscillator. -/
theorem State.relockSys_fast (hceil : s.overCeil = false) : s.relockSys true =
    ((State.set { s with pwr := { s.pwr with relockSys := true } } CLKGEN.STAT_SYS_LOCK 0).set CLKGEN.STAT_SRC 2).showClocks := by
  simp only [State.relockSys, hceil, Bool.not_true, Bool.and_false, Bool.false_eq_true, if_false]

theorem fastMhz_lt (ceil : Nat) : fastMhz ceil < 2 ^ 9 := by
  unfold fastMhz; split_ifs <;> decide

theorem State.relockSys_shown (hceil : s.overCeil = false) : (s.relockSys true).get CLKGEN.STAT_SYS_LOCK = 0 ∧
    (s.relockSys true).get CLKGEN.STAT_SRC = 2 ∧ (s.relockSys true).pwr.relockSys = true ∧
    (s.relockSys true).get CLKGEN.STAT_SYS_MHZ = fastMhz (s.get CLKGEN.SYS_CFG_CEIL) ∧
    ∀ g : RF, (∀ f ∈ clockFields, g.key ≠ f.key) → (s.relockSys true).get g = s.get g := by
  rw [State.relockSys_fast hceil]
  refine ⟨?_, ?_, rfl, ?_, fun g hg => ?_⟩
  · rw [State.get_showClocks_other (by decide) (by decide) (by decide), State.get_set_other (by decide), State.get_set_self]; rfl
  · rw [State.get_showClocks_other (by decide) (by decide) (by decide), State.get_set_self]; rfl
  · rw [State.sysMhz_fast (State.get_set_self _ _ 2), State.get_set_other (by decide), State.get_set_other (by decide), State.get_fields]
    exact Nat.mod_eq_of_lt (fastMhz_lt _)
  · rw [State.get_showClocks_other (hg _ (by simp)) (hg _ (by simp)) (hg _ (by simp)), State.get_set_other (hg _ (by simp)),
      State.get_set_other (hg _ (by simp)), State.get_fields]

section
variable (hceil : 25 * bits v.toNat 4 0 ≤ 2 * bits v.toNat 31 24 * 2 ^ bits v.toNat 17 16)
include hceil

theorem State.applySysCfg_relocks (hdocked : s.on AONCTL.MODE_DOCKED = true) (hmul : bits v.toNat 4 0 ≠ s.get CLKGEN.SYS_CFG_MUL) :
    (s.applySysCfg v).get CLKGEN.SYS_CFG_MUL = bits v.toNat 4 0 ∧ (s.applySysCfg v).get CLKGEN.SYS_CFG_POST = bits v.toNat 17 16 ∧
    (s.applySysCfg v).get CLKGEN.SYS_CFG_CEIL = bits v.toNat 31 24 ∧ (s.applySysCfg v).get CLKGEN.STAT_SYS_LOCK = 0 ∧
    (s.applySysCfg v).get CLKGEN.STAT_SRC = 2 ∧ (s.applySysCfg v).pwr.relockSys = true ∧
    (s.applySysCfg v).get CLKGEN.STAT_SYS_MHZ = fastMhz (bits v.toNat 31 24) := by
  obtain ⟨hc, hm, hp⟩ := s.takeSysCfg_shown v
  have hdock : (s.takeSysCfg v).on AONCTL.MODE_DOCKED = true :=
    (State.on_congr (State.get_takeSysCfg_other (by decide) (by decide) (by decide) s v)).trans hdocked
  have happly : s.applySysCfg v = (s.takeSysCfg v).relockSys true := by
    rw [State.applySysCfg, if_neg (by simp [hdock]), if_pos (.inl hmul), bne_iff_ne.2 hmul]
  have hover : (s.takeSysCfg v).overCeil = false := by
    rw [State.overCeil, hc, hm, hp]
    exact decide_eq_false (by omega)
  obtain ⟨hlock, hsrc, hrelock, hmhz, hkept⟩ := State.relockSys_shown hover
  rw [happly, hkept _ (by decide), hkept _ (by decide), hkept _ (by decide), hmhz, hc]
  exact ⟨hm, hp, rfl, hlock, hsrc, hrelock, rfl⟩

/-- A frequency that a ceiling of at most 400 MHz admits fits SYS_MHZ. -/
theorem pllMhz_lt (hhi : bits v.toNat 31 24 ≤ 200) : pllMhz (bits v.toNat 4 0) (bits v.toNat 17 16) < 2 ^ 9 := by
  have hmax : pllMhz (bits v.toNat 4 0) (bits v.toNat 17 16) ≤ 400 :=
    Nat.div_le_of_le_mul ((hceil.trans (Nat.mul_le_mul_right _ (by omega))).trans_eq (Nat.mul_comm 400 _))
  exact hmax.trans_lt (by decide)

theorem State.applySysCfg_divides (hhi : bits v.toNat 31 24 ≤ 200) (hmul : bits v.toNat 4 0 = s.get CLKGEN.SYS_CFG_MUL)
    (hlock : s.on CLKGEN.STAT_SYS_LOCK = true) (hsrc : s.get CLKGEN.STAT_SRC = 0) :
    (s.applySysCfg v).get CLKGEN.SYS_CFG_POST = bits v.toNat 17 16 ∧
    (s.applySysCfg v).get CLKGEN.STAT_SYS_MHZ = pllMhz (bits v.toNat 4 0) (bits v.toNat 17 16) ∧
    (s.applySysCfg v).get CLKGEN.STAT_SYS_LOCK = 1 ∧ (s.applySysCfg v).get CLKGEN.STAT_SRC = 0 := by
  obtain ⟨_, hm, hp⟩ := s.takeSysCfg_shown v
  have hother {g : RF} := State.get_takeSysCfg_other (g := g) (s := s) (v := v)
  have hlocked : (s.takeSysCfg v).on CLKGEN.STAT_SYS_LOCK = true :=
    (State.on_congr (hother (by decide) (by decide) (by decide))).trans hlock
  have happly : s.applySysCfg v = (s.takeSysCfg v).showClocks := by
    rw [State.applySysCfg, hlocked, if_neg (c := _ ∨ _) (by simp [hmul]), ite_self]
  have hpll : (s.takeSysCfg v).get CLKGEN.STAT_SRC = 0 := (hother (by decide) (by decide) (by decide)).trans hsrc
  rw [happly, State.sysMhz_pll hpll, hm, hp,
    State.get_showClocks_other (by decide) (by decide) (by decide), State.get_showClocks_other (by decide) (by decide) (by decide),
    State.get_showClocks_other (by decide) (by decide) (by decide)]
  exact ⟨hp, Nat.mod_eq_of_lt (pllMhz_lt hceil hhi), beq_iff_eq.1 hlocked, hpll⟩

end

/-! ### A PLL locks (R207) -/

section
variable (hup : s.domOn .sys = true)
include hup

theorem pllLockConfirmed_sys (hrelock : s.pwr.relockSys = true) : Yields (.pllLockConfirmed false) s fun t =>
    t.get CLKGEN.STAT_SYS_LOCK = 1 ∧ t.get CLKGEN.STAT_SRC = 0 ∧ t.pwr.relockSys = false ∧
    t.pwr.trimMul = some (s.get CLKGEN.SYS_CFG_MUL) := by
  have hexec : exec (.pllLockConfirmed false) s = .next ((State.set { s with pwr := { s.pwr with
      relockSys := false, trimMul := some (s.get CLKGEN.SYS_CFG_MUL) } } CLKGEN.STAT_SYS_LOCK 1).set CLKGEN.STAT_SRC 0).showClocks := by
    change execPllLockConfirmed false s = _
    rw [execPllLockConfirmed, hup, hrelock]; rfl
  refine ⟨_, hexec, ?_, ?_, rfl, rfl⟩
  · rw [State.get_showClocks_other (by decide) (by decide) (by decide), State.get_set_other (by decide), State.get_set_self]; rfl
  · rw [State.get_showClocks_other (by decide) (by decide) (by decide), State.get_set_self]; rfl

theorem pllLockConfirmed_timebase (hrelock : s.pwr.relockTb = true) : Yields (.pllLockConfirmed true) s fun t =>
    t.get CLKGEN.STAT_TB_LOCK = 1 ∧ t.pwr.relockTb = false ∧ t.pwr.trimTb = true := by
  have hexec : exec (.pllLockConfirmed true) s = .next (State.set { s with pwr := { s.pwr with relockTb := false, trimTb := true } }
      CLKGEN.STAT_TB_LOCK 1).showClocks := by
    change execPllLockConfirmed true s = _
    rw [execPllLockConfirmed, hup, hrelock]; rfl
  refine ⟨_, hexec, ?_, rfl, rfl⟩
  rw [State.get_showClocks_other (by decide) (by decide) (by decide), State.get_set_self]; rfl

end

end

/-- Settles O29: each event by the state it leaves: a detachment by what AONCTL records and what the two domains lose, a docking
by its record and the wake it gives, a write of SYS_CFG by what its ceiling makes of it. -/
theorem dockingAndClocks : Obligations.DockingAndClocks := by
  refine ⟨fun s hdocked => ⟨exec_vinAbsent_cold hdocked, vinAbsent_shown hdocked⟩, fun s => exec_vinPresent_cold,
    fun s hrun hundocked hcold => ⟨exec_vinPresent_asleep hrun hundocked hcold, exec_vinPresent_awake hrun hundocked hcold⟩,
    fun s => exec_vinPresent_held, State.noteDock_shown, fun v s hup hlo hhi hmul => ?sysCfg,
    fun s hup => ⟨pllLockConfirmed_sys hup, pllLockConfirmed_timebase hup⟩⟩
  case sysCfg =>
    have hexec := exec_sysCfgWrite_legal hup hlo hhi hmul
    refine ⟨fun hfast => ?_, fun hceil hdocked hnew => ?_, fun hceil hsame hlock hsrc => ?_⟩
    · rw [if_pos hfast] at hexec
      exact ⟨_, hexec, s.refuseSysCfg_shown v⟩
    · rw [if_neg (not_lt.2 hceil)] at hexec
      exact ⟨_, hexec, State.applySysCfg_relocks hceil hdocked hnew⟩
    · rw [if_neg (not_lt.2 hceil)] at hexec
      exact ⟨_, hexec, State.applySysCfg_divides hceil hhi hsame hlock hsrc⟩

end Sys2Proof.Machine

/-! ## A download's erasure that a step's entry cuts off (09_power_ladder.md, R198; 16_reset_startup_update.md, R336) -/

namespace Sys2Proof.Machine

section
variable {s t : State} {a : Nat}

/-! ### Bytes of code flash -/

/-- A byte of code flash is what the memory lists for it, else erased; no loss of other contents changes it. -/
theorem State.byte_codeFlash (hlo : 0x08000000 ≤ a) (hhi : a < 0x08210000) (s : State) :
    s.byte a = (Store.find? a s.mem).getD 0xFF := by
  rw [State.byte, Store.get]
  cases Store.find? a s.mem with
  | some b => rfl
  | none => simp only [memUnlisted_codeFlash hlo hhi, Option.getD_some, Option.getD_none]

theorem State.byte_showDisc (s : State) (b : Nat) : s.showDisc.byte b = s.byte b := by
  rcases s.showDisc_cases with h | h <;> rw [h] <;> rfl

section
variable (hlo : 0x08000000 ≤ a) (hhi : a < 0x08210000)
include hlo hhi

theorem State.byte_lose_codeFlash {lo hi : Nat} (h : hi ≤ 0x08000000 ∨ 0x08210000 ≤ lo) (s : State) : (s.lose lo hi).byte a = s.byte a := by
  rw [State.byte_codeFlash hlo hhi, State.byte_codeFlash hlo hhi, State.lose, Store.find?_filter_pos]
  intro v
  simp only [Bool.not_eq_true', Bool.and_eq_false_iff, decide_eq_false_iff_not]
  omega

theorem State.byte_garble_codeFlash (s : State) (lo n : Nat) : (s.garble lo n).byte a =
    if lo ≤ a ∧ a < lo + n then Config.undefByte (s.epoch + 1) a else s.byte a := by
  rw [← State.byte_fillWith, State.byte_codeFlash hlo hhi, State.byte_codeFlash hlo hhi]; rfl

theorem State.byte_loseBanks_codeFlash (s : State) (keep : Nat) : (s.loseBanks keep).byte a = s.byte a := by
  refine List.foldlRecOn _ _ (motive := fun t : State => t.byte a = s.byte a) rfl fun t ht k _ => ?_
  split
  · exact ht
  · rw [State.byte_lose_codeFlash hlo hhi (by omega), ht]

theorem State.byte_offSys_codeFlash (s : State) (keep : Nat) :
    (s.offSys keep).byte a = s.cutErase.resetMarch.resetFlash.resetRec.byte a := by
  rw [State.offSys, State.byte_lose_codeFlash hlo hhi (by omega), State.byte_lose_codeFlash hlo hhi (by omega),
    State.byte_loseBanks_codeFlash hlo hhi, State.resetPdSys, State.byte_showDisc]
  rfl

theorem State.byte_resetMarch_codeFlash (s : State) : s.resetMarch.byte a = s.byte a := by
  have htarget : 0x08210000 ≤ (marchSpan s.march.target).1 := by
    unfold marchSpan
    split_ifs <;> simp only <;> omega
  have hloss : s.marchLoss.byte a = s.byte a :=
    (State.byte_garble_codeFlash hlo hhi s _ _).trans (if_neg fun hin => absurd (htarget.trans hin.1) (by omega))
  rw [State.resetMarch]
  split
  · exact hloss
  · rfl

end

/-! ### The erasure is cut off (R336) -/

theorem State.resetFlash_idle (h : s.flash = none) : s.resetFlash = s := by rw [State.resetFlash, h]

theorem State.byte_resetRec_idle (h : s.rs.cur = none) (b : Nat) : s.resetRec.byte b = s.byte b := by
  rw [State.resetRec, State.cutRec, h]; rfl

/-- Where no command of FLASHCTL or of the record store is in progress, the loss of PD_SYS cuts off the erasure of a download's slot
alone, and leaves the slot undefined. -/
theorem State.byte_offSys_erasing (hdl : s.dl.st = 1) (hflash : s.flash = none) (hrec : s.rs.cur = none)
    (hslot : slotBase s.inactive = 0x08100000) (keep : Nat) :
    (s.offSys keep).byte 0x08100000 = Config.undefByte (s.epoch + 1) 0x08100000 := by
  have herase : s.cutErase = s.garble 0x08100000 0x100000 := by rw [State.cutErase, if_pos hdl, hslot]
  obtain ⟨hflash₁, hrec₁⟩ : s.cutErase.resetMarch.flash = none ∧ s.cutErase.resetMarch.rs.cur = none := by
    rw [herase, State.resetMarch]
    split
    · exact ⟨hflash, hrec⟩
    · exact ⟨hflash, hrec⟩
  rw [State.byte_offSys_codeFlash (by decide) (by decide), State.resetFlash_idle hflash₁, State.byte_resetRec_idle hrec₁,
    State.byte_resetMarch_codeFlash (by decide) (by decide), herase,
    State.byte_garble_codeFlash (by decide) (by decide), if_pos (by decide)]

theorem State.byte_touchEnter (s : State) (b : Nat) : s.touchEnter.byte b = s.byte b := by
  rw [State.touchEnter]; split <;> rfl

/-- What the loss of PD_LANE and PD_LINK leaves of the work on code flash and the record store. -/
theorem State.offLink_kept (s : State) : s.offLane.offLink.dl = s.dl ∧ s.offLane.offLink.flash = s.flash ∧ s.offLane.offLink.rs = s.rs ∧
    s.offLane.offLink.boot = s.boot ∧ s.offLane.offLink.sc = s.sc ∧ s.offLane.offLink.epoch = s.epoch + 2 :=
  ⟨rfl, rfl, rfl, rfl, rfl, rfl⟩

/-- Where no life-cycle change is under way, so does the loss of PD_MGT. -/
theorem State.offMgt_kept (h : s.sc.lcTarget = none) : s.offMgt.dl = s.dl ∧ s.offMgt.flash = s.flash ∧ s.offMgt.rs = s.rs ∧
    s.offMgt.boot = s.boot ∧ s.offMgt.epoch = s.epoch := by
  have hcut : s.cutChange = s := by rw [State.cutChange, h]
  rw [State.offMgt, State.resetPdMgt, hcut]
  exact ⟨rfl, rfl, rfl, rfl, rfl⟩

theorem State.byte_showClocks (s : State) (b : Nat) : s.showClocks.byte b = s.byte b := by
  rw [State.showClocks, State.byte_set, State.setF, State.byte_set, State.byte_set]

theorem State.byte_withPwr (s : State) (p : PwrSt) (b : Nat) : ({ s with pwr := p } : State).byte b = s.byte b := rfl

theorem State.byte_setStep (s : State) (st : PStep) (b : Nat) : (s.setStep st).byte b = s.byte b := by
  rw [State.setStep, State.byte_set, State.byte_set, State.byte_withPwr]

/-- Diapause is entered while the slot of a download is being erased. -/
theorem State.byte_enterDiapause_erasing (hdl : s.dl.st = 1) (hflash : s.flash = none) (hrec : s.rs.cur = none)
    (hlc : s.sc.lcTarget = none) (hrunning : s.boot.recovery = false) (hslot : s.boot.slot = 0) :
    (s.enterStep .diapause).byte 0x08100000 = Config.undefByte (s.epoch + 3) 0x08100000 := by
  obtain ⟨hdl₁, hflash₁, hrs₁, hboot₁, hsc₁, hepoch₁⟩ := (s.set AONCTL.RET_LATCH_RET (s.get PWRCTL.RET_RET)).offLink_kept
  rw [State.enterStep, State.byte_touchEnter, State.byte_showClocks, State.byte_withPwr, State.byte_setStep]
  generalize (s.set AONCTL.RET_LATCH_RET (s.get PWRCTL.RET_RET)).offLane.offLink = u at hdl₁ hflash₁ hrs₁ hboot₁ hsc₁ hepoch₁ ⊢
  obtain ⟨hdl₂, hflash₂, hrs₂, hboot₂, hepoch₂⟩ := State.offMgt_kept (s := u) (by rw [hsc₁]; exact hlc)
  have hother : u.offMgt.inactive = 1 := by
    rw [State.inactive, hboot₂, hboot₁, State.boot_set, hrunning, hslot]; rfl
  rw [State.byte_offSys_erasing (by rw [hdl₂, hdl₁]; exact hdl) (by rw [hflash₂, hflash₁]; exact hflash)
    (by rw [hrs₂, hrs₁]; exact hrec) (by rw [hother, slotBase]), hepoch₂, hepoch₁, State.epoch_set]

end

/-- Refutes O30, by the clause on what Diapause leaves of code flash: a download that has begun since the step was requested is
still erasing its slot as Diapause is entered. No command of FLASHCTL is in progress, and yet the loss of PD_SYS leaves the slot
undefined. -/
theorem not_sleepLadderDown : ¬ Obligations.SleepLadderDown := by
  rintro ⟨_, _, _, _, hentered, _⟩
  let r : State := { State.reset with dl := { st := 1 }, pwr := { step := .hover, entry := some .diapause } }
  let s : State := r.poke 0x08100000 (Config.undefByte (r.epoch + 3) 0x08100000 + 1)
  obtain ⟨_, _, _, _, _, _, _, _, hkept⟩ := hentered s
  have hbyte : s.byte 0x08100000 = Config.undefByte (r.epoch + 3) 0x08100000 + 1 := State.byte_poke_self r _ _
  have hlost : (s.enterStep .diapause).byte 0x08100000 = Config.undefByte (r.epoch + 3) 0x08100000 :=
    State.byte_enterDiapause_erasing rfl rfl rfl rfl rfl rfl
  have hsame := (hkept rfl 0x08100000 (by decide) (by decide)).trans hbyte
  rw [hlost] at hsame
  generalize Config.undefByte (r.epoch + 3) 0x08100000 = x at hsame
  bv_omega

end Sys2Proof.Machine

/-! ## The harvester: samples, comparisons, trips and the cold start (10_harvester.md, R210, R213 to R223) -/

namespace Sys2Proof.Machine

section
variable {s t u : State} {fs : List RF}

theorem OnlyRegs.withHv (h : OnlyRegs fs s t) (x : HvSt) : OnlyRegs fs { s with hv := x } { t with hv := x } :=
  ⟨h.1, h.2.1, congrArg (fun y : State => { y with hv := x }) h.2.2⟩

/-! ### Samples of Voc (R213, R214, R215) -/

theorem exec_vocSampleStart_due (hen : s.on HARVEST.CTRL_BOOST_EN = true) (hboost : s.boost ≠ 2) (hstep : s.pwr.step ≠ .cold)
    (hdue : s.on HARVEST.VOC_VALID = false ∨ s.hv.sampleEnd + s.hv.interval * 32768 ≤ s.slow) :
    exec .vocSampleStart s = .next s.startSample := by
  change execVocSampleStart s = _
  refine if_pos ?_
  simp only [hen, bne_iff_ne.2 hboost, bne_iff_ne.2 hstep, Bool.true_and, Bool.true_or, Bool.and_true, Bool.or_eq_true,
    Bool.not_eq_true', decide_eq_true_eq]
  exact hdue

/-- VOC and the target, as the end of a sample leaves them. -/
def State.takeVoc (s : State) (mv : Nat) : State := ((s.set HARVEST.VOC_VOC_MV mv).set HARVEST.VOC_VALID 1).setTarget

theorem State.takeVoc_shown (s : State) (v : BitVec 12) : (s.takeVoc v.toNat).get HARVEST.VOC_VOC_MV = v.toNat ∧
    (s.takeVoc v.toNat).get HARVEST.VOC_TARGET_MV = v.toNat * s.get HARVEST.MPPT_FRAC / 100 % 2 ^ 12 ∧
    (s.takeVoc v.toNat).get HARVEST.VOC_VALID = 1 := by
  have hvoc : ((s.set HARVEST.VOC_VOC_MV v.toNat).set HARVEST.VOC_VALID 1).get HARVEST.VOC_VOC_MV = v.toNat := by
    rw [State.get_set_other (by decide), State.get_set_self]
    exact Nat.mod_eq_of_lt v.isLt
  rw [State.takeVoc, State.setTarget, hvoc]
  refine ⟨?_, ?_, ?_⟩
  · rw [State.get_set_other (by decide), hvoc]
  · rw [State.get_set_self, State.get_set_other (by decide), State.get_set_other (by decide)]; rfl
  · rw [State.get_set_other (by decide), State.get_set_self]; rfl

/-- STAT.BOOST of the target: DARK below 250 mV, else RUN (R213). -/
def boostMode (target : Nat) : Nat := if target < 250 then 3 else 1

theorem boostMode_mod (target : Nat) : boostMode target % HARVEST.STAT_BOOST.bound = boostMode target := by
  unfold boostMode; split <;> rfl

theorem vocSampleEnd_shown (v : BitVec 12) (hboost : s.boost = 2) (hend : s.hv.sampleAt + 2000000 ≤ s.tick) :
    Yields (.vocSampleEnd v) s fun t =>
      let target := v.toNat * s.get HARVEST.MPPT_FRAC / 100 % 2 ^ 12
      t.get HARVEST.VOC_VOC_MV = v.toNat ∧ t.get HARVEST.VOC_TARGET_MV = target ∧ t.get HARVEST.VOC_VALID = 1 ∧
      t.boost = boostMode target ∧ t.hv.sampleEnd = s.slow ∧
      OnlyRegs [HARVEST.VOC_VOC_MV, HARVEST.VOC_TARGET_MV, HARVEST.VOC_VALID, HARVEST.STAT_BOOST] { s with hv := t.hv } t := by
  obtain ⟨hvoc, htarget, hvalid⟩ := s.takeVoc_shown v
  refine ⟨_, if_neg (not_or.2 ⟨not_not.2 hboost, not_lt.2 hend⟩), ?_, ?_, ?_, ?_, rfl, ?_⟩
  · exact (State.get_set_other (by decide) _ _).trans hvoc
  · exact (State.get_set_other (by decide) _ _).trans htarget
  · exact (State.get_set_other (by decide) _ _).trans hvalid
  · rw [← htarget]
    exact (State.get_set_self _ _ _).trans (boostMode_mod _)
  · exact OnlyRegs.withHv (((((OnlyRegs.refl _ s).set (by simp) _).set (by simp) _).set (by simp) _).set (by simp) _) _

section
variable (hup : s.accessible HARVEST.CTRL = true)
include hup

theorem exec_harvestSampleCmd_ignored (hboost : s.boost = 2) :
    exec .harvestSampleCmd s = .next { s.set HARVEST.STAT_CMD_IGN 1 with bus := .ok 0 } := by
  change execHarvestSampleCmd s = _
  rw [execHarvestSampleCmd, State.busDo_reached hup, if_pos hboost]

theorem exec_harvestSampleCmd_starts (hboost : s.boost ≠ 2) (hen : s.on HARVEST.CTRL_BOOST_EN = true) :
    exec .harvestSampleCmd s = .next { s.startSample with bus := .ok 0 } := by
  change execHarvestSampleCmd s = _
  rw [execHarvestSampleCmd, State.busDo_reached hup, if_neg hboost, if_pos hen]

end

theorem exec_fracWrite_reached {v : Word} (hup : s.accessible HARVEST.MPPT = true) :
    let w := s.writeFields (fun _ => true) HARVEST.MPPT v.toNat false
    exec (.fracWrite v) s = .next { (if w.boost = 1 then w.setTarget else w) with bus := .ok 0 } := by
  change execFracWrite v s = _
  rw [execFracWrite, State.busDo_reached hup]

/-! ### A cold reset (R210, R329) -/

/-- The registers that a cold reset sets: VIN's presence, and its copies. -/
@[simp] def coldFields : List RF := [AONCTL.MODE_DOCKED, AONCTL.MODE_VIN_NOW, PWRCTL.STAT_DOCKED, PWRCTL.STAT_REG_LP]

theorem State.get_coldReset {g : RF} (hg : ∀ f ∈ coldFields, g.key ≠ f.key) (s : State) (docked : Bool) :
    (s.coldReset docked).get g = fieldReset g.key := by
  rw [State.coldReset, State.showMode, State.get_setF_other (hg _ (by simp)), State.get_setF_other (hg _ (by simp)),
    State.get_setF_other (hg _ (by simp)), State.get_setF_other (hg _ (by simp))]
  rfl

theorem State.on_coldReset_docked (s : State) (docked : Bool) : (s.coldReset docked).on AONCTL.MODE_DOCKED = docked := by
  have hset (u : State) : ((u.setF AONCTL.MODE_DOCKED docked).setF AONCTL.MODE_VIN_NOW docked).showMode.on AONCTL.MODE_DOCKED = docked := by
    refine (State.on_congr ?_).trans (State.on_setF_self rfl u docked)
    rw [State.showMode, State.get_setF_other (by decide), State.get_setF_other (by decide), State.get_setF_other (by decide)]
  exact hset _

theorem State.goCold_shown (s : State) :
    s.goCold.pwr.step = .cold ∧ s.goCold.cell = 0 ∧ s.goCold.get HARVEST.STAT_BOOST = 0 := by
  refine ⟨rfl, State.get_set_self _ _ 0, ?_⟩
  rw [State.goCold, State.get_fields, State.get_set_other (by decide), State.get_coldReset (by decide)]
  rfl

/-! ### Code flash through a cold reset (R210, R273, R329) -/

/-- What cutting off a march test or a record-store command leaves: code flash, the fuses, the commands that wait. -/
structure CutAside (s t : State) : Prop where
  codeFlash : ∀ a, 0x08000000 ≤ a → a < 0x08210000 → t.byte a = s.byte a
  sc : t.sc = s.sc
  pending : t.pending = s.pending

theorem CutAside.refl (s : State) : CutAside s s := ⟨fun _ _ _ => rfl, rfl, rfl⟩

/-- An update of other fields. -/
theorem CutAside.upd (h : CutAside s t) (hmem : u.mem = t.mem := by rfl) (hsc : u.sc = t.sc := by rfl)
    (hpending : u.pending = t.pending := by rfl) : CutAside s u := by
  refine ⟨fun a hlo hhi => ?_, hsc.trans h.sc, hpending.trans h.pending⟩
  rw [← h.codeFlash a hlo hhi, State.byte_codeFlash hlo hhi, State.byte_codeFlash hlo hhi, hmem]

theorem CutAside.garble (h : CutAside s t) {lo : Nat} (hlo : 0x08210000 ≤ lo) (n : Nat) : CutAside s (t.garble lo n) := by
  refine ⟨fun a ha hhi => ?_, h.sc, h.pending⟩
  rw [State.byte_garble_codeFlash ha hhi, if_neg (by omega), h.codeFlash a ha hhi]

theorem CutAside.pokes (h : CutAside s t) {lo : Nat} (hlo : 0x08210000 ≤ lo) (l : List Byte) : CutAside s (t.pokes lo l) := by
  refine ⟨fun a ha hhi => ?_, ?_, ?_⟩
  · rw [State.byte_pokes_other l t (by omega), h.codeFlash a ha hhi]
  · rw [State.pokes_fields]; exact h.sc
  · rw [State.pokes_fields]; exact h.pending

theorem CutAside.eraseRange (h : CutAside s t) {lo : Nat} (hlo : 0x08210000 ≤ lo) (n : Nat) : CutAside s (t.eraseRange lo n) := by
  refine ⟨fun a ha hhi => ?_, h.sc, h.pending⟩
  rw [State.byte_eraseRange, if_neg (by omega), h.codeFlash a ha hhi]

theorem le_recAddr (o : Nat) : 0x08210000 ≤ recAddr o := by unfold recAddr; omega

theorem CutAside.recAct (h : CutAside s t) (a : RecAct) : CutAside s (t.recAct a) := by
  cases a with
  | word o w => exact h.pokes (le_recAddr o) _
  | erase k => exact (h.eraseRange (le_recAddr _) 2048).upd

theorem CutAside.recActs (h : CutAside s t) (l : List RecAct) : CutAside s (t.recActs l) :=
  List.foldlRecOn l _ (motive := fun t => CutAside s t) h fun _ ht a _ => ht.recAct a

theorem CutAside.tearSector (h : CutAside s t) (k : Nat) : CutAside s (t.tearSector k) := h.upd

theorem CutAside.halfWord (h : CutAside s t) (o : Nat) : CutAside s (t.halfWord o) := by
  have hbad : CutAside s (t.badWord (recAddr o)) := h.garble (le_recAddr o) 4
  rw [State.halfWord]
  split
  · exact hbad.tearSector _
  · exact hbad

theorem CutAside.stopRec (h : CutAside s t) (c : RecCmd) (n : Nat) : CutAside s (t.stopRec c n) := by
  rw [State.stopRec]
  split
  · exact h.recActs _
  · refine List.foldlRecOn (c.acts.take n) _ (motive := fun t => CutAside s t) (h.recActs _) fun _ ht a _ => ?_
    cases a with
    | word o w => exact ht
    | erase k => exact ht.tearSector k

theorem CutAside.resetRec (h : CutAside s t) : CutAside s t.resetRec := by
  refine CutAside.upd (t := t.cutRec) ?_
  unfold State.cutRec
  split
  case h_1 => exact h
  case h_2 c _ =>
    have hstop : ∀ n, CutAside s (t.fresh.2.stopRec c n) := CutAside.stopRec (t := t.fresh.2) h.upd c
    dsimp only [State.fresh] at hstop ⊢
    split
    · exact hstop _
    · split
      · exact ((hstop _).garble (le_recAddr _) 2048).tearSector _
      · exact (hstop _).halfWord _
      · exact hstop _

theorem CutAside.resetMarch (s : State) : CutAside s s.resetMarch := by
  refine ⟨fun a hlo hhi => State.byte_resetMarch_codeFlash hlo hhi s, ?_, ?_⟩
  · rw [State.resetMarch]; split <;> rfl
  · rw [State.resetMarch]; split <;> rfl

/-- What a cold reset keeps where no flash command, no erasure of a download's slot and no life-cycle change is under way. -/
theorem CutAside.coldReset (hflash : s.flash = none) (hdl : s.dl.st ≠ 1) (hlc : s.sc.lcTarget = none) :
    CutAside s s.cutChange.cutErase.resetMarch.resetFlash.resetRec := by
  have hchange : s.cutChange = s := by rw [State.cutChange, hlc]
  have hidle : s.resetMarch.flash = none := by
    rw [State.resetMarch]; split <;> exact hflash
  rw [hchange, State.cutErase, if_neg hdl, State.resetFlash_idle hidle]
  exact (CutAside.resetMarch s).resetRec

/-- Dropping what a power-on loses leaves code flash. -/
theorem State.byte_coldReset_codeFlash {a : Nat} (hlo : 0x08000000 ≤ a) (hhi : a < 0x08210000) (s : State) (docked : Bool) :
    (s.coldReset docked).byte a = s.cutChange.cutErase.resetMarch.resetFlash.resetRec.byte a := by
  have hlisted : (memUnlisted a).isSome = true := by rw [memUnlisted_codeFlash hlo hhi]; rfl
  rw [State.byte_codeFlash hlo hhi, State.byte_codeFlash hlo hhi]
  exact congrArg (Option.getD · 0xFF) (Store.find?_filter_pos (p := fun c : Host.Cell => (memUnlisted c.1).isSome) (fun _ => hlisted) _)

/-! ### Comparisons of BAT (R219, R220) -/

/-- The registers that the warning comparator and the wake it gives show in. -/
@[simp] def warnFields : List RF := [HARVEST.STAT_LOW, HARVEST.STAT_LOW_EV, AONCTL.WAKE_CAUSE_CAUSE, AONCTL.WAKE_CAUSE_FIRST,
  AONCTL.WAKE_CAUSE_FROM, PWRCTL.STAT_ABORTED, AONCTL.STEP_STEP, AONCTL.STEP_DEEPEST, TOUCH.CRK_IRQ_STAT_WAKE]

/-- A warning leaves the harvester's own state, a cold start's hold and every other register. -/
structure Warned (s t : State) : Prop where
  regs : RegsBut warnFields s t
  hv : t.hv = s.hv
  coldHold : t.pwr.coldHold = s.pwr.coldHold

theorem Warned.refl (s : State) : Warned s s := ⟨.refl _ s, rfl, rfl⟩

theorem Warned.set (h : Warned s t) (f : RF) (v : Nat) (hf : f ∈ warnFields := by decide) : Warned s (t.set f v) :=
  ⟨h.regs.set hf v, h.hv, h.coldHold⟩

/-- An update of other fields. -/
theorem Warned.upd (h : Warned s t) (hregs : u.regs = t.regs := by rfl) (hhv : u.hv = t.hv := by rfl)
    (hhold : u.pwr.coldHold = t.pwr.coldHold := by rfl) : Warned s u :=
  ⟨h.regs.regs hregs, hhv.trans h.hv, hhold.trans h.coldHold⟩

theorem Warned.ite {c : Prop} [Decidable c] (ht : Warned s t) (hu : Warned s u) : Warned s (if c then t else u) := by
  split
  · exact ht
  · exact hu

theorem Warned.orCause (h : Warned s t) (m : Nat) : Warned s (t.orBits AONCTL.WAKE_CAUSE_CAUSE m) :=
  (h.set AONCTL.WAKE_CAUSE_CAUSE (t.get AONCTL.WAKE_CAUSE_CAUSE ||| m)).upd

theorem Warned.portWake (h : Warned s t) (srcs : Nat) : Warned s (t.portWake srcs) := by
  rw [State.portWake_fields]; exact h.upd

theorem Warned.withPwr (h : Warned s t) {p : PwrSt} (hp : p.coldHold = t.pwr.coldHold) : Warned s { t with pwr := p } :=
  ⟨h.regs.regs rfl, h.hv, hp.trans h.coldHold⟩

theorem State.coldHold_recordWake (s : State) (first srcs : Nat) (st : PStep) :
    (s.recordWake first srcs st).pwr.coldHold = s.pwr.coldHold := by
  rw [State.recordWake, State.portWake_fields]; rfl

theorem Warned.recordWake (h : Warned s t) (first srcs : Nat) (st : PStep) : Warned s (t.recordWake first srcs st) := by
  have hsources : Warned s ((t.orBits AONCTL.WAKE_CAUSE_CAUSE srcs).set AONCTL.WAKE_CAUSE_FIRST first) :=
    (h.orCause srcs).set AONCTL.WAKE_CAUSE_FIRST first
  exact ((hsources.portWake srcs).set AONCTL.WAKE_CAUSE_FROM st.code).upd

theorem Warned.joinWake (h : Warned s t) (srcs : Nat) : Warned s (t.joinWake srcs) :=
  .ite h (((h.portWake srcs).orCause srcs).set AONCTL.WAKE_CAUSE_FIRST _)

theorem Warned.setStep (h : Warned s t) (st : PStep) : Warned s (t.setStep st) :=
  ((h.withPwr (p := { t.pwr with step := st, lateDock := t.pwr.lateDock && st != .run }) rfl).set AONCTL.STEP_STEP st.code).set
    AONCTL.STEP_DEEPEST _

/-- A wake source, in each state of the ladder (R198, R200, R201). -/
theorem Warned.wakeSrc (h : Warned s t) (srcs : Nat) : Warned s (t.wakeSrc srcs) := by
  have hcrk (c : Prop) [Decidable c] : Warned s (if c then t else t.set TOUCH.CRK_IRQ_STAT_WAKE 1) := .ite h (h.set _ 1)
  have hhold := State.coldHold_recordWake
  unfold State.wakeSrc
  extract_lets st en
  refine .ite h (.ite (.withPwr h rfl) (.ite ?aborts (.ite ?exits ?starts)))
  case aborts =>
    refine Warned.setStep ?_ .run
    exact .withPwr ((h.recordWake _ en .hover).set PWRCTL.STAT_ABORTED 1) rfl
  case exits => exact .ite ((hcrk _).joinWake _) (h.joinWake en)
  case starts =>
    split
    · exact h.upd
    · exact h
    · exact .ite (hcrk _) (.withPwr ((hcrk _).recordWake _ _ .diapause) (hhold _ _ _ _).symm)
    · exact .withPwr (Warned.recordWake (t := t.emit (.coreIrq en)) h.upd _ en .hover) (hhold (t.emit _) _ _ _).symm
    · exact .withPwr (h.recordWake _ en _) (hhold _ _ _ _).symm

theorem Warned.warn (h : Warned s t) (bat : Nat) : Warned s (t.warn bat) :=
  .ite (.ite h (((h.set HARVEST.STAT_LOW 1).set HARVEST.STAT_LOW_EV 1).wakeSrc _)) (.ite (h.set HARVEST.STAT_LOW 0) h)

/-- LEVELS with what a comparison has measured. -/
def State.showLevels (s : State) (bat vs : BitVec 12) : State :=
  (s.set HARVEST.LEVELS_BAT_MV bat.toNat).set HARVEST.LEVELS_VSTORE_MV vs.toNat

theorem State.get_showLevels_other {g : RF} (hbat : g.key ≠ HARVEST.LEVELS_BAT_MV.key) (hvs : g.key ≠ HARVEST.LEVELS_VSTORE_MV.key)
    (s : State) (bat vs : BitVec 12) : (s.showLevels bat vs).get g = s.get g := by
  rw [State.showLevels, State.get_set_other hvs, State.get_set_other hbat]

/-- The counts of low comparisons and of trips after a comparison. -/
def State.countLow (s : State) (low : Nat) : State :=
  { s with hv := { s.hv with low := min low 2, scRun := if s.cell = 0 then s.hv.scRun else 0 } }

/-- The cut-off opens the switch after `low` low comparisons in a row (R220). -/
def State.cutsOff (s : State) (low : Nat) : Bool :=
  decide (2 ≤ low) && (s.cell == 2 || s.cell == 1 && !s.on AONCTL.MODE_DOCKED && !s.pwr.coldHold)

section
variable (hstep : s.pwr.step ≠ .cold)
include hstep

theorem exec_batComparison (bat vs : BitVec 12) : exec (.batComparison bat vs) s =
    let w := (s.showLevels bat vs).warn bat.toNat
    let low := if bat.toNat ≤ 3000 then w.hv.low + 1 else 0
    let c := w.countLow low
    if (c.cutsOff low && !c.on AONCTL.MODE_DOCKED) = true then .next c.goCold
    else .next (((if c.cutsOff low = true then c.set HARVEST.STAT_CELL 0 else c).coldCell vs.toNat).chargeNow bat.toNat) := if_neg hstep

variable {bat : BitVec 12}

/-- Undocked, the second low comparison in a row opens the switch of an empty cell (R220). -/
theorem exec_batComparison_cutsOff (vs : BitVec 12) (hundocked : s.on AONCTL.MODE_DOCKED = false)
    (hcell : s.cell = 2 ∨ s.cell = 1 ∧ s.pwr.coldHold = false) (hempty : bat.toNat ≤ 3000) (hlow : 1 ≤ s.hv.low) :
    ∃ u : State, exec (.batComparison bat vs) s = .next u.goCold := by
  have hwarned : Warned (s.showLevels bat vs) ((s.showLevels bat vs).warn bat.toNat) := (Warned.refl _).warn _
  rw [exec_batComparison hstep]
  generalize (s.showLevels bat vs).warn bat.toNat = w at hwarned
  obtain ⟨hregs, hhv, hhold⟩ := hwarned
  have hcount : w.hv.low = s.hv.low := congrArg HvSt.low hhv
  have hdock : w.on AONCTL.MODE_DOCKED = false :=
    (State.on_congr ((hregs _ (by decide)).trans (State.get_showLevels_other (by decide) (by decide) s bat vs))).trans hundocked
  have hswitch : w.cell = 2 ∨ w.cell = 1 ∧ w.pwr.coldHold = false := by
    have hkept : w.cell = s.cell := (hregs _ (by decide)).trans (State.get_showLevels_other (by decide) (by decide) s bat vs)
    have hheld : w.pwr.coldHold = s.pwr.coldHold := hhold
    rw [hkept, hheld]; exact hcell
  have hcut : w.cutsOff (w.hv.low + 1) = true := by
    rw [State.cutsOff, hdock]
    rcases hswitch with h | ⟨h, hh⟩
    · simp [h]; omega
    · simp [h, hh]; omega
  refine ⟨w.countLow (w.hv.low + 1), ?_⟩
  dsimp only
  rw [if_pos hempty]
  exact if_pos (Bool.and_eq_true_iff.2 ⟨hcut, (congrArg not hdock :)⟩)

/-- A comparison between the warning and its release, and above the cut-off, ends the run of low ones; the rest is up to the
charger. -/
theorem exec_batComparison_charges (vs : BitVec 12) (hfull : 3000 < bat.toNat) (habove : s.warnMv < bat.toNat)
    (hbelow : bat.toNat < s.warnMv + 100) : exec (.batComparison bat vs) s = .next
      ((State.coldCell { s.showLevels bat vs with hv := { s.hv with low := 0, scRun := if s.cell = 0 then s.hv.scRun else 0 } }
        vs.toNat).chargeNow bat.toNat) := by
  have hwarn : (s.showLevels bat vs).warnMv = s.warnMv :=
    congrArg (3000 + 20 * ·) (State.get_showLevels_other (by decide) (by decide) s bat vs)
  have hcell : (s.showLevels bat vs).cell = s.cell := State.get_showLevels_other (by decide) (by decide) s bat vs
  have hsilent : (s.showLevels bat vs).warn bat.toNat = s.showLevels bat vs := by
    rw [State.warn, hwarn, if_neg (not_le.2 habove), if_neg (not_le.2 hbelow)]
  rw [exec_batComparison hstep, hsilent]
  dsimp only
  rw [if_neg (not_le.2 hfull), ← hcell]
  rfl

end

/-! ### The thermistor (R218) -/

/-- NTC as a measurement above the charging window leaves it. -/
def State.showHot (s : State) (r : Byte) : State :=
  ((s.set HARVEST.NTC_LAST r.toNat).setF HARVEST.STAT_NTC_OPEN false).setF HARVEST.STAT_TEMP_HOLD true

theorem State.get_showHot_charge (s : State) (r : Byte) : (s.showHot r).get HARVEST.STAT_CHARGE = s.get HARVEST.STAT_CHARGE := by
  rw [State.showHot, State.get_setF_other (by decide), State.get_setF_other (by decide), State.get_set_other (by decide)]

section
variable {r : Byte} (hstep : s.pwr.step ≠ .cold)
include hstep

theorem exec_ntcMeasure_off (hen : s.on HARVEST.NTC_NTC_EN = false) : exec (.ntcMeasure r) s = .next (s.set HARVEST.STAT_TEMP_HOLD 0) := by
  change execNtcMeasure r s = _
  rw [execNtcMeasure, if_neg hstep, hen]; rfl

/-- A thermistor that turns hot holds charging (R218). -/
theorem exec_ntcMeasure_hot (hen : s.on HARVEST.NTC_NTC_EN = true) (hhold : s.on HARVEST.STAT_TEMP_HOLD = false)
    (hhot : r.toNat < s.get HARVEST.NTC_T_HOT) (hclosed : r.toNat < 0xF8) :
    exec (.ntcMeasure r) s = .next (((s.showHot r).set HARVEST.STAT_TEMP_EV 1).set HARVEST.STAT_CHARGE
      (if s.get HARVEST.STAT_CHARGE = 3 then 3 else 0)) := by
  change execNtcMeasure r s = _
  rw [← s.get_showHot_charge r, execNtcMeasure, if_neg hstep, hen, hhold]
  dsimp only
  rw [decide_eq_true hhot, decide_eq_false (not_le.2 hclosed)]
  rfl

theorem ntcMeasure_hot (hen : s.on HARVEST.NTC_NTC_EN = true) (hhold : s.on HARVEST.STAT_TEMP_HOLD = false)
    (hhot : r.toNat < s.get HARVEST.NTC_T_HOT) (hclosed : r.toNat < 0xF8) : Yields (.ntcMeasure r) s fun t =>
      t.get HARVEST.STAT_TEMP_HOLD = 1 ∧ t.get HARVEST.STAT_TEMP_EV = 1 ∧
      t.get HARVEST.STAT_CHARGE = (if s.get HARVEST.STAT_CHARGE = 3 then 3 else 0) ∧ t.get HARVEST.NTC_LAST = r.toNat ∧
      t.get HARVEST.STAT_NTC_OPEN = 0 ∧
      OnlyRegs [HARVEST.NTC_LAST, HARVEST.STAT_NTC_OPEN, HARVEST.STAT_TEMP_HOLD, HARVEST.STAT_TEMP_EV, HARVEST.STAT_CHARGE] s t := by
  refine ⟨_, exec_ntcMeasure_hot hstep hen hhold hhot hclosed, ?_, ?_, ?_, ?_, ?_, ?_⟩
  · rw [State.get_set_other (by decide), State.get_set_other (by decide)]
    exact State.get_set_self _ _ 1
  · rw [State.get_set_other (by decide), State.get_set_self]; rfl
  · rw [State.get_set_self]; split <;> rfl
  · simp (disch := decide) only [State.showHot, State.get_set_other, State.get_setF_other, State.get_set_self]
    exact Nat.mod_eq_of_lt r.isLt
  · simp (disch := decide) only [State.showHot, State.get_set_other, State.get_setF_other]
    exact State.get_set_self _ _ 0
  · exact (((((OnlyRegs.refl _ s).set (by simp) _).setF (by simp) _).setF (by simp) _).set (by simp) _).set (by simp) _

end

/-! ### Trips of the cell switch (R221) -/

/-- The switch opens, and the trip is counted. -/
def State.trip (s : State) : State :=
  ((s.set HARVEST.STAT_CELL 0).set HARVEST.STAT_SC_EV 1).count HARVEST.SC_CNT_COUNT HARVEST.SC_CNT_OVF

/-- The registers that a trip shows in. -/
@[simp] def tripFields : List RF := [HARVEST.STAT_CELL, HARVEST.STAT_SC_EV, HARVEST.SC_CNT_COUNT, HARVEST.SC_CNT_OVF]

theorem State.trip_only (s : State) (h : tripFields ⊆ fs) : OnlyRegs fs s s.trip :=
  (((OnlyRegs.refl _ s).set (h (by simp)) 0).set (h (by simp)) 1).count (h (by simp)) (h (by simp))

/-- What the harvester remembers of a trip while Docked: the retry, the first two times in a row. -/
def State.noteTrip (s : State) (prev : Nat) : State :=
  { s with hv := { s.hv with scPrev := prev, scWait := decide (s.hv.scRun + 1 < 3), scRun := min (s.hv.scRun + 1) 3, scAt := s.tick } }

theorem State.trip_shown (s : State) : s.trip.cell = 0 ∧ s.trip.get HARVEST.STAT_SC_EV = 1 ∧
    s.trip.on AONCTL.MODE_DOCKED = s.on AONCTL.MODE_DOCKED ∧ s.trip.hv = s.hv := by
  have hkept := s.trip_only (List.Subset.refl _)
  refine ⟨?_, ?_, State.on_congr (hkept.1 _ (by decide)), by rw [hkept.2.2]⟩
  · rw [State.cell, State.trip, State.get_count_other (by decide) (by decide), State.get_set_other (by decide), State.get_set_self]; rfl
  · rw [State.trip, State.get_count_other (by decide) (by decide), State.get_set_self]; rfl

/-- The state after a trip while Docked: the third in a row latches. -/
def State.tripDocked (s : State) : State :=
  if 3 ≤ s.hv.scRun + 1 then (s.trip.noteTrip s.cell).set HARVEST.STAT_SC_LATCH 1 else s.trip.noteTrip s.cell

theorem State.get_noteTrip (s : State) (prev : Nat) (g : RF) : (s.noteTrip prev).get g = s.get g := rfl

theorem State.noteTrip_shown (s : State) (prev : Nat) : (s.noteTrip prev).hv.scPrev = prev ∧
    (s.noteTrip prev).hv.scWait = decide (s.hv.scRun + 1 < 3) := ⟨rfl, rfl⟩

section
variable (hcell : s.cell ≠ 0) (hstep : s.pwr.step ≠ .cold)
include hcell hstep

theorem exec_cellShortCircuit : exec .cellShortCircuit s =
    if (!s.on AONCTL.MODE_DOCKED) = true then .next s.trip.goCold else .next s.tripDocked := by
  obtain ⟨_, _, hdocked, hhv⟩ := s.trip_shown
  rw [State.tripDocked, ← hdocked, ← hhv]
  exact if_neg (not_or.2 ⟨hcell, hstep⟩)

theorem cellShortCircuit_docked (hdocked : s.on AONCTL.MODE_DOCKED = true) : Yields .cellShortCircuit s fun t =>
    t.cell = 0 ∧ t.get HARVEST.STAT_SC_EV = 1 ∧ t.hv.scPrev = s.cell ∧ (2 ≤ s.hv.scRun → t.get HARVEST.STAT_SC_LATCH = 1) ∧
    (s.hv.scRun < 2 → t.hv.scWait = true) ∧
    OnlyRegs [HARVEST.STAT_CELL, HARVEST.STAT_SC_EV, HARVEST.SC_CNT_COUNT, HARVEST.SC_CNT_OVF, HARVEST.STAT_SC_LATCH]
      { s with hv := t.hv } t := by
  obtain ⟨hopen, hev, _, hhv⟩ := s.trip_shown
  have honly := s.trip_only (fs := tripFields ++ [HARVEST.STAT_SC_LATCH]) (List.subset_append_left _ _)
  refine ⟨s.tripDocked, by rw [exec_cellShortCircuit hcell hstep, hdocked]; rfl, ?_⟩
  unfold State.tripDocked
  split
  case isTrue hthird =>
    exact ⟨(State.get_set_other (by decide) _ _).trans hopen, (State.get_set_other (by decide) _ _).trans hev, rfl,
      fun _ => State.get_set_self _ _ 1, fun hfew => by omega, .withHv (honly.set (f := HARVEST.STAT_SC_LATCH) (by simp) 1) _⟩
  case isFalse hfirst =>
    obtain ⟨hprev, hwait⟩ := s.trip.noteTrip_shown s.cell
    refine ⟨(State.get_noteTrip _ _ _).trans hopen, (State.get_noteTrip _ _ _).trans hev, hprev, fun hmany => by omega,
      fun hfew => ?_, .withHv honly _⟩
    rw [hwait, hhv]
    exact decide_eq_true (by omega)

theorem cellShortCircuit_undocked (hundocked : s.on AONCTL.MODE_DOCKED = false) :
    Yields .cellShortCircuit s fun t => t.pwr.step = .cold ∧ t.cell = 0 := by
  obtain ⟨hcold, hopen, _⟩ := s.trip.goCold_shown
  exact ⟨s.trip.goCold, by rw [exec_cellShortCircuit hcell hstep, hundocked]; rfl, hcold, hopen⟩

end

theorem exec_scRecovery_due (hwait : s.hv.scWait = true) (hdocked : s.on AONCTL.MODE_DOCKED = true)
    (hlatch : s.on HARVEST.STAT_SC_LATCH = false) (hdue : s.hv.scAt + 250000000 ≤ s.tick) :
    exec .scRecovery s = .next { s.set HARVEST.STAT_CELL s.hv.scPrev with hv := { s.hv with scWait := false } } := by
  change execScRecovery s = _
  rw [execScRecovery, hwait, hdocked, hlatch, decide_eq_true hdue]
  rfl

/-! ### The cold start (R222, R223) -/

theorem coldStartResetRelease_shown (hstage : s.hv.stage = .boost) : Yields .coldStartResetRelease s fun t =>
    t.pwr.step = .pupa ∧ t.pwr.coldHold = true ∧ t.get HARVEST.STAT_COLD_START = 1 ∧ t.cell = 0 ∧ t.get AONCTL.STEP_STEP = 5 ∧
    t.hv.stage = .released ∧ t.on AONCTL.MODE_DOCKED = false ∧ t.get HARVEST.VOC_VOC_MV = s.get HARVEST.VOC_VOC_MV % 2 ^ 12 ∧
    t.boot.released = false := by
  refine ⟨_, if_neg (not_not.2 hstage), rfl, rfl, ?_, ?_, State.get_set_self _ _ 5, rfl, ?_, ?_, rfl⟩
  · rw [State.get_fields, State.get_set_other (by decide), State.get_set_other (by decide), State.get_set_self]; rfl
  · rw [State.cell, State.get_fields, State.get_set_other (by decide), State.get_set_self]; rfl
  · refine (State.on_congr ?_).trans (s.on_coldReset_docked false)
    simp (disch := decide) only [State.keepVoc, State.get_fields, State.get_set_other]
  · simp (disch := decide) only [State.keepVoc, State.get_fields, State.get_set_other, State.get_set_self]
    rfl

theorem coldStartPorReassert_shown (hstage : s.hv.stage = .released) (hhold : s.pwr.coldHold = true) :
    Yields .coldStartPorReassert s fun t => t.pwr.step = .cold ∧ t.hv.stage = .boost ∧ t.cell = 0 := by
  obtain ⟨_, hopen, _⟩ := s.goCold_shown
  refine ⟨_, if_pos ⟨hstage, hhold⟩, rfl, rfl, ?_⟩
  rw [State.cell] at hopen ⊢
  simp (disch := decide) only [State.keepVoc, State.get_fields, State.get_set_other]
  exact hopen

/-- The main domain starts, in Run and with reset code 1 (R223, R329). -/
theorem State.coldMain_shown (s : State) : s.coldMain.cell = s.cell ∧ s.coldMain.pwr.coldHold = false ∧ s.coldMain.pwr.step = .run ∧
    s.coldMain.boot.code = 1 ∧ s.coldMain.hv.stage = .none := by
  refine ⟨?_, rfl, rfl, rfl, rfl⟩
  rw [State.cell, State.coldMain, State.showMode, State.get_setF_other (by decide), State.get_setF_other (by decide), State.startMain,
    State.get_fields, State.get_set_other (by decide), State.get_fields, State.cell]

theorem exec_cellConnect (hcell : s.cell = 1) : exec .cellConnect s =
    .next (if s.pwr.coldHold = true then (s.set HARVEST.STAT_CELL 2).coldMain else s.set HARVEST.STAT_CELL 2) :=
  if_neg (not_not.2 hcell)

theorem cellConnect_starts (hcell : s.cell = 1) (hhold : s.pwr.coldHold = true) : Yields .cellConnect s fun t =>
    t.cell = 2 ∧ t.pwr.coldHold = false ∧ t.pwr.step = .run ∧ t.boot.code = 1 ∧ t.hv.stage = .none := by
  obtain ⟨hclosed, hrest⟩ := (s.set HARVEST.STAT_CELL 2).coldMain_shown
  exact ⟨_, by rw [exec_cellConnect hcell, if_pos hhold], hclosed.trans (State.get_set_self _ _ 2), hrest⟩

end

/-- Settles O32: each command by what it answers; a cut-off and a trip while undocked by the one way in which the device goes cold,
and what going through a cold reset leaves of code flash by what cutting off the record store's command can write to. -/
theorem harvestingChargingAndColdStart : Obligations.HarvestingChargingAndColdStart := by
  refine ⟨fun s => exec_vocSampleStart_due, fun v s => vocSampleEnd_shown v,
    fun s hup => ⟨exec_harvestSampleCmd_ignored hup, exec_harvestSampleCmd_starts hup⟩, fun v s => exec_fracWrite_reached,
    fun bat vs s hstep => ⟨fun hundocked hcell hempty hlow _ => ?cutOff, exec_batComparison_charges hstep vs⟩,
    fun r s hstep => ⟨exec_ntcMeasure_off hstep, ntcMeasure_hot hstep⟩,
    fun s hcell hstep => ⟨cellShortCircuit_docked hcell hstep, cellShortCircuit_undocked hcell hstep⟩,
    fun s => exec_scRecovery_due, fun s hstep hstage => if_pos ⟨hstep, hstage⟩,
    fun s hstage => ⟨if_pos hstage, coldStartResetRelease_shown hstage⟩, fun s => coldStartPorReassert_shown,
    fun s hcell => ⟨fun hfree => ?connect, cellConnect_starts hcell⟩, fun docked s hflash _ hdl hlc => ?coldReset⟩
  case cutOff =>
    obtain ⟨u, hexec⟩ := exec_batComparison_cutsOff hstep vs hundocked hcell hempty hlow
    exact ⟨_, hexec, u.goCold_shown⟩
  case connect => rw [exec_cellConnect hcell, if_neg (by simp [hfree])]
  case coldReset =>
    obtain ⟨hbytes, hsc, hpending⟩ := CutAside.coldReset hflash hdl hlc
    refine ⟨fun a hlo hhi => (State.byte_coldReset_codeFlash hlo hhi s docked).trans (hbytes a hlo hhi),
      s.on_coldReset_docked docked, hpending, ?_, rfl⟩
    rw [← hsc]; rfl

end Sys2Proof.Machine
